-- ==== Sys2Proof/Word.lean ====
section
/-! DEFINITION. The word types of the EVN-9120 (R7: word 32, doubleword 64, row 2,048 bits). -/

namespace Sys2Proof

/-- A byte of memory. -/
abbrev Byte := BitVec 8
/-- A word, 32 bits (R7). -/
abbrev W32 := BitVec 32
/-- A doubleword, 64 bits (R7). -/
abbrev W64 := BitVec 64
/-- A row of a tile register, 2,048 bits (R7). -/
abbrev Row := BitVec 2048

/-- The bits `hi` down to `lo` of a number (R6). -/
def bits (w hi lo : Nat) : Nat := w / 2 ^ lo % 2 ^ (hi + 1 - lo)

end Sys2Proof
end

