-- ==== Sys2Proof/Config.lean ====
section
/-! DEFINITION. What the spec leaves open: the values that nothing in the model fixes. Each is opaque, so
that a claim about the model holds whatever it is. -/

namespace Sys2Proof.Config

/-- The move a step takes when several agents could move: the network keeps no order between packets (R53),
agents run concurrently (R186, R189), and R9 leaves "may" acts to the device. Taken modulo the number of
moves. Log entry 2. -/
opaque choose : Nat → Nat

/-- The clock-stretch step count that the power controller applies while the mean exceeds the cap (R20 gives
the stretch and not its amount). Log entry 10. -/
opaque powerStretch : Nat → Nat

/-- Whether a `may` act of the device is done at this moment (R9), such as the fetch of a line ahead of its
issue (R194, R296). Log entry 2. -/
opaque may : Nat → Bool

/-- The chunk to which an element of a ring reduction belongs, by the member count, COUNT and the element: R67 fixes the
order within a chunk and not where the chunks begin. Taken modulo the member count. Log entry 21. -/
opaque chunk : Nat → Nat → Nat → Nat

/-- What the pending-bit array of a function reads as: R101 and R112 place it and give no rule for its bits. Log entry 22. -/
opaque pending : Nat → Nat

/-- What stands for byte i of the contribution of a rank that a ring or tree block lost, where R72 lets the receive
buffer hold a combined value; by the counter, the rank and i. Log entry 102. -/
opaque lost : Nat → Nat → Nat → Nat

/-- The line tag that a collective's line takes which another chip or an eft core sent, outside a reduction: R69 keeps the source's,
and the head's TAG holds the signature (R64). By the model's counter. Log entry 115. -/
opaque farTag : Nat → Nat

/-- Whether the network marks a request that an engine makes within one move (R54): by the model's counter, the window and the
request's number. Log entry 112. -/
opaque marked : Nat → Nat → Nat → Bool

/-- Whether a line of a retiring tile's scratchpad cannot be read, by the model's counter and the line: R239 names such lines and
does not say which they are. Log entry 113. -/
opaque lineLost : Nat → Nat → Bool

end Sys2Proof.Config
end

