-- ==== Sys2Proof/Machine/Crypto.lean ====
section
/-! DEFINITION. The primitives that R118 and R27 name: SHA-384 (FIPS 180-4), AES-256 (FIPS 197), CMAC (SP 800-38B) and
GCM (SP 800-38D). Bytes are natural numbers below 256, first byte first. -/

namespace Sys2Proof.Machine

/-- The round constants of SHA-384. -/
def shaK : List Nat :=
  [0x428A2F98D728AE22, 0x7137449123EF65CD, 0xB5C0FBCFEC4D3B2F, 0xE9B5DBA58189DBBC]
  ++ [0x3956C25BF348B538, 0x59F111F1B605D019, 0x923F82A4AF194F9B, 0xAB1C5ED5DA6D8118]
  ++ [0xD807AA98A3030242, 0x12835B0145706FBE, 0x243185BE4EE4B28C, 0x550C7DC3D5FFB4E2]
  ++ [0x72BE5D74F27B896F, 0x80DEB1FE3B1696B1, 0x9BDC06A725C71235, 0xC19BF174CF692694]
  ++ [0xE49B69C19EF14AD2, 0xEFBE4786384F25E3, 0x0FC19DC68B8CD5B5, 0x240CA1CC77AC9C65]
  ++ [0x2DE92C6F592B0275, 0x4A7484AA6EA6E483, 0x5CB0A9DCBD41FBD4, 0x76F988DA831153B5]
  ++ [0x983E5152EE66DFAB, 0xA831C66D2DB43210, 0xB00327C898FB213F, 0xBF597FC7BEEF0EE4]
  ++ [0xC6E00BF33DA88FC2, 0xD5A79147930AA725, 0x06CA6351E003826F, 0x142929670A0E6E70]
  ++ [0x27B70A8546D22FFC, 0x2E1B21385C26C926, 0x4D2C6DFC5AC42AED, 0x53380D139D95B3DF]
  ++ [0x650A73548BAF63DE, 0x766A0ABB3C77B2A8, 0x81C2C92E47EDAEE6, 0x92722C851482353B]
  ++ [0xA2BFE8A14CF10364, 0xA81A664BBC423001, 0xC24B8B70D0F89791, 0xC76C51A30654BE30]
  ++ [0xD192E819D6EF5218, 0xD69906245565A910, 0xF40E35855771202A, 0x106AA07032BBD1B8]
  ++ [0x19A4C116B8D2D0C8, 0x1E376C085141AB53, 0x2748774CDF8EEB99, 0x34B0BCB5E19B48A8]
  ++ [0x391C0CB3C5C95A63, 0x4ED8AA4AE3418ACB, 0x5B9CCA4F7763E373, 0x682E6FF3D6B2B8A3]
  ++ [0x748F82EE5DEFB2FC, 0x78A5636F43172F60, 0x84C87814A1F0AB72, 0x8CC702081A6439EC]
  ++ [0x90BEFFFA23631E28, 0xA4506CEBDE82BDE9, 0xBEF9A3F7B2C67915, 0xC67178F2E372532B]
  ++ [0xCA273ECEEA26619C, 0xD186B8C721C0C207, 0xEADA7DD6CDE0EB1E, 0xF57D4F7FEE6ED178]
  ++ [0x06F067AA72176FBA, 0x0A637DC5A2C898A6, 0x113F9804BEF90DAE, 0x1B710B35131C471B]
  ++ [0x28DB77F523047D84, 0x32CAAB7B40C72493, 0x3C9EBE0A15C9BEBC, 0x431D67C49C100D4C]
  ++ [0x4CC5D4BECB3E42B6, 0x597F299CFC657E2A, 0x5FCB6FAB3AD6FAEC, 0x6C44198C4A475817]

/-- The initial hash of SHA-384. -/
def shaH : List Nat :=
  [0xCBBB9D5DC1059ED8, 0x629A292A367CD507, 0x9159015A3070DD17, 0x152FECD8F70E5939]
  ++ [0x67332667FFC00B31, 0x8EB44A8768581511, 0xDB0C2E0D64F98FA7, 0x47B5481DBEFA4FA4]

/-- Rotation right of a doubleword. -/
def ror64 (v n : Nat) : Nat := v / 2 ^ n + v % 2 ^ n * 2 ^ (64 - n)

/-- Bytes to a big-endian number. -/
def beNat (l : List Nat) : Nat := l.foldl (fun a b => a * 256 + b) 0

/-- A number as n big-endian bytes. -/
def beBytes (n v : Nat) : List Nat := (List.range n).map fun i => v / 256 ^ (n - 1 - i) % 256

/-- A number as n little-endian bytes. -/
def leBytes (n v : Nat) : List Nat := (List.range n).map fun i => v / 256 ^ i % 256

/-- Little-endian bytes to a number. -/
def leNat : List Nat → Nat
  | [] => 0
  | b :: t => b + 256 * leNat t

/-- The message schedule, newest first. -/
def shaSched : Nat → List Nat → List Nat
  | 0, w => w
  | k + 1, w =>
    let a := w.getD 1 0
    let b := w.getD 14 0
    let s1 := ror64 a 19 ^^^ ror64 a 61 ^^^ (a / 2 ^ 6)
    let s0 := ror64 b 1 ^^^ ror64 b 8 ^^^ (b / 2 ^ 7)
    shaSched k (((s1 + w.getD 6 0 + s0 + w.getD 15 0) % 2 ^ 64) :: w)

/-- One round. -/
def shaRound (h : List Nat) (kw : Nat) : List Nat :=
  let g := fun i => h.getD i 0
  let s1 := ror64 (g 4) 14 ^^^ ror64 (g 4) 18 ^^^ ror64 (g 4) 41
  let ch := (g 4 &&& g 5) ^^^ ((2 ^ 64 - 1 - g 4) &&& g 6)
  let t1 := g 7 + s1 + ch + kw
  let s0 := ror64 (g 0) 28 ^^^ ror64 (g 0) 34 ^^^ ror64 (g 0) 39
  let mj := (g 0 &&& g 1) ^^^ (g 0 &&& g 2) ^^^ (g 1 &&& g 2)
  [(t1 + s0 + mj) % 2 ^ 64, g 0, g 1, g 2, (g 3 + t1) % 2 ^ 64, g 4, g 5, g 6]

/-- One block of 128 bytes. -/
def shaBlock (h : List Nat) (b : List Nat) : List Nat :=
  let w0 := (List.range 16).map fun i => beNat ((b.drop (8 * i)).take 8)
  let w := (shaSched 64 w0.reverse).reverse
  let r := (List.zipWith (· + ·) shaK w).foldl shaRound h
  List.zipWith (fun x y => (x + y) % 2 ^ 64) h r

/-- The blocks of a padded message. -/
def shaBlocks : Nat → List Nat → List Nat → List Nat
  | 0, h, _ => h
  | k + 1, h, m => shaBlocks k (shaBlock h (m.take 128)) (m.drop 128)

/-- SHA-384 of a message: 48 bytes. -/
def sha384 (m : List Nat) : List Nat :=
  let n := m.length
  let z := (128 - (n + 17) % 128) % 128
  let p := m ++ [0x80] ++ List.replicate z 0 ++ beBytes 16 (8 * n)
  (((shaBlocks (p.length / 128) shaH p).map (beBytes 8)).flatten).take 48

/-- Doubling in the field of AES. -/
def aesDbl (a : Nat) : Nat := if a < 128 then 2 * a else (2 * a - 256) ^^^ 0x1B

/-- Product in the field of AES, by bits of the second factor. -/
def aesMulBits : Nat → Nat → Nat → Nat
  | 0, _, _ => 0
  | k + 1, a, b => (if b % 2 = 1 then a else 0) ^^^ aesMulBits k (aesDbl a) (b / 2)

/-- Product in the field of AES. -/
def aesMul (a b : Nat) : Nat := aesMulBits 8 a b

/-- The S-box: the inverse, the 254th power, and the affine map. -/
def aesSub (a : Nat) : Nat :=
  let a2 := aesMul a a
  let a4 := aesMul a2 a2
  let a8 := aesMul a4 a4
  let a16 := aesMul a8 a8
  let a32 := aesMul a16 a16
  let a64 := aesMul a32 a32
  let a128 := aesMul a64 a64
  let v := aesMul (aesMul (aesMul a2 a4) (aesMul a8 a16)) (aesMul (aesMul a32 a64) a128)
  let r := fun k => v * 2 ^ k % 256 + v / 2 ^ (8 - k)
  v ^^^ r 1 ^^^ r 2 ^^^ r 3 ^^^ r 4 ^^^ 0x63

/-- The S-box as a table. -/
def aesBox : List Nat := (List.range 256).map aesSub

/-- The key schedule of AES-256: words of four bytes, newest first. -/
def aesExpand (box : List Nat) : Nat → Nat → Nat → List (List Nat) → List (List Nat)
  | 0, _, _, w => w
  | k + 1, i, rc, w =>
    let t := w.headD []
    let t' := if i % 8 = 0 then
        (let r := (t.drop 1 ++ t.take 1).map fun b => box.getD b 0
         (r.headD 0 ^^^ rc) :: r.drop 1)
      else if i % 8 = 4 then t.map fun b => box.getD b 0 else t
    aesExpand box k (i + 1) (if i % 8 = 0 then aesDbl rc else rc) (List.zipWith (· ^^^ ·) (w.getD 7 []) t' :: w)

/-- The fifteen round keys of a 32-byte key. -/
def aesKeys (box : List Nat) (key : List Nat) : List (List Nat) :=
  let w0 := ((List.range 8).map fun i => (key.drop (4 * i)).take 4).reverse
  let w := (aesExpand box 52 8 1 w0).reverse
  (List.range 15).map fun r => ((w.drop (4 * r)).take 4).flatten

/-- SubBytes and ShiftRows. -/
def aesSubShift (box s : List Nat) : List Nat :=
  (List.range 16).map fun i => box.getD (s.getD ((i + 4 * (i % 4)) % 16) 0) 0

/-- MixColumns. -/
def aesMix (s : List Nat) : List Nat :=
  (List.range 16).map fun i =>
    let c := i / 4 * 4
    let g := fun k => s.getD (c + (i + k) % 4) 0
    aesDbl (g 0) ^^^ (aesDbl (g 1) ^^^ g 1) ^^^ g 2 ^^^ g 3

/-- AES-256 of one block under round keys. -/
def aesBlock (box : List Nat) (ks : List (List Nat)) (b : List Nat) : List Nat :=
  let s := List.zipWith (· ^^^ ·) b (ks.headD [])
  let s := ((ks.drop 1).take 13).foldl (fun s k => List.zipWith (· ^^^ ·) (aesMix (aesSubShift box s)) k) s
  List.zipWith (· ^^^ ·) (aesSubShift box s) (ks.getD 14 [])

/-- Doubling of a 128-bit big-endian number for CMAC. -/
def cmacDbl (v : Nat) : Nat := if v < 2 ^ 127 then 2 * v else (2 * v - 2 ^ 128) ^^^ 0x87

/-- The chain of CMAC over whole blocks. -/
def cmacChain (enc : List Nat → List Nat) : Nat → List Nat → List Nat → List Nat
  | 0, x, _ => x
  | k + 1, x, m => cmacChain enc k (enc (List.zipWith (· ^^^ ·) x (m.take 16))) (m.drop 16)

/-- AES-256-CMAC of a message: 16 bytes. -/
def aesCmac (key m : List Nat) : List Nat :=
  let box := aesBox
  let enc := aesBlock box (aesKeys box key)
  let l := beNat (enc (List.replicate 16 0))
  let k1 := cmacDbl l
  let k2 := cmacDbl k1
  let n := (m.length + 15) / 16
  let n := if n = 0 then 1 else n
  let tail := m.drop (16 * (n - 1))
  let last := if tail.length = 16 then List.zipWith (· ^^^ ·) tail (beBytes 16 k1)
    else List.zipWith (· ^^^ ·) (tail ++ [0x80] ++ List.replicate (15 - tail.length) 0) (beBytes 16 k2)
  let x := cmacChain enc (n - 1) (List.replicate 16 0) m
  enc (List.zipWith (· ^^^ ·) x last)

/-- Product in the field of GCM, bit 0 the most significant: fuel, x, v, z. -/
def ghashMul : Nat → Nat → Nat → Nat → Nat
  | 0, _, _, z => z
  | k + 1, x, v, z => ghashMul k x (if v % 2 = 1 then v / 2 ^^^ (0xE1 * 2 ^ 120) else v / 2)
      (if x.testBit k then z ^^^ v else z)

/-- GHASH over blocks of 16 bytes. -/
def ghash (h : Nat) : Nat → Nat → List Nat → Nat
  | 0, y, _ => y
  | k + 1, y, m => ghash h k (ghashMul 128 (y ^^^ beNat (m.take 16 ++ List.replicate (16 - (m.take 16).length) 0)) h 0) (m.drop 16)

/-- The counter stream of GCM over n blocks. -/
def gcmStream (enc : List Nat → List Nat) (iv : List Nat) (n : Nat) : List Nat :=
  ((List.range n).map fun i => enc (iv ++ beBytes 4 (i + 2))).flatten

/-- AES-256-GCM with a 12-byte nonce: the body turned by the counter stream. -/
def gcmCrypt (key iv body : List Nat) : List Nat :=
  let box := aesBox
  List.zipWith (· ^^^ ·) body (gcmStream (aesBlock box (aesKeys box key)) iv ((body.length + 15) / 16))

/-- The tag of a ciphertext and its additional data. -/
def gcmTag (key iv aad ct : List Nat) : List Nat :=
  let box := aesBox
  let enc := aesBlock box (aesKeys box key)
  let h := beNat (enc (List.replicate 16 0))
  let y := ghash h ((aad.length + 15) / 16) 0 aad
  let y := ghash h ((ct.length + 15) / 16) y ct
  let y := ghash h 1 y (beBytes 8 (8 * aad.length) ++ beBytes 8 (8 * ct.length))
  List.zipWith (· ^^^ ·) (beBytes 16 y) (enc (iv ++ [0, 0, 0, 1]))

end Sys2Proof.Machine
end

