-- ==== Sys2Proof/Syntax.lean ====
section
/-! DEFINITION. The instruction set and the device's events: one constructor for each row of
spec/opcode_table.json. An event row is an act of the device or of the world outside it; its operands are the
unit it acts on and what arrives. -/

namespace Sys2Proof

/-- The predicate field PS (R212): 31 always; N when sgN's condition is 1; 16 + N when it is 0. -/
inductive Pred where
  | always
  | isTrue (n : Nat)
  | isFalse (n : Nat)
  deriving DecidableEq, Repr

/-- An immediate or offset: in its field of the slot word, or in the extension word (R269). Both are raw bits. The extended
offset of an SCL load is 45 bits: the slot word's [12:0] under the extension word's 32. -/
inductive Imm where
  | short (raw : Nat)
  | ext (raw : Nat)
  deriving DecidableEq, Repr

/-- The fields of a VEC slot word below OP (R267), and its extension word. -/
structure VecF where
  fmt : Nat
  fe : Nat
  ru : Nat
  d : Nat
  a : Nat
  b : Nat
  c : Nat
  ext : Option Nat
  deriving DecidableEq, Repr

/-- The fields of an MTX slot word below OP (R267), and its extension word. -/
structure MtxF where
  fa : Nat
  fb : Nat
  att : Nat
  ord : Nat
  cja : Nat
  cjb : Nat
  acc : Nat
  sat : Nat
  tc : Nat
  ta : Nat
  tb : Nat
  a0 : Nat
  b0 : Nat
  cnt : Nat
  grd : Nat
  ext : Option Nat
  deriving DecidableEq, Repr

/-- The fields of a MEM slot word below OP (R267), and its extension word. -/
structure MemF where
  fe : Nat
  ord : Nat
  scope : Nat
  base : Nat
  data : Nat
  size : Nat
  pi : Nat
  off : Nat
  ext : Option Nat
  deriving DecidableEq, Repr

/-- What a release at package or system scope leaves: its agent's source number, and the vector that it carries (R187, R192). -/
structure Stamp where
  src : Nat
  vec : List Nat
  deriving DecidableEq, Repr

/-- A network packet (R47): the fields of its head flit, its payload bytes in address order as one
little-endian number, and what the requester and the home keep of the request. The handle and the access
attributes stand for the requester's own bookkeeping, to which the spec gives no field. -/
structure Pkt where
  turns : Nat := 0
  tlen : Nat := 0
  mark : Bool := false
  echo : Bool := false
  cls : Nat := 0
  hop : Nat := 0
  ddie : Nat := 0
  dep : Nat := 0
  part : Nat := 0
  src : Nat := 0
  dchip : Nat := 0
  flow : Nat := 0
  len : Nat := 0
  va : Nat := 0
  tag : Nat := 0
  opc : Nat := 0
  reason : Nat := 0
  payload : Nat := 0
  /-- The requester's handle of the request. -/
  rid : Nat := 0
  /-- The requester's context key, tile × 2 + slot. -/
  who : Nat := 0
  /-- Bytes asked for by a read or bank operation. -/
  want : Nat := 0
  /-- Bank operation: 0 add, 1 fadd, 2 min, 3 max, 4 or, 5 and, 6 swap (R331). -/
  bop : Nat := 0
  acq : Bool := false
  rel : Bool := false
  /-- A whole aligned row with its line tag (R223). -/
  row : Bool := false
  /-- Cause of a fault reply (R134); 0 for none. -/
  cause : Nat := 0
  /-- Walk level of a fault reply (R135). -/
  level : Nat := 255
  /-- The chip of the requester, where a request comes over Jalcy-X (log entry 19). -/
  schip : Nat := 0
  /-- The epoch, and for a release the vector, that a write carries; a reply carries what releases left at the location (R192). -/
  epoch : Nat := 0
  vec : List Stamp := []
  /-- The way round the ring that the packet took: 0 none yet, 1 toward d + 1, 2 toward d + 3 (R51). -/
  way : Nat := 0
  /-- Of a collective's packet of this chip, which holds in `who` the rank it is for, plus 1: the tag of the whole source line that is
  its payload, 0 where it is none, which the head's TAG does not carry; none of another chip's packet (R69, log entry 115). -/
  ltag : Option Nat := none
  /-- The number of a request among those of its requester, and of the request that a reply answers (R55). -/
  q : Nat := 0
  deriving DecidableEq, Repr

/-- A flit of a Jalcy link (R27): header, 104 bytes of body, and the 16-byte tag, each as a little-endian
number. -/
structure Flit where
  hdr : Nat
  body : Nat
  tag : Nat
  deriving DecidableEq, Repr

/-- A launch record (R105), with the queue it was taken from. -/
structure LRec where
  /-- CQ number: VF × 4 + queue. -/
  queue : Nat
  /-- CQ_HEAD of the record. -/
  head : Nat
  /-- The 128 bytes as a little-endian number. -/
  raw : Nat
  deriving DecidableEq, Repr

/-- A value that an agent of a die writes. -/
structure ByDie where
  val : Nat
  die : Nat
  deriving DecidableEq, Repr

/-- The function a host request is addressed to. -/
inductive Fn where
  | pf (p : Nat)
  | vf (v : Nat)
  deriving DecidableEq, Repr

/-- A request of the host at a BAR (R112): a read, or a write of `data`. -/
structure HostReq where
  fn : Fn
  bar : Nat
  off : Nat
  size : Nat
  data : Option Nat
  /-- Bound to a Secure selective IDE stream (R25). -/
  secure : Bool
  deriving DecidableEq, Repr

/-- One row of spec/opcode_table.json per constructor: the instructions in the table's order, then the events. -/
inductive Instr where
  | nop (bk : Nat) (dp : Nat) (lv : Nat) -- NOP (R266)
  | prep (p : Pred) (n : Nat) (o : Imm) -- PREP (R296)
  | prepi (p : Pred) (n : Nat) (m : Nat) -- PREPI (R296)
  | jmp (p : Pred) (n : Nat) -- JMP (R297)
  | br (p : Pred) (n : Nat) -- BR (R297)
  | brn (p : Pred) (n : Nat) -- BRN (R297)
  | call (p : Pred) (n : Nat) -- CALL (R299)
  | ret (p : Pred) -- RET (R299)
  | loop (p : Pred) (l : Nat) (c : Nat) (o : Imm) -- LOOP (R300)
  | lstep (p : Pred) (l : Nat) (b : Nat) (r : Nat) (st : Imm) -- LSTEP (R302)
  | lbrk (p : Pred) (l : Nat) -- LBRK (R303)
  | rot (p : Pred) (n : Nat) -- ROT (R305)
  | ldep (p : Pred) (n : Nat) -- LDEP (R305)
  | syncN (p : Pred) (g : Nat) -- SYNC_N (R307)
  | syncX (p : Pred) (g : Nat) -- SYNC_X (R307)
  | waitfeRow (p : Pred) (r : Nat) -- WAITFE_ROW (R307)
  | waitfeFlag (p : Pred) (r : Nat) -- WAITFE_FLAG (R308)
  | susp (p : Pred) -- SUSP (R307)
  | yield (p : Pred) -- YIELD (R307)
  | exit (p : Pred) -- EXIT (R307)
  | trap (p : Pred) (c : Nat) -- TRAP (R310)
  | ifence (p : Pred) -- IFENCE (R311)
  | eret (p : Pred) -- ERET (R312)
  | halt (p : Pred) -- HALT (R293)
  | add (p : Pred) (d : Nat) (a : Nat) (b : Nat) -- ADD (R314)
  | sub (p : Pred) (d : Nat) (a : Nat) (b : Nat) -- SUB (R314)
  | and (p : Pred) (d : Nat) (a : Nat) (b : Nat) -- AND (R314)
  | or (p : Pred) (d : Nat) (a : Nat) (b : Nat) -- OR (R314)
  | xor (p : Pred) (d : Nat) (a : Nat) (b : Nat) -- XOR (R314)
  | andn (p : Pred) (d : Nat) (a : Nat) (b : Nat) -- ANDN (R314)
  | shl (p : Pred) (d : Nat) (a : Nat) (b : Nat) -- SHL (R314)
  | shr (p : Pred) (d : Nat) (a : Nat) (b : Nat) -- SHR (R314)
  | sra (p : Pred) (d : Nat) (a : Nat) (b : Nat) -- SRA (R314)
  | rotl (p : Pred) (d : Nat) (a : Nat) (b : Nat) -- ROTL (R314)
  | min (p : Pred) (d : Nat) (a : Nat) (b : Nat) -- MIN (R314)
  | max (p : Pred) (d : Nat) (a : Nat) (b : Nat) -- MAX (R314)
  | minu (p : Pred) (d : Nat) (a : Nat) (b : Nat) -- MINU (R314)
  | maxu (p : Pred) (d : Nat) (a : Nat) (b : Nat) -- MAXU (R314)
  | mul (p : Pred) (d : Nat) (a : Nat) (b : Nat) -- MUL (R315)
  | mulhs (p : Pred) (d : Nat) (a : Nat) (b : Nat) -- MULHS (R315)
  | mulhz (p : Pred) (d : Nat) (a : Nat) (b : Nat) -- MULHZ (R315)
  | div (p : Pred) (d : Nat) (a : Nat) (b : Nat) -- DIV (R315)
  | divu (p : Pred) (d : Nat) (a : Nat) (b : Nat) -- DIVU (R315)
  | rem (p : Pred) (d : Nat) (a : Nat) (b : Nat) -- REM (R315)
  | remu (p : Pred) (d : Nat) (a : Nat) (b : Nat) -- REMU (R315)
  | addi (p : Pred) (d : Nat) (a : Nat) (i : Imm) -- ADDI (R316)
  | clz (p : Pred) (d : Nat) (a : Nat) -- CLZ (R314)
  | ctz (p : Pred) (d : Nat) (a : Nat) -- CTZ (R314)
  | popc (p : Pred) (d : Nat) (a : Nat) -- POPC (R314)
  | sextB (p : Pred) (d : Nat) (a : Nat) -- SEXT_B (R314)
  | sextH (p : Pred) (d : Nat) (a : Nat) -- SEXT_H (R314)
  | sextW (p : Pred) (d : Nat) (a : Nat) -- SEXT_W (R314)
  | zextB (p : Pred) (d : Nat) (a : Nat) -- ZEXT_B (R314)
  | zextH (p : Pred) (d : Nat) (a : Nat) -- ZEXT_H (R314)
  | zextW (p : Pred) (d : Nat) (a : Nat) -- ZEXT_W (R314)
  | movi (p : Pred) (d : Nat) (i : Imm) -- MOVI (R316)
  | movhi (p : Pred) (d : Nat) (i : Nat) -- MOVHI (R316)
  | lea (p : Pred) (d : Nat) (a : Nat) (b : Nat) (sh : Nat) -- LEA (R317)
  | sel (p : Pred) (d : Nat) (a : Nat) (b : Nat) (neg : Nat) (n : Nat) -- SEL (R317)
  | cmp (p : Pred) (n : Nat) (a : Nat) (b : Nat) (cc : Nat) -- CMP (R318)
  | setc (p : Pred) (n : Nat) (a : Nat) -- SETC (R318)
  | mfs (p : Pred) (d : Nat) (r : Nat) -- MFS (R319)
  | mts (p : Pred) (x : Nat) (r : Nat) -- MTS (R319)
  | mvtc (p : Pred) (a : Nat) (n : Nat) -- MVTC (R321)
  | mftc (p : Pred) (d : Nat) (n : Nat) -- MFTC (R321)
  | aclr (p : Pred) (n : Nat) -- ACLR (R321)
  | cmpiEq (p : Pred) (n : Nat) (a : Nat) (i : Imm) -- CMPI_EQ (R318)
  | cmpiNe (p : Pred) (n : Nat) (a : Nat) (i : Imm) -- CMPI_NE (R318)
  | cmpiLt (p : Pred) (n : Nat) (a : Nat) (i : Imm) -- CMPI_LT (R318)
  | cmpiGe (p : Pred) (n : Nat) (a : Nat) (i : Imm) -- CMPI_GE (R318)
  | cmpiLtu (p : Pred) (n : Nat) (a : Nat) (i : Imm) -- CMPI_LTU (R318)
  | cmpiGeu (p : Pred) (n : Nat) (a : Nat) (i : Imm) -- CMPI_GEU (R318)
  | shli (p : Pred) (d : Nat) (a : Nat) (n : Imm) -- SHLI (R293)
  | shri (p : Pred) (d : Nat) (a : Nat) (n : Imm) -- SHRI (R293)
  | srai (p : Pred) (d : Nat) (a : Nat) (n : Imm) -- SRAI (R293)
  | vadd (p : Pred) (f : VecF) -- VADD (R353)
  | vsub (p : Pred) (f : VecF) -- VSUB (R353)
  | vmul (p : Pred) (f : VecF) -- VMUL (R353)
  | vfma (p : Pred) (f : VecF) -- VFMA (R354)
  | vfms (p : Pred) (f : VecF) -- VFMS (R354)
  | vfnm (p : Pred) (f : VecF) -- VFNM (R354)
  | vmac (p : Pred) (f : VecF) -- VMAC (R293)
  | vneg (p : Pred) (f : VecF) -- VNEG (R353)
  | vabs (p : Pred) (f : VecF) -- VABS (R353)
  | vmin (p : Pred) (f : VecF) -- VMIN (R353)
  | vmax (p : Pred) (f : VecF) -- VMAX (R353)
  | vrcp (p : Pred) (f : VecF) -- VRCP (R355)
  | vrsq (p : Pred) (f : VecF) -- VRSQ (R355)
  | vexp2 (p : Pred) (f : VecF) -- VEXP2 (R355)
  | vlog2 (p : Pred) (f : VecF) -- VLOG2 (R355)
  | vsel (p : Pred) (f : VecF) -- VSEL (R357)
  | vcmpEq (p : Pred) (f : VecF) -- VCMP_EQ (R356)
  | vcmpNe (p : Pred) (f : VecF) -- VCMP_NE (R356)
  | vcmpLt (p : Pred) (f : VecF) -- VCMP_LT (R356)
  | vcmpGe (p : Pred) (f : VecF) -- VCMP_GE (R356)
  | vcmpLtu (p : Pred) (f : VecF) -- VCMP_LTU (R356)
  | vcmpGeu (p : Pred) (f : VecF) -- VCMP_GEU (R356)
  | vand (p : Pred) (f : VecF) -- VAND (R358)
  | vor (p : Pred) (f : VecF) -- VOR (R358)
  | vxor (p : Pred) (f : VecF) -- VXOR (R358)
  | vnot (p : Pred) (f : VecF) -- VNOT (R358)
  | vshl (p : Pred) (f : VecF) -- VSHL (R358)
  | vshr (p : Pred) (f : VecF) -- VSHR (R358)
  | vsra (p : Pred) (f : VecF) -- VSRA (R358)
  | vcvt (p : Pred) (f : VecF) -- VCVT (R359)
  | vqnt (p : Pred) (f : VecF) -- VQNT (R362)
  | vdq (p : Pred) (f : VecF) -- VDQ (R364)
  | vrsum (p : Pred) (f : VecF) -- VRSUM (R365)
  | vrmax (p : Pred) (f : VecF) -- VRMAX (R365)
  | vrmin (p : Pred) (f : VecF) -- VRMIN (R365)
  | vbamax (p : Pred) (f : VecF) -- VBAMAX (R366)
  | vmov (p : Pred) (f : VecF) -- VMOV (R367)
  | vbcst (p : Pred) (f : VecF) -- VBCST (R367)
  | vext (p : Pred) (f : VecF) -- VEXT (R368)
  | vins (p : Pred) (f : VecF) -- VINS (R369)
  | vperm (p : Pred) (f : VecF) -- VPERM (R368)
  | vrot (p : Pred) (f : VecF) -- VROT (R368)
  | viota (p : Pred) (f : VecF) -- VIOTA (R369)
  | vpack (p : Pred) (f : VecF) -- VPACK (R370)
  | vunpk (p : Pred) (f : VecF) -- VUNPK (R370)
  | vcmpr (p : Pred) (f : VecF) -- VCMPR (R370)
  | vpart (p : Pred) (f : VecF) -- VPART (R371)
  | vamul (p : Pred) (f : VecF) -- VAMUL (R372)
  | vconj (p : Pred) (f : VecF) -- VCONJ (R372)
  | vnorm (p : Pred) (f : VecF) -- VNORM (R372)
  | mma (p : Pred) (f : MtxF) -- MMA (R378)
  | mzero (p : Pred) (f : MtxF) -- MZERO (R381)
  | mrd (p : Pred) (f : MtxF) -- MRD (R383)
  | mtrn (p : Pred) (f : MtxF) -- MTRN (R381)
  | mcpy (p : Pred) (f : MtxF) -- MCPY (R381)
  | ld (p : Pred) (f : MemF) -- LD (R327)
  | st (p : Pred) (f : MemF) -- ST (R327)
  | tld (p : Pred) (f : MemF) -- TLD (R328)
  | tst (p : Pred) (f : MemF) -- TST (R328)
  | tldm (p : Pred) (f : MemF) -- TLDM (R329)
  | tstm (p : Pred) (f : MemF) -- TSTM (R329)
  | vgath (p : Pred) (f : MemF) -- VGATH (R330)
  | vscat (p : Pred) (f : MemF) -- VSCAT (R330)
  | ldsg (p : Pred) (f : MemF) -- LDSG (R333)
  | fence (p : Pred) (f : MemF) -- FENCE (R334)
  | fenceSc (p : Pred) (f : MemF) -- FENCE_SC (R335)
  | fenceAll (p : Pred) (f : MemF) -- FENCE_ALL (R293)
  | pref (p : Pred) (f : MemF) -- PREF (R336)
  | bankAdd (p : Pred) (f : MemF) -- BANK_ADD (R331)
  | bankFadd (p : Pred) (f : MemF) -- BANK_FADD (R331)
  | bankMin (p : Pred) (f : MemF) -- BANK_MIN (R331)
  | bankMax (p : Pred) (f : MemF) -- BANK_MAX (R331)
  | bankOr (p : Pred) (f : MemF) -- BANK_OR (R331)
  | bankAnd (p : Pred) (f : MemF) -- BANK_AND (R331)
  | bankSwap (p : Pred) (f : MemF) -- BANK_SWAP (R331)
  | sld (p : Pred) (d : Nat) (b : Nat) (o : Imm) -- SLD (R384)
  | slil (p : Pred) (d : Nat) (b : Nat) (o : Imm) -- SLIL (R384)
  | slbs (p : Pred) (d : Nat) (b : Nat) (o : Imm) -- SLBS (R384)
  | atld (p : Pred) (d : Nat) (b : Nat) (o : Imm) -- ATLD (R384)
  | smov (p : Pred) (d : Nat) (k : Nat) (x : Nat) -- SMOV (R385)
  | eftMovi (d : Nat) (h : Nat) (i : Nat) -- EFT_MOVI (R89)
  | eftAdd (d : Nat) (a : Nat) (b : Nat) -- EFT_ADD (R89)
  | eftAddImm (d : Nat) (a : Nat) (i : Nat) -- EFT_ADD_IMM (R89)
  | eftSub (d : Nat) (a : Nat) (b : Nat) -- EFT_SUB (R89)
  | eftSubImm (d : Nat) (a : Nat) (i : Nat) -- EFT_SUB_IMM (R89)
  | eftAnd (d : Nat) (a : Nat) (b : Nat) -- EFT_AND (R89)
  | eftAndImm (d : Nat) (a : Nat) (i : Nat) -- EFT_AND_IMM (R89)
  | eftOr (d : Nat) (a : Nat) (b : Nat) -- EFT_OR (R89)
  | eftOrImm (d : Nat) (a : Nat) (i : Nat) -- EFT_OR_IMM (R89)
  | eftXor (d : Nat) (a : Nat) (b : Nat) -- EFT_XOR (R89)
  | eftXorImm (d : Nat) (a : Nat) (i : Nat) -- EFT_XOR_IMM (R89)
  | eftShl (d : Nat) (a : Nat) (b : Nat) -- EFT_SHL (R89)
  | eftShlImm (d : Nat) (a : Nat) (i : Nat) -- EFT_SHL_IMM (R89)
  | eftShr (d : Nat) (a : Nat) (b : Nat) -- EFT_SHR (R89)
  | eftShrImm (d : Nat) (a : Nat) (i : Nat) -- EFT_SHR_IMM (R89)
  | eftMul (d : Nat) (a : Nat) (b : Nat) -- EFT_MUL (R89)
  | eftMulImm (d : Nat) (a : Nat) (i : Nat) -- EFT_MUL_IMM (R89)
  | eftMin (d : Nat) (a : Nat) (b : Nat) -- EFT_MIN (R89)
  | eftMinImm (d : Nat) (a : Nat) (i : Nat) -- EFT_MIN_IMM (R89)
  | eftMax (d : Nat) (a : Nat) (b : Nat) -- EFT_MAX (R89)
  | eftMaxImm (d : Nat) (a : Nat) (i : Nat) -- EFT_MAX_IMM (R89)
  | eftCmp (c : Nat) (a : Nat) (b : Nat) -- EFT_CMP (R90)
  | eftCmpImm (c : Nat) (a : Nat) (i : Nat) -- EFT_CMP_IMM (R90)
  | eftBf (o : Nat) -- EFT_BF (R90)
  | eftBfn (o : Nat) -- EFT_BFN (R90)
  | eftJ (o : Nat) -- EFT_J (R90)
  | eftHrd (d : Nat) (n : Nat) -- EFT_HRD (R91)
  | eftHwr (a : Nat) (n : Nat) -- EFT_HWR (R91)
  | eftPld (d : Nat) (a : Nat) (o : Nat) -- EFT_PLD (R92)
  | eftPst (x : Nat) (a : Nat) (o : Nat) -- EFT_PST (R92)
  | eftFld (d : Nat) (a : Nat) (o : Nat) -- EFT_FLD (R92)
  | eftFst (x : Nat) (a : Nat) (o : Nat) -- EFT_FST (R92)
  | eftFvld (d : Nat) (a : Nat) (o : Nat) -- EFT_FVLD (R92)
  | eftFvst (x : Nat) (a : Nat) (o : Nat) -- EFT_FVST (R92)
  | eftVadd (d : Nat) (a : Nat) (b : Nat) (t : Nat) (h : Nat) -- EFT_VADD (R93)
  | eftVmax (d : Nat) (a : Nat) (b : Nat) (t : Nat) (h : Nat) -- EFT_VMAX (R93)
  | eftVmin (d : Nat) (a : Nat) (b : Nat) (t : Nat) (h : Nat) -- EFT_VMIN (R93)
  | eftVmul (d : Nat) (a : Nat) (b : Nat) (t : Nat) (h : Nat) -- EFT_VMUL (R93)
  | eftVcvt (d : Nat) (a : Nat) (t : Nat) (h : Nat) -- EFT_VCVT (R94)
  | eftFwd -- EFT_FWD (R95)
  | eftMcast (a : Nat) (o : Nat) -- EFT_MCAST (R95)
  | eftDrop -- EFT_DROP (R95)
  | eftNack -- EFT_NACK (R95)
  | eftEmit -- EFT_EMIT (R96)
  | eftPark -- EFT_PARK (R95)
  | eftDone -- EFT_DONE (R95)
  | eftTrap (c : Nat) -- EFT_TRAP (R97)
  | lotteryDraw (cp : Nat) -- LOTTERY_DRAW (R104)
  | launch (r : LRec) -- LAUNCH (R106)
  | admitImage (r : LRec) -- ADMIT (R119)
  | retire (r : LRec) -- RETIRE (R106)
  | marker (r : LRec) -- MARKER (R106)
  | launchCompletion (id : Nat) -- LAUNCH_COMPLETION (R109)
  | linkReport (die : Nat) (k : Pkt) -- LINK_REPORT (R38)
  | packetInject (die : Nat) (leaf : Nat) (k : Pkt) -- PACKET_INJECT (R48)
  | jalcyDEndpointRewrite (ep : Nat) (k : Pkt) -- JALCY_D_ENDPOINT_REWRITE (R50)
  | portSwitchRoute (die : Nat) (fromX : Bool) (k : Pkt) -- PORT_SWITCH_ROUTE (R74)
  | read (die : Nat) (k : Pkt) -- READ (R178)
  | write (die : Nat) (k : Pkt) -- WRITE (R178)
  | readReply (die : Nat) (k : Pkt) -- READ_REPLY (R208)
  | writeAcknowledge (die : Nat) (k : Pkt) -- WRITE_ACKNOWLEDGE (R53)
  | bankOperation (die : Nat) (k : Pkt) -- BANK_OPERATION (R331)
  | bankReply (die : Nat) (k : Pkt) -- BANK_REPLY (R331)
  | contextWriteBack (ck : Nat) (st : Nat) -- CONTEXT_WRITE_BACK (R155)
  | waitWriteBack (ck : Nat) -- WAIT_WRITE_BACK (R162)
  | contWakeWrite (part : Nat) (va : Nat) -- CONT_WAKE_WRITE (R164)
  | barrierComplete (part : Nat) (g : Nat) -- BARRIER_COMPLETE (R183)
  | riserCheck (ck : Nat) -- RISER_CHECK (R232)
  | contextExit (ck : Nat) -- CONTEXT_EXIT (R166)
  | preemption (ck : Nat) -- PREEMPTION (R174)
  | autotomy (tile : Nat) -- AUTOTOMY (R239)
  | cardWindowEntry (cl : Nat) (id : Nat) -- CARD_WINDOW_ENTRY (R167)
  | cardDone (cl : Nat) (id : Nat) -- CARD_DONE (R346)
  | allReduce (die : Nat) (op : Nat) (part : Nat) -- ALL_REDUCE (R66)
  | reduce (die : Nat) (op : Nat) (part : Nat) -- REDUCE (R66)
  | broadcast (die : Nat) (op : Nat) (part : Nat) -- BROADCAST (R69)
  | allGather (die : Nat) (op : Nat) (part : Nat) -- ALL_GATHER (R69)
  | reduceScatter (die : Nat) (op : Nat) (part : Nat) -- REDUCE_SCATTER (R67)
  | allToAll (die : Nat) (op : Nat) (part : Nat) -- ALL_TO_ALL (R69)
  | barrier (die : Nat) (op : Nat) (part : Nat) -- BARRIER (R62)
  | send (die : Nat) (op : Nat) (part : Nat) -- SEND (R62)
  | receive (die : Nat) (op : Nat) (part : Nat) -- RECEIVE (R62)
  | collectiveData (die : Nat) (k : Pkt) -- COLLECTIVE_DATA (R76)
  | answer (die : Nat) (k : Pkt) -- ANSWER (R415)
  | nack (die : Nat) (k : Pkt) -- NACK (R71)
  | arm (die : Nat) (core : Nat) (k : Pkt) -- ARM (R85)
  | eftPacketArrival (die : Nat) (core : Nat) (k : Pkt) -- EFT_PACKET_ARRIVAL (R77)
  | packageReset -- PACKAGE_RESET (R20)
  | powerLoss -- POWER_LOSS (R20)
  | criticalTemperature (die : Nat) -- CRITICAL_TEMPERATURE (R20)
  | powerMeasurement (mean : Nat) -- POWER_MEASUREMENT (R20)
  | supplySagStepUp (cl : Nat) -- SUPPLY_SAG_STEP_UP (R21)
  | supplySagStepDown (cl : Nat) -- SUPPLY_SAG_STEP_DOWN (R21)
  | tscTick -- TSC_TICK (R17)
  | refreshManagement (stack : Nat) (row : Nat) (acts : Nat) -- REFRESH_MANAGEMENT (R15)
  | hostRequest (r : HostReq) -- HOST_REQUEST (R112)
  | ideIntegrityFailure (pf : Nat) (stream : Nat) -- IDE_INTEGRITY_FAILURE (R25)
  | pcieLinkDown (pf : Nat) -- PCIE_LINK_DOWN (R26)
  | pcieLinkUp (pf : Nat) -- PCIE_LINK_UP (R26)
  | pfIdectlWrite (pf : Nat) (v : Nat) -- PF_IDECTL_WRITE (R25)
  | pwrCapWrite (w : ByDie) -- PWR_CAP_WRITE (R20)
  | cqTailWrite (vf : Nat) (q : Nat) (v : Nat) -- CQ_TAIL_WRITE (R102)
  | cqCtlWrite (vf : Nat) (q : Nat) (v : Nat) -- CQ_CTL_WRITE (R102)
  | cpLseedWrite (cp : Nat) (v : Nat) -- CP_LSEED_WRITE (R104)
  | vfPartWrite (vf : Nat) (v : Nat) -- VF_PART_WRITE (R111)
  | partClmapWrite (p : Nat) (v : Nat) -- PART_CLMAP_WRITE (R113)
  | nrConsWrite (p : Nat) (v : Nat) -- NR_CONS_WRITE (R114)
  | hvNrConsWrite (pf : Nat) (v : Nat) -- HV_NR_CONS_WRITE (R115)
  | dataFlitSend (ep : Nat) (vc : Nat) (body : Nat) (last : Nat) -- DATA_FLIT_SEND (R31)
  | dataFlitReceive (ep : Nat) (f : Flit) -- DATA_FLIT_RECEIVE (R30)
  | controlFlitReceive (ep : Nat) (f : Flit) -- CONTROL_FLIT_RECEIVE (R42)
  | oldKeyRetired (ep : Nat) (f : Flit) -- OLD_KEY_RETIRED (R35)
  | idleFlitReceive (ep : Nat) (f : Flit) -- IDLE_FLIT_RECEIVE (R30)
  | retryRequest (ep : Nat) (f : Flit) -- RETRY_REQUEST (R31)
  | linkRetrain (ep : Nat) (ok : Bool) -- LINK_RETRAIN (R32)
  | linkFailed (ep : Nat) -- LINK_FAILED (R32)
  | keyLimitWarning (ep : Nat) -- KEY_LIMIT_WARNING (R36)
  | keyLimit (ep : Nat) -- KEY_LIMIT (R36)
  | jlkKldWrite (ep : Nat) (v : Nat) -- JLK_KLD_WRITE (R33)
  | txselWrite (ep : Nat) (v : Nat) -- TXSEL_WRITE (R35)
  | retrainWrite (ep : Nat) (v : Nat) -- RETRAIN_WRITE (R37)
  | linkEnableWrite (ep : Nat) (v : Nat) -- LINK_ENABLE_WRITE (R37)
  | switchTurn (i : Nat) -- SWITCH_TURN (R48)
  | nocTurnWrite (die : Nat) (leaf : Nat) (e : Nat) (v : Nat) -- NOC_TURN_WRITE (R48)
  | nocWinminWrite (die : Nat) (v : Nat) -- NOC_WINMIN_WRITE (R56)
  | tlbWalk (die : Nat) (part : Nat) (va : Nat) -- TLB_WALK (R133)
  | zeroBeforeFirstAccess (die : Nat) (part : Nat) (va : Nat) (ok : Bool) -- ZERO_BEFORE_FIRST_ACCESS (R138)
  | invProdWrite (die : Nat) (v : Nat) -- INV_PROD_WRITE (R144)
  | invKickWrite (die : Nat) (v : Nat) -- INV_KICK_WRITE (R143)
  | invalidatePage (die : Nat) -- INVALIDATE_PAGE (R143)
  | invalidatePartition (die : Nat) -- INVALIDATE_PARTITION (R143)
  | movePage (die : Nat) (ok : Bool) -- MOVE_PAGE (R144)
  | contextLoad (tile : Nat) (slot : Nat) -- CONTEXT_LOAD (R155)
  | flagReread (part : Nat) (cr : Nat) (ck : Nat) -- FLAG_REREAD (R308)
  | waitDeadline (part : Nat) (cr : Nat) (ck : Nat) -- WAIT_DEADLINE (R309)
  | preWrite (p : Nat) (v : Nat) -- PRE_WRITE (R173)
  | holdWrite (p : Nat) (v : Nat) -- HOLD_WRITE (R173)
  | pldWrite (w : ByDie) -- PLD_WRITE (R159)
  | plcWrite (p : Nat) (d : Nat) (v : Nat) -- PLC_WRITE (R159)
  | pltWrite (p : Nat) (d : Nat) (c : Nat) (h : Nat) (v : Nat) -- PLT_WRITE (R159)
  | slottabWrite (tile : Nat) (v : Nat) -- SLOTTAB_WRITE (R177)
  | cardLseedWrite (cl : Nat) (v : Nat) -- CARD_LSEED_WRITE (R177)
  | sfcWindowExpiry (tile : Nat) -- SFC_WINDOW_EXPIRY (R238)
  | verdictRemote (ck : Nat) -- VERDICT_REMOTE (R236)
  | verdictLocal (ck : Nat) -- VERDICT_LOCAL (R236)
  | retiredWrite (tile : Nat) (v : Nat) -- RETIRED_WRITE (R240)
  | finjCtlWrite (cl : Nat) (v : Nat) -- FINJ_CTL_WRITE (R241)
  | collRtbWrite (ck : Nat) (v : Nat) -- COLL_RTB_WRITE (R59)
  | bargCtlWrite (p : Nat) (g : Nat) (v : Nat) -- BARG_CTL_WRITE (R195)
  | bargCluWrite (p : Nat) (g : Nat) (v : Nat) -- BARG_CLU_WRITE (R195)
  | cardDraw (cl : Nat) (kind : Nat) -- CARD_DRAW (R170)
  | copy2d (cl : Nat) (id : Nat) -- COPY2D (R343)
  | copyx (cl : Nat) (id : Nat) -- COPYX (R345)
  | gather (cl : Nat) (id : Nat) -- GATHER (R343)
  | scacc (cl : Nat) (id : Nat) -- SCACC (R344)
  | fill (cl : Nat) (id : Nat) -- FILL (R343)
  | copyxTimeout (cl : Nat) (id : Nat) -- COPYX_TIMEOUT (R345)
  | ringPoll (die : Nat) (ctx : Nat) (ring : Nat) -- RING_POLL (R59)
  | collectiveRetry (die : Nat) (op : Nat) (i : Nat) -- COLLECTIVE_RETRY (R71)
  | parkTimeout (die : Nat) (unit : Nat) (i : Nat) -- PARK_TIMEOUT (R71)
  | collectiveTimeout (die : Nat) (op : Nat) -- COLLECTIVE_TIMEOUT (R72)
  | eftRun (die : Nat) (core : Nat) -- EFT_RUN (R84)
  | eftRetry (die : Nat) (core : Nat) (i : Nat) -- EFT_RETRY (R86)
  | eftSendLost (die : Nat) (core : Nat) (i : Nat) -- EFT_SEND_LOST (R86)
  | eftKernelEnable (die : Nat) (core : Nat) (kern : Nat) (v : Nat) -- EFT_KERNEL_ENABLE (R79)
  | eftKernelDisable (die : Nat) (core : Nat) (kern : Nat) (v : Nat) -- EFT_KERNEL_DISABLE (R80)
  | eftImemWrite (die : Nat) (core : Nat) (w : Nat) (v : Nat) -- EFT_IMEM_WRITE (R78)
  | eftFlowwinAccess (die : Nat) (core : Nat) (w : Nat) (v : Option Nat) -- EFT_FLOWWIN_ACCESS (R78)
  | registerWrite (key : Nat) (w : ByDie) (priv : Bool) -- REGISTER_WRITE (R110)
  | jalcyLinkUp (ep : Nat) -- JALCY_LINK_UP (R42)
  | idleFlitSend (ep : Nat) -- IDLE_FLIT_SEND (R29)
  deriving DecidableEq, Repr

end Sys2Proof
end

