-- ==== Sys2Proof/WellFormed.lean ====
section
/-! DEFINITION. What R282 asks of an instruction's fields beside its opcode: ranges, fields that must be zero, the
uses of the extension word. `Instr.wf gen` is the check under decode generation `gen`. -/

namespace Sys2Proof

/-- A predicate field that names a steer register (R212). -/
def Pred.wf : Pred → Bool
  | .always => true
  | .isTrue n => n < 12
  | .isFalse n => n < 12

/-- An immediate of a field of `w` bits, or of the extension word (R269). -/
def Imm.wf (w : Nat) : Imm → Bool
  | .short r => r < 2 ^ w
  | .ext r => r < 2 ^ 32

/-- The offset of an SCL load: 13 bits, or 45 with an extension word (R269, R384). -/
def Imm.sclWf : Imm → Bool
  | .short r => r < 2 ^ 13
  | .ext v => v < 2 ^ 45

/-- System-register numbers that name a register (R320, R400). -/
def sysregValid (n : Nat) : Bool :=
  n ≤ 5 || n == 8 || (0x10 ≤ n && n ≤ 0x16) || (0x20 ≤ n && n ≤ 0x22) || (0x28 ≤ n && n ≤ 0x2C)
  || (0x40 ≤ n && n ≤ 0x6F) || (0x400 ≤ n && n ≤ 0x407) || (0x800 ≤ n && n ≤ 0x807) || (0xC00 ≤ n && n ≤ 0xC09)
  || (0xC10 ≤ n && n ≤ 0xC13) || (0x1000 ≤ n && n ≤ 0x1009) || (0x1010 ≤ n && n ≤ 0x1017)
  || (0x1020 ≤ n && n ≤ 0x103F) || (0x1100 ≤ n && n ≤ 0x117F) || n == 0x2000 || (0x2010 ≤ n && n ≤ 0x201F)

/-- The width in bits of an element of a format (R243, R268). -/
def fmtWidth (fmt : Nat) : Nat :=
  if fmt = 0 then 16 else if fmt = 2 then 8 else if fmt = 3 then 4 else if fmt = 4 then 8 else if fmt = 5 then 16 else 32

/-- The elements of a format in a row (R348). -/
def fmtCount (fmt : Nat) : Nat := 2048 / fmtWidth fmt

/-- A flat row number (R267). -/
def rowOk (r : Nat) : Bool := r < 1536

/-- A field that a VEC form does not read, reads as a row, or reads as an x register (R349). -/
inductive FUse where
  | no
  | row
  | x
  | written
  | num
  deriving DecidableEq, Repr

/-- A field obeys its use. -/
def FUse.ok : FUse → Nat → Bool
  | .no, v => v == 0
  | .row, v => rowOk v
  | .x, v => v < 32
  | .written, v => rowOk v
  | .num, v => v < 2048

/-- Uses of the extension word by a VEC form (R349). -/
inductive XUse where
  | illegal
  | rm
  | required
  | imm
  deriving DecidableEq, Repr

/-- The rounding mode of an extension word, `none` where it is reserved (R249, R350). -/
def rmOk (x : Option Nat) : Bool :=
  match x with
  | none => true
  | some e => e < 5

/-- A VEC word's fields against its row of R287 and R349: permitted formats, the uses of A, B, C and of the
extension word, and the FE and RU bits. -/
def vecOk (gen : Nat) (fmts : List Nat) (a b c : FUse) (xu : XUse) (f : VecF) : Bool :=
  let reads (u : FUse) := u == .row || u == .x
  let feOk := (!f.fe.testBit 2 || reads a) && (!f.fe.testBit 1 || reads b) && (!f.fe.testBit 0 || reads c)
  let ruOk := (!f.ru.testBit 1 || a == .row) && (!f.ru.testBit 0 || b == .row)
  let xOk := match xu, f.ext with
    | .illegal, e => e.isNone
    | .rm, e => rmOk e
    | .required, e => e.isSome
    | .imm, _ => true
  fmts.contains f.fmt && !(gen == 1 && f.fmt == 3) && rowOk f.d && a.ok f.a && b.ok f.b && c.ok f.c && xOk
    && feOk && ruOk && f.fe < 8 && f.ru < 4 && (f.ext.getD 0) < 2 ^ 32

/-- Formats of the arithmetic forms (R287). -/
def fArith : List Nat := [0, 1, 4, 5, 6]
/-- Formats of the floating-point forms. -/
def fFloat : List Nat := [0, 1]
/-- Formats of the integer forms. -/
def fInt : List Nat := [4, 5, 6]
/-- Formats of the pattern forms. -/
def fAll : List Nat := [0, 1, 2, 3, 4, 5, 6, 7]

/-- A rounding form whose extension word is permitted on FMT 0 and 1 only (R349). -/
def rmFloat (f : VecF) : XUse := if f.fmt ≤ 1 then .rm else .illegal

/-- VCVT reads B when it narrows (R359). -/
def cvtNarrows (f : VecF) : Bool := fmtWidth f.fmt < fmtWidth (bits f.c 2 0)

/-- VCVT's Num: source format 0-6, and a segment below the ratio of the widths (R359). -/
def cvtNumOk (f : VecF) : Bool :=
  let ws := fmtWidth (bits f.c 2 0)
  let wd := fmtWidth f.fmt
  let q := if ws ≤ wd then wd / ws else ws / wd
  f.c < 64 && bits f.c 2 0 != 7 && (bits f.c 5 3 < q || (q == 1 && bits f.c 5 3 == 0))

/-- The scale descriptor's segment and codes, for a segment of m elements (R360, R361). -/
def descOk (m : Nat) (e : Nat) : Bool :=
  bits e 31 28 == 0 && bits e 21 19 < 512 / m && bits e 18 14 * 8 + m / 8 ≤ 256

/-- VQNT's C field and descriptor (R349, R361, R362). -/
def vqntOk (f : VecF) : Bool :=
  let e := f.ext.getD 0
  f.c < 64 && bits e 2 1 == 0 && (bits e 0 0 == 1 || bits f.c 4 0 == 0)
    && descOk (if bits f.c 5 5 = 0 then 128 else 64) e

/-- VBCST's three forms (R349, R367). -/
def vbcstOk (gen : Nat) (f : VecF) : Bool :=
  if f.ext.isSome then vecOk gen fAll .no .no .no .imm f
  else if f.c ≥ 1024 then vecOk gen fAll .no .no .x .imm { f with c := f.c - 1024 }
  else vecOk gen fAll .row .no .num .imm f && f.c < 512

/-- The MTX fields common to every form (R288): tile numbers, ACC, and bits that generation 1 ignores. -/
def mtxOk (gen : Nat) (f : MtxF) (alg useA useB useAB useCnt : Bool) : Bool :=
  f.tc < 48 && f.ta < 48 && f.tb < 48 && f.acc < 3
    && (alg || gen == 1 || (f.att == 0 && f.ord == 0 && f.cja == 0 && f.cjb == 0))
    && (useA || f.ta == 0) && (useB || f.tb == 0) && (useAB || (f.a0 == 0 && f.b0 == 0))
    && (useCnt || (f.cnt == 0 && f.grd == 0 && f.acc == 0))
    && f.fa < 8 && f.fb < 8 && f.att < 4 && f.ord < 2 && f.cja < 2 && f.cjb < 2 && f.sat < 2
    && f.a0 < 32 && f.b0 < 32 && f.cnt < 32 && f.grd < 32 && (f.ext.getD 0) < 2 ^ 32

/-- The source formats of an MMA (R257), which has an extension word exactly when both are E2M1 (R377). -/
def mmaFmtOk (gen : Nat) (f : MtxF) : Bool :=
  if f.fa = 3 ∧ f.fb = 3 then gen != 1 && f.ext.isSome && bits (f.ext.getD 0) 31 26 == 0
  else f.ext.isNone && (((f.fa == 0 || f.fa == 2) && (f.fb == 0 || f.fb == 2))
    || ((f.fa == 4 || f.fa == 5) && (f.fb == 4 || f.fb == 5)))

/-- MRD's formats, rows and extension word (R382). -/
def mrdOk (gen : Nat) (f : MtxF) : Bool :=
  f.fa != 3 && f.fa != 7 && (f.fb == 1 || f.fb == 6) && f.a0 + 32 / fmtWidth f.fa ≤ 32
    && (match f.ext with
        | none => true
        | some e => f.fb != 6 && bits e 31 15 == 0 && bits e 2 0 < 5)
    && mtxOk gen f false true false true false

/-- The MEM fields common to every form: ranges, ORD among `ords`, SIZE among `sizes`, SCOPE (R267, R289). Under
VLX1 the SCOPE field is ignored (R292). -/
def memOk (gen : Nat) (ords sizes : List Nat) (piOk scalar : Bool) (feMask : Nat) (f : MemF) : Bool :=
  ords.contains f.ord && sizes.contains f.size && (piOk || f.pi == 0)
    && (gen == 1 || (f.scope < 5 && (f.ord != 0 || f.scope == 0)))
    && (if scalar then f.data < 32 else rowOk f.data)
    && (f.fe &&& (7 - feMask)) == 0
    && f.fe < 8 && f.scope < 8 && f.base < 32 && f.pi < 2 && f.off < 2 ^ 24 && (f.ext.getD 0) < 2 ^ 32

/-- An MEM form with neither address nor data (R289, R334). -/
def memBare (f : MemF) : Bool := f.data == 0 && f.base == 0 && f.off == 0 && f.ext.isNone && f.fe == 0

/-- The field checks of every row (R282). Events have no word and no field that R282 checks. -/
def Instr.wf (gen : Nat) : Instr → Bool
  | .nop bk dp lv => bk < 4 && dp < 2 && lv < 8 && lv != 6
  | .prep p n o => p.wf && n < 12 && o.wf 16
  | .prepi p n m => p.wf && n < 12 && m < 32
  | .jmp p n | .br p n | .brn p n | .call p n => p.wf && n < 12
  | .ret p | .susp p | .yield p | .exit p | .ifence p | .eret p => p.wf
  | .halt p => p.wf && gen == 1
  | .loop p l c o => p.wf && l < (if gen = 1 then 4 else 6) && c < 32 && o.wf 12
  | .lstep p l b r im => p.wf && l < (if gen = 1 then 4 else 6) && b < 4 && r < 32 && im.wf 10
  | .lbrk p l => p.wf && l < (if gen = 1 then 4 else 6)
  | .rot p n => p.wf && n < 16 && gen != 1
  | .ldep p n => p.wf && 1 ≤ n && n ≤ 16 && gen != 1
  | .syncN p g | .syncX p g => p.wf && g < 16
  | .waitfeRow p r => p.wf && rowOk r
  | .waitfeFlag p r => p.wf && r < 32
  | .trap p c => p.wf && c < 2 ^ 16
  | .add p d a b | .sub p d a b | .and p d a b | .or p d a b | .xor p d a b | .andn p d a b | .shl p d a b
  | .shr p d a b | .sra p d a b | .rotl p d a b | .min p d a b | .max p d a b | .minu p d a b | .maxu p d a b
  | .mul p d a b | .mulhs p d a b | .mulhz p d a b | .div p d a b | .divu p d a b | .rem p d a b
  | .remu p d a b => p.wf && d < 32 && a < 32 && b < 32
  | .addi p d a i => p.wf && d < 32 && a < 32 && i.wf 10
  | .clz p d a | .ctz p d a | .popc p d a | .sextB p d a | .sextH p d a | .sextW p d a | .zextB p d a | .zextH p d a
  | .zextW p d a => p.wf && d < 32 && a < 32
  | .movi p d i => p.wf && d < 32 && i.wf 10
  | .movhi p d i => p.wf && d < 32 && i < 2 ^ 32
  | .lea p d a b sh => p.wf && d < 32 && a < 32 && b < 32 && sh < 4
  | .sel p d a b neg n => p.wf && d < 32 && a < 32 && b < 32 && neg < 2 && n < 12
  | .cmp p n a b cc => p.wf && n < 12 && a < 32 && b < 32 && cc < 6
  | .setc p n a => p.wf && n < 12 && a < 32
  | .mfs p d r => p.wf && d < 32 && sysregValid r
  | .mts p x r => p.wf && x < 32 && sysregValid r
  | .mvtc p a n => p.wf && a < 32 && n < 48
  | .mftc p d n => p.wf && d < 32 && n < 48
  | .aclr p n => p.wf && (n < 48 || n == 0x3FF)
  | .cmpiEq p n a i | .cmpiNe p n a i | .cmpiLt p n a i | .cmpiGe p n a i | .cmpiLtu p n a i
  | .cmpiGeu p n a i => p.wf && n < 12 && a < 32 && i.wf 10
  | .shli p d a n | .shri p d a n | .srai p d a n => p.wf && d < 32 && a < 32 && n.wf 5 && gen == 1
  | .vadd p f | .vsub p f | .vmul p f => p.wf && vecOk gen fArith .row .row .no (rmFloat f) f
  | .vfma p f | .vfms p f | .vfnm p f => p.wf && vecOk gen fFloat .row .row .row .rm f
  | .vmac p f => p.wf && gen == 1 && vecOk gen fFloat .row .row .no .rm f
  | .vneg p f | .vabs p f => p.wf && vecOk gen fArith .row .no .no .illegal f
  | .vmin p f | .vmax p f => p.wf && vecOk gen fArith .row .row .no .illegal f
  | .vrcp p f | .vrsq p f | .vexp2 p f | .vlog2 p f => p.wf && vecOk gen fFloat .row .no .no .rm f
  | .vsel p f => p.wf && vecOk gen fAll .row .row .row .illegal f
  | .vcmpEq p f | .vcmpNe p f | .vcmpLt p f | .vcmpGe p f => p.wf && vecOk gen fArith .row .row .no .illegal f
  | .vcmpLtu p f | .vcmpGeu p f => p.wf && vecOk gen fInt .row .row .no .illegal f
  | .vand p f | .vor p f | .vxor p f => p.wf && vecOk gen fAll .row .row .no .illegal f
  | .vnot p f => p.wf && vecOk gen fAll .row .no .no .illegal f
  | .vshl p f | .vshr p f | .vsra p f => p.wf && vecOk gen [4, 5, 6, 7] .row .row .no .illegal f
  | .vcvt p f => p.wf && vecOk gen [0, 1, 2, 3, 4, 5, 6] .row (if cvtNarrows f then .row else .no) .num .rm f && cvtNumOk f
  | .vqnt p f => p.wf && gen != 1
      && vecOk gen [3] .row .row (if bits (f.ext.getD 0) 0 0 = 1 then .x else .no) .required { f with c := bits f.c 4 0 }
      && vqntOk f
  | .vdq p f => p.wf && gen != 1 && vecOk gen fFloat .row .no .no .required f
      && descOk (if f.fmt = 0 then 128 else 64) (f.ext.getD 0) && bits (f.ext.getD 0) 2 0 < 5
  | .vrsum p f => p.wf && vecOk gen fArith .row .no .num (rmFloat f) f && f.c < 16 && 2 ^ f.c ≤ fmtCount f.fmt
  | .vrmax p f | .vrmin p f => p.wf && vecOk gen fArith .row .no .num .illegal f && f.c < 16 && 2 ^ f.c ≤ fmtCount f.fmt
  | .vbamax p f => p.wf && gen != 1 && vecOk gen fFloat .row .no .no .illegal f
  | .vmov p f => p.wf && vecOk gen fAll .row .no .no .illegal f
  | .vbcst p f => p.wf && vbcstOk gen f && f.c < 2048
  | .vext p f => p.wf && vecOk gen fAll .row .row .num .illegal f && f.c < 512
  | .vins p f => p.wf && vecOk gen fAll .row .x .num .illegal f && f.c < 512
  | .vperm p f => p.wf && vecOk gen fAll .row .row .no .illegal f
  | .vrot p f => p.wf && vecOk gen fAll .row .no .num .illegal f && f.c < 512
  | .viota p f => p.wf && vecOk gen fInt .x .no .num .illegal f
  | .vpack p f => p.wf && vecOk gen fAll .row .row .no .illegal f
  | .vunpk p f => p.wf && vecOk gen fAll .row .no .num .illegal f && f.c < 4
  | .vcmpr p f => p.wf && gen != 1 && vecOk gen fAll .row .row .no .illegal f
  | .vpart p f => p.wf && gen != 1 && vecOk gen fInt .row .row .written .illegal f && f.d ≤ 1532
      && !(f.d ≤ f.c && f.c ≤ f.d + 3)
  | .vamul p f => p.wf && gen != 1 && vecOk gen fFloat .row .row .num .rm f && f.c < 4
  | .vconj p f => p.wf && gen != 1 && vecOk gen fFloat .row .no .num .illegal f && f.c < 4
  | .vnorm p f => p.wf && gen != 1 && vecOk gen fFloat .row .no .num .rm f && f.c < 4
  | .mma p f => p.wf && mtxOk gen f true true true true true && mmaFmtOk gen f
  | .mzero p f => p.wf && mtxOk gen f false false false false false && f.fa == 0 && f.fb == 0 && f.sat == 0 && f.ext.isNone
  | .mrd p f => p.wf && mrdOk gen f
  | .mtrn p f => p.wf && mtxOk gen f false true false false false && f.fb == 0 && f.sat == 0 && f.ext.isNone
      && !(gen == 1 && f.fa == 3)
  | .mcpy p f => p.wf && mtxOk gen f false true false false false && f.fa == 0 && f.fb == 0 && f.sat == 0 && f.ext.isNone
  | .ld p f => p.wf && memOk gen [0, 1] [0, 1, 2, 3] true true 4 f && !(f.pi == 1 && f.data == f.base)
  | .st p f => p.wf && memOk gen [0, 2] [0, 1, 2, 3] true true 6 f
  | .tld p f => p.wf && memOk gen [0, 1] [4] true false 4 f
  | .tst p f => p.wf && memOk gen [0, 2] [4] true false 6 f
  | .tldm p f => p.wf && memOk gen [0, 1] [4] true false 4 f
  | .tstm p f => p.wf && memOk gen [0, 2] [4] true false 6 f
  | .vgath p f => p.wf && memOk gen [0] [0, 1, 2, 3, 4] false false 4 f && rowOk f.off && f.ext.isNone
  | .vscat p f => p.wf && memOk gen [0] [0, 1, 2, 3, 4] false false 6 f && rowOk f.off && f.ext.isNone
  | .ldsg p f => p.wf && memOk gen [0, 1] [3] false true 4 f && f.data < 12
  | .fence p f => p.wf && memOk gen [1, 2, 3] [0] false true 0 f && memBare f
  | .fenceSc p f => p.wf && gen != 1 && memOk gen [3] [0] false true 0 f && memBare f && f.scope == 3
  | .fenceAll p f => p.wf && gen == 1 && memOk gen [0] [0] false true 0 f && memBare f
  | .pref p f => p.wf && memOk gen [0] [0] false true 0 f && f.data == 0
  | .bankAdd p f | .bankMin p f | .bankMax p f | .bankOr p f | .bankAnd p f =>
      p.wf && memOk gen [0, 1, 2, 3] [2, 3] false true 6 f
  | .bankFadd p f => p.wf && memOk gen [0, 1, 2, 3] [2] false true 6 f
  | .bankSwap p f => p.wf && gen != 1 && memOk gen [0, 1, 2, 3] [2, 3] false true 6 f
  | .sld p d b o => p.wf && gen != 1 && d < 8 && b < 32 && o.sclWf
  | .slil p d b o | .slbs p d b o | .atld p d b o => p.wf && gen != 1 && d < 4 && b < 32 && o.sclWf
  | .smov p d k x => p.wf && gen != 1 && k < 4 && d < (if k = 0 then 8 else 4) && x < (if k = 0 then 8 else 4)
  | .eftMovi d h i => d < 16 && h < 2 && i < 2 ^ 21 && (h == 0 || i < 2 ^ 16)
  | .eftAdd d a b | .eftSub d a b | .eftAnd d a b | .eftOr d a b | .eftXor d a b | .eftShl d a b | .eftShr d a b
  | .eftMul d a b | .eftMin d a b | .eftMax d a b => d < 16 && a < 16 && b < 16
  | .eftAddImm d a i | .eftSubImm d a i | .eftAndImm d a i | .eftOrImm d a i | .eftXorImm d a i | .eftShlImm d a i
  | .eftShrImm d a i | .eftMulImm d a i | .eftMinImm d a i | .eftMaxImm d a i => d < 16 && a < 16 && i < 2 ^ 17
  | .eftCmp c a b => c < 6 && a < 16 && b < 16
  | .eftCmpImm c a i => c < 6 && a < 16 && i < 2 ^ 17
  | .eftBf o | .eftBfn o | .eftJ o => 1 ≤ o && o < 256
  | .eftHrd d n => d < 16 && n < 8
  | .eftHwr a n => a < 16 && n < 8
  | .eftPld d a o => d < 8 && a < 16 && o < 2 ^ 18
  | .eftPst x a o => x < 8 && a < 16 && o < 2 ^ 18
  | .eftFld d a o => d < 16 && a < 16 && o < 2 ^ 18
  | .eftFst x a o => x < 16 && a < 16 && o < 2 ^ 18
  | .eftFvld d a o => d < 8 && a < 16 && o < 2 ^ 18
  | .eftFvst x a o => x < 8 && a < 16 && o < 2 ^ 18
  | .eftVadd d a b t h | .eftVmax d a b t h | .eftVmin d a b t h | .eftVmul d a b t h =>
      d < 8 && a < 8 && b < 8 && t < 3 && h < 2
  | .eftVcvt d a t h => d < 8 && a < 8 && t < 4 && h < 2 && (2 ≤ t || h == 0)
  | .eftMcast a o => a < 16 && o < 2 ^ 18
  | .eftTrap c => c < 2 ^ 16
  | _ => true

end Sys2Proof
end

