-- ==== Sys2Proof/Machine/Num.lean ====
section
/-! DEFINITION. Number formats and rounding (R243 to R252). Values are exact: a sign, a natural mantissa and a
power of two. A result that is no dyadic number carries its leading bits and a set last bit, which rounds as the
exact value does. -/

namespace Sys2Proof.Machine

/-- An exact value: (-1)^neg × n × 2^e, an infinity or a NaN. -/
inductive Num where
  | nan
  | inf (neg : Bool)
  | fin (neg : Bool) (n : Nat) (e : Int)
  deriving DecidableEq, Repr

/-- Flag bits in the places of FST (R202), and IOVF of R201 in bit 7. -/
def fINV : Nat := 1
/-- Division by zero (R202). -/
def fDZ : Nat := 2
/-- Overflow (R202). -/
def fOVF : Nat := 4
/-- Underflow (R202). -/
def fUNF : Nat := 8
/-- Inexact (R202). -/
def fINX : Nat := 16
/-- Block-scale underflow (R202). -/
def fSUND : Nat := 32
/-- Saturation (R202). -/
def fSAT : Nat := 64
/-- An escape beyond the inclusion list (R201). -/
def fIOVF : Nat := 128

/-- A flag when a condition holds. -/
def flagIf (b : Bool) (f : Nat) : Nat := if b then f else 0

/-- Rounding modes (R249). -/
inductive Rm where
  | rne
  | rtz
  | rup
  | rdn
  | sr
  deriving DecidableEq, Repr

/-- The mode of an RM field (R249). -/
def rmOf (v : Nat) : Rm := if v = 0 then .rne else if v = 1 then .rtz else if v = 2 then .rup else if v = 3 then .rdn else .sr

/-- The step of SRSEED (R250); it is also the generator of R104. -/
def xorshift (x : Nat) : Nat :=
  let x := x ^^^ (x * 2 ^ 13 % 2 ^ 32)
  let x := x ^^^ (x / 2 ^ 17)
  x ^^^ (x * 2 ^ 5 % 2 ^ 32)

/-- One draw: 0 is taken as 1 (R250, R104). -/
def draw (x : Nat) : Nat := xorshift (if x = 0 then 1 else x)

/-- A two's complement number of w bits. -/
def sext (w v : Nat) : Int := if v % 2 ^ w < 2 ^ (w - 1) then (v % 2 ^ w : Nat) else (v % 2 ^ w : Nat) - (2 ^ w : Nat)

/-- The low w bits of an integer. -/
def wrap (w : Nat) (v : Int) : Nat := (v % (2 ^ w : Nat)).toNat

/-- 2^k as a shift of an integer mantissa. -/
def shiftUp (n : Nat) (k : Int) : Nat := n * 2 ^ k.toNat

/-- An integer as an exact value. -/
def ofInt (v : Int) : Num := .fin (v < 0) v.natAbs 0

/-- IEEE binary interchange bits with a mantissa of `m` bits and bias 127 (R244). -/
def decIeee (m v : Nat) : Num :=
  let neg := v.testBit (m + 8)
  let e := bits v (m + 7) m
  let f := v % 2 ^ m
  if e = 255 then (if f = 0 then .inf neg else .nan)
  else if e = 0 then .fin neg f (-126 - (m : Int))
  else .fin neg (2 ^ m + f) ((e : Int) - 127 - m)

/-- An E4M3 code (R245). -/
def decE4m3 (v : Nat) : Num :=
  let e := bits v 6 3
  if v % 128 = 127 then .nan
  else if e = 0 then .fin (v.testBit 7) (v % 8) (-9) else .fin (v.testBit 7) (8 + v % 8) ((e : Int) - 10)

/-- An E2M1 code; the escape has the value +0 (R246). -/
def decE2m1 (v : Nat) : Num :=
  if v = 8 then .fin false 0 0
  else let e := bits v 2 1
    if e = 0 then .fin (v.testBit 3) (v % 2) (-1) else .fin (v.testBit 3) (2 + v % 2) ((e : Int) - 2)

/-- An E3M5 scale code (R247). -/
def decE3m5 (v : Nat) : Num :=
  if v < 0x20 then .fin false v (-7) else .fin false (32 + v % 32) ((v / 32 : Nat) - 8)

/-- The value of an element of a format (R243 to R248). -/
def decFmt (fmt v : Nat) : Num :=
  if fmt = 0 then decIeee 7 v
  else if fmt = 1 then decIeee 23 v
  else if fmt = 2 then decE4m3 v
  else if fmt = 3 then decE2m1 v
  else if fmt = 4 then ofInt (sext 8 v)
  else if fmt = 5 then ofInt (sext 16 v)
  else ofInt (sext 32 v)

/-- The outcome of rounding a magnitude n × 2^e at the last place 2^t: the mantissa and whether it is inexact. -/
def roundAt (rm : Rm) (rand : Nat) (neg : Bool) (n : Nat) (e t : Int) : Nat × Bool :=
  if t ≤ e then (shiftUp n (e - t), false)
  else
    let k := (t - e).toNat
    let q := n / 2 ^ k
    let r := n % 2 ^ k
    let up := match rm with
      | .rne => 2 * r > 2 ^ k || (2 * r == 2 ^ k && q % 2 == 1)
      | .rtz => false
      | .rup => !neg && r != 0
      | .rdn => neg && r != 0
      | .sr => rand < r * 2 ^ 32 / 2 ^ k
    (if up then q + 1 else q, r != 0)

/-- A binary format: precision, exponent of the last place of a subnormal, largest mantissa and the exponent of its
last place. -/
structure FForm where
  p : Nat
  emin : Int
  maxM : Nat
  maxE : Int

/-- BF16 (R244). -/
def formBf16 : FForm := ⟨8, -133, 255, 120⟩
/-- FP32 (R244). -/
def formFp32 : FForm := ⟨24, -149, 2 ^ 24 - 1, 104⟩
/-- E4M3 (R245): 448 = 14 × 32. -/
def formE4m3 : FForm := ⟨4, -9, 14, 5⟩
/-- E2M1 (R246): 6 = 3 × 2. -/
def formE2m1 : FForm := ⟨2, -1, 3, 1⟩

/-- A finite nonzero magnitude rounded to a binary format without bound on its exponent: mantissa, exponent, inexact,
tiny, overflow (R249). -/
def roundMag (f : FForm) (rm : Rm) (rand : Nat) (neg : Bool) (n : Nat) (e : Int) : Nat × Int × Bool × Bool × Bool :=
  let t := max (e + ((Nat.log2 n : Nat) : Int) + 1 - f.p) f.emin
  let (m, ix) := roundAt rm rand neg n e t
  let (m, t) := if m = 2 ^ f.p then (m / 2, t + 1) else (m, t)
  let tiny := m < 2 ^ (f.p - 1)
  let ovf := t > f.maxE || (t == f.maxE && m > f.maxM)
  (m, t, ix, tiny, ovf)

/-- The bits of a finite BF16 or FP32 value, m bits of fraction. -/
def encIeee (m : Nat) (neg : Bool) (q : Nat) (t : Int) : Nat :=
  let s := if neg then 2 ^ (m + 8) else 0
  if q < 2 ^ m then s + q else s + (t + 127 + m).toNat * 2 ^ m + (q - 2 ^ m)

/-- A value rounded to BF16 or FP32 (R249): bits and flags. `clamp` is the SAT bit of an MTX form (R256, R383). -/
def encIeeeR (fmt : Nat) (clamp : Bool) (rm : Rm) (rand : Nat) (v : Num) : Nat × Nat :=
  let m := if fmt = 0 then 7 else 23
  let f := if fmt = 0 then formBf16 else formFp32
  let infB := fun (neg : Bool) => (if neg then 2 ^ (m + 8) else 0) + 255 * 2 ^ m
  match v with
  | .nan => (255 * 2 ^ m + 2 ^ (m - 1), 0)
  | .inf neg => (infB neg, 0)
  | .fin neg 0 _ => (encIeee m neg 0 0, 0)
  | .fin neg n e =>
    let (q, t, ix, tiny, ovf) := roundMag f rm rand neg n e
    if ovf then
      if clamp then (infB neg - 1, fSAT + fINX)
      else
        let toMax := match rm with
          | .rne | .sr => false
          | .rtz => true
          | .rup => neg
          | .rdn => !neg
        (if toMax then infB neg - 1 else infB neg, fOVF + fINX)
    else (encIeee m neg q t, flagIf ix fINX + flagIf (ix && tiny) fUNF)

/-- A value rounded to E4M3, which saturates (R245, R249, R252). -/
def encE4m3 (rm : Rm) (rand : Nat) (v : Num) : Nat × Nat :=
  match v with
  | .nan => (0x7F, 0)
  | .inf neg => ((if neg then 0x80 else 0) + 0x7E, fSAT)
  | .fin neg 0 _ => (if neg then 0x80 else 0, 0)
  | .fin neg n e =>
    let s := if neg then 0x80 else 0
    let (q, t, ix, tiny, ovf) := roundMag formE4m3 rm rand neg n e
    if ovf then (s + 0x7E, fSAT + fINX)
    else (if q < 8 then s + q else s + (t + 10).toNat * 8 + (q - 8), flagIf ix fINX + flagIf (ix && tiny) fUNF)

/-- A value rounded to E2M1: saturates, writes a zero as 0b0000, turns a NaN into 0 with INV (R246, R252). -/
def encE2m1 (rm : Rm) (rand : Nat) (v : Num) : Nat × Nat :=
  match v with
  | .nan => (0, fINV)
  | .inf neg => ((if neg then 8 else 0) + 7, fSAT)
  | .fin _ 0 _ => (0, 0)
  | .fin neg n e =>
    let s := if neg then 8 else 0
    let (q, t, ix, tiny, ovf) := roundMag formE2m1 rm rand neg n e
    if ovf then (s + 7, fSAT + fINX)
    else
      let fl := flagIf ix fINX + flagIf (ix && tiny) fUNF
      if q = 0 then (0, fl) else if q < 2 then (s + q, fl) else (s + (t + 2).toNat * 2 + (q - 2), fl)

/-- A value rounded to an integer of w bits, which saturates (R252). A clamped finite value counts as inexact (log
entry 12). -/
def encInt (w : Nat) (rm : Rm) (rand : Nat) (v : Num) : Nat × Nat :=
  let hi : Int := (2 ^ (w - 1) : Nat) - 1
  let lo : Int := - (2 ^ (w - 1) : Nat)
  match v with
  | .nan => (0, fINV)
  | .inf neg => (wrap w (if neg then lo else hi), fSAT)
  | .fin neg n e =>
    let (q, ix) := roundAt rm rand neg n e 0
    let x : Int := if neg then - (q : Int) else q
    if x > hi then (wrap w hi, fSAT + fINX)
    else if x < lo then (wrap w lo, fSAT + fINX)
    else (wrap w x, flagIf ix fINX)

/-- A value rounded to a format (R249, R252): bits and flags. -/
def encFmt (fmt : Nat) (rm : Rm) (rand : Nat) (v : Num) : Nat × Nat :=
  if fmt ≤ 1 then encIeeeR fmt false rm rand v
  else if fmt = 2 then encE4m3 rm rand v
  else if fmt = 3 then encE2m1 rm rand v
  else encInt (if fmt = 4 then 8 else if fmt = 5 then 16 else 32) rm rand v

/-- The sign turned. -/
def Num.neg : Num → Num
  | .nan => .nan
  | .inf s => .inf (!s)
  | .fin s n e => .fin (!s) n e

/-- The magnitude. -/
def Num.abs : Num → Num
  | .nan => .nan
  | .inf _ => .inf false
  | .fin _ n e => .fin false n e

/-- A NaN. -/
def Num.isNan : Num → Bool
  | .nan => true
  | _ => false

/-- A zero. -/
def Num.isZero : Num → Bool
  | .fin _ n _ => n == 0
  | _ => false

/-- An exact product and whether it is 0 × ∞ (R354). -/
def Num.mul (a b : Num) : Num × Bool :=
  match a, b with
  | .nan, _ => (.nan, false)
  | _, .nan => (.nan, false)
  | .inf s, .inf t => (.inf (s != t), false)
  | .inf s, .fin t n _ => if n = 0 then (.nan, true) else (.inf (s != t), false)
  | .fin s n _, .inf t => if n = 0 then (.nan, true) else (.inf (s != t), false)
  | .fin s n e, .fin t m f => (.fin (s != t) (n * m) (e + f), false)

/-- A finite value as an integer multiple of 2^e0, for e0 at most its exponent. -/
def Num.at (e0 : Int) : Num → Int
  | .fin s n e => let v : Int := shiftUp n (e - e0)
                  if s then -v else v
  | _ => 0

/-- The exponent of a finite value; `d` for the others. -/
def Num.expo (d : Int) : Num → Int
  | .fin _ _ e => min e d
  | _ => d

/-- An exact sum and whether infinities of opposite sign met. A zero sum is -0 when every term is -0, or when terms
differ in sign under RDN (R351, R256). -/
def sumNum (rdn : Bool) (l : List Num) : Num × Bool :=
  if l.any Num.isNan then (.nan, false)
  else
    let p := l.any (· == .inf false)
    let n := l.any (· == .inf true)
    if p && n then (.nan, true)
    else if p then (.inf false, false)
    else if n then (.inf true, false)
    else
      let e0 : Int := l.foldl (fun a v => v.expo a) (0 : Int)
      let t : Int := l.foldl (fun a v => a + v.at e0) (0 : Int)
      let negOf := fun v : Num => match v with
        | .fin s _ _ => s
        | _ => false
      if t = 0 then
        let allNeg := !l.isEmpty && l.all negOf
        let anyNeg := l.any negOf
        (.fin (allNeg || (rdn && anyNeg)) 0 0, false)
      else (.fin (t < 0) t.natAbs e0, false)

/-- Numeric order: `some true` for a < b; none with a NaN. -/
def Num.lt? (a b : Num) : Option Bool :=
  match a, b with
  | .nan, _ => none
  | _, .nan => none
  | .inf s, .inf t => some (s && !t)
  | .inf s, _ => some s
  | _, .inf t => some (!t)
  | a, b => let e0 := b.expo (a.expo 0)
            some (a.at e0 < b.at e0)

/-- Numeric equality; false with a NaN, and +0 = -0. -/
def Num.eqv (a b : Num) : Bool := a.lt? b == some false && b.lt? a == some false

/-- The order of VMIN and VMAX: -0 below +0 (R353). -/
def Num.below (a b : Num) : Bool :=
  match a.lt? b with
  | some true => true
  | some false => b.lt? a == some false &&
      (match a, b with
       | .fin s 0 _, .fin t 0 _ => s && !t
       | _, _ => false)
  | none => false

/-- Integer square root by bits. -/
def isqrt : Nat → Nat → Nat → Nat
  | 0, _, r => r
  | k + 1, v, r => let r' := r + 2 ^ k
                   isqrt k v (if r' * r' ≤ v then r' else r)

/-- A truncated magnitude with a set last bit where it is inexact. -/
def sticky (q : Nat) (ix : Bool) (e : Int) (neg : Bool) : Num := .fin neg (2 * q + (if ix then 1 else 0)) (e - 1)

/-- 1/a (R355) and flags. -/
def numRcp : Num → Num × Nat
  | .nan => (.nan, 0)
  | .inf s => (.fin s 0 0, 0)
  | .fin s n e =>
    if n = 0 then (.inf s, fDZ)
    else let k := 120 + Nat.log2 n
      (sticky (2 ^ k / n) (2 ^ k % n != 0) (- (k : Int) - e) s, 0)

/-- 1/√a (R355) and flags. -/
def numRsq : Num → Num × Nat
  | .nan => (.nan, 0)
  | .inf s => if s then (.nan, fINV) else (.fin false 0 0, 0)
  | .fin s n e =>
    if n = 0 then (.inf s, fDZ)
    else if s then (.nan, fINV)
    else
      let (n, e) := if e % 2 = 0 then (n, e) else (2 * n, e - 1)
      let q := isqrt 130 (2 ^ 240 / n) 0
      (sticky q (q * q * n != 2 ^ 240) (-120 - e / 2) false, 0)

/-- Bits of the fixed point in which 2^x and log2 x are formed (log entry 9). -/
def fixP : Nat := 420

/-- ln 2 in fixed point: the sum of 1 / (k 2^k). -/
def ln2Fix : Nat → Nat
  | 0 => 0
  | k + 1 => ln2Fix k + 2 ^ fixP / ((k + 1) * 2 ^ (k + 1))

/-- The Taylor series of exp at x in fixed point: fuel, term, index, sum. -/
def expFix : Nat → Nat → Nat → Nat → Nat → Nat
  | 0, _, _, _, acc => acc
  | f + 1, x, t, i, acc => let t' := t * x / 2 ^ fixP / (i + 1)
                           expFix f x t' (i + 1) (acc + t')

/-- The series of atanh at z in fixed point: fuel, z squared, power, index, sum. -/
def atanhFix : Nat → Nat → Nat → Nat → Nat → Nat
  | 0, _, _, _, acc => acc
  | f + 1, z2, pw, i, acc => atanhFix f z2 (pw * z2 / 2 ^ fixP) (i + 2) (acc + pw / i)

/-- 2^a (R355) and flags; exact for integers. -/
def numExp2 : Num → Num × Nat
  | .nan => (.nan, 0)
  | .inf s => (if s then .fin false 0 0 else .inf false, 0)
  | .fin s n e =>
    let k : Int := if 0 ≤ e then (let v : Int := n * 2 ^ e.toNat; if s then -v else v)
                   else (if s then - ((n + 2 ^ (-e).toNat - 1) / 2 ^ (-e).toNat : Nat) else (n / 2 ^ (-e).toNat : Nat))
    if n = 0 then (.fin false 1 0, 0)
    else if e ≥ 12 || k ≥ 200 then (if s then .fin false 3 (-400) else .fin false 3 400, 0)
    else if k ≤ -400 then (.fin false 3 (-400), 0)
    else if 0 ≤ e then (.fin false 1 k, 0)
    else
      let d := (-e).toNat
      let r := n % 2 ^ d
      if r = 0 then (.fin false 1 k, 0)
      else
        let f := if s then 2 ^ d - r else r
        let x := f * ln2Fix 430 / 2 ^ d
        let y := expFix 110 x (2 ^ fixP) 0 (2 ^ fixP)
        (sticky (y / 2 ^ 60) true (k - ((fixP - 60 : Nat) : Int)) false, 0)

/-- log2 a (R355) and flags; exact for powers of two. -/
def numLog2 : Num → Num × Nat
  | .nan => (.nan, 0)
  | .inf s => if s then (.nan, fINV) else (.inf false, 0)
  | .fin s n e =>
    if n = 0 then (.inf true, fDZ)
    else if s then (.nan, fINV)
    else
      let l := Nat.log2 n
      let k : Int := e + l
      if n = 2 ^ l then (ofInt k, 0)
      else
        let z := (n - 2 ^ l) * 2 ^ fixP / (n + 2 ^ l)
        let a := atanhFix 140 (z * z / 2 ^ fixP) z 1 0
        let g := 2 * a * 2 ^ fixP / ln2Fix 430
        let t : Int := k * (2 ^ fixP : Nat) + g
        (sticky (t.natAbs / 2 ^ 60) true (- ((fixP - 60 : Nat) : Int)) (t < 0), 0)

/-- An exact quotient of finite values, the divisor nonzero, with its leading bits. -/
def numDiv (a b : Num) : Num :=
  match a, b with
  | .fin s n e, .fin t m f =>
    if n = 0 then .fin (s != t) 0 0
    else let k := 120 + Nat.log2 m
      sticky (n * 2 ^ k / m) (n * 2 ^ k % m != 0) (e - f - k) (s != t)
  | .inf s, .fin t _ _ => .inf (s != t)
  | _, _ => .nan

/-- The elements of a row of width w, from element 0 (R243). -/
def rowElems (w : Nat) (r : Nat) : List Nat := (List.range (2048 / w)).map fun i => r / 2 ^ (w * i) % 2 ^ w

/-- A little-endian number of elements of width w. -/
def packElems (w : Nat) : List Nat → Nat
  | [] => 0
  | v :: t => v % 2 ^ w + 2 ^ w * packElems w t

/-- A row of its elements. -/
def ofElems (w : Nat) (l : List Nat) : Row := BitVec.ofNat 2048 (packElems w l)

/-- Element i of a list, 0 beyond it. -/
def nth (l : List Nat) (i : Nat) : Nat := l.getD i 0

/-- The elements that SR rounds draw in order: the seeds after each draw (R250). -/
def roundList (fmt : Nat) (rm : Rm) : Nat → List Num → List Nat × Nat × Nat
  | seed, [] => ([], 0, seed)
  | seed, v :: t =>
    let seed := if rm = .sr then draw seed else seed
    let (b, f) := encFmt fmt rm seed v
    let (bs, fs, seed') := roundList fmt rm seed t
    (b :: bs, f ||| fs, seed')

/-- The AST bits of a set of FST conditions (R201, R351). -/
def astOf (f : Nat) : BitVec 8 :=
  BitVec.ofNat 8 (flagIf (f.testBit 2) 1 + flagIf (f.testBit 6) 2 + flagIf (f.testBit 0) 4 + flagIf (f.testBit 7) 8
    + flagIf (f.testBit 5) 16)

end Sys2Proof.Machine
end

