-- ==== Sys2Proof/Decode.lean ====
section
/-! DEFINITION. From words to instructions and back: the bundle header (R266), the slot words (R267, R284 to
R293) and the eft words (R87, R88). A decoder answers an instruction, or the fault that R282 names. The encoder
follows, written from the same tables. -/

namespace Sys2Proof

/-- Why a word is no instruction (R282): illegal-instruction 0x12 or illegal-bundle 0x13. -/
inductive DecErr where
  | illegalInstruction
  | illegalBundle
  deriving DecidableEq, Repr

/-- The cause code (R215). -/
def DecErr.cause : DecErr → Nat
  | .illegalInstruction => 0x12
  | .illegalBundle => 0x13

/-- The predicate of a PS field; 12-15 and 28-30 are illegal (R212). -/
def predOf (ps : Nat) : Option Pred :=
  if ps = 31 then some .always
  else if ps < 12 then some (.isTrue ps)
  else if 16 ≤ ps ∧ ps < 28 then some (.isFalse (ps - 16))
  else none

/-- An immediate from its field or from the extension word (R269). -/
def immOf (w : Nat) (x : Option Nat) (hi lo : Nat) : Imm :=
  match x with
  | none => .short (bits w hi lo)
  | some e => .ext e

/-- The offset of an SCL load: an extension word holds its bits 44:13 and displaces nothing (R269, R384). -/
def immScl (w : Nat) (x : Option Nat) : Imm :=
  match x with
  | none => .short (bits w 12 0)
  | some e => .ext (bits w 12 0 + 2 ^ 13 * e)

/-- The displaced field must be zero beside an extension word (R269). -/
def immZero (w : Nat) (x : Option Nat) (hi lo : Nat) : Bool := x.isNone || bits w hi lo == 0


/-- A CTL word by the table of R284 and R293; none where a field breaks its row. -/
def parseCtl (w : Nat) (x : Option Nat) (p : Pred) : Option Instr :=
  match bits w 25 20 with
  | 1 =>
    if immZero w x 15 0 then some (.prep p (bits w 19 16) (immOf w x 15 0)) else
    none
  | 2 =>
    if x.isNone ∧ bits w 15 5 = 0 then some (.prepi p (bits w 19 16) (bits w 4 0)) else
    none
  | 3 =>
    if x.isNone ∧ bits w 15 0 = 0 then some (.jmp p (bits w 19 16)) else
    none
  | 4 =>
    if x.isNone ∧ bits w 15 0 = 0 then some (.br p (bits w 19 16)) else
    none
  | 5 =>
    if x.isNone ∧ bits w 15 0 = 0 then some (.brn p (bits w 19 16)) else
    none
  | 6 =>
    if x.isNone ∧ bits w 15 0 = 0 then some (.call p (bits w 19 16)) else
    none
  | 7 =>
    if x.isNone ∧ bits w 19 0 = 0 then some (.ret p) else
    none
  | 8 =>
    if immZero w x 11 0 then some (.loop p (bits w 19 17) (bits w 16 12) (immOf w x 11 0)) else
    none
  | 9 =>
    if immZero w x 9 0 then some (.lstep p (bits w 19 17) (bits w 16 15) (bits w 14 10) (immOf w x 9 0)) else
    none
  | 10 =>
    if x.isNone ∧ bits w 16 0 = 0 then some (.lbrk p (bits w 19 17)) else
    none
  | 11 =>
    if x.isNone ∧ bits w 19 4 = 0 then some (.rot p (bits w 3 0)) else
    none
  | 12 =>
    if x.isNone ∧ bits w 19 5 = 0 then some (.ldep p (bits w 4 0)) else
    none
  | 13 =>
    if x.isNone ∧ bits w 19 4 = 0 then some (.syncN p (bits w 3 0)) else
    none
  | 14 =>
    if x.isNone ∧ bits w 19 4 = 0 then some (.syncX p (bits w 3 0)) else
    none
  | 15 =>
    if x.isNone ∧ bits w 19 11 = 0 then some (.waitfeRow p (bits w 10 0)) else
    if x.isNone ∧ bits w 19 5 = 64 then some (.waitfeFlag p (bits w 4 0)) else
    none
  | 16 =>
    if x.isNone ∧ bits w 19 0 = 0 then some (.susp p) else
    none
  | 17 =>
    if x.isNone ∧ bits w 19 0 = 0 then some (.yield p) else
    none
  | 18 =>
    if x.isNone ∧ bits w 19 0 = 0 then some (.exit p) else
    none
  | 19 =>
    if x.isNone ∧ bits w 19 16 = 0 then some (.trap p (bits w 15 0)) else
    none
  | 20 =>
    if x.isNone ∧ bits w 19 0 = 0 then some (.ifence p) else
    none
  | 21 =>
    if x.isNone ∧ bits w 19 0 = 0 then some (.eret p) else
    none
  | 32 =>
    if x.isNone ∧ bits w 19 0 = 0 then some (.halt p) else
    none
  | _ => none

/-- An SCA or ADR word by the tables of R285, R286 and R293. -/
def parseSca (w : Nat) (x : Option Nat) (p : Pred) : Option Instr :=
  match bits w 25 20 with
  | 1 =>
    if x.isNone ∧ bits w 4 0 = 0 then some (.add p (bits w 19 15) (bits w 14 10) (bits w 9 5)) else
    if x.isNone ∧ bits w 4 0 = 1 then some (.sub p (bits w 19 15) (bits w 14 10) (bits w 9 5)) else
    if x.isNone ∧ bits w 4 0 = 2 then some (.and p (bits w 19 15) (bits w 14 10) (bits w 9 5)) else
    if x.isNone ∧ bits w 4 0 = 3 then some (.or p (bits w 19 15) (bits w 14 10) (bits w 9 5)) else
    if x.isNone ∧ bits w 4 0 = 4 then some (.xor p (bits w 19 15) (bits w 14 10) (bits w 9 5)) else
    if x.isNone ∧ bits w 4 0 = 5 then some (.andn p (bits w 19 15) (bits w 14 10) (bits w 9 5)) else
    if x.isNone ∧ bits w 4 0 = 6 then some (.shl p (bits w 19 15) (bits w 14 10) (bits w 9 5)) else
    if x.isNone ∧ bits w 4 0 = 7 then some (.shr p (bits w 19 15) (bits w 14 10) (bits w 9 5)) else
    if x.isNone ∧ bits w 4 0 = 8 then some (.sra p (bits w 19 15) (bits w 14 10) (bits w 9 5)) else
    if x.isNone ∧ bits w 4 0 = 9 then some (.rotl p (bits w 19 15) (bits w 14 10) (bits w 9 5)) else
    if x.isNone ∧ bits w 4 0 = 10 then some (.min p (bits w 19 15) (bits w 14 10) (bits w 9 5)) else
    if x.isNone ∧ bits w 4 0 = 11 then some (.max p (bits w 19 15) (bits w 14 10) (bits w 9 5)) else
    if x.isNone ∧ bits w 4 0 = 12 then some (.minu p (bits w 19 15) (bits w 14 10) (bits w 9 5)) else
    if x.isNone ∧ bits w 4 0 = 13 then some (.maxu p (bits w 19 15) (bits w 14 10) (bits w 9 5)) else
    none
  | 2 =>
    if x.isNone ∧ bits w 4 0 = 0 then some (.mul p (bits w 19 15) (bits w 14 10) (bits w 9 5)) else
    if x.isNone ∧ bits w 4 0 = 1 then some (.mulhs p (bits w 19 15) (bits w 14 10) (bits w 9 5)) else
    if x.isNone ∧ bits w 4 0 = 2 then some (.mulhz p (bits w 19 15) (bits w 14 10) (bits w 9 5)) else
    if x.isNone ∧ bits w 4 0 = 3 then some (.div p (bits w 19 15) (bits w 14 10) (bits w 9 5)) else
    if x.isNone ∧ bits w 4 0 = 4 then some (.divu p (bits w 19 15) (bits w 14 10) (bits w 9 5)) else
    if x.isNone ∧ bits w 4 0 = 5 then some (.rem p (bits w 19 15) (bits w 14 10) (bits w 9 5)) else
    if x.isNone ∧ bits w 4 0 = 6 then some (.remu p (bits w 19 15) (bits w 14 10) (bits w 9 5)) else
    none
  | 3 =>
    if immZero w x 9 0 then some (.addi p (bits w 19 15) (bits w 14 10) (immOf w x 9 0)) else
    none
  | 4 =>
    if x.isNone ∧ bits w 9 0 = 0 then some (.clz p (bits w 19 15) (bits w 14 10)) else
    if x.isNone ∧ bits w 9 0 = 1 then some (.ctz p (bits w 19 15) (bits w 14 10)) else
    if x.isNone ∧ bits w 9 0 = 2 then some (.popc p (bits w 19 15) (bits w 14 10)) else
    if x.isNone ∧ bits w 9 0 = 3 then some (.sextB p (bits w 19 15) (bits w 14 10)) else
    if x.isNone ∧ bits w 9 0 = 4 then some (.sextH p (bits w 19 15) (bits w 14 10)) else
    if x.isNone ∧ bits w 9 0 = 5 then some (.sextW p (bits w 19 15) (bits w 14 10)) else
    if x.isNone ∧ bits w 9 0 = 6 then some (.zextB p (bits w 19 15) (bits w 14 10)) else
    if x.isNone ∧ bits w 9 0 = 7 then some (.zextH p (bits w 19 15) (bits w 14 10)) else
    if x.isNone ∧ bits w 9 0 = 8 then some (.zextW p (bits w 19 15) (bits w 14 10)) else
    none
  | 5 =>
    if bits w 14 10 = 0 ∧ immZero w x 9 0 then some (.movi p (bits w 19 15) (immOf w x 9 0)) else
    none
  | 6 =>
    if x.isSome ∧ bits w 14 0 = 0 then some (.movhi p (bits w 19 15) (x.getD 0)) else
    none
  | 7 =>
    if x.isNone ∧ bits w 4 2 = 0 then some (.lea p (bits w 19 15) (bits w 14 10) (bits w 9 5) (bits w 1 0)) else
    none
  | 8 =>
    if x.isNone then some (.sel p (bits w 19 15) (bits w 14 10) (bits w 9 5) (bits w 4 4) (bits w 3 0)) else
    none
  | 9 =>
    if x.isNone ∧ bits w 4 3 = 0 then some (.cmp p (bits w 19 15) (bits w 14 10) (bits w 9 5) (bits w 2 0)) else
    none
  | 10 =>
    if x.isNone ∧ bits w 9 0 = 0 then some (.setc p (bits w 19 15) (bits w 14 10)) else
    none
  | 11 =>
    if x.isNone then some (.mfs p (bits w 19 15) (bits w 14 0)) else
    none
  | 12 =>
    if x.isNone then some (.mts p (bits w 19 15) (bits w 14 0)) else
    none
  | 13 =>
    if x.isNone ∧ bits w 19 15 = 0 then some (.mvtc p (bits w 14 10) (bits w 9 0)) else
    none
  | 14 =>
    if x.isNone ∧ bits w 14 10 = 0 then some (.mftc p (bits w 19 15) (bits w 9 0)) else
    none
  | 15 =>
    if x.isNone ∧ bits w 19 10 = 0 then some (.aclr p (bits w 9 0)) else
    none
  | 16 =>
    if immZero w x 9 0 then some (.cmpiEq p (bits w 19 15) (bits w 14 10) (immOf w x 9 0)) else
    none
  | 17 =>
    if immZero w x 9 0 then some (.cmpiNe p (bits w 19 15) (bits w 14 10) (immOf w x 9 0)) else
    none
  | 18 =>
    if immZero w x 9 0 then some (.cmpiLt p (bits w 19 15) (bits w 14 10) (immOf w x 9 0)) else
    none
  | 19 =>
    if immZero w x 9 0 then some (.cmpiGe p (bits w 19 15) (bits w 14 10) (immOf w x 9 0)) else
    none
  | 20 =>
    if immZero w x 9 0 then some (.cmpiLtu p (bits w 19 15) (bits w 14 10) (immOf w x 9 0)) else
    none
  | 21 =>
    if immZero w x 9 0 then some (.cmpiGeu p (bits w 19 15) (bits w 14 10) (immOf w x 9 0)) else
    none
  | 24 =>
    if bits w 9 5 = 0 ∧ immZero w x 4 0 then some (.shli p (bits w 19 15) (bits w 14 10) (immOf w x 4 0)) else
    none
  | 25 =>
    if bits w 9 5 = 0 ∧ immZero w x 4 0 then some (.shri p (bits w 19 15) (bits w 14 10) (immOf w x 4 0)) else
    none
  | 26 =>
    if bits w 9 5 = 0 ∧ immZero w x 4 0 then some (.srai p (bits w 19 15) (bits w 14 10) (immOf w x 4 0)) else
    none
  | _ => none

/-- An SCL word by the table of R291. -/
def parseScl (w : Nat) (x : Option Nat) (p : Pred) : Option Instr :=
  match bits w 25 22 with
  | 1 =>
    some (.sld p (bits w 21 18) (bits w 17 13) (immScl w x))
  | 2 =>
    some (.slil p (bits w 21 18) (bits w 17 13) (immScl w x))
  | 3 =>
    some (.slbs p (bits w 21 18) (bits w 17 13) (immScl w x))
  | 4 =>
    some (.atld p (bits w 21 18) (bits w 17 13) (immScl w x))
  | 5 =>
    if x.isNone ∧ bits w 12 0 = 0 then some (.smov p (bits w 21 18) (bits w 17 16) (bits w 15 13)) else
    none
  | _ => none

/-- An eft word by R87 and R88. -/
def parseEft (w : Nat) : Option Instr :=
  match bits w 31 26 with
  | 1 =>
    some (.eftMovi (bits w 25 22) (bits w 21 21) (bits w 20 0))
  | 2 =>
    if bits w 17 17 = 0 ∧ bits w 12 0 = 0 then some (.eftAdd (bits w 25 22) (bits w 21 18) (bits w 16 13)) else
    if bits w 17 17 = 1 then some (.eftAddImm (bits w 25 22) (bits w 21 18) (bits w 16 0)) else
    none
  | 3 =>
    if bits w 17 17 = 0 ∧ bits w 12 0 = 0 then some (.eftSub (bits w 25 22) (bits w 21 18) (bits w 16 13)) else
    if bits w 17 17 = 1 then some (.eftSubImm (bits w 25 22) (bits w 21 18) (bits w 16 0)) else
    none
  | 4 =>
    if bits w 17 17 = 0 ∧ bits w 12 0 = 0 then some (.eftAnd (bits w 25 22) (bits w 21 18) (bits w 16 13)) else
    if bits w 17 17 = 1 then some (.eftAndImm (bits w 25 22) (bits w 21 18) (bits w 16 0)) else
    none
  | 5 =>
    if bits w 17 17 = 0 ∧ bits w 12 0 = 0 then some (.eftOr (bits w 25 22) (bits w 21 18) (bits w 16 13)) else
    if bits w 17 17 = 1 then some (.eftOrImm (bits w 25 22) (bits w 21 18) (bits w 16 0)) else
    none
  | 6 =>
    if bits w 17 17 = 0 ∧ bits w 12 0 = 0 then some (.eftXor (bits w 25 22) (bits w 21 18) (bits w 16 13)) else
    if bits w 17 17 = 1 then some (.eftXorImm (bits w 25 22) (bits w 21 18) (bits w 16 0)) else
    none
  | 7 =>
    if bits w 17 17 = 0 ∧ bits w 12 0 = 0 then some (.eftShl (bits w 25 22) (bits w 21 18) (bits w 16 13)) else
    if bits w 17 17 = 1 then some (.eftShlImm (bits w 25 22) (bits w 21 18) (bits w 16 0)) else
    none
  | 8 =>
    if bits w 17 17 = 0 ∧ bits w 12 0 = 0 then some (.eftShr (bits w 25 22) (bits w 21 18) (bits w 16 13)) else
    if bits w 17 17 = 1 then some (.eftShrImm (bits w 25 22) (bits w 21 18) (bits w 16 0)) else
    none
  | 9 =>
    if bits w 17 17 = 0 ∧ bits w 12 0 = 0 then some (.eftMul (bits w 25 22) (bits w 21 18) (bits w 16 13)) else
    if bits w 17 17 = 1 then some (.eftMulImm (bits w 25 22) (bits w 21 18) (bits w 16 0)) else
    none
  | 10 =>
    if bits w 17 17 = 0 ∧ bits w 12 0 = 0 then some (.eftMin (bits w 25 22) (bits w 21 18) (bits w 16 13)) else
    if bits w 17 17 = 1 then some (.eftMinImm (bits w 25 22) (bits w 21 18) (bits w 16 0)) else
    none
  | 11 =>
    if bits w 17 17 = 0 ∧ bits w 12 0 = 0 then some (.eftMax (bits w 25 22) (bits w 21 18) (bits w 16 13)) else
    if bits w 17 17 = 1 then some (.eftMaxImm (bits w 25 22) (bits w 21 18) (bits w 16 0)) else
    none
  | 12 =>
    if bits w 17 17 = 0 ∧ bits w 12 0 = 0 then some (.eftCmp (bits w 25 22) (bits w 21 18) (bits w 16 13)) else
    if bits w 17 17 = 1 then some (.eftCmpImm (bits w 25 22) (bits w 21 18) (bits w 16 0)) else
    none
  | 16 =>
    if bits w 25 8 = 0 then some (.eftBf (bits w 7 0)) else
    none
  | 17 =>
    if bits w 25 8 = 0 then some (.eftBfn (bits w 7 0)) else
    none
  | 18 =>
    if bits w 25 8 = 0 then some (.eftJ (bits w 7 0)) else
    none
  | 20 =>
    if bits w 21 18 = 0 ∧ bits w 14 0 = 0 then some (.eftHrd (bits w 25 22) (bits w 17 15)) else
    none
  | 21 =>
    if bits w 25 22 = 0 ∧ bits w 14 0 = 0 then some (.eftHwr (bits w 21 18) (bits w 17 15)) else
    none
  | 24 =>
    some (.eftPld (bits w 25 22) (bits w 21 18) (bits w 17 0))
  | 25 =>
    some (.eftPst (bits w 25 22) (bits w 21 18) (bits w 17 0))
  | 26 =>
    some (.eftFld (bits w 25 22) (bits w 21 18) (bits w 17 0))
  | 27 =>
    some (.eftFst (bits w 25 22) (bits w 21 18) (bits w 17 0))
  | 28 =>
    some (.eftFvld (bits w 25 22) (bits w 21 18) (bits w 17 0))
  | 29 =>
    some (.eftFvst (bits w 25 22) (bits w 21 18) (bits w 17 0))
  | 32 =>
    if bits w 10 0 = 0 then some (.eftVadd (bits w 25 22) (bits w 21 18) (bits w 17 14) (bits w 13 12) (bits w 11 11)) else
    none
  | 33 =>
    if bits w 10 0 = 0 then some (.eftVmax (bits w 25 22) (bits w 21 18) (bits w 17 14) (bits w 13 12) (bits w 11 11)) else
    none
  | 34 =>
    if bits w 10 0 = 0 then some (.eftVmin (bits w 25 22) (bits w 21 18) (bits w 17 14) (bits w 13 12) (bits w 11 11)) else
    none
  | 35 =>
    if bits w 10 0 = 0 then some (.eftVmul (bits w 25 22) (bits w 21 18) (bits w 17 14) (bits w 13 12) (bits w 11 11)) else
    none
  | 36 =>
    if bits w 17 14 = 0 ∧ bits w 10 0 = 0 then some (.eftVcvt (bits w 25 22) (bits w 21 18) (bits w 13 12) (bits w 11 11)) else
    none
  | 48 =>
    if bits w 25 0 = 0 then some .eftFwd else
    none
  | 49 =>
    if bits w 25 22 = 0 then some (.eftMcast (bits w 21 18) (bits w 17 0)) else
    none
  | 50 =>
    if bits w 25 0 = 0 then some .eftDrop else
    none
  | 51 =>
    if bits w 25 0 = 0 then some .eftNack else
    none
  | 52 =>
    if bits w 25 0 = 0 then some .eftEmit else
    none
  | 53 =>
    if bits w 25 0 = 0 then some .eftPark else
    none
  | 54 =>
    if bits w 25 0 = 0 then some .eftDone else
    none
  | 55 =>
    if bits w 25 16 = 0 then some (.eftTrap (bits w 15 0)) else
    none
  | _ => none

/-- The fields of a VEC word (R267). -/
def vecFields (w : Nat) (x : Option Nat) : VecF :=
  ⟨bits w 51 49, bits w 48 46, bits w 45 44, bits w 43 33, bits w 32 22, bits w 21 11, bits w 10 0, x⟩

/-- The fields of an MTX word (R267). -/
def mtxFields (w : Nat) (x : Option Nat) : MtxF :=
  ⟨bits w 52 50, bits w 49 47, bits w 46 45, bits w 44 44, bits w 43 43, bits w 42 42, bits w 41 40, bits w 39 39,
   bits w 38 33, bits w 32 27, bits w 26 21, bits w 20 16, bits w 15 11, bits w 10 6, bits w 5 1, x⟩

/-- The fields of a MEM word (R267). -/
def memFields (w : Nat) (x : Option Nat) : MemF :=
  ⟨bits w 51 49, bits w 48 47, bits w 46 44, bits w 43 39, bits w 38 28, bits w 27 25, bits w 24 24, bits w 23 0, x⟩

/-- A VEC word by R287 and R293. -/
def parseVec (w : Nat) (x : Option Nat) (p : Pred) : Option Instr :=
  match bits w 57 52 with
  | 1 => some (.vadd p (vecFields w x))
  | 2 => some (.vsub p (vecFields w x))
  | 3 => some (.vmul p (vecFields w x))
  | 4 => some (.vfma p (vecFields w x))
  | 5 => some (.vfms p (vecFields w x))
  | 6 => some (.vfnm p (vecFields w x))
  | 7 => some (.vneg p (vecFields w x))
  | 8 => some (.vabs p (vecFields w x))
  | 9 => some (.vmin p (vecFields w x))
  | 10 => some (.vmax p (vecFields w x))
  | 11 => some (.vrcp p (vecFields w x))
  | 12 => some (.vrsq p (vecFields w x))
  | 13 => some (.vexp2 p (vecFields w x))
  | 14 => some (.vlog2 p (vecFields w x))
  | 15 => some (.vsel p (vecFields w x))
  | 16 => some (.vcmpEq p (vecFields w x))
  | 17 => some (.vcmpNe p (vecFields w x))
  | 18 => some (.vcmpLt p (vecFields w x))
  | 19 => some (.vcmpGe p (vecFields w x))
  | 20 => some (.vcmpLtu p (vecFields w x))
  | 21 => some (.vcmpGeu p (vecFields w x))
  | 22 => some (.vand p (vecFields w x))
  | 23 => some (.vor p (vecFields w x))
  | 24 => some (.vxor p (vecFields w x))
  | 25 => some (.vnot p (vecFields w x))
  | 26 => some (.vshl p (vecFields w x))
  | 27 => some (.vshr p (vecFields w x))
  | 28 => some (.vsra p (vecFields w x))
  | 29 => some (.vcvt p (vecFields w x))
  | 30 => some (.vqnt p (vecFields w x))
  | 31 => some (.vdq p (vecFields w x))
  | 32 => some (.vrsum p (vecFields w x))
  | 33 => some (.vrmax p (vecFields w x))
  | 34 => some (.vrmin p (vecFields w x))
  | 35 => some (.vbamax p (vecFields w x))
  | 36 => some (.vmov p (vecFields w x))
  | 37 => some (.vbcst p (vecFields w x))
  | 38 => some (.vext p (vecFields w x))
  | 39 => some (.vins p (vecFields w x))
  | 40 => some (.vperm p (vecFields w x))
  | 41 => some (.vrot p (vecFields w x))
  | 42 => some (.viota p (vecFields w x))
  | 43 => some (.vpack p (vecFields w x))
  | 44 => some (.vunpk p (vecFields w x))
  | 45 => some (.vcmpr p (vecFields w x))
  | 46 => some (.vpart p (vecFields w x))
  | 47 => some (.vamul p (vecFields w x))
  | 48 => some (.vconj p (vecFields w x))
  | 49 => some (.vnorm p (vecFields w x))
  | 56 => some (.vmac p (vecFields w x))
  | _ => none

/-- An MTX word by R288; bit 0 is zero. -/
def parseMtx (w : Nat) (x : Option Nat) (p : Pred) : Option Instr :=
  if bits w 0 0 ≠ 0 then none else match bits w 57 53 with
  | 1 => some (.mma p (mtxFields w x))
  | 2 => some (.mzero p (mtxFields w x))
  | 3 => some (.mrd p (mtxFields w x))
  | 4 => some (.mtrn p (mtxFields w x))
  | 5 => some (.mcpy p (mtxFields w x))
  | _ => none

/-- A MEM word by R289 and R293. -/
def parseMem (w : Nat) (x : Option Nat) (p : Pred) : Option Instr :=
  match bits w 57 52 with
  | 1 => some (.ld p (memFields w x))
  | 2 => some (.st p (memFields w x))
  | 3 => some (.tld p (memFields w x))
  | 4 => some (.tst p (memFields w x))
  | 5 => some (.tldm p (memFields w x))
  | 6 => some (.tstm p (memFields w x))
  | 7 => some (.vgath p (memFields w x))
  | 8 => some (.vscat p (memFields w x))
  | 9 => some (.ldsg p (memFields w x))
  | 10 => some (.fence p (memFields w x))
  | 11 => some (.fenceSc p (memFields w x))
  | 12 => some (.pref p (memFields w x))
  | 16 => some (.bankAdd p (memFields w x))
  | 17 => some (.bankFadd p (memFields w x))
  | 18 => some (.bankMin p (memFields w x))
  | 19 => some (.bankMax p (memFields w x))
  | 20 => some (.bankOr p (memFields w x))
  | 21 => some (.bankAnd p (memFields w x))
  | 22 => some (.bankSwap p (memFields w x))
  | 32 => some (.fenceAll p (memFields w x))
  | _ => none

/-- Whether the tables assign the opcode of slot `sl`, and its function value, in decode generation `gen`
(R284 to R294). -/
def opAssigned (gen sl w : Nat) : Bool :=
  let g1 := gen == 1
  match sl with
  | 0 => let op := bits w 25 20
         if g1 then (1 ≤ op && op ≤ 0x15 && op != 0x0B && op != 0x0C) || op == 0x20 else 1 ≤ op && op ≤ 0x15
  | 1 | 2 =>
    let op := bits w 25 20
    let f := bits w 4 0
    if op == 1 then f ≤ 13
    else if op == 2 then f ≤ 6
    else if op == 4 then f ≤ 8
    else if 0x0B ≤ op && op ≤ 0x0F then sl == 1
    else (1 ≤ op && op ≤ 0x15) || (g1 && 0x18 ≤ op && op ≤ 0x1A)
  | 3 =>
    let op := bits w 57 52
    if g1 then (1 ≤ op && op ≤ 0x31 && op != 0x1E && op != 0x1F && op != 0x23 && op < 0x2D) || op == 0x2C || op == 0x38
    else 1 ≤ op && op ≤ 0x31
  | 4 => let op := bits w 57 53
         1 ≤ op && op ≤ 5
  | 5 =>
    let op := bits w 57 52
    (1 ≤ op && op ≤ 0x0C && !(g1 && op == 0x0B)) || (0x10 ≤ op && op ≤ 0x16 && !(g1 && op == 0x16)) || (g1 && op == 0x20)
  | _ => let op := bits w 25 22
         1 ≤ op && op ≤ 5 && !g1

/-- The PS field of a slot word: bits 30:26 of a 32-bit word, 62:58 of a 64-bit one (R267). -/
def psOf (sl w : Nat) : Nat := if sl = 3 ∨ sl = 4 ∨ sl = 5 then bits w 62 58 else bits w 30 26

/-- A slot word to an instruction by its slot's table, whatever its fields' ranges. -/
def parseSlot (sl w : Nat) (x : Option Nat) (p : Pred) : Option Instr :=
  match sl with
  | 0 => parseCtl w x p
  | 1 | 2 => parseSca w x p
  | 3 => parseVec w x p
  | 4 => parseMtx w x p
  | 5 => parseMem w x p
  | _ => parseScl w x p

/-- A slot word of slot `sl`, with its extension word where X = 1, under generation `gen`: the opcode first, then
every other field (R282). -/
def decodeSlot (gen sl w : Nat) (x : Option Nat) : Except DecErr Instr :=
  if !opAssigned gen sl w then .error .illegalInstruction
  else match predOf (psOf sl w) with
    | none => .error .illegalBundle
    | some p => match parseSlot sl w x p with
      | none => .error .illegalBundle
      | some i => if i.wf gen then .ok i else .error .illegalBundle

/-- A bundle header (R266); LO is taken as 0 under VLX1, whose bits 31:27 and 23:17 are ignored (R292). -/
structure Header where
  pm : Nat
  dp : Bool
  bk : Nat
  fo : Nat
  lo : Nat
  lv : Nat
  deriving DecidableEq, Repr

/-- The end bundle of a block has BK 01 or 11. -/
def Header.isEnd (h : Header) : Bool := h.bk == 1 || h.bk == 3

/-- The header checks of R266 and R292. -/
def decodeHeader (gen w : Nat) : Except DecErr Header :=
  let h : Header := ⟨bits w 6 0, bits w 7 7 == 1, bits w 9 8, bits w 16 10, if gen = 1 then 0 else bits w 23 17, bits w 26 24⟩
  let bad := if gen = 1 then (4 ≤ h.lv && h.lv ≤ 6) || h.pm ≥ 64
             else bits w 31 27 != 0 || h.lv == 6
  let stray := (List.range 7).any fun i => (h.fo.testBit i || h.lo.testBit i) && !h.pm.testBit i
  if bad || stray then .error .illegalBundle else .ok h

/-- The fields of an encoding's PS (R212). -/
def Pred.code : Pred → Nat
  | .always => 31
  | .isTrue n => n
  | .isFalse n => 16 + n

/-- The field of an immediate that sits in the slot word; zero beside an extension word (R269). -/
def Imm.field : Imm → Nat
  | .short r => r
  | .ext _ => 0

/-- Bit X of a 32-bit slot word. -/
def Imm.xbit : Imm → Nat
  | .short _ => 0
  | .ext _ => 2 ^ 31

/-- The extension word. -/
def Imm.ext? : Imm → Option Nat
  | .short _ => none
  | .ext r => some r

/-- A CTL word (R267): opcode, predicate and the operand bits 19:0. -/
def ctlW (op : Nat) (p : Pred) (rest : Nat) : Nat := p.code * 2 ^ 26 + op * 2 ^ 20 + rest

/-- A CTL word whose offset may sit in the extension word. -/
def ctlI (op : Nat) (p : Pred) (rest : Nat) (im : Imm) : Nat × Option Nat :=
  (im.xbit + p.code * 2 ^ 26 + op * 2 ^ 20 + rest + im.field, im.ext?)

/-- An SCA or ADR word (R267). -/
def scaW (op : Nat) (p : Pred) (d a b f : Nat) : Nat :=
  p.code * 2 ^ 26 + op * 2 ^ 20 + d * 2 ^ 15 + a * 2 ^ 10 + b * 2 ^ 5 + f

/-- An SCA or ADR word with an immediate in bits 9:0 or in the extension word. -/
def scaI (op : Nat) (p : Pred) (d a : Nat) (im : Imm) : Nat × Option Nat :=
  (im.xbit + p.code * 2 ^ 26 + op * 2 ^ 20 + d * 2 ^ 15 + a * 2 ^ 10 + im.field, im.ext?)

/-- An SCL load word (R269, R291). -/
def sclI (op : Nat) (p : Pred) (d b : Nat) (im : Imm) : Nat × Option Nat :=
  let w := im.xbit + p.code * 2 ^ 26 + op * 2 ^ 22 + d * 2 ^ 18 + b * 2 ^ 13
  match im with
  | .short r => (w + r, none)
  | .ext v => (w + v % 2 ^ 13, some (v / 2 ^ 13))

/-- An eft word: opcode and bits 25:0 (R87). -/
def eftW (op : Nat) (rest : Nat) : Nat := op * 2 ^ 26 + rest

/-- A VEC word (R267). -/
def encVec (op : Nat) (p : Pred) (f : VecF) : Nat × Option Nat :=
  ((if f.ext.isSome then 2 ^ 63 else 0) + p.code * 2 ^ 58 + op * 2 ^ 52 + f.fmt * 2 ^ 49 + f.fe * 2 ^ 46 + f.ru * 2 ^ 44
    + f.d * 2 ^ 33 + f.a * 2 ^ 22 + f.b * 2 ^ 11 + f.c, f.ext)

/-- An MTX word (R267). -/
def encMtx (op : Nat) (p : Pred) (f : MtxF) : Nat × Option Nat :=
  ((if f.ext.isSome then 2 ^ 63 else 0) + p.code * 2 ^ 58 + op * 2 ^ 53 + f.fa * 2 ^ 50 + f.fb * 2 ^ 47 + f.att * 2 ^ 45
    + f.ord * 2 ^ 44 + f.cja * 2 ^ 43 + f.cjb * 2 ^ 42 + f.acc * 2 ^ 40 + f.sat * 2 ^ 39 + f.tc * 2 ^ 33 + f.ta * 2 ^ 27
    + f.tb * 2 ^ 21 + f.a0 * 2 ^ 16 + f.b0 * 2 ^ 11 + f.cnt * 2 ^ 6 + f.grd * 2, f.ext)

/-- A MEM word (R267). -/
def encMem (op : Nat) (p : Pred) (f : MemF) : Nat × Option Nat :=
  ((if f.ext.isSome then 2 ^ 63 else 0) + p.code * 2 ^ 58 + op * 2 ^ 52 + f.fe * 2 ^ 49 + f.ord * 2 ^ 47 + f.scope * 2 ^ 44
    + f.base * 2 ^ 39 + f.data * 2 ^ 28 + f.size * 2 ^ 25 + f.pi * 2 ^ 24 + f.off, f.ext)

/-- The word of an instruction and its extension word; events have no word. -/
def encode : Instr → Option (Nat × Option Nat)
  | .packageReset => none
  | .powerLoss => none
  | .criticalTemperature _ => none
  | .powerMeasurement _ => none
  | .supplySagStepUp _ => none
  | .supplySagStepDown _ => none
  | .tscTick => none
  | .refreshManagement _ _ _ => none
  | .hostRequest _ => none
  | .ideIntegrityFailure _ _ => none
  | .pcieLinkDown _ => none
  | .pcieLinkUp _ => none
  | .pfIdectlWrite _ _ => none
  | .pwrCapWrite _ => none
  | .cqTailWrite _ _ _ => none
  | .cqCtlWrite _ _ _ => none
  | .cpLseedWrite _ _ => none
  | .lotteryDraw _ => none
  | .launch _ => none
  | .admitImage _ => none
  | .retire _ => none
  | .marker _ => none
  | .launchCompletion _ => none
  | .vfPartWrite _ _ => none
  | .partClmapWrite _ _ => none
  | .nrConsWrite _ _ => none
  | .hvNrConsWrite _ _ => none
  | .dataFlitSend _ _ _ _ => none
  | .dataFlitReceive _ _ => none
  | .controlFlitReceive _ _ => none
  | .oldKeyRetired _ _ => none
  | .idleFlitReceive _ _ => none
  | .retryRequest _ _ => none
  | .linkRetrain _ _ => none
  | .linkFailed _ => none
  | .keyLimitWarning _ => none
  | .keyLimit _ => none
  | .jlkKldWrite _ _ => none
  | .txselWrite _ _ => none
  | .retrainWrite _ _ => none
  | .linkEnableWrite _ _ => none
  | .linkReport _ _ => none
  | .packetInject _ _ _ => none
  | .switchTurn _ => none
  | .jalcyDEndpointRewrite _ _ => none
  | .portSwitchRoute _ _ _ => none
  | .nocTurnWrite _ _ _ _ => none
  | .nocWinminWrite _ _ => none
  | .read _ _ => none
  | .write _ _ => none
  | .readReply _ _ => none
  | .writeAcknowledge _ _ => none
  | .bankOperation _ _ => none
  | .bankReply _ _ => none
  | .tlbWalk _ _ _ => none
  | .zeroBeforeFirstAccess _ _ _ _ => none
  | .invProdWrite _ _ => none
  | .invKickWrite _ _ => none
  | .invalidatePage _ => none
  | .invalidatePartition _ => none
  | .movePage _ _ => none
  | .contextLoad _ _ => none
  | .contextWriteBack _ _ => none
  | .waitWriteBack _ => none
  | .flagReread _ _ _ => none
  | .waitDeadline _ _ _ => none
  | .contWakeWrite _ _ => none
  | .barrierComplete _ _ => none
  | .riserCheck _ => none
  | .contextExit _ => none
  | .preemption _ => none
  | .preWrite _ _ => none
  | .holdWrite _ _ => none
  | .pldWrite _ => none
  | .plcWrite _ _ _ => none
  | .pltWrite _ _ _ _ _ => none
  | .slottabWrite _ _ => none
  | .cardLseedWrite _ _ => none
  | .autotomy _ => none
  | .sfcWindowExpiry _ => none
  | .verdictRemote _ => none
  | .verdictLocal _ => none
  | .retiredWrite _ _ => none
  | .finjCtlWrite _ _ => none
  | .collRtbWrite _ _ => none
  | .bargCtlWrite _ _ _ => none
  | .bargCluWrite _ _ _ => none
  | .cardWindowEntry _ _ => none
  | .cardDraw _ _ => none
  | .copy2d _ _ => none
  | .copyx _ _ => none
  | .gather _ _ => none
  | .scacc _ _ => none
  | .fill _ _ => none
  | .cardDone _ _ => none
  | .copyxTimeout _ _ => none
  | .ringPoll _ _ _ => none
  | .allReduce _ _ _ => none
  | .reduce _ _ _ => none
  | .broadcast _ _ _ => none
  | .allGather _ _ _ => none
  | .reduceScatter _ _ _ => none
  | .allToAll _ _ _ => none
  | .barrier _ _ _ => none
  | .send _ _ _ => none
  | .receive _ _ _ => none
  | .collectiveData _ _ => none
  | .answer _ _ => none
  | .nack _ _ => none
  | .collectiveRetry _ _ _ => none
  | .parkTimeout _ _ _ => none
  | .collectiveTimeout _ _ => none
  | .arm _ _ _ => none
  | .eftPacketArrival _ _ _ => none
  | .eftRun _ _ => none
  | .eftRetry _ _ _ => none
  | .eftSendLost _ _ _ => none
  | .eftKernelEnable _ _ _ _ => none
  | .eftKernelDisable _ _ _ _ => none
  | .eftImemWrite _ _ _ _ => none
  | .eftFlowwinAccess _ _ _ _ => none
  | .registerWrite _ _ _ => none
  | .nop bk dp lv => some (bk * 2 ^ 8 + dp * 2 ^ 7 + lv * 2 ^ 24, none)
  | .prep p n im => some (ctlI 1 p (n * 2 ^ 16) im)
  | .prepi p n m => some (ctlW 2 p (n * 2 ^ 16 + m), none)
  | .jmp p n => some (ctlW 3 p (n * 2 ^ 16), none)
  | .br p n => some (ctlW 4 p (n * 2 ^ 16), none)
  | .brn p n => some (ctlW 5 p (n * 2 ^ 16), none)
  | .call p n => some (ctlW 6 p (n * 2 ^ 16), none)
  | .ret p => some (ctlW 7 p (0), none)
  | .loop p l c im => some (ctlI 8 p (l * 2 ^ 17 + c * 2 ^ 12) im)
  | .lstep p l b r im => some (ctlI 9 p (l * 2 ^ 17 + b * 2 ^ 15 + r * 2 ^ 10) im)
  | .lbrk p l => some (ctlW 10 p (l * 2 ^ 17), none)
  | .rot p n => some (ctlW 11 p (n), none)
  | .ldep p n => some (ctlW 12 p (n), none)
  | .syncN p g => some (ctlW 13 p (g), none)
  | .syncX p g => some (ctlW 14 p (g), none)
  | .waitfeRow p r => some (ctlW 15 p (r), none)
  | .waitfeFlag p r => some (ctlW 15 p (2048 + r), none)
  | .susp p => some (ctlW 16 p (0), none)
  | .yield p => some (ctlW 17 p (0), none)
  | .exit p => some (ctlW 18 p (0), none)
  | .trap p c => some (ctlW 19 p (c), none)
  | .ifence p => some (ctlW 20 p (0), none)
  | .eret p => some (ctlW 21 p (0), none)
  | .halt p => some (ctlW 32 p (0), none)
  | .add p d a b => some (scaW 1 p d a b (0), none)
  | .sub p d a b => some (scaW 1 p d a b (1), none)
  | .and p d a b => some (scaW 1 p d a b (2), none)
  | .or p d a b => some (scaW 1 p d a b (3), none)
  | .xor p d a b => some (scaW 1 p d a b (4), none)
  | .andn p d a b => some (scaW 1 p d a b (5), none)
  | .shl p d a b => some (scaW 1 p d a b (6), none)
  | .shr p d a b => some (scaW 1 p d a b (7), none)
  | .sra p d a b => some (scaW 1 p d a b (8), none)
  | .rotl p d a b => some (scaW 1 p d a b (9), none)
  | .min p d a b => some (scaW 1 p d a b (10), none)
  | .max p d a b => some (scaW 1 p d a b (11), none)
  | .minu p d a b => some (scaW 1 p d a b (12), none)
  | .maxu p d a b => some (scaW 1 p d a b (13), none)
  | .mul p d a b => some (scaW 2 p d a b (0), none)
  | .mulhs p d a b => some (scaW 2 p d a b (1), none)
  | .mulhz p d a b => some (scaW 2 p d a b (2), none)
  | .div p d a b => some (scaW 2 p d a b (3), none)
  | .divu p d a b => some (scaW 2 p d a b (4), none)
  | .rem p d a b => some (scaW 2 p d a b (5), none)
  | .remu p d a b => some (scaW 2 p d a b (6), none)
  | .addi p d a im => some (scaI 3 p d a im)
  | .clz p d a => some (scaW 4 p d a 0 (0), none)
  | .ctz p d a => some (scaW 4 p d a 0 (1), none)
  | .popc p d a => some (scaW 4 p d a 0 (2), none)
  | .sextB p d a => some (scaW 4 p d a 0 (3), none)
  | .sextH p d a => some (scaW 4 p d a 0 (4), none)
  | .sextW p d a => some (scaW 4 p d a 0 (5), none)
  | .zextB p d a => some (scaW 4 p d a 0 (6), none)
  | .zextH p d a => some (scaW 4 p d a 0 (7), none)
  | .zextW p d a => some (scaW 4 p d a 0 (8), none)
  | .movi p d im => some (scaI 5 p d 0 im)
  | .movhi p d i => some (2 ^ 31 + scaW 6 p d 0 0 0, some i)
  | .lea p d a b x_ => some (scaW 7 p d a b (x_), none)
  | .sel p d a b g n => some (scaW 8 p d a b (g * 2 ^ 4 + n), none)
  | .cmp p n a b c => some (scaW 9 p n a b (c), none)
  | .setc p n a => some (scaW 10 p n a 0 (0), none)
  | .mfs p d r => some (scaW 11 p d 0 0 (r), none)
  | .mts p x_ r => some (scaW 12 p x_ 0 0 (r), none)
  | .mvtc p a n => some (scaW 13 p 0 a 0 (n), none)
  | .mftc p d n => some (scaW 14 p d 0 0 (n), none)
  | .aclr p n => some (scaW 15 p 0 0 0 (n), none)
  | .cmpiEq p n a im => some (scaI 16 p n a im)
  | .cmpiNe p n a im => some (scaI 17 p n a im)
  | .cmpiLt p n a im => some (scaI 18 p n a im)
  | .cmpiGe p n a im => some (scaI 19 p n a im)
  | .cmpiLtu p n a im => some (scaI 20 p n a im)
  | .cmpiGeu p n a im => some (scaI 21 p n a im)
  | .shli p d a n => some (scaI 24 p d a n)
  | .shri p d a n => some (scaI 25 p d a n)
  | .srai p d a n => some (scaI 26 p d a n)
  | .vadd p f => some (encVec 0x1 p f)
  | .vsub p f => some (encVec 0x2 p f)
  | .vmul p f => some (encVec 0x3 p f)
  | .vfma p f => some (encVec 0x4 p f)
  | .vfms p f => some (encVec 0x5 p f)
  | .vfnm p f => some (encVec 0x6 p f)
  | .vmac p f => some (encVec 0x38 p f)
  | .vneg p f => some (encVec 0x7 p f)
  | .vabs p f => some (encVec 0x8 p f)
  | .vmin p f => some (encVec 0x9 p f)
  | .vmax p f => some (encVec 0xA p f)
  | .vrcp p f => some (encVec 0xB p f)
  | .vrsq p f => some (encVec 0xC p f)
  | .vexp2 p f => some (encVec 0xD p f)
  | .vlog2 p f => some (encVec 0xE p f)
  | .vsel p f => some (encVec 0xF p f)
  | .vcmpEq p f => some (encVec 0x10 p f)
  | .vcmpNe p f => some (encVec 0x11 p f)
  | .vcmpLt p f => some (encVec 0x12 p f)
  | .vcmpGe p f => some (encVec 0x13 p f)
  | .vcmpLtu p f => some (encVec 0x14 p f)
  | .vcmpGeu p f => some (encVec 0x15 p f)
  | .vand p f => some (encVec 0x16 p f)
  | .vor p f => some (encVec 0x17 p f)
  | .vxor p f => some (encVec 0x18 p f)
  | .vnot p f => some (encVec 0x19 p f)
  | .vshl p f => some (encVec 0x1A p f)
  | .vshr p f => some (encVec 0x1B p f)
  | .vsra p f => some (encVec 0x1C p f)
  | .vcvt p f => some (encVec 0x1D p f)
  | .vqnt p f => some (encVec 0x1E p f)
  | .vdq p f => some (encVec 0x1F p f)
  | .vrsum p f => some (encVec 0x20 p f)
  | .vrmax p f => some (encVec 0x21 p f)
  | .vrmin p f => some (encVec 0x22 p f)
  | .vbamax p f => some (encVec 0x23 p f)
  | .vmov p f => some (encVec 0x24 p f)
  | .vbcst p f => some (encVec 0x25 p f)
  | .vext p f => some (encVec 0x26 p f)
  | .vins p f => some (encVec 0x27 p f)
  | .vperm p f => some (encVec 0x28 p f)
  | .vrot p f => some (encVec 0x29 p f)
  | .viota p f => some (encVec 0x2A p f)
  | .vpack p f => some (encVec 0x2B p f)
  | .vunpk p f => some (encVec 0x2C p f)
  | .vcmpr p f => some (encVec 0x2D p f)
  | .vpart p f => some (encVec 0x2E p f)
  | .vamul p f => some (encVec 0x2F p f)
  | .vconj p f => some (encVec 0x30 p f)
  | .vnorm p f => some (encVec 0x31 p f)
  | .mma p f => some (encMtx 1 p f)
  | .mzero p f => some (encMtx 2 p f)
  | .mrd p f => some (encMtx 3 p f)
  | .mtrn p f => some (encMtx 4 p f)
  | .mcpy p f => some (encMtx 5 p f)
  | .ld p f => some (encMem 0x1 p f)
  | .st p f => some (encMem 0x2 p f)
  | .tld p f => some (encMem 0x3 p f)
  | .tst p f => some (encMem 0x4 p f)
  | .tldm p f => some (encMem 0x5 p f)
  | .tstm p f => some (encMem 0x6 p f)
  | .vgath p f => some (encMem 0x7 p f)
  | .vscat p f => some (encMem 0x8 p f)
  | .ldsg p f => some (encMem 0x9 p f)
  | .fence p f => some (encMem 0xA p f)
  | .fenceSc p f => some (encMem 0xB p f)
  | .fenceAll p f => some (encMem 0x20 p f)
  | .pref p f => some (encMem 0xC p f)
  | .bankAdd p f => some (encMem 0x10 p f)
  | .bankFadd p f => some (encMem 0x11 p f)
  | .bankMin p f => some (encMem 0x12 p f)
  | .bankMax p f => some (encMem 0x13 p f)
  | .bankOr p f => some (encMem 0x14 p f)
  | .bankAnd p f => some (encMem 0x15 p f)
  | .bankSwap p f => some (encMem 0x16 p f)
  | .sld p d b im => some (sclI 1 p d b im)
  | .slil p d b im => some (sclI 2 p d b im)
  | .slbs p d b im => some (sclI 3 p d b im)
  | .atld p d b im => some (sclI 4 p d b im)
  | .smov p d k x_ => some (p.code * 2 ^ 26 + 5 * 2 ^ 22 + d * 2 ^ 18 + k * 2 ^ 16 + x_ * 2 ^ 13, none)
  | .eftMovi d h i => some (eftW 1 (d * 2 ^ 22 + h * 2 ^ 21 + i), none)
  | .eftAdd d a b => some (eftW 2 (d * 2 ^ 22 + a * 2 ^ 18 + b * 2 ^ 13), none)
  | .eftAddImm d a i => some (eftW 2 (131072 + d * 2 ^ 22 + a * 2 ^ 18 + i), none)
  | .eftSub d a b => some (eftW 3 (d * 2 ^ 22 + a * 2 ^ 18 + b * 2 ^ 13), none)
  | .eftSubImm d a i => some (eftW 3 (131072 + d * 2 ^ 22 + a * 2 ^ 18 + i), none)
  | .eftAnd d a b => some (eftW 4 (d * 2 ^ 22 + a * 2 ^ 18 + b * 2 ^ 13), none)
  | .eftAndImm d a i => some (eftW 4 (131072 + d * 2 ^ 22 + a * 2 ^ 18 + i), none)
  | .eftOr d a b => some (eftW 5 (d * 2 ^ 22 + a * 2 ^ 18 + b * 2 ^ 13), none)
  | .eftOrImm d a i => some (eftW 5 (131072 + d * 2 ^ 22 + a * 2 ^ 18 + i), none)
  | .eftXor d a b => some (eftW 6 (d * 2 ^ 22 + a * 2 ^ 18 + b * 2 ^ 13), none)
  | .eftXorImm d a i => some (eftW 6 (131072 + d * 2 ^ 22 + a * 2 ^ 18 + i), none)
  | .eftShl d a b => some (eftW 7 (d * 2 ^ 22 + a * 2 ^ 18 + b * 2 ^ 13), none)
  | .eftShlImm d a i => some (eftW 7 (131072 + d * 2 ^ 22 + a * 2 ^ 18 + i), none)
  | .eftShr d a b => some (eftW 8 (d * 2 ^ 22 + a * 2 ^ 18 + b * 2 ^ 13), none)
  | .eftShrImm d a i => some (eftW 8 (131072 + d * 2 ^ 22 + a * 2 ^ 18 + i), none)
  | .eftMul d a b => some (eftW 9 (d * 2 ^ 22 + a * 2 ^ 18 + b * 2 ^ 13), none)
  | .eftMulImm d a i => some (eftW 9 (131072 + d * 2 ^ 22 + a * 2 ^ 18 + i), none)
  | .eftMin d a b => some (eftW 10 (d * 2 ^ 22 + a * 2 ^ 18 + b * 2 ^ 13), none)
  | .eftMinImm d a i => some (eftW 10 (131072 + d * 2 ^ 22 + a * 2 ^ 18 + i), none)
  | .eftMax d a b => some (eftW 11 (d * 2 ^ 22 + a * 2 ^ 18 + b * 2 ^ 13), none)
  | .eftMaxImm d a i => some (eftW 11 (131072 + d * 2 ^ 22 + a * 2 ^ 18 + i), none)
  | .eftCmp c a b => some (eftW 12 (c * 2 ^ 22 + a * 2 ^ 18 + b * 2 ^ 13), none)
  | .eftCmpImm c a i => some (eftW 12 (131072 + c * 2 ^ 22 + a * 2 ^ 18 + i), none)
  | .eftBf o => some (eftW 16 (o), none)
  | .eftBfn o => some (eftW 17 (o), none)
  | .eftJ o => some (eftW 18 (o), none)
  | .eftHrd d n => some (eftW 20 (d * 2 ^ 22 + n * 2 ^ 15), none)
  | .eftHwr a n => some (eftW 21 (a * 2 ^ 18 + n * 2 ^ 15), none)
  | .eftPld d a o => some (eftW 24 (d * 2 ^ 22 + a * 2 ^ 18 + o), none)
  | .eftPst x_ a o => some (eftW 25 (x_ * 2 ^ 22 + a * 2 ^ 18 + o), none)
  | .eftFld d a o => some (eftW 26 (d * 2 ^ 22 + a * 2 ^ 18 + o), none)
  | .eftFst x_ a o => some (eftW 27 (x_ * 2 ^ 22 + a * 2 ^ 18 + o), none)
  | .eftFvld d a o => some (eftW 28 (d * 2 ^ 22 + a * 2 ^ 18 + o), none)
  | .eftFvst x_ a o => some (eftW 29 (x_ * 2 ^ 22 + a * 2 ^ 18 + o), none)
  | .eftVadd d a b t h => some (eftW 32 (d * 2 ^ 22 + a * 2 ^ 18 + b * 2 ^ 14 + t * 2 ^ 12 + h * 2 ^ 11), none)
  | .eftVmax d a b t h => some (eftW 33 (d * 2 ^ 22 + a * 2 ^ 18 + b * 2 ^ 14 + t * 2 ^ 12 + h * 2 ^ 11), none)
  | .eftVmin d a b t h => some (eftW 34 (d * 2 ^ 22 + a * 2 ^ 18 + b * 2 ^ 14 + t * 2 ^ 12 + h * 2 ^ 11), none)
  | .eftVmul d a b t h => some (eftW 35 (d * 2 ^ 22 + a * 2 ^ 18 + b * 2 ^ 14 + t * 2 ^ 12 + h * 2 ^ 11), none)
  | .eftVcvt d a t h => some (eftW 36 (d * 2 ^ 22 + a * 2 ^ 18 + t * 2 ^ 12 + h * 2 ^ 11), none)
  | .eftFwd  => some (eftW 48 (0), none)
  | .eftMcast a o => some (eftW 49 (a * 2 ^ 18 + o), none)
  | .eftDrop  => some (eftW 50 (0), none)
  | .eftNack  => some (eftW 51 (0), none)
  | .eftEmit  => some (eftW 52 (0), none)
  | .eftPark  => some (eftW 53 (0), none)
  | .eftDone  => some (eftW 54 (0), none)
  | .eftTrap c => some (eftW 55 (c), none)
  | .jalcyLinkUp _ => none
  | .idleFlitSend _ => none

/-- The slot that an instruction word stands in; an SCA word may also stand in ADR (R285). Events and eft words
answer 7. -/
def Instr.slot : Instr → Nat
  | .prep _ _ _ => 0
  | .prepi _ _ _ => 0
  | .jmp _ _ => 0
  | .br _ _ => 0
  | .brn _ _ => 0
  | .call _ _ => 0
  | .ret _ => 0
  | .loop _ _ _ _ => 0
  | .lstep _ _ _ _ _ => 0
  | .lbrk _ _ => 0
  | .rot _ _ => 0
  | .ldep _ _ => 0
  | .syncN _ _ => 0
  | .syncX _ _ => 0
  | .waitfeRow _ _ => 0
  | .waitfeFlag _ _ => 0
  | .susp _ => 0
  | .yield _ => 0
  | .exit _ => 0
  | .trap _ _ => 0
  | .ifence _ => 0
  | .eret _ => 0
  | .halt _ => 0
  | .add _ _ _ _ => 1
  | .sub _ _ _ _ => 1
  | .and _ _ _ _ => 1
  | .or _ _ _ _ => 1
  | .xor _ _ _ _ => 1
  | .andn _ _ _ _ => 1
  | .shl _ _ _ _ => 1
  | .shr _ _ _ _ => 1
  | .sra _ _ _ _ => 1
  | .rotl _ _ _ _ => 1
  | .min _ _ _ _ => 1
  | .max _ _ _ _ => 1
  | .minu _ _ _ _ => 1
  | .maxu _ _ _ _ => 1
  | .mul _ _ _ _ => 1
  | .mulhs _ _ _ _ => 1
  | .mulhz _ _ _ _ => 1
  | .div _ _ _ _ => 1
  | .divu _ _ _ _ => 1
  | .rem _ _ _ _ => 1
  | .remu _ _ _ _ => 1
  | .addi _ _ _ _ => 1
  | .clz _ _ _ => 1
  | .ctz _ _ _ => 1
  | .popc _ _ _ => 1
  | .sextB _ _ _ => 1
  | .sextH _ _ _ => 1
  | .sextW _ _ _ => 1
  | .zextB _ _ _ => 1
  | .zextH _ _ _ => 1
  | .zextW _ _ _ => 1
  | .movi _ _ _ => 1
  | .movhi _ _ _ => 1
  | .lea _ _ _ _ _ => 1
  | .sel _ _ _ _ _ _ => 1
  | .cmp _ _ _ _ _ => 1
  | .setc _ _ _ => 1
  | .mfs _ _ _ => 1
  | .mts _ _ _ => 1
  | .mvtc _ _ _ => 1
  | .mftc _ _ _ => 1
  | .aclr _ _ => 1
  | .cmpiEq _ _ _ _ => 1
  | .cmpiNe _ _ _ _ => 1
  | .cmpiLt _ _ _ _ => 1
  | .cmpiGe _ _ _ _ => 1
  | .cmpiLtu _ _ _ _ => 1
  | .cmpiGeu _ _ _ _ => 1
  | .shli _ _ _ _ => 1
  | .shri _ _ _ _ => 1
  | .srai _ _ _ _ => 1
  | .vadd _ _ => 3
  | .vsub _ _ => 3
  | .vmul _ _ => 3
  | .vfma _ _ => 3
  | .vfms _ _ => 3
  | .vfnm _ _ => 3
  | .vmac _ _ => 3
  | .vneg _ _ => 3
  | .vabs _ _ => 3
  | .vmin _ _ => 3
  | .vmax _ _ => 3
  | .vrcp _ _ => 3
  | .vrsq _ _ => 3
  | .vexp2 _ _ => 3
  | .vlog2 _ _ => 3
  | .vsel _ _ => 3
  | .vcmpEq _ _ => 3
  | .vcmpNe _ _ => 3
  | .vcmpLt _ _ => 3
  | .vcmpGe _ _ => 3
  | .vcmpLtu _ _ => 3
  | .vcmpGeu _ _ => 3
  | .vand _ _ => 3
  | .vor _ _ => 3
  | .vxor _ _ => 3
  | .vnot _ _ => 3
  | .vshl _ _ => 3
  | .vshr _ _ => 3
  | .vsra _ _ => 3
  | .vcvt _ _ => 3
  | .vqnt _ _ => 3
  | .vdq _ _ => 3
  | .vrsum _ _ => 3
  | .vrmax _ _ => 3
  | .vrmin _ _ => 3
  | .vbamax _ _ => 3
  | .vmov _ _ => 3
  | .vbcst _ _ => 3
  | .vext _ _ => 3
  | .vins _ _ => 3
  | .vperm _ _ => 3
  | .vrot _ _ => 3
  | .viota _ _ => 3
  | .vpack _ _ => 3
  | .vunpk _ _ => 3
  | .vcmpr _ _ => 3
  | .vpart _ _ => 3
  | .vamul _ _ => 3
  | .vconj _ _ => 3
  | .vnorm _ _ => 3
  | .mma _ _ => 4
  | .mzero _ _ => 4
  | .mrd _ _ => 4
  | .mtrn _ _ => 4
  | .mcpy _ _ => 4
  | .ld _ _ => 5
  | .st _ _ => 5
  | .tld _ _ => 5
  | .tst _ _ => 5
  | .tldm _ _ => 5
  | .tstm _ _ => 5
  | .vgath _ _ => 5
  | .vscat _ _ => 5
  | .ldsg _ _ => 5
  | .fence _ _ => 5
  | .fenceSc _ _ => 5
  | .fenceAll _ _ => 5
  | .pref _ _ => 5
  | .bankAdd _ _ => 5
  | .bankFadd _ _ => 5
  | .bankMin _ _ => 5
  | .bankMax _ _ => 5
  | .bankOr _ _ => 5
  | .bankAnd _ _ => 5
  | .bankSwap _ _ => 5
  | .sld _ _ _ _ => 6
  | .slil _ _ _ _ => 6
  | .slbs _ _ _ _ => 6
  | .atld _ _ _ _ => 6
  | .smov _ _ _ _ => 6
  | _ => 7

/-- An eft word as R79 accepts it. -/
def decodeEft (w : Nat) : Option Instr :=
  match parseEft w with
  | none => none
  | some i => if i.wf 2 then some i else none

/-- A header word of a bundle with no slot (R266). -/
def decodeNop (w : Nat) : Option Instr :=
  if bits w 31 27 = 0 ∧ bits w 23 10 = 0 ∧ bits w 6 0 = 0 ∧ bits w 26 24 ≠ 6 then
    some (.nop (bits w 9 8) (bits w 7 7) (bits w 26 24))
  else none

/-- An answer of the decoder without its error. -/
def okOf (r : Except DecErr Instr) : Option Instr :=
  match r with
  | .ok i => some i
  | .error _ => none

/-- A 64-bit word in a slot, its extension words zero where X = 1, under VLX2 and then VLX1. -/
def tableSlot (sl w : Nat) : Option Instr :=
  let x := if sl = 3 ∨ sl = 4 ∨ sl = 5 then (if bits w 63 63 = 1 then some 0 else none)
           else (if bits w 31 31 = 1 then some 0 else none)
  okOf (decodeSlot 2 sl w x) |>.or (okOf (decodeSlot 1 sl w x))

/-- The instruction a table word stands for. The words of CTL, SCA, SCL and the eft cores overlap, so one word
can stand for several rows: SCA is tried first, then CTL, SCL and eft; NOP comes before them where LV = 0, or BK or DP is
not 0, and after them elsewhere. Log entry 8. -/
def decodeTableWord (nbits w : Nat) : Option Instr :=
  if nbits ≤ 32 then
    let slots := (tableSlot 1 w).or ((tableSlot 0 w).or ((tableSlot 6 w).or (decodeEft w)))
    if bits w 26 24 = 0 ∨ bits w 9 7 ≠ 0 then (decodeNop w).or slots else slots.or (decodeNop w)
  else (tableSlot 3 w).or ((tableSlot 5 w).or (tableSlot 4 w))

end Sys2Proof
end

