-- ==== Sys2Proof/Machine/State.lean ====
section
/-! DEFINITION. The state of the machine as plain data, the two reasons a step can stop, and the state after a
package reset. Names are the spec's; a docstring names the rule that gives the state. -/

namespace Sys2Proof.Machine

/-- Why the machine stops with a fault. -/
inductive Fault where
  /-- Raised by a slot instruction, or by NOP, when no bundle is in progress: exec was asked to run a slot outside
  the bundle that holds it. Safe: no run of `step` asks for it. -/
  | noBundle
  /-- Raised by an eft instruction when the core that moves has no run in progress. Safe: no run of `step` asks for it. -/
  | noRun
  /-- Raised by an event that names a unit, a card, a packet or an entry that does not exist, or an act that the rules
  do not let the unit take in this state. Safe: the device takes no such step. -/
  | notPossible
  deriving DecidableEq, Repr

/-- Why an instruction has no meaning. -/
inductive Refusal where
  /-- Raised by the arm of an instruction that this model has not reached. Safe. -/
  | notModelled (mnemonic : String)
  deriving DecidableEq, Repr

/-- Sparse data: pairs of key and value in rising key order, none of them the default (what an unlisted key reads as). -/
abbrev SMap (β : Type) := List (Nat × β)

/-- The identity of the part (R12, R13). -/
structure Ident where
  part : Nat := 0x9120
  stepping : Nat := 0
  minor : Nat := 0
  chip : Nat := 0
  deriving DecidableEq, Repr

/-- A steer register: condition, target VA with its valid and kind bits (R295). -/
structure Steer where
  c : Bool := false
  va : Nat := 0
  v : Bool := false
  i : Bool := false
  deriving DecidableEq, Repr

/-- A loop level (R300): each binding is a register number and a stride, register 0 for none. -/
structure Loop where
  count : Nat := 0
  iter : Nat := 0
  start : Nat := 0
  stop : Nat := 0
  binds : List (Nat × W64) := [(0, 0), (0, 0), (0, 0), (0, 0)]
  deriving DecidableEq, Repr

/-- The context state that the tile records at a block's entry and restores before a recast or restart: ROT, LDEP,
loops, the context registers that MTS writes (R304), SRSEED and FST (R251), AST (R216) and the inclusion lists
(R363). -/
structure Arch where
  rot : Nat := 0
  ldep : Nat := 1
  nloop : Nat := 0
  loops : List Loop := [{}, {}, {}, {}, {}, {}]
  fst : W64 := 0
  srseed : W64 := 0
  depcnt : W64 := 0
  collRtb : W64 := 0
  waitDl : W64 := 0
  epc : W64 := 0
  ecause : W64 := 0
  eva : W64 := 0
  sealIdx : W64 := 0
  ast : SMap (BitVec 8) := []
  il : SMap (BitVec 512) := []
  deriving DecidableEq, Repr

/-- What one result writes when it lands (R206). Rows are flat rows after rotation (R204). -/
inductive Wr where
  | x (r : Nat) (v : W64)
  | row (place : Nat) (v : Row)
  | cond (n : Nat) (v : Bool)
  | target (n va : Nat) (v i : Bool)
  | tc (n : Nat) (v : W64)
  | astClr (n : Nat)
  | astOr (n : Nat) (v : BitVec 8)
  | fstOr (v : W64)
  | sc (n : Nat) (v : Row)
  | scCodes (n code : Nat) (v : List Nat)
  | il (n : Nat) (v : BitVec 512)
  /-- Entries of an inclusion list, by index (R386). -/
  | ilEnts (n : Nat) (l : List (Nat × Nat))
  | bs (n : Nat) (v : BitVec 256)
  | tab (n : Nat) (v : BitVec 384)
  | badTab (n va : Nat)
  | fstSet (v : W64)
  | seedSet (v : W64)
  | ctxReg (num : Nat) (v : W64)
  | lin (key : Nat) (v : W32)
  /-- The lineage that a slot which does not execute leaves, on an empty destination too (R213, R221). -/
  | linOnly (key : Nat) (v : W32)
  /-- A destination marked empty at issue (R208), its fill recorded. -/
  | empty (key : Nat)
  deriving DecidableEq, Repr

/-- An exposed-latency result and the issue cycle at which it lands (R206). -/
structure Pend where
  due : Nat
  slot : Nat
  wr : Wr
  deriving DecidableEq, Repr

/-- An entry of the input buffer (R231). -/
structure InEnt where
  isRow : Bool
  va : Nat
  bofs : Nat
  sub : Nat
  val : Nat
  tag : Nat
  done : Bool
  deriving DecidableEq, Repr

/-- Where a fill goes. -/
inductive Dst where
  | none
  | x (r : Nat)
  | row (place : Nat)
  | target (n : Nat)
  deriving DecidableEq, Repr

/-- One access of a fill: its handle, its bytes' VA and length, their place in the destination, and what came. -/
structure FPart where
  rid : Nat
  va : Nat
  len : Nat
  off : Nat
  got : Option Nat
  tag : Nat
  deriving DecidableEq, Repr

/-- A variable-latency load under way (R208). -/
structure Fill where
  dst : Dst
  size : Nat
  parts : List FPart
  /-- Bytes of held stores that cover the load, by offset (R230). -/
  cover : List (Nat × Nat)
  /-- K_op and the lineages of positions a and c (R220). -/
  k : W32
  la : W32
  lc : W32
  gather : Bool
  /-- The entry of the input buffer, counted over all entries. -/
  idx : Nat
  acq : Bool
  scope : Nat
  slot : Nat
  /-- The fault reply (R210): cause, VA, level and home die (R135). -/
  bad : Option (Nat × Nat × Nat × Nat)
  deriving DecidableEq, Repr

/-- A held access (R230). -/
inductive HeldK where
  | store (va len val : Nat)
  | row (va val : Nat) (tag : W32)
  | scat (els : List (Nat × Nat × Nat))
  | bank (op va len val : Nat) (dst : Nat)
  | eng (off val : Nat)
  | go (va val : Nat)
  | fence (total : Bool)
  | mts (num val : Nat)
  deriving DecidableEq, Repr

/-- A held access with its order and scope (R326). -/
structure Held where
  k : HeldK
  ord : Nat
  scope : Nat
  deriving DecidableEq, Repr

/-- A committed access of a context that its home has not yet answered. -/
structure Outst where
  rid : Nat
  va : Nat
  len : Nat
  /-- Bank operations: the register that the reply fills. -/
  dst : Option Nat
  acq : Bool
  scope : Nat
  deriving DecidableEq, Repr

/-- The transfer that an end bundle makes (R229). -/
inductive Xfer where
  | fall
  | steer (t : Nat) (ind : Bool) (call : Bool)
  | ret (t : Nat)
  | zeroLoop (t : Nat)
  deriving DecidableEq, Repr

/-- What a suspension point does after commit (R307). -/
inductive Act where
  | none
  | sync (g : Nat) (x : Bool)
  | waitRow (place : Nat)
  | waitFlag (va idx : Nat)
  | susp
  | yield
  | exit
  | eret
  deriving DecidableEq, Repr

/-- A bundle that has ended its block, and waits for its riser check (R232). `stop` marks a transfer at a bundle
that is no end bundle (R298). -/
structure EndRec where
  va : Nat
  next : Nat
  isEnd : Bool
  dp : Bool
  xfer : Xfer
  act : Act
  /-- The loop level whose iteration the bundle completes (R301). -/
  level : Option Nat
  /-- A store of the committed block has faulted before its transfer (R210, R319). -/
  lost : Bool := false
  deriving DecidableEq, Repr

/-- What a resident context is doing. -/
inductive Phase where
  | running
  /-- Its end bundle has issued; the riser check waits for the block's loads (R232). -/
  | ended (e : EndRec)
  /-- Its block has committed; a verdict among its held accesses is to act before the transfer (R319). -/
  | commit (e : EndRec)
  /-- It waits at its suspension point: KIND 1 barrier, 2 flag, 3 row (R307), for so many context cycles. `arrived`
  tells whether a barrier waiter has arrived. -/
  | waiting (kind obj gen : Nat) (arrived : Bool) (cycles : Nat)
  /-- A synchronous fault that waits for the pending fills (R214 step 4). -/
  | faulting (cause slot eva level die : Nat) (sealed : Bool)
  /-- It is to be written back with the STATE code once it has drained; 8 is a pre-emption, to be queued (R155, R166,
  R174). -/
  | leaving (st : Nat)
  deriving DecidableEq, Repr

/-- A resident context (R148-R150, R198, R217, R242). -/
structure Ctx where
  pc : Nat := 0
  cr : Nat := 0
  save : Nat := 0
  home : Nat := 0
  lclu : Nat := 0
  ctxno : Nat := 0
  part : Nat := 0
  gen : Nat := 2
  prio : Nat := 0
  tmask : Nat := 0
  rb : Bool := false
  /-- SV of word 1 (R149). -/
  sv : Bool := false
  timedOut : Bool := false
  priv : Bool := false
  /-- The logical tile that its physical tile serves. -/
  ltile : Nat := 0
  x : SMap W64 := []
  rows : SMap Row := []
  tc : SMap W64 := []
  sc : SMap Row := []
  bs : SMap (BitVec 256) := []
  tab : SMap (BitVec 384) := []
  steer : SMap Steer := []
  arch : Arch := {}
  /-- The record of R304 at the block's entry. -/
  entry : Arch := {}
  entryVa : Nat := 0
  /-- Set when the next bundle begins a block (R225). -/
  fresh : Bool := true
  /-- Lineages that the block has set; every other register holds its seed (R222). -/
  lin : SMap W32 := []
  odig : W32 := 0
  ddig : W32 := 0
  /-- Destinations that are empty (R208): rows 0-1535, x 0x800 + i, steer targets 0xA00 + n. -/
  empties : List Nat := []
  /-- Issue cycles made (R206). -/
  ic : Nat := 0
  pend : List Pend := []
  fills : List Fill := []
  held : List Held := []
  ibuf : List InEnt := []
  /-- Loads recorded so far in this attempt: rows and scalars. -/
  rowLoads : Nat := 0
  scaLoads : Nat := 0
  /-- Recasts made of this block (R233), and whether a replayed address differed. -/
  recasts : Nat := 0
  strayLoad : Bool := false
  /-- Tables that an ATLD of the block found illegal, the last first, with the VA it read (R259, R384). -/
  badTab : List (Nat × Nat) := []
  /-- Deprecated slots executed in the block, and the first such bundle (R124). -/
  depr : Nat := 0
  deprVa : Nat := 0
  phase : Phase := .running
  /-- Committed accesses not yet sent, and those sent and not yet answered (R188, R326). -/
  out : List Held := []
  outst : List Outst := []
  /-- Engine staging registers Q0-Q3, and the counts of R338. -/
  q : List W64 := [0, 0, 0, 0]
  cmpl : Nat := 0
  abrt : Nat := 0
  posted : Nat := 0
  preempt : Bool := false
  exitStatus : Nat := 0
  sealExp : W64 := 0
  sealObs : W64 := 0
  verdict : Bool := false
  /-- The input buffer frozen by a seal fault (R234). -/
  frozen : List InEnt := []
  /-- The block has written COLL_RTB (R59). -/
  rtbSet : Bool := false
  /-- Lines fetched and held (R194): VA, 64 bytes, and the tick of the fetch. -/
  lines : List (Nat × Nat × Nat) := []
  /-- A suspension point passed in privileged mode, taken after ERET (R214). -/
  owed : Act := .none
  /-- A pre-emption that met the wait of a DP end bundle: it is taken where the wait ends in the slot (R174, R175). -/
  preDue : Bool := false
  deriving DecidableEq, Repr

/-- A bundle in progress: the agent is the context `ck`; its state before the bundle, the bundle's place and the slot
that runs. -/
structure Issue where
  ck : Nat
  before : Ctx
  va : Nat
  hdr : Header
  /-- VA after the bundle, and after its riser where it ends a block. -/
  next : Nat
  slot : Nat
  xfer : Xfer
  act : Act
  /-- The CTL slot executed a transfer, LOOP or ERET (R303). -/
  jumps : Bool
  /-- ROT, LDEP and loop effects that take effect after the bundle. -/
  rot : Option Nat
  ldep : Option Nat
  /-- Events that the bundle posts if it raises no fault: its loads, and replies to reads of registers. -/
  sends : List Instr
  /-- Matrix steps that the bundle queues if it raises no fault (R380). -/
  steps : Nat := 0
  deriving DecidableEq, Repr

/-- A tile (R161, R177, R238, R380). -/
structure Tile where
  cycle : Nat := 0
  slottab : Option Nat := none
  /-- Matrix steps waiting of slot 0 and slot 1, with the issue cycle by which they must be fed. -/
  steps : List (Nat × Nat × Nat) := []
  sfcAt : Nat := 0
  /-- Entry of the last failing block (R240). -/
  failVa : Nat := 0
  deriving DecidableEq, Repr

/-- A card's state (R169). -/
inductive CardState where
  | posted
  | windowed
  | running (engine : Nat)
  | finished (cause : Nat) (va : Nat)
  | done
  deriving DecidableEq, Repr

/-- A job card (R167-R171, R339-R346). -/
structure Card where
  id : Nat
  part : Nat
  cr : Nat
  ctxno : Nat
  serial : Nat
  prio : Nat
  queue : Nat
  q : List W64
  guard : Nat
  st : CardState
  rlo : Nat
  rhi : Nat
  wlo : Nat
  whi : Nat
  edges : List Nat
  ill : Bool
  rows : Nat
  sentAt : Nat
  /-- Of a COPYX to another chip (R345): the count read, the packets of the row under way, the first of them the one that was sent
  last; whether the flag's has been sent; and the acknowledgements that it waits for. -/
  count : Option Nat := none
  buf : List Pkt := []
  flagged : Bool := false
  acks : Nat := 0
  deriving DecidableEq, Repr

/-- A written-back waiter (R163): partition, CR, KIND and object, generation and deadline, and its context number. -/
structure Waiter where
  part : Nat
  cr : Nat
  kind : Nat
  obj : Nat
  gen : Nat
  dl : Nat
  deriving DecidableEq, Repr

/-- A cluster (R153, R163, R167, R170, R181, R21, R241). -/
structure Cluster where
  contq : List (Nat × Nat) := []
  waiters : List Waiter := []
  cards : List Card := []
  gens : List Nat := [1, 1, 1]
  last : List Nat := [15, 15, 15]
  qIsCope : Bool := false
  finj : Nat := 0
  k : Nat := 0
  deriving DecidableEq, Repr

/-- A context from its launch to its end: the launch it belongs to, its footprint and barrier group (R107, R109). -/
structure Live where
  part : Nat
  cr : Nat
  ctxno : Nat
  g : Nat
  any : Bool
  launch : Nat
  bgrp : Nat
  foot : Nat
  /-- STATE of R152. -/
  st : Nat
  first : Bool
  /-- x3, x8, x9 at the first load (R108). -/
  link : Nat
  args : Nat
  rank : Nat
  /-- The ring table was found unmapped (R59). -/
  rtbBad : Bool
  /-- COLL_RTB as the context's last committed block left it (R57, R59). -/
  rtb : Nat := 0
  deriving DecidableEq, Repr

/-- A launch in progress (R109). -/
structure Launch where
  id : Nat
  queue : Nat
  head : Nat
  part : Nat
  flag : Nat
  status : Nat
  left : Nat
  exits : Nat
  exitG : Nat
  exitV : Nat
  faulted : Bool
  lost : Bool
  deriving DecidableEq, Repr

/-- An image of a partition's table (R119). -/
structure Image where
  base : Nat
  size : Nat
  codeOff : Nat
  codeLen : Nat
  gen : Nat
  tmask : Nat
  live : Nat
  entries : List Nat
  deriving DecidableEq, Repr

/-- A command processor (R103, R104). -/
structure Cp where
  x : Nat := 1
  last : Nat := 1023
  /-- Records taken and not yet processed. -/
  taken : List LRec := []
  /-- Records taken and not yet completed: queue and head. -/
  open_ : List (Nat × Nat) := []
  deriving DecidableEq, Repr

/-- A key slot of one direction (R29, R33). -/
structure Key where
  key : Nat := 0
  salt : Nat := 0
  valid : Bool := false
  ctr : Nat := 0
  /-- The next idle counter: of a transmit slot the one to send, of a receive slot the least not yet verified. -/
  idle : Nat := 0
  deriving DecidableEq, Repr

/-- A flit held for replay: its SEQ and the flit as first sent (R31). -/
structure HeldFlit where
  seq : Nat
  flit : Flit
  deriving DecidableEq, Repr

/-- A Jalcy link endpoint (R27-R42). -/
structure Link where
  /-- 0 down, 1 training, 2 up, 3 failed (R37). -/
  st : Nat := 0
  keyerr : Bool := false
  limit : Bool := false
  warned : Bool := false
  txsel : Nat := 0
  nextSeq : Nat := 0
  expect : Nat := 0
  acked : Nat := 0xFFF
  tx : List Key := [{}, {}]
  rx : List Key := [{}, {}]
  kdata : List W64 := [0, 0, 0, 0, 0]
  replay : List HeldFlit := []
  /-- A rollover: the old transmit slot, and the SEQ of old-key-retired once it is sent. -/
  rolling : Option (Nat × Option Nat) := none
  credits : List Nat := [64, 64, 64, 64, 64, 64, 64, 64]
  freed : List Nat := [0, 0, 0, 0, 0, 0, 0, 0]
  /-- The SEQ whose retry is being asked for, and the failures of that request (R32). -/
  retry : Option Nat := none
  retryFails : Nat := 0
  retrainFails : Nat := 0
  lastGood : Nat := 0
  /-- Flits on the wire that this endpoint has sent. -/
  sent : List Flit := []
  /-- Packets whose flits are held, with the SEQ of their last flit. -/
  pkts : List (Nat × Pkt) := []
  /-- Bodies accepted of packets whose last flit has not come, with their channel; plus 8 where an entry to the up state has
  taken them out of the receive buffer (R42). -/
  body : List (Nat × Nat) := []
  /-- A packet begun whose last flits wait for a key below its limit: channel, bodies, packet (R36). -/
  tail : Option (Nat × List Nat × Pkt) := none
  /-- Of a failed endpoint: whether it knows the last SEQ accepted, and the packets that it is to re-inject, in order (R38,
  R41). -/
  reported : Bool := false
  reinject : List Pkt := []
  failedAt : Nat := 0
  deriving DecidableEq, Repr

/-- A packet in an output queue of a switch of a die (R45-R49, R54): stage 0 leaf, 1 middle, 2 spine; its number; the port:
down ports 0-3, 4 + j the up port toward middle switch j of the pod, 4 a middle switch's up port. -/
structure Hop where
  die : Nat
  stage : Nat
  num : Nat
  port : Nat
  pkt : Pkt
  deriving DecidableEq, Repr

/-- A packet that an eft core or a sequencer has sent and holds until its answer (R86, R71). -/
structure Sent where
  pkt : Pkt
  kern : Nat
  part : Nat
  job : Nat
  at_ : Nat
  tries : Nat
  /-- The tick of the next retry; 0 when none is scheduled. -/
  due : Nat
  op : Nat
  deriving DecidableEq, Repr

/-- A parked packet (R70, R85): the tick at which it was parked, and whether its flow has been armed since. -/
structure Parked where
  pkt : Pkt
  at_ : Nat
  ready : Bool
  deriving DecidableEq, Repr

/-- A run of a kernel (R81). -/
structure Run where
  kern : Nat
  pkt : Pkt
  h : List Nat
  win : Nat
  e : List Nat
  v : List Nat
  c : Bool
  pc : Nat
  emits : Nat
  deriving DecidableEq, Repr

/-- An eft core (R75, R78, R84). -/
structure Eft where
  waiting : List Pkt := []
  park : List Parked := []
  outb : List Sent := []
  run : Option Run := none
  /-- Writes that clear EN and wait for the end of a run, each as kernel + 8 × value (R80). -/
  stopping : List Nat := []
  deriving DecidableEq, Repr

/-- A collective block in progress (R62, R65, R72). -/
structure COp where
  id : Nat
  part : Nat
  cr : Nat
  die : Nat
  raw : Nat
  alg : Nat
  n : Nat
  rank : Nat
  members : List Nat
  seqno : Nat
  started : Nat
  /-- Bytes accepted, as offset and length (R76, R409). -/
  covered : List (Nat × Nat)
  /-- The member's contribution has been sent (R409). -/
  armed : Bool
  /-- Of a ring or tree reduction: pieces of the members' contributions, by offset (R66, R67, log entry 115). -/
  data : List (Nat × List Nat)
  deriving DecidableEq, Repr

/-- The collective sequencer of a die (R59-R76). -/
structure Seqr where
  ops : List COp := []
  park : List Parked := []
  sent : List Sent := []
  /-- The next number of each (partition, context, group) (R61). -/
  nums : SMap Nat := []
  /-- Blocks completed lately: flow key, signature, tick (R76). -/
  recent : List (Nat × Nat × Nat) := []
  nextId : Nat := 0
  /-- Where the sweep has come to: place of the context × 64 + ring (R59). -/
  sweep : Nat := 0
  deriving DecidableEq, Repr

/-- A memory-side TLB entry (R133): the leaf's DW0 as walked, where the walk found it, and DW1 to DW15 of a 64 KiB host leaf. -/
structure Tlb where
  die : Nat
  part : Nat
  page : Nat
  size : Nat
  dw0 : Nat
  addr : Nat
  subs : List Nat := []
  deriving DecidableEq, Repr

/-- The access counters of a page (R140), newest first. -/
structure Access where
  die : Nat
  part : Nat
  page : Nat
  counts : List Nat
  deriving DecidableEq, Repr

/-- A notification record on its way to a ring (R18, R114): ring 0-31 of a partition, 32 and 33 of a PF. -/
structure Rec where
  ring : Nat
  src : Nat
  dw1 : Nat
  dw2 : Nat
  dw3 : Nat
  deriving DecidableEq, Repr

/-- An autotomy that waits its turn: the counter at its trigger, the tile, and SFC at the trigger (R238, R240). -/
structure AutoReq where
  at_ : Nat
  tile : Nat
  sfc : Nat
  deriving DecidableEq, Repr

/-- The agent that a step runs. -/
inductive Cur where
  | none
  | eft (die core : Nat)
  deriving DecidableEq, Repr

/-- A move of one agent: what a step can be (log entry 2). -/
inductive Move where
  /-- What is under way or arrives from outside: an entry of `events`. -/
  | event (k : Nat)
  /-- A packet at a switch: an entry of `net`. -/
  | hop (k : Nat)
  | tile (t : Nat)
  | eft (die core : Nat)
  | tick
  /-- A resident context's riser check, entry into its handler, or leaving. -/
  | ctx (ck : Nat)
  | load (t slot : Nat)
  | waitBack (ck : Nat)
  | reread (part cr ck : Nat)
  | deadline (part cr ck : Nat)
  | draw (cp : Nat)
  | cardDraw (cl kind : Nat)
  | card (cl id : Nat)
  | poll (die ctx ring : Nat)
  | eftStart (die core : Nat)
  | window (t : Nat)
  | inval (die : Nat)
  /-- A link endpoint: training, the next flit on the wire toward it, or an idle flit. -/
  | link (ep : Nat)
  /-- A fetch ahead of issue at a context's prepared target (R194, R296). -/
  | fetchAhead (ck n : Nat)
  | copyxTimeout (cl id : Nat)
  | eftRetry (die core i : Nat)
  | eftLost (die core i : Nat)
  | parkTimeout (die unit i : Nat)
  | seqRetry (die op i : Nat)
  | seqTimeout (die op : Nat)
  deriving DecidableEq, Repr

/-- The machine. -/
structure State where
  ident : Ident
  /-- The model's own counter: free values are taken at it (log entry 5). -/
  tick : Nat
  /-- The move that the next step makes, where it is already settled (log entries 2 and 4). -/
  turn : Option Move
  tsc : W64
  /-- Registers that R112, R242, R320 and others number, by `rkey`. -/
  regs : SMap W64
  /-- Every memory of the device and the host, over physical locations (R178). -/
  mem : List Host.Cell
  /-- Line tags, by location / 256 (R223). -/
  tags : SMap W32
  /-- What the release writes that a byte's value goes back to carried (R189, R192), by location. -/
  relVec : SMap (List Stamp)
  /-- Resident contexts by tile × 2 + slot. -/
  ctxs : List (Nat × Ctx)
  iss : Option Issue
  tiles : SMap Tile
  clusters : SMap Cluster
  live : List Live
  launches : List Launch
  images : SMap (List Image)
  serials : SMap Nat
  cps : SMap Cp
  links : SMap Link
  net : List Hop
  efts : SMap Eft
  cur : Cur
  seqrs : SMap Seqr
  tlb : List Tlb
  access : List Access
  /-- Barrier groups whose current generation saw a SYNC.x, by partition × 16 + group. -/
  barX : List Nat
  /-- Host links that are down (R26), by PF. -/
  pfDown : List Nat
  /-- Selective IDE streams (R25): PF, stream, secure. -/
  streams : List (Nat × Nat × Bool)
  /-- Records of one source held until the counter advances (R18), the tick of each source's last record, records held
  while a link is down and the count discarded (R26), and the count lost since the last records-lost record (R114). -/
  recq : List Rec
  recAt : SMap Nat
  recHeld : List (Nat × List Nat)
  recGone : SMap Nat
  lost : SMap Nat
  /-- MSI-X vectors raised, by function × 64 + vector: 0-1 PFs, 2 + v VFs (R101, R114). -/
  msix : SMap Nat
  powerK : Nat
  alerts : List Nat
  rowActs : SMap Nat
  /-- The completion of the last host request: data, or none for Unsupported Request. -/
  resp : Option (Option Nat)
  /-- What is under way or arrives from outside, each to be performed once (log entry 3). -/
  events : List Instr
  /-- The next handle of a request. -/
  nextRid : Nat
  /-- The request windows by `winKey`, one for each tile, engine of a cluster, switch core and sequencer: w, halved_at and seq
  (R55). -/
  wins : SMap (Nat × Nat × Nat)
  nextCard : Nat
  /-- The move that is being made must wait: it crosses dies by a link that is not available yet (R34, log entry 53), or it
  completes only behind an invalidation log that may not be applied, or writes that are not yet performed (R143, R192). -/
  stalled : Bool
  /-- Autotomies that wait their turn, in the order of the (timestamp, source) pairs of their triggers (R238). -/
  autoq : List AutoReq
  deriving DecidableEq, Repr

/-- The machine right after a package reset (R20): the spec's reset values, every memory empty, nothing resident.
Values the spec does not give are those of log entries 1, 5 and 6. -/
def State.reset : State :=
  { ident := {}, tick := 0, turn := none, tsc := 0, regs := [], mem := [], tags := [], relVec := [], ctxs := [], iss := none, tiles := [],
    clusters := [], live := [], launches := [], images := [], serials := [], cps := [], links := [], net := [],
    efts := [], cur := .none, seqrs := [], tlb := [], access := [], barX := [], pfDown := [], streams := [], recq := [],
    recAt := [], recHeld := [], recGone := [], lost := [], msix := [], powerK := 0, alerts := [], rowActs := [],
    resp := none, events := [], nextRid := 1, wins := [], nextCard := 1, stalled := false, autoq := [] }

end Sys2Proof.Machine
end

