-- ==== Sys2Proof/Machine/Ops.lean ====
section
/-! DEFINITION. The named operations over the machine's state: sparse maps, memory and line tags, registers,
notification records, contexts, results and lineage, and the taking of a synchronous fault with the return from it. -/

namespace Sys2Proof.Machine

/-! Sparse maps -/

/-- The value at a key; `d` where none is listed. -/
def SMap.get {β : Type} (d : β) : SMap β → Nat → β
  | [], _ => d
  | (k, v) :: t, i => if i = k then v else if i < k then d else SMap.get d t i

/-- The map with a key removed. -/
def SMap.del {β : Type} : SMap β → Nat → SMap β
  | [], _ => []
  | (k, v) :: t, i => if i = k then t else if i < k then (k, v) :: t else (k, v) :: SMap.del t i

/-- The map with a value listed at a key. -/
def SMap.ins {β : Type} : SMap β → Nat → β → SMap β
  | [], i, w => [(i, w)]
  | (k, v) :: t, i, w => if i = k then (i, w) :: t else if i < k then (i, w) :: (k, v) :: t else (k, v) :: SMap.ins t i w

/-- The map with the value at a key set; a default value is not listed. -/
def SMap.put {β : Type} [DecidableEq β] (d : β) (m : SMap β) (i : Nat) (w : β) : SMap β :=
  if w = d then m.del i else m.ins i w

/-- The canonical form: keys rise and no value is the default. -/
def SMap.Wf {β : Type} (d : β) (m : SMap β) : Prop := m.Pairwise (fun a b => a.1 < b.1) ∧ ∀ p ∈ m, p.2 ≠ d

/-! Memory and line tags -/

/-- What an unlisted byte reads as: 0 (log entry 1). -/
def unwritten : Byte := 0

/-- The canonical form of memory. -/
abbrev Memory.wf (m : List Host.Cell) : Prop := SMap.Wf unwritten m

/-- One byte at a physical location. -/
def rdByte (s : State) (a : Nat) : Byte := SMap.get unwritten s.mem a

/-- One byte written at a physical location. -/
def wrByte (s : State) (a : Nat) (v : Byte) : State := { s with mem := SMap.put unwritten s.mem a v }

/-- n bytes from a location, little-endian (R4). -/
def rdNat (s : State) (a : Nat) : Nat → Nat
  | 0 => 0
  | n + 1 => (rdByte s a).toNat + 256 * rdNat s (a + 1) n

/-- n bytes written at a location, little-endian. -/
def wrNat (s : State) (a : Nat) : Nat → Nat → State
  | 0, _ => s
  | n + 1, v => wrNat (wrByte s a (BitVec.ofNat 8 v)) (a + 1) n (v / 256)

/-- The bytes of a range set to zero. -/
def wipe (s : State) (a n : Nat) : State := { s with mem := s.mem.filter fun c => c.1 < a || a + n ≤ c.1 }

/-- Physical locations: region × 2^60 + offset. 1 scratchpads, 2 plain cluster memory, 3 and 4 the exchange banks P and
Q, 5 die pools, 6 HBM by DPA, 7 host memory by HPA (R178, R181). -/
def region (r o : Nat) : Nat := r * 2 ^ 60 + o

/-- Whether a location's memory keeps line tags (R223). -/
def isTagged (a : Nat) : Bool := a < 6 * 2 ^ 60

/-- The tag of the line of a location; HBM and host memory read tag 0 (R223). -/
def tagAt (s : State) (a : Nat) : W32 := if isTagged a then s.tags.get 0 (a / 256) else 0

/-- The tag of the line of a location set. -/
def setTag (s : State) (a : Nat) (t : W32) : State :=
  if isTagged a then { s with tags := s.tags.put 0 (a / 256) t } else s

/-! Registers -/

/-- The key of a register: its class, its number in the class, its unit. Classes 1-5 are those of R320 with its
numbers: tile, cluster, die, partition, package. 6 VF, 7 PF, 8 partition rings, 9 package registers of R112, 10 HBM
stack, 11 link endpoint, 12 NOC_TURN, 13 PSW_ROUTE, 14 eft core, 15 MSI-X tables. -/
def rkey (cls num unit : Nat) : Nat := (cls * 65536 + num) * 65536 + unit

/-- The reset value of a register (R13 to R400). -/
def resetOf (key : Nat) : W64 :=
  let cls := key / 2 ^ 32
  let num := key / 65536 % 65536
  match cls with
  | 1 => if num = 0x400 then 0xAAAA else if num = 0x401 then 2 else if num = 0x403 then 4
         else if num = 0x404 then 0xA0EEBB00 else 0
  | 2 => if num = 0x803 then 1 else if num = 0x805 then 0x2BC else 0
  | 3 => if num = 0xC00 then 0x18 else if num = 0xC02 then 0x40 else if num = 0xC03 then 0x40 else 0
  | 4 => if num = 0x1008 then 0x5F5E100 else if num = 0x1009 then 0xF4240
         else if 0x1014 ≤ num ∧ num ≤ 0x1017 then 0xFEDCBA9876543210 else 0
  | 5 => if num = 0x2000 then 0xE4 else 0
  | 6 => if num = 1 then 0xFF else if num = 0x11 ∨ num = 0x15 ∨ num = 0x19 ∨ num = 0x1D then 0x1000 else 0
  | 9 => if num = 0 then 2200 else if num = 1 then 1 else 0
  | 10 => if num = 0 then 0x1000 else 0
  | 11 => if num = 0 then 1 else 0
  | _ => 0

/-- A register as stored. -/
def State.reg (s : State) (cls num unit : Nat) : W64 :=
  s.regs.get (resetOf (rkey cls num unit)) (rkey cls num unit)

/-- A register set. -/
def State.setReg (s : State) (cls num unit : Nat) (v : W64) : State :=
  let k := rkey cls num unit
  { s with regs := if v = resetOf k then s.regs.del k else s.regs.ins k v }

/-- A register as a number. -/
def State.rn (s : State) (cls num unit : Nat) : Nat := (s.reg cls num unit).toNat

/-- A register set to a number modulo 2^64. -/
def State.setN (s : State) (cls num unit v : Nat) : State := s.setReg cls num unit (BitVec.ofNat 64 v)

/-- A register raised by one modulo 2^64. -/
def State.bump (s : State) (cls num unit : Nat) : State := s.setReg cls num unit (s.reg cls num unit + 1)

/-- Field replaced: bits hi down to lo of w become v. -/
def setBits (w hi lo v : Nat) : Nat := w - bits w hi lo * 2 ^ lo + v % 2 ^ (hi + 1 - lo) * 2 ^ lo

/-- Scratchpad bytes of a tile (R14). -/
def State.capSpad (s : State) : Nat := if s.ident.part = 0x9110 then 0x80000 else 0x100000

/-- DEV_REV[31:0] (R13). -/
def State.devRev (s : State) : Nat := s.ident.part * 2 ^ 16 + s.ident.stepping * 2 ^ 8 + s.ident.minor

/-! Units and place tables -/

/-- A tile record. -/
def State.tile (s : State) (t : Nat) : Tile := s.tiles.get {} t
/-- A tile record set. -/
def State.setTile (s : State) (t : Nat) (v : Tile) : State := { s with tiles := s.tiles.put {} t v }
/-- A cluster record, by die × 16 + cluster. -/
def State.cl (s : State) (c : Nat) : Cluster := s.clusters.get {} c
/-- A cluster record set. -/
def State.setCl (s : State) (c : Nat) (v : Cluster) : State := { s with clusters := s.clusters.put {} c v }
/-- A link endpoint, by die × 4 + UNIT. -/
def State.link (s : State) (e : Nat) : Link := s.links.get {} e
/-- A link endpoint set. -/
def State.setLink (s : State) (e : Nat) (v : Link) : State := { s with links := s.links.put {} e v }
/-- An eft core, by die × 12 + core. -/
def State.eft (s : State) (e : Nat) : Eft := s.efts.get {} e
/-- An eft core set. -/
def State.setEft (s : State) (e : Nat) (v : Eft) : State := { s with efts := s.efts.put {} e v }
/-- A collective sequencer. -/
def State.seqr (s : State) (d : Nat) : Seqr := s.seqrs.get {} d
/-- A collective sequencer set. -/
def State.setSeqr (s : State) (d : Nat) (v : Seqr) : State := { s with seqrs := s.seqrs.put {} d v }
/-- A command processor. -/
def State.cp (s : State) (c : Nat) : Cp := s.cps.get {} c
/-- A command processor set. -/
def State.setCp (s : State) (c : Nat) (v : Cp) : State := { s with cps := s.cps.put {} c v }

/-- The physical die of a logical one (R158). -/
def State.physDie (s : State) (d : Nat) : Nat := bits (s.rn 5 0x2000 0) (2 * d + 1) (2 * d)

/-- The logical die of a physical one. -/
def State.logDie (s : State) (d : Nat) : Nat := ((List.range 4).find? fun l => s.physDie l == d).getD 0

/-- The physical cluster, as die × 16 + cluster, of a logical one (R158). -/
def State.physClu (s : State) (p d c : Nat) : Nat := s.physDie d * 16 + bits (s.rn 4 (0x1014 + d) p) (4 * c + 3) (4 * c)

/-- The entry of the tile place table for logical tile g, 16 bits (R158). -/
def State.pltEntry (s : State) (p g : Nat) : Nat :=
  let t := g % 8
  bits (s.rn 4 (0x1100 + 32 * (g / 128) + 2 * (g / 8 % 16) + t / 4) p) (16 * (t % 4) + 15) (16 * (t % 4))

/-- The physical tile that an entry names, or none. -/
def entryTile (e : Nat) : Option Nat :=
  if e.testBit 15 then some ((bits e 9 8 * 16 + bits e 7 4) * 8 + bits e 2 0) else none

/-- The physical tile of a logical tile (R158). -/
def State.physTile (s : State) (p g : Nat) : Option Nat := entryTile (s.pltEntry p g)

/-- The logical tile that a physical tile serves in a partition (R154). -/
def State.logTile (s : State) (p t : Nat) : Option Nat :=
  (List.range 512).find? fun g => s.physTile p g == some t

/-- Whether a physical cluster lies in a partition's map (R113, R127). -/
def State.inMap (s : State) (p c : Nat) : Bool := (s.rn 4 0x1000 p).testBit (c / 2)

/-- The physical function that owns a partition's virtual functions (R111). -/
def State.pfOf (s : State) (p : Nat) : Option Nat :=
  ((List.range 512).find? fun v => let w := s.rn 6 0 v
                                   w.testBit 5 && w % 32 == p).map fun v => v / 256

/-- The Jalcy-D link i joins dies i and i + 1; it has failed when either end has (R38). -/
def State.linkFailed (s : State) (i : Nat) : Bool :=
  (s.link (i * 4)).st == 3 || (s.link ((i + 1) % 4 * 4 + 1)).st == 3

/-- Whether die f lies in the group of die d after failures (R39, R40). -/
def State.reach (s : State) (d f : Nat) : Bool :=
  let cw := (List.range ((f + 4 - d) % 4)).all fun k => !s.linkFailed ((d + k) % 4)
  let ccw := (List.range ((d + 4 - f) % 4)).all fun k => !s.linkFailed ((f + k) % 4)
  cw || ccw

/-- Whether the link between dies i and i + 1 is available for routing: both ends are up and each has a valid transmit slot
(R51). -/
def linkAvail (s : State) (i : Nat) : Bool :=
  let ok := fun (ep : Nat) => (s.link ep).st == 2 && (s.link ep).tx.any (·.valid)
  ok (i * 4) && ok ((i + 1) % 4 * 4 + 1)

/-- Whether every link from die d to die f is available on the way toward d + 1, and on the way toward d + 3. -/
def wayOpen (s : State) (d f : Nat) : Bool × Bool :=
  let k := (f + 4 - d) % 4
  ((List.range k).all (fun i => linkAvail s ((d + i) % 4)), (List.range ((4 - k) % 4)).all (fun i => linkAvail s ((f + i) % 4)))

/-- NOC_RING of a die for a die: 0 here, 1 toward d + 1, 2 toward d + 3, 3 unreachable (R50, R51, R74). -/
def ringDir (s : State) (d f : Nat) : Nat :=
  let k := (f + 4 - d) % 4
  let (cw, ccw) := wayOpen s d f
  if k = 0 then 0
  else if k ≤ 2 then (if cw then 1 else if ccw then 2 else 3)
  else if ccw then 2 else if cw then 1 else 3

/-- A key slot. -/
def keyAt (l : List Key) (i : Nat) : Key := l.getD i {}

/-- Whether new flits other than idle ones may be sent: the link is up and enabled, its selected key is valid and below its
limit (R34, R36). -/
def canSend (s : State) (ep : Nat) : Bool :=
  let l := s.link ep
  l.st == 2 && s.rn 11 0 ep % 2 == 1 && (keyAt l.tx l.txsel).valid && (keyAt l.tx l.txsel).ctr < 2 ^ 40

/-- Whether data goes from die d to die f now: the ring table names a way, and each endpoint on it may send data flits (R34, R36,
R50). -/
def carries (s : State) (d f : Nat) : Bool :=
  let k := (f + 4 - d) % 4
  match ringDir s d f with
  | 0 => true
  | 1 => (List.range k).all fun i => canSend s ((d + i) % 4 * 4)
  | 2 => (List.range (4 - k)).all fun i => canSend s ((d + 4 - i) % 4 * 4 + 1)
  | _ => false

/-- An access of an agent of die d crosses to die f: where the links do not yet carry it there and its reply back, the move waits
(R34, R36, R51, log entry 53). -/
def State.cross (s : State) (d f : Nat) : State :=
  if (!carries s d f || !carries s f d) && s.reach d f then { s with stalled := true } else s

/-- Source numbers (R19). -/
def srcNo (die kind unit : Nat) : Nat := die * 2 ^ 14 + kind * 2 ^ 8 + unit

/-- The source number of a physical tile. -/
def srcTile (t : Nat) : Nat := srcNo (t / 128) 0 (t % 128)

/-- The source number of a cluster. -/
def srcClu (c : Nat) : Nat := srcNo (c / 16) 1 (c % 16)

/-- Whether a tile has an autotomy to make: it issues nothing more (R239). -/
def State.retiring (s : State) (tile : Nat) : Bool := s.autoq.any (·.tile == tile)

/-! Notification records (R18, R26, R114 to R116) -/

/-- MSI-X vector 0 of a function raised: PFs are 0 and 1, VF v is 2 + v. -/
def raiseMsix (s : State) (fn : Nat) : State := { s with msix := s.msix.put 0 (fn * 64) (s.msix.get 0 (fn * 64) + 1) }

/-- Registers of a ring: its base, control, producer and consumer counts; rings 32 and 33 are those of the PFs. -/
def State.ringRegs (r : Nat) : (Nat × Nat × Nat) × (Nat × Nat × Nat) × (Nat × Nat × Nat) × (Nat × Nat × Nat) :=
  if r < 32 then ((4, 0x1002, r), (4, 0x1003, r), (8, 0, r), (8, 1, r))
  else ((7, 0, r - 32), (7, 1, r - 32), (7, 2, r - 32), (7, 3, r - 32))

/-- Whether a ring has room for a record (R114). LOGN of 1 to 3, of which R111 says nothing, is no ring, as 0 is (log entry 125,
DESIGN CHOICE). -/
def ringRoom (s : State) (r : Nat) : Bool :=
  let ((_, _, _), (cc, cn, cu), (pc, pn, pu), (kc, kn, ku)) := State.ringRegs r
  let logn := bits (s.rn cc cn cu) 35 32
  4 ≤ logn && logn ≤ 15 && (s.rn pc pn pu + 2 ^ 64 - s.rn kc kn ku) % 2 ^ 64 < 2 ^ logn

/-- A record written in its ring; it raises vector 0 of each bound VF, or of the PF (R114, R115). The ring of a partition with no
bound VF is written too, though R111 names no link for it (log entry 125, DESIGN CHOICE). -/
def ringPut (s : State) (r : Nat) (dws : List Nat) : State :=
  let ((bc, bn, bu), (cc, cn, cu), (pc, pn, pu), _) := State.ringRegs r
  let prod := s.rn pc pn pu
  let s := wrNat s (region 7 (s.rn bc bn bu + 32 * (prod % 2 ^ bits (s.rn cc cn cu) 35 32))) 32 (packElems 64 dws)
  let s := s.setN pc pn pu (prod + 1)
  if r < 32 then
    (List.range 512).foldl (fun s v => let w := s.rn 6 0 v
                                       if w.testBit 5 && w % 32 == r then raiseMsix s (2 + v) else s) s
  else raiseMsix s (r - 32)

/-- A record lost: LOST, and the count of the next records-lost record (R114). -/
def ringLose (s : State) (r : Nat) : State :=
  let (_, (cc, cn, cu), _, _) := State.ringRegs r
  let ctl := s.rn cc cn cu
  { s.setN cc cn cu (setBits ctl 31 0 (bits ctl 31 0 + 1)) with lost := s.lost.put 0 r (s.lost.get 0 r + 1) }

/-- The source number of a ring's records-lost records: the memory controller that holds its records, which writes no other
record (log entry 27). -/
def lostSrc (s : State) (r : Nat) : Nat := srcNo (2 * (if r < 32 then (s.pfOf r).getD 0 else r - 32)) 3 0

/-- Whether a records-lost record is due: records were lost and the ring has room (R114). -/
def lostDue (s : State) (r : Nat) : Bool := s.lost.get 0 r != 0 && ringRoom s r

/-- The records-lost record, where one is due and its source has given no record this timestamp (R18, R114). -/
def pushLost (s : State) (r : Nat) : State :=
  let src := lostSrc s r
  if lostDue s r && s.recAt.get 0 src != s.tsc.toNat + 1 then
    { ringPut s r [s.tsc.toNat, src + 4 * 2 ^ 16, s.lost.get 0 r, 0] with
      lost := s.lost.put 0 r 0, recAt := s.recAt.put 0 src (s.tsc.toNat + 1) }
  else s

/-- A record placed in its ring, or lost (R114). -/
def pushRing (s : State) (r : Nat) (dws : List Nat) : State := if ringRoom s r then ringPut s r dws else ringLose s r

/-- The PF through whose link a ring's records go. -/
def State.ringPf (s : State) (r : Nat) : Option Nat := if r < 32 then s.pfOf r else some (r - 32)

/-- Whether the device's writes to host memory through a PF's link are not sent: a selective stream of the link is in the
Insecure state (R25). Which stream a write would use is the model's choice: any of them (log entry 54). -/
def State.insecure (s : State) (pf : Nat) : Bool := s.streams.any fun x => x.1 == pf && !x.2.2

/-- Whether the way to a ring is shut: its link is down (R26) or its stream Insecure (R25, log entry 54). -/
def ringShut (s : State) (r : Nat) : Bool :=
  match s.ringPf r with
  | some pf => s.pfDown.contains pf || s.insecure pf
  | none => false

/-- A stamped record held in device memory, up to 4,096 per ring, with a count of those discarded (R26). -/
def holdRec (s : State) (r : Nat) (dws : List Nat) : State :=
  if (s.recHeld.filter (·.1 == r)).length < 4096 then { s with recHeld := s.recHeld ++ [(r, dws)] }
  else { s with recGone := s.recGone.put 0 r (s.recGone.get 0 r + 1) }

/-- A stamped record delivered behind the records-lost record and the earlier records of its ring, or held while the way is
shut or a records-lost record that is due waits for its timestamp (R18, R26, R114). Records of different sources, which R18 lets
reach a ring in any order, reach it as they were stamped (log entry 125, DESIGN CHOICE). -/
def deliver (s : State) (r : Nat) (dws : List Nat) : State :=
  if ringShut s r then holdRec s r dws
  else
    let s := pushLost s r
    if s.recHeld.any (·.1 == r) || lostDue s r then holdRec s r dws else pushRing s r dws

/-- What a ring holds back is written once its way is open: first the count of the records lost and discarded, then the records
in order (R26, R114). -/
def flushRing (s : State) (r : Nat) : State :=
  let gone := s.recGone.get 0 r
  if ringShut s r || (gone == 0 && s.lost.get 0 r == 0 && s.recHeld.all (·.1 != r)) then s
  else
    let s := pushLost { s with lost := s.lost.put 0 r (s.lost.get 0 r + gone), recGone := s.recGone.put 0 r 0 } r
    if lostDue s r then s
    else (s.recHeld.filter (·.1 == r)).foldl (fun s x => pushRing s r x.2) { s with recHeld := s.recHeld.filter (·.1 != r) }

/-- A record stamped with the counter. -/
def stamp (s : State) (r : Rec) : State :=
  let s := { s with recAt := s.recAt.put 0 r.src (s.tsc.toNat + 1) }
  deliver s r.ring [s.tsc.toNat, r.src + r.dw1 * 2 ^ 16, r.dw2, r.dw3]

/-- A record written; a source's second record of one tick is held until the counter advances (R18). `typ` is the
record type, `hi` bits 63:24 of DW1. -/
def emit (s : State) (ring src typ hi dw2 dw3 : Nat) : State :=
  let r : Rec := ⟨ring, src, typ + hi * 2 ^ 8, dw2, dw3⟩
  if s.recAt.get 0 src = s.tsc.toNat + 1 ∨ s.recq.any (·.src == src) then { s with recq := s.recq ++ [r] } else stamp s r

/-- The hypervisor's ring (R115): PF-A's, or PF-B's when link A is down or die 0 is out of the writer's reach. -/
def hvRing (s : State) (die : Nat) : Nat :=
  if !s.pfDown.contains 0 && s.reach die 0 then 32 else if !s.pfDown.contains 1 && s.reach die 2 then 33 else 32

/-- A record to the hypervisor. With neither link it is lost in PF-A's ring (R115). -/
def emitHv (s : State) (die src typ hi dw2 dw3 : Nat) : State :=
  let noA := s.pfDown.contains 0 || !s.reach die 0
  let noB := s.pfDown.contains 1 || !s.reach die 2
  if noA && noB then ringLose s 32
  else emit s (hvRing s die) src typ hi dw2 dw3

/-- A fault of an access: cause, walk level, the physical die that found it, the VA (R135). -/
structure Bad where
  cause : Nat
  level : Nat := 255
  die : Nat := 0
  va : Nat := 0
  deriving DecidableEq, Repr

/-- A device fault record (R135). -/
def emitFault (s : State) (part src : Nat) (b : Bad) : State :=
  emit s part src 0x10 (b.cause + b.die * 2 ^ 8) b.va b.level

/-! Contexts -/

/-- A resident context. -/
def State.ctx? (s : State) (ck : Nat) : Option Ctx := (s.ctxs.find? (·.1 == ck)).map (·.2)

/-- A resident context, or an empty one. -/
def State.ctx (s : State) (ck : Nat) : Ctx := (s.ctx? ck).getD {}

/-- A resident context replaced, or made resident. -/
def State.setCtx (s : State) (ck : Nat) (c : Ctx) : State := { s with ctxs := SMap.ins s.ctxs ck c }

/-- A context slot freed. -/
def State.delCtx (s : State) (ck : Nat) : State := { s with ctxs := SMap.del s.ctxs ck }

/-- An event appended. -/
def State.post (s : State) (i : Instr) : State := { s with events := s.events ++ [i] }

/-- A fresh handle. -/
def State.fresh (s : State) : Nat × State := (s.nextRid, { s with nextRid := s.nextRid + 1 })

/-- Key of an x register among the destinations. -/
def xKey (r : Nat) : Nat := 0x800 + r
/-- Key of a steer target among the destinations. -/
def sgKey (n : Nat) : Nat := 0xA00 + n

/-- An x register as read (R198). -/
def Ctx.rx (c : Ctx) (r : Nat) : W64 := if r = 0 then 0 else c.x.get 0 r

/-- An x register written; x0 ignores writes (R198). -/
def Ctx.wx (c : Ctx) (r : Nat) (v : W64) : Ctx := if r = 0 then c else { c with x := c.x.put 0 r v }

/-- A steer register. -/
def Ctx.sg (c : Ctx) (n : Nat) : Steer := c.steer.get {} n

/-- A steer register written. -/
def Ctx.setSg (c : Ctx) (n : Nat) (v : Steer) : Ctx := { c with steer := c.steer.put {} n v }

/-- A destination that is empty (R208). -/
def Ctx.isEmpty (c : Ctx) (key : Nat) : Bool := c.empties.contains key

/-- A destination made empty. -/
def Ctx.mkEmpty (c : Ctx) (key : Nat) : Ctx := if c.empties.contains key then c else { c with empties := key :: c.empties }

/-- A destination made full. -/
def Ctx.mkFull (c : Ctx) (key : Nat) : Ctx := { c with empties := c.empties.filter (· != key) }

/-- The place that a flat row number names, and whether it is live (R204). -/
def placeOf (rot ldep row : Nat) : Nat × Bool :=
  if row < 1024 then (row, true)
  else
    let q := (row - 1024) / 32
    (1024 + 32 * ((q + rot) % 16) + (row - 1024) % 32, q < ldep)

/-- The place of a named row under the context's rotation. -/
def Ctx.place (c : Ctx) (row : Nat) : Nat × Bool := placeOf c.arch.rot c.arch.ldep row

/-- The row named, as read: a dead one reads as zero (R204). -/
def Ctx.row (c : Ctx) (row : Nat) : Row :=
  let (p, l) := c.place row
  if l then c.rows.get 0 p else 0

/-- Whether a stored place is a rotating one that a ROT and LDEP leave dead (R204). -/
def deadAt (rot ldep place : Nat) : Bool :=
  1024 ≤ place && place < 1536 && !((place - 1024) / 32 + 16 - rot) % 16 < ldep

/-- The places that the context's ROT and LDEP leave dead, and that others left live, are cleared, with lineage 0 (R205). -/
def Ctx.clearDead (c : Ctx) (rot ldep : Nat) : Ctx :=
  let dead := fun (place : Nat) => deadAt c.arch.rot c.arch.ldep place && !deadAt rot ldep place
  { c with rows := c.rows.filter (fun p => !dead p.1),
           lin := ((List.range 512).filter fun i => dead (1024 + i)).foldl (fun l i => l.ins (1024 + i) 0) c.lin }

/-- ROT and LDEP set (R205, R305). -/
def Ctx.setRot (c : Ctx) (rot ldep : Nat) : Ctx :=
  { c with arch := { c.arch with rot := rot, ldep := ldep } }.clearDead c.arch.rot c.arch.ldep

/-! Lineage (R218 to R222) -/

/-- The mix function (R218). -/
def mix (v : W32) : W32 :=
  let v := v ^^^ (v >>> 16)
  let v := v * 0x045D9F3B
  v ^^^ (v >>> 16)

/-- The lineage of a group (R218). -/
def gMix (l : List W32) : W32 := l.foldl (fun h v => mix (h ^^^ v)) 0

/-- The fold (R218). -/
def foldLin (k a b c s : W32) : W32 :=
  mix (k ^^^ a.rotateLeft 7 ^^^ b.rotateLeft 13 ^^^ c.rotateLeft 19 ^^^ s.rotateLeft 25)

/-- The seed of a register's id (R222). -/
def seedOf (id : Nat) : W32 := mix (BitVec.ofNat 32 (0x53450000 ^^^ id))

/-- The lineage of a register by its key: rows by place, 0x800 + x, 0x900 + sc, 0x910 + il, 0x920 + bs, 0x930 + at. A
register that the block has not set holds its seed under the ROT of the block's entry; x0 and dead rotating places hold
0 (R199, R204, R222). -/
def Ctx.linAt (c : Ctx) (key : Nat) : W32 :=
  if key = 0x800 then 0
  else
    let d := if 1024 ≤ key ∧ key < 1536 then
        (let q := ((key - 1024) / 32 + 16 - c.entry.rot) % 16
         if q < c.entry.ldep then seedOf (1024 + 32 * q + (key - 1024) % 32) else 0)
      else seedOf key
    match c.lin.find? (·.1 == key) with
    | some p => p.2
    | none => d

/-- A lineage set. -/
def Ctx.setLin (c : Ctx) (key : Nat) (v : W32) : Ctx := if key = 0x800 then c else { c with lin := c.lin.ins key v }

/-- The lineage of a named row; a dead one carries 0 (R204). -/
def Ctx.rowLin (c : Ctx) (row : Nat) : W32 :=
  let (p, l) := c.place row
  if l then c.linAt p else 0

/-- The lineage of an x register. -/
def Ctx.xLin (c : Ctx) (r : Nat) : W32 := c.linAt (xKey r)

/-- K_op of a slot word (R219). -/
def kop (sl w : Nat) : W32 :=
  let clear := fun (w hi lo : Nat) => w - bits w hi lo * 2 ^ lo
  if sl = 0 then BitVec.ofNat 32 (clear (clear w 30 26) 19 0)
  else if sl = 1 ∨ sl = 2 then
    let op := bits w 25 20
    let w' := clear (clear w 30 26) 19 5
    let immF := op = 3 ∨ op = 5 ∨ op = 6 ∨ (0x0B ≤ op ∧ op ≤ 0x1A)
    BitVec.ofNat 32 (if immF then clear w' 4 0 else w')
  else if sl = 6 then BitVec.ofNat 32 (clear (clear w 30 26) 21 0)
  else
    let w := clear w 62 58
    let w := if sl = 3 then clear w 43 0
      else if sl = 4 then clear w 38 1
      else clear (clear w 43 28) 23 0
    BitVec.ofNat 32 (w / 2 ^ 32 ^^^ w % 2 ^ 32)

/-- K_op of an instruction, from its encoding. -/
def kopOf (i : Instr) : W32 :=
  match encode i with
  | some (w, _) => kop i.slot w
  | none => 0

/-! Results landing (R206, R207) -/

/-- One result written; a value for an empty row or register is dropped (R207). -/
def landWr (c : Ctx) (w : Wr) : Ctx :=
  match w with
  | .x r v => if c.isEmpty (xKey r) then c else c.wx r v
  | .row p v => if c.isEmpty p then c else { c with rows := c.rows.put 0 p v }
  | .cond n v => c.setSg n { c.sg n with c := v }
  | .target n va v i => if c.isEmpty (sgKey n) then c else c.setSg n { c.sg n with va := va, v := v, i := i }
  | .tc n v => { c with tc := c.tc.put 0 n v }
  | .astClr n => { c with arch := { c.arch with ast := c.arch.ast.put 0 n 0 } }
  | .astOr n v => { c with arch := { c.arch with ast := c.arch.ast.put 0 n (c.arch.ast.get 0 n ||| v) } }
  | .fstOr v => { c with arch := { c.arch with fst := c.arch.fst ||| v } }
  | .sc n v => { c with sc := c.sc.put 0 n v }
  | .scCodes n code v =>
      let old := rowElems 8 (c.sc.get 0 n).toNat
      { c with sc := c.sc.put 0 n (ofElems 8 (old.take code ++ v ++ old.drop (code + v.length))) }
  | .il n v => { c with arch := { c.arch with il := c.arch.il.put 0 n v } }
  | .ilEnts n l =>
      let v := l.foldl (fun v e => setBits v (32 * e.1 + 31) (32 * e.1) e.2) (c.arch.il.get 0 n).toNat
      { c with arch := { c.arch with il := c.arch.il.put 0 n (BitVec.ofNat 512 v) } }
  | .bs n v => { c with bs := c.bs.put 0 n v }
  | .tab n v => { c with tab := c.tab.put 0 n v }
  | .badTab n va => { c with badTab := (n, va) :: c.badTab }
  | .fstSet v => { c with arch := { c.arch with fst := v } }
  | .seedSet v => { c with arch := { c.arch with srseed := v } }
  | .ctxReg num v =>
      let a := c.arch
      { c with arch :=
        if num = 0x12 then { a with depcnt := v } else if num = 0x13 then { a with collRtb := v }
        else if num = 0x15 then { a with waitDl := v } else if num = 0x20 then { a with epc := v }
        else if num = 0x21 then { a with ecause := v } else if num = 0x22 then { a with eva := v }
        else if num = 0x2A then { a with sealIdx := v } else a }
  | .lin key v => if c.isEmpty key then c else c.setLin key v
  | .linOnly key v => c.setLin key v
  | .empty key => c.mkEmpty key

/-- Whether a result is a clear of an AST, which lands before the others of its cycle (R321). -/
def Pend.isClr (p : Pend) : Bool :=
  match p.wr with
  | .astClr _ => true
  | _ => false

/-- Pending results due by issue cycle n land in issue order, clears of AST first (R197, R206, R321). -/
def landDue (c : Ctx) (n : Nat) : Ctx :=
  let due := c.pend.filter (·.due ≤ n)
  let c' := { c with pend := c.pend.filter (fun p => n < p.due) }
  (due.filter Pend.isClr ++ due.filter (fun p => !p.isClr)).foldl (fun c p => landWr c p.wr) c'

/-- The pending results of one issue cycle after another land, as if empty bundles issued (R155): fuel and cycle. -/
def landSteps : Nat → Nat → Ctx → Ctx
  | 0, _, c => c
  | k + 1, n, c => landSteps k (n + 1) (landDue c n)

/-- Every pending result lands (R155, R207). -/
def landAll (c : Ctx) : Ctx :=
  let top := c.pend.foldl (fun m p => max m p.due) c.ic
  landSteps (top + 1 - c.ic) c.ic c

/-! Staging of a slot's results -/

/-- The context that issues. -/
def State.cur? (s : State) : Option (Issue × Ctx) := s.iss.map fun i => (i, s.ctx i.ck)

/-- A result staged for the issuing context, `lat` issue cycles on. -/
def Ctx.stage (c : Ctx) (slot lat : Nat) (w : Wr) : Ctx := { c with pend := c.pend ++ [⟨c.ic + lat, slot, w⟩] }

/-- Several results staged with one latency. -/
def Ctx.stages (c : Ctx) (slot lat : Nat) (ws : List Wr) : Ctx := ws.foldl (fun c w => c.stage slot lat w) c

/-! Taking a synchronous fault, and the return (R214, R310, R312) -/

/-- The state that R304 restores before a recast or a restart; fills, hold buffer, input buffer and digests of the block
are dropped. A bank operation's destination is full again (R331). -/
def Ctx.restart (c : Ctx) : Ctx :=
  let banks := c.held.filterMap fun h => match h.k with
    | .bank _ _ _ _ d => some (xKey d)
    | _ => none
  { { c with arch := c.entry }.clearDead c.arch.rot c.arch.ldep with
    pend := [], held := [], lin := [], rowLoads := 0, scaLoads := 0, strayLoad := false, badTab := [], depr := 0, fresh := true,
    rtbSet := false, pc := c.entryVa, empties := c.empties.filter fun k => !banks.contains k }

/-- A synchronous fault of a context: the faulting bundle has no effect, so its state before the bundle stands; held
stores and pending results are discarded; the context then waits for its fills (R214 steps 1 to 4). -/
def takeFault (s : State) (ck : Nat) (before : Ctx) (cause slot eva level die : Nat) (sealed : Bool) : State :=
  let c := before.restart
  { s.setCtx ck { c with phase := .faulting cause slot eva level die sealed } with iss := none }

/-- The fault of the slot that runs (R215): ECAUSE.SLOT is its slot. -/
def slotFault (s : State) (cause eva : Nat) (level : Nat := 255) (die : Option Nat := none) : State :=
  match s.iss with
  | some i => takeFault s i.ck i.before cause i.slot eva level (die.getD (i.ck / 256)) false
  | none => s

/-- The key of a fill's destination. -/
def dstKey : Dst → Option Nat
  | .none => none
  | .x r => if r = 0 then none else some (xKey r)
  | .row p => some p
  | .target n => some (sgKey n)

/-- The fills of a stopped block have all come: those whose reply was a fault complete without writing, and their
destinations are full with the values they held (R155, log entry 16). -/
def Ctx.dropFills (c : Ctx) : Ctx :=
  { c with fills := [], empties := c.empties.filter fun k => !c.fills.any fun f => dstKey f.dst == some k }

/-- The return from privileged mode: user mode at EPC with bits 1:0 taken as 0; the frozen input buffer is released
(R234, R312). -/
def returnFrom (c : Ctx) : Ctx :=
  { c with priv := false, pc := c.arch.epc.toNat / 4 * 4, fresh := true, frozen := [], phase := .running }

end Sys2Proof.Machine
end

