-- ==== Sys2Proof/Machine/Access.lean ====
section
/-! DEFINITION. Addresses: the classes of a VA (R125, R126), the checks of a partition (R127), the walk of the
translation tables (R128 to R134), the memory-side TLB with its dirty bits, zeroing and counters (R138 to R141), and
reads and writes of memory by VA. -/

namespace Sys2Proof.Machine

/-- What a VA names (R125, R126). -/
inductive VaClass where
  | none
  | host
  | spad (d c t o : Nat)
  | clu (d c o : Nat)
  | pool (d o : Nat)
  | eng (d c t k o : Nat)
  | dieLocal (d : Nat)
  deriving DecidableEq, Repr

/-- The class of a VA, decided from the VA and CAP_SPAD alone (R11, R125, R126, R337). -/
def vaClass (cap va : Nat) : VaClass :=
  if va < 2 ^ 57 then .host
  else if bits va 63 62 = 2 then
    let d := bits va 61 60
    let o := va % 2 ^ 60
    if o < 0x100000000 then
      let c := o / 2 ^ 24
      let t := bits o 23 20
      if c < 16 ∧ t < 8 ∧ o % 2 ^ 20 < cap then .spad d c t (o % 2 ^ 20) else .none
    else if o < 0x200000000 then
      let p := o - 0x100000000
      if p < 16 * 2 ^ 22 then .clu d (p / 2 ^ 22) (p % 2 ^ 22) else .none
    else if o < 0x300000000 then
      let p := o - 0x200000000
      if p < 0x2000000 then .pool d p else .none
    else if o < 2 ^ 40 then
      let p := o - 0x300000000
      let e := p % 2 ^ 11
      if p < 16 * 2 ^ 16 ∧ bits p 15 12 < 8 ∧ e < 56 then .eng d (p / 2 ^ 16) (bits p 15 12) (bits p 11 11) e else .none
    else if o < 2 ^ 48 then .dieLocal d
    else .none
  else .none

/-- Whether a VA lies in a translated range (R125). -/
def VaClass.translated : VaClass → Bool
  | .host => true
  | .dieLocal _ => true
  | _ => false

/-- Tagged memory (R178). -/
def VaClass.tagged : VaClass → Bool
  | .spad _ _ _ _ => true
  | .clu _ _ _ => true
  | .pool _ _ => true
  | _ => false

/-- The logical home die of a VA (R125). -/
def homeDie (cap va : Nat) : Nat :=
  match vaClass cap va with
  | .host => bits va 17 16
  | _ => bits va 61 60

/-- An offset of cluster memory as reached by a load or a store (R181). -/
def cluLoc (s : State) (pc o : Nat) (wr : Bool) : Nat :=
  let q := (s.cl pc).qIsCope
  if o < 0x200000 then region 2 (pc * 2 ^ 21 + o)
  else
    let drag := if q then 3 else 4
    let cope := if q then 4 else 3
    if o < 0x300000 then region drag (pc * 2 ^ 20 + (o - 0x200000))
    else region (if wr then drag else cope) (pc * 2 ^ 20 + (o - 0x300000))

/-- The location of an SRAM sub-window VA in a partition, with the checks of R127 and R158. -/
def sramLoc (s : State) (part : Nat) (cls : VaClass) (wr : Bool) : Except Bad Nat :=
  match cls with
  | .spad d c t o =>
    match s.physTile part (d * 128 + c * 8 + t) with
    | none => .error { cause := 3, die := s.physDie d }
    | some pt => if s.inMap part (pt / 8) then .ok (region 1 (pt * 2 ^ 20 + o)) else .error { cause := 3, die := pt / 128 }
  | .clu d c o =>
    let pc := s.physClu part d c
    if s.inMap part pc then .ok (cluLoc s pc o wr) else .error { cause := 3, die := pc / 16 }
  | .pool d o =>
    let r := s.rn 4 (0x1010 + d) part
    let u := o / 2 ^ 16
    if r.testBit 25 && bits r 8 0 ≤ u && u ≤ bits r 24 16 then .ok (region 5 (s.physDie d * 2 ^ 25 + o))
    else .error { cause := 3, die := s.physDie d }
  | .eng d _ _ _ _ => .error { cause := 3, die := s.physDie d }
  | _ => .error { cause := 1 }

/-- Unpopulated HBM (R128). -/
def unpop (dpa : Nat) : Bool := dpa % 2 ^ 37 ≥ 0x1800000000

/-- The directory levels that remain, their index and whether a large leaf may stand there: level, index, size of its
leaf (0 for none). -/
def dirLevels (va : Nat) : List (Nat × Nat × Nat) :=
  [(4, (if va < 2 ^ 57 then bits va 56 48 else 512 + bits va 61 60), 0), (3, bits va 47 39, 0), (2, bits va 38 30, 2),
   (1, bits va 29 21, 1)]

/-- The fields of a leaf's DW0 that make it malformed at a level of page size `size` (R130, R133). -/
def leafBad (dw0 size : Nat) : Bool :=
  let host := dw0.testBit 7
  let frame := bits dw0 63 24
  bits dw0 23 22 != 0 || bits dw0 19 16 != 0 || dw0.testBit 6 || bits dw0 21 20 != size
    || (!host && (bits dw0 63 47 != 0 || unpop (bits frame 22 0 * 2 ^ 16)))
    || (dw0.testBit 4 && (size != 0 || host))
    || (size != 0 && !host && bits frame 22 21 != 0)

/-- The dies of the tables that a walk reads, in order, to a leaf or an entry that leads no further (R128, R133). -/
def walkDies (s : State) (va : Nat) : List (Nat × Nat × Nat) → Nat → List Nat
  | [], tbl => [tbl / 2 ^ 37]
  | (_, ix, _) :: rest, tbl =>
    let e := rdNat s (region 6 (tbl + 8 * ix)) 8
    let next := bits e 38 12 * 4096
    let leads := e.testBit 0 && !e.testBit 1 && bits e 63 39 == 0 && bits e 11 2 == 0 && !unpop next
    tbl / 2 ^ 37 :: (if leads then walkDies s va rest next else [])

/-- DW1 to DW15 of a 64 KiB leaf. -/
def subsOf (s : State) (a : Nat) : List Nat := (List.range 15).map fun k => rdNat s (a + 8 * (k + 1)) 8

/-- Whether a 64 KiB host leaf's DW1 to DW15 hold a nonzero zero field (R130, R133). -/
def subsBad (s : State) (a dw0 : Nat) : Bool :=
  dw0.testBit 7 && (subsOf s a).any fun w => bits w 23 1 != 0

/-- The walk (R133): the rest of the levels from a table's DPA. Answers DW0, its location and the page size. -/
def walkFrom (s : State) (va : Nat) : List (Nat × Nat × Nat) → Nat → Except (Nat × Nat) (Nat × Nat × Nat)
  | [], tbl =>
    let a := region 6 (tbl + 128 * bits va 20 16)
    let dw0 := rdNat s a 8
    if !dw0.testBit 0 && !dw0.testBit 7 then .error (2, 0)
    else if !dw0.testBit 1 || leafBad dw0 0 || subsBad s a dw0 then .error (7, 0)
    else .ok (dw0, a, 0)
  | (lv, ix, sz) :: rest, tbl =>
    let a := region 6 (tbl + 8 * ix)
    let e := rdNat s a 8
    if !e.testBit 0 then .error (2, lv)
    else if e.testBit 1 then
      if sz = 0 || leafBad e sz then .error (7, lv) else .ok (e, a, sz)
    else if bits e 63 39 != 0 || bits e 11 2 != 0 || unpop (bits e 38 12 * 4096) then .error (7, lv)
    else walkFrom s va rest (bits e 38 12 * 4096)

/-- The page size in bytes of a SIZE code (R130). -/
def pageBytes (size : Nat) : Nat := if size = 0 then 2 ^ 16 else if size = 1 then 2 ^ 21 else 2 ^ 30

/-- The TLB entry that covers a VA (R133). -/
def tlbFind (s : State) (die part va : Nat) : Option Tlb :=
  s.tlb.find? fun t => t.die == die && t.part == part && t.page == va / pageBytes t.size

/-- A TLB entry placed; a die holds at most 8,192, the oldest leaving (log entry 11). -/
def tlbPut (s : State) (t : Tlb) : State :=
  let rest := s.tlb.filter fun u => !(u.die == t.die && u.part == t.part && u.page == t.page && u.size == t.size)
  let mine := (rest.filter (·.die == t.die)).length
  let rest := if mine < 8192 then rest else
    (match rest.reverse.find? (·.die == t.die) with
     | some o => rest.filter (· != o)
     | none => rest)
  { s with tlb := t :: rest }

/-- A leaf as the TLB keeps it (R133). -/
def tlbOf (s : State) (die part va dw0 a size : Nat) : Tlb :=
  ⟨die, part, va / pageBytes size, size, dw0, a, if size = 0 ∧ dw0.testBit 7 then subsOf s a else []⟩

/-- The walker on a miss: the leaf enters the TLB, Z is cleared after its frame is zeroed (R133, R138). A table on a die out of
reach gives home-unreachable (R40). -/
def walkTlb (s : State) (die part va : Nat) : State × Except Bad Tlb :=
  let ttb := s.rn 4 0x1004 part
  if !ttb.testBit 0 then (s, .error { cause := 2, die := die, va := va })
  else
    let root := bits ttb 38 13 * 8192
    let dies := walkDies s va (dirLevels va) root
    let s := dies.foldl (fun t d => t.cross die d) (s.bump 3 0xC09 die)
    if dies.any fun d => !s.reach die d then (s, .error { cause := 8, die := die, va := va })
    else match walkFrom s va (dirLevels va) root with
    | .error (c, lv) => (s, .error { cause := c, level := lv, die := die, va := va })
    | .ok (dw0, a, sz) =>
      let zero := sz = 0 ∧ dw0.testBit 4 ∧ dw0.testBit 0
      let frame := bits dw0 46 24 * 2 ^ 16
      if zero then
        let s := s.cross die (frame / 2 ^ 37)
        if s.reach die (frame / 2 ^ 37) then
          let s := wrNat (wipe s (region 6 frame) (2 ^ 16)) a 8 (dw0 - 16)
          let t := tlbOf s die part va (dw0 - 16) a sz
          (tlbPut s t, .ok t)
        else (s, .error { cause := 6, die := die, va := va })
      else
        let t := tlbOf s die part va dw0 a sz
        (tlbPut s t, .ok t)

/-- The location of a VA through a leaf (R130, R131): with HOST = 1 the host address of its frame, else a DPA. -/
def leafLoc (s : State) (t : Tlb) (va : Nat) : Nat :=
  let frame := bits t.dw0 63 24
  if t.dw0.testBit 7 then
    if t.size = 0 then
      let k := bits va 15 12
      let f := if k = 0 then frame else bits (t.subs.getD (k - 1) 0) 63 24
      region 7 (f * 4096 + va % 4096)
    else region 7 (frame * 4096 + va % pageBytes t.size)
  else if t.size = 0 then region 6 (bits t.dw0 46 24 * 2 ^ 16 + va % 2 ^ 16)
  else
    let o := va % pageBytes t.size
    region 6 (s.physDie (bits o 17 16) * 2 ^ 37 + bits frame 20 0 * 2 ^ 16 + o / 2 ^ 18 * 2 ^ 16 + o % 2 ^ 16)

/-- The valid bit of the sub-frame of a 64 KiB host leaf (R130, R134). -/
def subValid (t : Tlb) (va : Nat) : Bool :=
  let k := bits va 15 12
  if t.size != 0 || k = 0 then t.dw0.testBit 0 else (t.subs.getD (k - 1) 0).testBit 0

/-- The checks of R134: not-mapped, write-protect, fetch-protect. -/
def leafCheck (t : Tlb) (va : Nat) (wr ft : Bool) : Option Nat :=
  if t.dw0.testBit 7 && !subValid t va then some 2
  else if wr && !t.dw0.testBit 2 then some 4
  else if ft && !t.dw0.testBit 3 then some 5
  else none

/-- An access counted, with its migration hint (R140, R141). `from_` is the requester's die; one of another chip, 4 or more, is an
agent of no die of this one. -/
def countAccess (s : State) (t : Tlb) (va from_ : Nat) : State :=
  let thr := s.rn 3 0xC03 t.die % 256
  if thr = 0 ∨ 4 ≤ from_ then s
  else
    let page := va / 2 ^ 16
    let same := fun (a : Access) => a.die == t.die && a.part == t.part && a.page == page
    let old := ((s.access.find? same).map (·.counts)).getD [0, 0, 0, 0]
    let n := min 255 (old.getD from_ 0 + 1)
    let counts := old.set from_ n
    let host := t.dw0.testBit 7
    let owner := leafLoc s t va / 2 ^ 37 % 4
    let rest := s.access.filter fun a => !same a
    let mine := (rest.filter (·.die == t.die)).length
    let rest := if mine < 1024 then rest else
      (match rest.reverse.find? (·.die == t.die) with
       | some o => rest.filter (· != o)
       | none => rest)
    if n ≥ thr && (host || from_ != owner) then
      let s := { s with access := ⟨t.die, t.part, page, [0, 0, 0, 0]⟩ :: rest }
      emit s t.part (srcNo t.die 5 0) 0x20
        (flagIf host 1 + (if host then 0 else owner) * 2 + from_ * 8 + t.part * 32) (page * 2 ^ 16)
        (packElems 8 counts)
    else { s with access := ⟨t.die, t.part, page, counts⟩ :: rest }

/-- The path from the home die to the frame of a leaf (R136, R137, R25, R26, R40). Host memory of a partition to which no VF is
bound has no link: host-link-down (log entry 106). -/
def framePath (s : State) (t : Tlb) (part va : Nat) (wr : Bool) : State × Except Bad Nat :=
  let bad := fun (c : Nat) => Except.error { cause := c, die := t.die, va := va }
  let a := leafLoc s t va
  if t.dw0.testBit 7 then
    match s.pfOf part with
    | none => (s, bad 9)
    | some pf =>
      if s.pfDown.contains pf then (s, bad 9)
      else if wr && s.insecure pf then (s, bad 10)
      else if s.reach t.die (2 * pf) then (s.cross t.die (2 * pf), .ok a)
      else (s, bad 8)
  else if s.reach t.die (a / 2 ^ 37 % 4) then (s.cross t.die (a / 2 ^ 37 % 4), .ok a)
  else (s, bad 8)

/-- A translated access: PART_TTB's EN (R146), TLB or walk, R134, the dirty bit (R139), the counters (R140), and the path to the
frame. A request of another chip comes from the die that performs it. -/
def translate (s : State) (part va : Nat) (wr ft : Bool) (from_ : Nat) : State × Except Bad Nat :=
  let home := s.physDie (homeDie 0 va)
  if !s.reach (from_ % 4) home then (s, .error { cause := 8, die := from_ % 4, va := va })
  else if !(s.rn 4 0x1004 part).testBit 0 then (s, .error { cause := 2, die := home, va := va })
  else
    let (s, r) := match tlbFind s home part va with
      | some t => (s, Except.ok t)
      | none => walkTlb s home part va
    match r with
    | .error b => (s, .error b)
    | .ok t =>
      -- a write through D = 0 walks DW0 again and sets D
      let again := wr && !t.dw0.testBit 5 && (leafCheck t va wr ft).isNone
      let (s, r) := if again then walkTlb s home part va else (s, .ok t)
      match r with
      | .error b => (s, .error b)
      | .ok t =>
        match leafCheck t va wr ft with
        | some c => (s, .error { cause := c, level := if c = 2 then 0 else 255, die := home, va := va })
        | none =>
          let (s, t) := if again && !t.dw0.testBit 5 then
              (let t' := { t with dw0 := t.dw0 + 32 }
               (tlbPut (wrNat s t.addr 8 t'.dw0) t', t'))
            else (s, t)
          framePath (countAccess s t va from_) t part va wr

/-- Whether a range of VAs touches an admitted image of the partition (R119). -/
def inImage (s : State) (part va n : Nat) : Bool :=
  (s.images.get [] part).any fun im => im.base < va + n && va < im.base + im.size

/-- One access that lies in one line: its physical location, or its fault. `cp` marks a command processor, which
alone may write an image (R119). `from_` is the requester's die. -/
def locate (s : State) (part va n : Nat) (wr ft cp : Bool) (from_ : Nat) : State × Except Bad Nat :=
  let cls := vaClass s.capSpad va
  if wr && !cp && inImage s part va n then (s, .error { cause := 0xB, die := from_ % 4, va := va })
  else if cls.translated then translate s part va wr ft from_
  else match sramLoc s part cls wr with
    | .error b => (s, .error { b with va := va, die := if b.cause = 1 then from_ % 4 else b.die })
    | .ok a =>
      if s.reach (from_ % 4) (s.physDie (bits va 61 60)) then (s, .ok a)
      else (s, .error { cause := 8, die := from_ % 4, va := va })

/-- The tile whose autotomy is under way: the first of the queue (R239, log entry 114). -/
def State.halting (s : State) : Option Nat := s.autoq.head?.map (·.tile)

/-- Whether an access of a source waits at its place-table lookup: it names the logical identity of another tile whose autotomy is
under way (R239). -/
def lookupWaits (s : State) (part va : Nat) (src : Option Nat) : Bool :=
  match s.halting, vaClass s.capSpad va with
  | some t, .spad d c u _ => s.physTile part (d * 128 + c * 8 + u) == some t && src != some (srcTile t)
  | _, _ => false

/-- An access that an agent of a die makes itself: it waits at its place-table lookup, and crosses to the home die first (R34,
R125, R239). -/
def locateFar (s : State) (part va n : Nat) (wr ft cp : Bool) (from_ : Nat) : State × Except Bad Nat :=
  let s := if lookupWaits s part va none then { s with stalled := true } else s
  match vaClass s.capSpad va with
  | .none => locate s part va n wr ft cp from_
  | _ => locate (s.cross from_ (s.physDie (homeDie s.capSpad va))) part va n wr ft cp from_

/-- The location that an access by VA reaches, found with no effect: through the TLB or the tables of the home die; a VA that
reaches none stands for itself. -/
def locOf (s : State) (part va : Nat) (wr : Bool) : Nat :=
  let own := 2 ^ 80 + va
  let cls := vaClass s.capSpad va
  if cls.translated then
    let home := s.physDie (homeDie 0 va)
    match tlbFind s home part va with
    | some t => leafLoc s t va
    | none =>
      match walkFrom s va (dirLevels va) (bits (s.rn 4 0x1004 part) 38 13 * 8192) with
      | .ok (dw0, a, sz) => leafLoc s (tlbOf s home part va dw0 a sz) va
      | .error _ => own
  else match sramLoc s part cls wr with
    | .ok a => a
    | .error _ => own

/-- The image whose code region holds a VA (R120, R154). -/
def State.imageOf (s : State) (part va : Nat) : Option Image :=
  (s.images.get [] part).find? fun im => im.base + im.codeOff ≤ va && va < im.base + im.codeOff + im.codeLen

/-- The places of n bytes at a VA: location, offset and length, line by line in a translated range (R125). -/
def piecesOf (s : State) (part va n : Nat) (wr : Bool) : List (Nat × Nat × Nat) :=
  if (vaClass s.capSpad va).translated then
    (List.range (n / 64 + 2)).filterMap fun k =>
      let o := if k = 0 then 0 else 64 * k - va % 64
      let len := min (n - o) (if k = 0 then 64 - va % 64 else 64)
      if o < n then some (locOf s part (va + o) wr, o, len) else none
  else [(locOf s part va wr, 0, n)]

/-- Whether n bytes at a VA and m bytes at another share a byte of memory, each read or written as it is (R181, R188). -/
def clash (s : State) (part a n : Nat) (wa : Bool) (b m : Nat) (wb : Bool) : Bool :=
  (piecesOf s part a n wa).any fun p => (piecesOf s part b m wb).any fun q => p.1 < q.1 + q.2.2 && q.1 < p.1 + p.2.2

/-- The image in which a VA names an entry bundle: the header there has BK 10 or 11 (R229, R266). -/
def State.entryOf (s : State) (part va : Nat) : Option Image :=
  (s.imageOf part va).filter fun im => match decodeHeader im.gen (rdNat s (locOf s part va false) 4) with
    | .ok h => h.bk ≥ 2
    | .error _ => false

/-- The handler that FLT_VEC of a partition names: an entry bundle of an admitted image (R106, R214, R217). -/
def State.fltVec (s : State) (part : Nat) : Option Nat :=
  let v := s.rn 4 0x1006 part
  let va := v / 4 * 4
  if v.testBit 0 && (s.entryOf part va).isSome then some va else none

/-- The context enters its handler, or is to be written back faulted (R214 steps 5 and 6, R234). -/
def enterFault (s : State) (ck : Nat) (c : Ctx) (cause slot eva level die : Nat) (sealed : Bool) : State :=
  let c := c.dropFills
  match s.fltVec c.part with
  | some h =>
    if c.priv then
      let s := if sealed then s else emitFault s c.part (srcTile (ck / 2)) ⟨cause, level, die, eva⟩
      s.setCtx ck { c with phase := .leaving 6 }
    else
      s.setCtx ck { c with
        priv := true, pc := h, fresh := true, phase := .running, recasts := 0, ibuf := [],
        arch := { c.arch with epc := BitVec.ofNat 64 c.entryVa, ecause := BitVec.ofNat 64 (slot * 256 + cause),
                              eva := BitVec.ofNat 64 eva },
        verdict := false }
  | none =>
    let s := if sealed then s else emitFault s c.part (srcTile (ck / 2)) ⟨cause, level, die, eva⟩
    s.setCtx ck { c with phase := .leaving 6 }

/-- The bytes of a VA that lie in its 64-byte line, at most n (R125). -/
def lineSpan (va n : Nat) : Nat := min n (64 - va % 64)

/-- A read by VA, line by line (R125): fuel, bytes left; `ft` marks a fetch. Each line is located on its own. -/
def vaReadFrom : Nat → State → Nat → Nat → Nat → Bool → Nat → State × Except Bad (List Nat)
  | 0, s, _, _, _, _, _ => (s, .ok [])
  | f + 1, s, part, va, n, ft, from_ =>
    if n = 0 then (s, .ok [])
    else
      let k := lineSpan va n
      match locateFar s part va k false ft false from_ with
      | (s, .error b) => (s, .error b)
      | (s, .ok a) =>
        match vaReadFrom f s part (va + k) (n - k) ft from_ with
        | (s, .error b) => (s, .error b)
        | (s, .ok l) => (s, .ok (leBytes k (rdNat s a k) ++ l))

/-- A read of n bytes by VA. -/
def vaRead (s : State) (part va n from_ : Nat) : State × Except Bad (List Nat) :=
  vaReadFrom (n / 64 + 2) s part va n false from_

/-- A fetch of n bytes by VA (R194, R134). -/
def vaFetch (s : State) (part va n from_ : Nat) : State × Except Bad Nat :=
  match vaReadFrom (n / 64 + 2) s part va n true from_ with
  | (s, .error b) => (s, .error b)
  | (s, .ok l) => (s, .ok (leNat l))

/-- Bytes written at a location; the line's tag becomes 0 (R223). -/
def storeAt (s : State) (a n v : Nat) : State :=
  let s := { s with relVec := s.relVec.filter fun p => p.1 < a || a + n ≤ p.1 }
  setTag (wrNat s a n v) a 0

/-- The cluster of a tile or of a cluster's engines, by source number. -/
def cluOfSrc (src : Nat) : Option Nat :=
  let die := src / 2 ^ 14
  if bits src 13 8 = 0 then some (die * 16 + src % 256 / 8) else if bits src 13 8 = 1 then some (die * 16 + src % 256) else none

/-! Fault injection (R241, R399) -/

/-- What FINJ_CTL does with a write packet that comes at a cluster for its exchange window from outside: 0 pass, 1 drop,
2 invert TAG bit 0. -/
def finjAct (s : State) (clu : Nat) : State × Nat :=
  let r := s.rn 2 0x804 clu
  let mode := bits r 2 1
  if !r.testBit 0 || mode = 0 || mode = 3 then (s, 0)
  else if (s.cl clu).finj < bits r 31 16 then (s.setCl clu { s.cl clu with finj := (s.cl clu).finj + 1 }, 0)
  else (s.setN 2 0x804 clu (r - 1), mode)

/-- Whether a VA is in a cluster's exchange window, and that physical cluster. -/
def exchangeOf (s : State) (part va : Nat) : Option Nat :=
  match vaClass s.capSpad va with
  | .clu d c o => if o ≥ 0x300000 then some (s.physClu part d c) else none
  | _ => none

/-- The cluster of whose exchange window a write by a source to a VA is a packet from outside (R399). -/
def outsideOf (s : State) (part va src : Nat) : Option Nat := (exchangeOf s part va).filter fun c => cluOfSrc src != some c

/-- Bytes of a source written by one packet at the location of a VA, whose line takes a tag; FINJ_CTL acts on what comes to an
exchange window from outside: a packet that it discards is not performed, and one whose TAG it inverts is (R241, R399). -/
def putAt (s : State) (part va src a n v : Nat) (tag : W32) : State × Bool :=
  match outsideOf s part va src with
  | none => (setTag (storeAt s a n v) a tag, true)
  | some c =>
    let (s, act) := finjAct s c
    if act = 1 then (s, false) else (setTag (storeAt s a n v) a (if act = 2 then tag ^^^ 1 else tag), true)

/-- The bytes at a VA that one access of a source writes: to its 64-byte line, from outside an exchange window to its 256-byte line
(R125, R399). -/
def writeSpan (s : State) (part va src n : Nat) : Nat :=
  if (outsideOf s part va src).isSome then min n (256 - va % 256) else lineSpan va n

/-- A write by VA by a source, access by access, which stops at its first fault. -/
def vaWriteFrom : Nat → State → Nat → Nat → List Nat → Bool → Nat → State × Option Bad
  | 0, s, _, _, _, _, _ => (s, none)
  | f + 1, s, part, va, l, cp, src =>
    if l.isEmpty then (s, none)
    else
      let k := writeSpan s part va src l.length
      match locateFar s part va k true false cp (src / 2 ^ 14) with
      | (s, .error b) => (s, some b)
      | (s, .ok a) => vaWriteFrom f (putAt s part va src a k (leNat (l.take k)) 0).1 part (va + k) (l.drop k) cp src

/-- A write of bytes by VA by a source. -/
def vaWrite (s : State) (part va : Nat) (l : List Nat) (cp : Bool) (src : Nat) : State × Option Bad :=
  vaWriteFrom (l.length / 64 + 2) s part va l cp src

/-- Bytes of one line written by VA by a source; a line written whole takes a tag, any other tag 0 (R69, R223, R224). -/
def vaPut (s : State) (part va : Nat) (b : List Nat) (src : Nat) (tag : W32) : State × Option Bad :=
  let t := if b.length = 256 then tag else 0
  if (outsideOf s part va src).isSome then
    (match locateFar s part va b.length true false false (src / 2 ^ 14) with
     | (s, .error e) => (s, some e)
     | (s, .ok a) => ((putAt s part va src a b.length (leNat b) t).1, none))
  else match vaWrite s part va b false src with
    | (s, some e) => (s, some e)
    | (s, none) =>
      if (vaClass s.capSpad va).tagged then
        (match sramLoc s part (vaClass s.capSpad va) true with
         | .ok a => (setTag s a t, none)
         | .error _ => (s, none))
      else (s, none)

/-- A doubleword read by VA; its fault where it has one. -/
def vaRead8 (s : State) (part va from_ : Nat) : State × Except Bad Nat :=
  match vaRead s part va 8 from_ with
  | (s, .error b) => (s, .error b)
  | (s, .ok l) => (s, .ok (leNat l))

/-- A doubleword written by VA by a source. -/
def vaWrite8 (s : State) (part va v : Nat) (cp : Bool) (src : Nat) : State × Option Bad :=
  vaWrite s part va (leBytes 8 v) cp src

/-- A bank-ALU operation's result (R331): 0 add, 1 fadd, 2 min, 3 max, 4 or, 5 and, 6 swap. -/
def bankOp (op n old v : Nat) : Nat :=
  let w := 8 * n
  if op = 0 then (old + v) % 2 ^ w
  else if op = 1 then (encIeeeR 1 false .rne 0 (sumNum false [decIeee 23 old, decIeee 23 v]).1).1
  else if op = 2 then (if sext w old ≤ sext w v then old else v)
  else if op = 3 then (if sext w old ≤ sext w v then v else old)
  else if op = 4 then old ||| v
  else if op = 5 then old &&& v
  else v % 2 ^ w

/-- The entry by entry maximum of two vectors. -/
def vecMax (a b : List Nat) : List Nat :=
  if a.isEmpty then b else if b.isEmpty then a else (List.range 4).map fun i => max (a.getD i 0) (b.getD i 0)

/-- The stamps of two lists, one of each agent, which carries the greatest vector of its own (R192). -/
def joinStamps (a b : List Stamp) : List Stamp :=
  b.foldl (fun l t => if l.any (·.src == t.src) then l.map fun u => if u.src == t.src then ⟨u.src, vecMax u.vec t.vec⟩ else u
    else l ++ [t]) a

/-- What releases left at n bytes of a location. -/
def relAt (s : State) (loc n : Nat) : List Stamp :=
  (s.relVec.filter fun p => loc ≤ p.1 && p.1 < loc + n).foldl (fun v p => joinStamps v p.2) []

/-- What releases leave at n bytes of a location. -/
def relPut (s : State) (loc n : Nat) (v : List Stamp) : State :=
  { s with relVec := (List.range n).foldl (fun m i => SMap.put [] m (loc + i) v) s.relVec }

/-- The locations that a bank ALU serves: plain cluster memory, the drag view, the die pool (R180, R331). -/
def bankable (cls : VaClass) : Bool :=
  match cls with
  | .clu _ _ o => o < 0x300000
  | .pool _ _ => true
  | _ => false

/-- A bank-ALU operation on memory that has no bank ALU: cause address; in a translated range a VA that no leaf maps takes
the fault of its walk (R65, R180). -/
def bankElse (s : State) (part va n from_ : Nat) : State × Bad :=
  let b : Bad := { cause := 1, die := from_ % 4, va := va }
  match vaClass s.capSpad va with
  | .host | .dieLocal _ => (match locate s part va n false false false from_ with
      | (s, .error e) => (s, e)
      | (s, .ok _) => (s, b))
  | _ => (s, b)

/-- A bank-ALU operation performed at its home (R180): the old value, or its fault. The vector that a release left at the location
stays (R189, R192). -/
def bankAt (s : State) (part va n op v from_ : Nat) : State × Except Bad Nat :=
  if !bankable (vaClass s.capSpad va) then
    let (s, b) := bankElse s part va n from_
    (s, .error b)
  else match locate s part va n true false false from_ with
    | (s, .error b) => (s, .error b)
    | (s, .ok a) =>
      let old := rdNat s a n
      (relPut (storeAt s a n (bankOp op n old v)) a n (relAt s a n), .ok old)

/-- A bank-ALU operation that an agent of a die makes itself. -/
def bankFar (s : State) (part va n op v from_ : Nat) : State × Except Bad Nat :=
  match vaClass s.capSpad va with
  | .none => bankAt s part va n op v from_
  | _ => bankAt (s.cross from_ (s.physDie (homeDie s.capSpad va))) part va n op v from_

/-! Invalidation logs (R142 to R144) -/

/-- The TLB entries of a page removed, or of a partition; with a page's, its counters (R143). -/
def invEntry (s : State) (die part page size : Nat) (whole : Bool) : State :=
  let hit := fun (t : Tlb) => t.die == die && t.part == part && (whole || (t.size == size && t.page == page / pageBytes size))
  let s := { s with tlb := s.tlb.filter fun t => !hit t }
  if whole then s
  else { s with access := s.access.filter fun a =>
           !(a.die == die && a.part == part && a.page * 2 ^ 16 / pageBytes size == page / pageBytes size) }

/-- The next entry of a die's log, where one is to be applied: its location and its two doublewords. -/
def invNext (s : State) (die : Nat) : Option (Nat × Nat × Nat) :=
  let ctl := s.rn 3 0xC05 die
  let logn := ctl % 32
  let done := s.rn 3 0xC07 die
  if ctl.testBit 5 || logn < 4 || logn > 16 || done == s.rn 3 0xC06 die then none
  else
    let a := region 6 (s.rn 3 0xC04 die / 4096 * 4096 + 16 * (done % 2 ^ logn))
    some (a, rdNat s a 8, rdNat s (a + 8) 8)

/-- RESULT written and INV_DONE advanced (R143). -/
def invDone (s : State) (die a res : Nat) : State := (wrByte s (a + 8) (BitVec.ofNat 8 res)).bump 3 0xC07 die

/-- A move entry (R144): the page copied, DW0 rewritten; RESULT 2 where it is abandoned, because the leaf is none of its kind,
the compare-and-set does not succeed (`ok` false), or the copy faults: a frame or a table unpopulated or on a die out of reach (R40). A
move keeps the page's counters, which R143 removes for a page entry. -/
def invMove (s : State) (die a dw0 dw1 : Nat) (ok : Bool) : State :=
  let part := dw0 % 32
  let va := dw0 / 2 ^ 16 * 2 ^ 16
  let s := { s with tlb := s.tlb.filter fun t => !(t.die == die && t.part == part && t.size == 0 && t.page == va / 2 ^ 16) }
  let root := bits (s.rn 4 0x1004 part) 38 13 * 8192
  let dies := walkDies s va (dirLevels va) root
  let s := dies.foldl (fun t d => t.cross die d) s
  match walkFrom s va (dirLevels va) root with
  | .ok (lf, la, 0) =>
    let from_ := bits lf 46 24 * 2 ^ 16
    let to_ := bits dw1 46 24 * 2 ^ 16
    let far := (from_ / 2 ^ 37 :: to_ / 2 ^ 37 :: dies).any fun d => !s.reach die d
    if !lf.testBit 0 || lf.testBit 7 || !ok || unpop to_ || far then invDone s die a 2
    else
      let src := region 6 from_
      let dst := region 6 to_
      let cells := s.mem.filter fun c => src ≤ c.1 && c.1 < src + 2 ^ 16
      let s := wipe ((s.cross die (from_ / 2 ^ 37)).cross die (to_ / 2 ^ 37)) dst (2 ^ 16)
      let s := cells.foldl (fun s c => wrByte s (dst + (c.1 - src)) c.2) s
      let new := setBits (setBits lf 46 24 (bits dw1 46 24)) 15 8 (bits lf 15 8 + 1)
      invDone (wrNat s la 8 new) die a 1
  | _ => invDone s die a 2

/-- One entry applied (R143): page, partition, move; anything else is malformed. -/
def invApply (s : State) (die : Nat) (ok : Bool) : State :=
  match invNext s die with
  | none => s
  | some (a, dw0, dw1) =>
    let kind := bits dw0 11 10
    let bad := bits dw0 15 12 != 0 || bits dw0 7 5 != 0 || kind == 3 || bits dw0 9 8 == 3 || bits dw1 23 8 != 0
    if bad then invDone s die a 3
    else if kind = 0 then invDone (invEntry s die (dw0 % 32) (dw0 / 2 ^ 16 * 2 ^ 16) (bits dw0 9 8) false) die a 1
    else if kind = 1 then invDone (invEntry s die (dw0 % 32) 0 0 true) die a 1
    else invMove s die a dw0 dw1 ok

/-- Entries applied up to INV_PROD: fuel bounds the log's length. -/
def invRun : Nat → State → Nat → State
  | 0, s, _ => s
  | f + 1, s, die => if (invNext s die).isNone then s else invRun f (invApply s die true) die

/-- A die's log applied (R143). -/
def invAll (s : State) (die : Nat) : State := invRun (2 ^ 16) s die

/-- Every die's log applied: an acquire at package or system scope (R143). -/
def invAllDies (s : State) : State := (List.range 4).foldl invAll s

/-- Whether a die has entries that it may not apply yet, because INV_ERR is set: what completes only after their application
waits (R143, R144). -/
def invStuck (s : State) (die : Nat) : Bool :=
  let ctl := s.rn 3 0xC05 die
  ctl.testBit 5 && 4 ≤ ctl % 32 && ctl % 32 ≤ 16 && s.rn 3 0xC07 die != s.rn 3 0xC06 die

/-! Vector clocks (R192) -/

/-- The vector of a die. -/
def vclk (s : State) (die : Nat) : List Nat := (List.range 4).map fun i => s.rn 3 (0xC10 + i) die

/-- Whether agent b of this package lies in the instance of a scope that holds agent a (R186): the same tile, the same cluster or
its engines, the same die, or the package. -/
def inInstance (scope a b : Nat) : Bool :=
  if scope = 0 then a == b && bits a 13 8 == 0
  else if scope = 1 then (cluOfSrc a).isSome && cluOfSrc a == cluOfSrc b
  else if scope = 2 then a / 2 ^ 14 == b / 2 ^ 14
  else true

/-- The vector that an acquire takes from what releases left: those of the agents in the acquiring agent's instance of the scope. The
releases are of package or system scope, whose instance holds it (R187, R192). -/
def vecFor (scope src : Nat) (l : List Stamp) : List Nat :=
  (l.filter fun t => inInstance scope src t.src).foldl (fun v t => vecMax v t.vec) []

/-- A release at package or system scope by an agent: its epoch, and what it carries (R192). -/
def relTake (s : State) (src : Nat) : State × Nat × List Stamp :=
  let die := src / 2 ^ 14
  let s' := s.bump 3 (0xC10 + die) die
  (s', s.rn 3 (0xC10 + die) die, [⟨src, vclk s' die⟩])

/-- An acquire on a die that reads a carried vector. -/
def acqTake (s : State) (die : Nat) (vec : List Nat) : State :=
  (List.range 4).foldl (fun s i => s.setN 3 (0xC10 + i) die (max (s.rn 3 (0xC10 + i) die) (vec.getD i 0))) s

/-- Packets on their way: in events, in switches, held or begun at a link. -/
def underWay (s : State) : List Pkt :=
  s.events.filterMap (fun i => match i with
    | .packetInject _ _ k => some k
    | .jalcyDEndpointRewrite _ k => some k
    | .write _ k => some k
    | .bankOperation _ k => some k
    | _ => none)
  ++ s.net.map (·.pkt)
  ++ s.links.flatMap fun p => p.2.pkts.map (·.2) ++ (p.2.tail.map (·.2.2)).toList ++ p.2.reinject

/-- The epoch below which every write of die `src` for a home on another die has been performed (R192): every die's entry for it,
at the least. -/
def epochDone (s : State) (src : Nat) : Nat :=
  (underWay s).foldl (fun e k =>
    if (k.opc = 1 ∨ k.opc = 4) ∧ k.src / 2 ^ 14 = src ∧ k.schip = s.ident.chip ∧ k.dchip = s.ident.chip % 4096 ∧ k.ddie ≠ src
    then min e k.epoch else e) (s.rn 3 (0xC10 + src) src)

/-- Whether an acquire of an agent at a scope may complete, which reads what releases left: where it takes a vector, every die has
performed every write whose epoch lies below the die's vector (R187, R192), and at package or system scope no die's log is stuck
(R143). -/
def acqReady (s : State) (src scope : Nat) (l : List Stamp) : Bool :=
  let die := src / 2 ^ 14
  let vec := vecFor scope src l
  (vec.isEmpty || (List.range 4).all fun i => max (s.rn 3 (0xC10 + i) die) (vec.getD i 0) ≤ epochDone s i)
    && (scope < 3 || (List.range 4).all fun d => !invStuck s d)

/-- The effect of an acquire of an agent at a scope: the vector that it takes; at package or system scope, then the invalidation logs
(R143, R187, R192). -/
def acqDone (s : State) (src scope : Nat) (l : List Stamp) : State :=
  let vec := vecFor scope src l
  let s := if vec.isEmpty then s else acqTake s (src / 2 ^ 14) vec
  if scope ≥ 3 then invAllDies s else s

/-- A release by an agent's bank-ALU increment: what it carries joins what the location carried (R189, R192). -/
def relFlag (s : State) (part va src : Nat) (cp : Bool) : State × Option Bad :=
  let die := src / 2 ^ 14
  if !bankable (vaClass s.capSpad va) then
    let (s, b) := bankElse s part va 8 die
    (s, some b)
  else match locateFar s part va 8 true false cp die with
    | (s, .error b) => (s, some b)
    | (s, .ok a) =>
      let old := relAt s a 8
      let s := storeAt s a 8 ((rdNat s a 8 + 1) % 2 ^ 64)
      let (s, _, vec) := relTake s src
      (relPut s a 8 (joinStamps old vec), none)

end Sys2Proof.Machine
end

