-- ==== Sys2Proof/Machine/Operands.lean ====
section
/-! DEFINITION. Operand forms: predicates and immediates, effective addresses, the registers that each slot form reads
and writes, its latency, and its lineage positions (R206, R209, R212, R213, R219 to R221, R269, R313, R322, R352). -/

namespace Sys2Proof.Machine

/-- Whether a predicate holds (R212). -/
def predTrue (c : Ctx) : Pred → Bool
  | .always => true
  | .isTrue n => (c.sg n).c
  | .isFalse n => !(c.sg n).c

/-- An immediate of a field of w bits, or of the extension word, sign-extended to 64 bits (R269). -/
def immW (w : Nat) : Imm → W64
  | .short r => BitVec.ofInt 64 (sext w r)
  | .ext r => BitVec.ofInt 64 (sext 32 r)

/-- An immediate taken unsigned in its field, signed in the extension word (R269, R300): an exact number (R8). -/
def immUZ : Imm → Int
  | .short r => r
  | .ext r => sext 32 r

/-- The same in 64 bits. -/
def immU (i : Imm) : W64 := BitVec.ofInt 64 (immUZ i)

/-- What an immediate contributes to a lineage position (R218). -/
def mixImm (v : W64) : W32 := mix (v.setWidth 32)

/-- The byte offset of a MEM word (R322). -/
def memOff (f : MemF) : W64 :=
  match f.ext with
  | none => BitVec.ofInt 64 (sext 24 f.off)
  | some e => BitVec.ofInt 64 (sext 56 (e * 2 ^ 24 + f.off))

/-- The effective address of a MEM form (R322). -/
def memEa (c : Ctx) (f : MemF) : Nat :=
  if f.pi = 0 then (c.rx f.base + memOff f).toNat else (c.rx f.base).toNat

/-- The address of an SCL load (R384). -/
def sclEa (c : Ctx) (b : Nat) (o : Imm) : Nat :=
  let off := match o with
    | .short r => sext 13 r
    | .ext v => sext 45 v
  (c.rx b + BitVec.ofInt 64 (8 * off)).toNat

/-- The AST byte that a named tile register reaches: that of its stored place (R216, R204). -/
def astPlace (c : Ctx) (n : Nat) : Nat := if n < 32 then n else 32 + (n - 32 + c.arch.rot) % 16

/-- Rows of tile register t that are live in a row range, as places. -/
def livePlaces (c : Ctx) (rows : List Nat) : List Nat :=
  rows.filterMap fun r => let (p, l) := c.place r
                          if l then some p else none

/-- The rows of a tile register from row k on, n of them. -/
def tileRows (t k n : Nat) : List Nat := (List.range n).map fun i => 32 * t + k + i

/-- g over the rows of a tile register (R220). -/
def gTile (c : Ctx) (t : Nat) : W32 := gMix ((tileRows t 0 32).map c.rowLin)

/-! Algebra tables and shapes that fix what an MMA reads and writes (R259, R373, R374) -/

/-- An algebra table as it acts: all zero is the real table (R260). -/
structure AlgTab where
  d : Nat
  mask : Nat
  /-- Entries (i, j, target, negative). -/
  ents : List (Nat × Nat × Nat × Bool)

/-- The dimension code of a table's 48 bytes. -/
def atDim (t : BitVec 384) : Nat := 2 ^ (bits t.toNat 329 328)

/-- A table read from its 48 bytes (R259, R260). -/
def algTab (t : BitVec 384) : AlgTab :=
  let v := t.toNat
  if v = 0 then ⟨1, 0, [(0, 0, 0, false)]⟩
  else ⟨2 ^ bits v 329 328, bits v 327 320,
    (List.range 64).filterMap fun k =>
      let e := bits v (5 * k + 4) (5 * k)
      if e / 8 = 0 then none else some (k / 8, k % 8, e % 8, e / 8 == 3)⟩

/-- Whether 48 bytes form an illegal table (R259). -/
def atIllegal (t : BitVec 384) : Bool :=
  let v := t.toNat
  let d := 2 ^ bits v 329 328
  (List.range 64).any (fun k =>
    let e := bits v (5 * k + 4) (5 * k)
    e / 8 == 2 || (e != 0 && (k / 8 ≥ d || k % 8 ≥ d)) || e % 8 ≥ d)
    || bits v 327 320 ≥ 2 ^ d || bits v 383 330 != 0

/-- Lines of A and of B, rows of the accumulator: M_e and N_e for a dimension (R373). -/
def mE (d : Nat) : Nat := 32 / d
/-- N_e of a dimension (R373). -/
def nE (d : Nat) : Nat := 64 / d

/-- K elements that a step consumes (R374). -/
def stepE (fa fb : Nat) : Nat := if fa = 3 ∧ fb = 3 then 4 else if (fa = 2 ∧ fb = 2) ∨ (fa = 4 ∧ fb = 4) then 2 else 1

/-- The MTX fields as the decode generation reads them: VLX1 takes AT, ORD, CJA and CJB as 0 (R292). -/
def mtxGen (gen : Nat) (f : MtxF) : MtxF := if gen = 1 then { f with att := 0, ord := 0, cja := 0, cjb := 0 } else f

/-- The count of an MMA, and whether it is a no-op MMA (R374). -/
def mmaCount (c : Ctx) (f : MtxF) : Nat := (c.rx f.cnt).toNat
/-- Whether the guard or the count makes the MMA a no-op (R374). -/
def mmaNoop (c : Ctx) (f : MtxF) : Bool := mmaCount c f == 0 || (f.grd != 0 && c.rx f.grd == 0)

/-- Fields of the block-scaled extension word (R377): SOA, SOB, SCA, SCB, ILA, ILB. -/
def mmaExt (f : MtxF) : Nat × Nat × Nat × Nat × Nat × Nat :=
  let e := f.ext.getD 0
  (bits e 7 0, bits e 15 8, bits e 18 16, bits e 21 19, bits e 23 22, bits e 25 24)

/-! VEC operands (R349, R352) -/

/-- How a VEC form uses a source field. -/
inductive VUse where
  | no
  | row
  | x
  | num
  deriving DecidableEq, Repr

/-- Position a, b, c uses of each VEC form, its fields and its latency; none for another instruction. -/
def vecUse : Instr → Option (VecF × VUse × VUse × VUse × Nat)
  | .vadd _ f | .vsub _ f | .vmul _ f | .vmin _ f | .vmax _ f => some (f, .row, .row, .no, 4)
  | .vfma _ f | .vfms _ f | .vfnm _ f => some (f, .row, .row, .row, 4)
  | .vmac _ f => some ({ f with c := f.d }, .row, .row, .row, 4)
  | .vneg _ f | .vabs _ f | .vbamax _ f | .vdq _ f => some (f, .row, .no, .no, 4)
  | .vrcp _ f | .vrsq _ f | .vexp2 _ f | .vlog2 _ f => some (f, .row, .no, .no, 8)
  | .vsel _ f => some (f, .row, .row, .row, 2)
  | .vcmpEq _ f | .vcmpNe _ f | .vcmpLt _ f | .vcmpGe _ f | .vcmpLtu _ f | .vcmpGeu _ f | .vand _ f | .vor _ f
  | .vxor _ f | .vshl _ f | .vshr _ f | .vsra _ f | .vperm _ f | .vpack _ f | .vcmpr _ f => some (f, .row, .row, .no, 2)
  | .vnot _ f | .vmov _ f => some (f, .row, .no, .no, 2)
  | .vcvt _ f => some (f, .row, if cvtNarrows f then .row else .no, .num, 4)
  | .vqnt _ f => if bits (f.ext.getD 0) 0 0 = 1 then some ({ f with c := bits f.c 4 0 }, .row, .row, .x, 4)
    else some (f, .row, .row, .num, 4)
  | .vrsum _ f | .vrmax _ f | .vrmin _ f => some (f, .row, .no, .num, 4)
  | .vbcst _ f =>
    if f.ext.isSome then some (f, .no, .no, .num, 2)
    else if f.c ≥ 1024 then some ({ f with c := f.c - 1024 }, .no, .no, .x, 2)
    else some (f, .row, .no, .num, 2)
  | .vext _ f => some (f, .row, .row, .num, 2)
  | .vins _ f => some (f, .row, .x, .num, 2)
  | .vrot _ f | .vunpk _ f => some (f, .row, .no, .num, 2)
  | .viota _ f => some (f, .x, .no, .num, 2)
  | .vpart _ f => some (f, .row, .row, .no, 4)
  | .vamul _ f => some (f, .row, .row, .num, 4)
  | .vconj _ f | .vnorm _ f => some (f, .row, .no, .num, 4)
  | _ => none

/-- The lineage of a VEC field by its use (R352). -/
def vPos (c : Ctx) (u : VUse) (v : Nat) : W32 :=
  match u with
  | .no => 0
  | .row => c.rowLin v
  | .x => c.xLin v
  | .num => mix (BitVec.ofNat 32 v)

/-- Position s of a VEC form (R352). -/
def vecS (c : Ctx) : Instr → W32
  | .vdq _ f => let e := f.ext.getD 0
                gMix [c.linAt (0x900 + bits e 13 11), c.linAt (0x920 + bits e 6 5)]
  | .vqnt _ f => gMix [c.linAt (0x920 + bits (f.ext.getD 0) 6 5)]
  | .vamul _ f | .vconj _ f | .vnorm _ f => gMix [c.linAt (0x930 + f.c % 4)]
  | _ => 0

/-! Positions, destinations, sources -/

/-- The lineage positions a, b, c, s of a slot form (R220, R313, R352, R379, R381 to R385); `tag` is the tag of the line
read. -/
def posOf (c : Ctx) (tag : W32) (i : Instr) : W32 × W32 × W32 × W32 :=
  match i with
  | .add _ _ a b | .sub _ _ a b | .and _ _ a b | .or _ _ a b | .xor _ _ a b | .andn _ _ a b | .shl _ _ a b
  | .shr _ _ a b | .sra _ _ a b | .rotl _ _ a b | .min _ _ a b | .max _ _ a b | .minu _ _ a b | .maxu _ _ a b
  | .mul _ _ a b | .mulhs _ _ a b | .mulhz _ _ a b | .div _ _ a b | .divu _ _ a b | .rem _ _ a b | .remu _ _ a b
  | .lea _ _ a b _ | .sel _ _ a b _ _ => (c.xLin a, c.xLin b, 0, 0)
  | .clz _ _ a | .ctz _ _ a | .popc _ _ a | .sextB _ _ a | .sextH _ _ a | .sextW _ _ a | .zextB _ _ a | .zextH _ _ a
  | .zextW _ _ a => (c.xLin a, 0, 0, 0)
  | .addi _ _ a im => (c.xLin a, mixImm (immW 10 im), 0, 0)
  | .movi _ _ im => (0, mixImm (immW 10 im), 0, 0)
  | .movhi _ d im => (c.xLin d, mixImm (BitVec.ofNat 64 im), 0, 0)
  | .shli _ _ a n | .shri _ _ a n | .srai _ _ a n => (c.xLin a, mixImm (immU n), 0, 0)
  | .mma _ f =>
    let g := mtxGen c.gen f
    let x := [c.xLin f.cnt, c.xLin f.grd]
    let (_, _, sa, sb, la, lb) := mmaExt f
    let sc := if f.fa = 3 ∧ f.fb = 3 then
      [c.linAt (0x900 + sa), c.linAt (0x900 + sb), c.linAt (0x910 + la), c.linAt (0x910 + lb)] else []
    (gTile c f.ta, gTile c f.tb, if f.acc = 0 then 0 else gTile c f.tc, gMix (x ++ sc ++ [c.linAt (0x930 + g.att)]))
  | .mrd _ f | .mtrn _ f | .mcpy _ f => (gTile c f.ta, 0, 0, 0)
  | .ld _ f | .tld _ f | .tldm _ f => (c.xLin f.base, tag, 0, 0)
  | .vgath _ f => (c.xLin f.base, 0, c.rowLin f.off, 0)
  | .bankAdd _ f | .bankFadd _ f | .bankMin _ f | .bankMax _ f | .bankOr _ f | .bankAnd _ f | .bankSwap _ f =>
    (c.xLin f.base, 0, c.xLin f.data, 0)
  | .sld _ _ b _ | .slil _ _ b _ | .slbs _ _ b _ | .atld _ _ b _ => (c.xLin b, tag, 0, 0)
  | .smov _ _ k x => (c.linAt (0x900 + (if k = 0 then 0 else 16 * k) + x), 0, 0, 0)
  | i => match vecUse i with
    | some (f, ua, ub, uc, _) =>
      let cl := match i with
        | .vbcst _ g => if g.ext.isSome then mix (BitVec.ofNat 32 (g.ext.getD 0)) else vPos c uc f.c
        | _ => vPos c uc f.c
      (vPos c ua f.a, vPos c ub f.b, cl, vecS c i)
    | none => (0, 0, 0, 0)

/-- The lineage that a slot form gives its destinations (R220). -/
def linOf (c : Ctx) (tag : W32) (i : Instr) : W32 :=
  let (a, b, cc, s) := posOf c tag i
  foldLin (kopOf i) a b cc s

/-- The rows that a TLDM or TSTM moves: TC.ROWS, 0 meaning 32 (R329). -/
def mRows (c : Ctx) (f : MemF) : Nat :=
  let r := bits (c.tc.get 0 (f.data / 32)).toNat 9 5
  if r = 0 then 32 else r

/-- The dimension that the MMA's at register gives (R373). -/
def mmaD (c : Ctx) (f : MtxF) : Nat := (algTab (c.tab.get 0 (mtxGen c.gen f).att)).d

/-- Destinations that carry a lineage: flat rows, and keys of registers. -/
def destsOf (c : Ctx) (i : Instr) : List Nat × List Nat :=
  match i with
  | .add _ d _ _ | .sub _ d _ _ | .and _ d _ _ | .or _ d _ _ | .xor _ d _ _ | .andn _ d _ _ | .shl _ d _ _
  | .shr _ d _ _ | .sra _ d _ _ | .rotl _ d _ _ | .min _ d _ _ | .max _ d _ _ | .minu _ d _ _ | .maxu _ d _ _
  | .mul _ d _ _ | .mulhs _ d _ _ | .mulhz _ d _ _ | .div _ d _ _ | .divu _ d _ _ | .rem _ d _ _ | .remu _ d _ _
  | .lea _ d _ _ _ | .sel _ d _ _ _ _ | .clz _ d _ | .ctz _ d _ | .popc _ d _ | .sextB _ d _ | .sextH _ d _
  | .sextW _ d _ | .zextB _ d _ | .zextH _ d _ | .zextW _ d _ | .addi _ d _ _ | .movi _ d _ | .movhi _ d _
  | .shli _ d _ _ | .shri _ d _ _ | .srai _ d _ _ | .mfs _ d _ | .mftc _ d _ => ([], [xKey d])
  | .call _ _ => ([], [xKey 1])
  | .mma _ f => (tileRows f.tc 0 (mE (mmaD c f)), [])
  | .mzero _ f | .mtrn _ f | .mcpy _ f => (tileRows f.tc 0 32, [])
  | .mrd _ f => ([32 * f.tc + f.b0], [])
  | .ld _ f | .bankAdd _ f | .bankFadd _ f | .bankMin _ f | .bankMax _ f | .bankOr _ f | .bankAnd _ f
  | .bankSwap _ f => ([], [xKey f.data])
  | .tld _ f | .vgath _ f => ([f.data], [])
  | .tldm _ f => (tileRows 0 f.data (min (mRows c f) (32 - f.data % 32)), [])
  | .sld _ d _ _ => ([], [0x900 + d])
  | .slil _ d _ _ => ([], [0x910 + d])
  | .slbs _ d _ _ => ([], [0x920 + d])
  | .atld _ d _ _ => ([], [0x930 + d])
  | .smov _ d k _ => ([], [0x900 + (if k = 0 then 0 else 16 * k) + d])
  | .vpart _ f => ([f.d, f.d + 1, f.d + 2, f.d + 3, f.c], [])
  | .vqnt _ f =>
    let e := f.ext.getD 0
    ([f.d], [0x900 + bits e 13 11] ++ (if bits e 0 0 = 1 then [0x910 + bits e 4 3] else []))
  | i => match vecUse i with
    | some (f, _) => ([f.d], [])
    | none => ([], [])

/-- Keys of the live destinations that carry a lineage: a dead row takes none (R204). -/
def destKeysOf (c : Ctx) (i : Instr) : List Nat := livePlaces c (destsOf c i).1 ++ (destsOf c i).2

/-- The latency of an exposed-latency form in issue cycles (R206, R349, R381, R383 to R385); 0 for a MEM form and for CALL's link. -/
def latOf (c : Ctx) (i : Instr) : Nat :=
  match i with
  | .mul _ _ _ _ | .mulhs _ _ _ _ | .mulhz _ _ _ _ => 3
  | .div _ _ _ _ | .divu _ _ _ _ | .rem _ _ _ _ | .remu _ _ _ _ => 18
  | .mma _ f => 4 + (if mmaNoop c f then 0 else mmaCount c f)
  | .mzero _ _ | .mcpy _ _ | .smov _ _ _ _ => 2
  | .mtrn _ _ | .sld _ _ _ _ | .slil _ _ _ _ | .slbs _ _ _ _ | .atld _ _ _ _ => 4
  | .mrd _ _ => 6
  | .call _ _ => 0
  | .mfs _ _ r => if r < 0x800 then 1 else 0
  | i => match vecUse i with
    | some (_, _, _, _, l) => l
    | none => if i.slot = 5 then 0 else 1

/-- Post-increment of a base register (R322): its new value and its lineage. -/
def postInc (c : Ctx) (i : Instr) (f : MemF) : List Wr :=
  if f.pi = 0 ∨ f.base = 0 then []
  else [.x f.base (c.rx f.base + memOff f), .lin (xKey f.base) (foldLin (kopOf i) (c.xLin f.base) (mixImm (memOff f)) 0 0)]

/-- The MEM fields of a form that has them. -/
def memOf : Instr → Option MemF
  | .ld _ f | .st _ f | .tld _ f | .tst _ f | .tldm _ f | .tstm _ f | .vgath _ f | .vscat _ f | .ldsg _ f | .fence _ f
  | .fenceSc _ f | .fenceAll _ f | .pref _ f | .bankAdd _ f | .bankFadd _ f | .bankMin _ f | .bankMax _ f
  | .bankOr _ f | .bankAnd _ f | .bankSwap _ f => some f
  | _ => none

/-- The predicate field of a slot form; events and eft forms have none. -/
def predField : Instr → Pred
  | .prep p _ _ | .prepi p _ _ | .jmp p _ | .br p _ | .brn p _ | .call p _ | .ret p | .loop p _ _ _ | .lstep p _ _ _ _
  | .lbrk p _ | .rot p _ | .ldep p _ | .syncN p _ | .syncX p _ | .waitfeRow p _ | .waitfeFlag p _ | .susp p | .yield p
  | .exit p | .trap p _ | .ifence p | .eret p | .halt p
  | .add p _ _ _ | .sub p _ _ _ | .and p _ _ _ | .or p _ _ _ | .xor p _ _ _ | .andn p _ _ _ | .shl p _ _ _
  | .shr p _ _ _ | .sra p _ _ _ | .rotl p _ _ _ | .min p _ _ _ | .max p _ _ _ | .minu p _ _ _ | .maxu p _ _ _
  | .mul p _ _ _ | .mulhs p _ _ _ | .mulhz p _ _ _ | .div p _ _ _ | .divu p _ _ _ | .rem p _ _ _ | .remu p _ _ _
  | .addi p _ _ _ | .clz p _ _ | .ctz p _ _ | .popc p _ _ | .sextB p _ _ | .sextH p _ _ | .sextW p _ _ | .zextB p _ _
  | .zextH p _ _ | .zextW p _ _ | .movi p _ _ | .movhi p _ _ | .lea p _ _ _ _ | .sel p _ _ _ _ _ | .cmp p _ _ _ _
  | .setc p _ _ | .mfs p _ _ | .mts p _ _ | .mvtc p _ _ | .mftc p _ _ | .aclr p _ | .cmpiEq p _ _ _ | .cmpiNe p _ _ _
  | .cmpiLt p _ _ _ | .cmpiGe p _ _ _ | .cmpiLtu p _ _ _ | .cmpiGeu p _ _ _ | .shli p _ _ _ | .shri p _ _ _
  | .srai p _ _ _
  | .vadd p _ | .vsub p _ | .vmul p _ | .vfma p _ | .vfms p _ | .vfnm p _ | .vmac p _ | .vneg p _ | .vabs p _
  | .vmin p _ | .vmax p _ | .vrcp p _ | .vrsq p _ | .vexp2 p _ | .vlog2 p _ | .vsel p _ | .vcmpEq p _ | .vcmpNe p _
  | .vcmpLt p _ | .vcmpGe p _ | .vcmpLtu p _ | .vcmpGeu p _ | .vand p _ | .vor p _ | .vxor p _ | .vnot p _ | .vshl p _
  | .vshr p _ | .vsra p _ | .vcvt p _ | .vqnt p _ | .vdq p _ | .vrsum p _ | .vrmax p _ | .vrmin p _ | .vbamax p _
  | .vmov p _ | .vbcst p _ | .vext p _ | .vins p _ | .vperm p _ | .vrot p _ | .viota p _ | .vpack p _ | .vunpk p _
  | .vcmpr p _ | .vpart p _ | .vamul p _ | .vconj p _ | .vnorm p _
  | .mma p _ | .mzero p _ | .mrd p _ | .mtrn p _ | .mcpy p _
  | .ld p _ | .st p _ | .tld p _ | .tst p _ | .tldm p _ | .tstm p _ | .vgath p _ | .vscat p _ | .ldsg p _ | .fence p _
  | .fenceSc p _ | .fenceAll p _ | .pref p _ | .bankAdd p _ | .bankFadd p _ | .bankMin p _ | .bankMax p _ | .bankOr p _
  | .bankAnd p _ | .bankSwap p _
  | .sld p _ _ _ | .slil p _ _ _ | .slbs p _ _ _ | .atld p _ _ _ | .smov p _ _ _ => p
  | _ => .always

/-- Sources that a slot form reads and that can be empty, each with its FE bit (R209, R325, R349): keys of x
registers, of the places of live rows and of steer targets. -/
def readsOf (c : Ctx) (i : Instr) : List (Nat × Bool) :=
  let x := fun r => (xKey r, false)
  let rows := fun (l : List Nat) => (livePlaces c l).map fun p => (p, false)
  match i with
  | .prepi _ _ m => [x m]
  | .jmp _ n | .call _ n => [(sgKey n, false)]
  | .br _ n => if (c.sg n).c then [(sgKey n, false)] else []
  | .brn _ n => if (c.sg n).c then [] else [(sgKey n, false)]
  | .ret _ => [x 1]
  | .loop _ _ r _ => [x r]
  | .waitfeFlag _ r => [x r]
  | .exit _ | .halt _ => [x 8]
  | .add _ _ a b | .sub _ _ a b | .and _ _ a b | .or _ _ a b | .xor _ _ a b | .andn _ _ a b | .shl _ _ a b
  | .shr _ _ a b | .sra _ _ a b | .rotl _ _ a b | .min _ _ a b | .max _ _ a b | .minu _ _ a b | .maxu _ _ a b
  | .mul _ _ a b | .mulhs _ _ a b | .mulhz _ _ a b | .div _ _ a b | .divu _ _ a b | .rem _ _ a b | .remu _ _ a b
  | .lea _ _ a b _ | .sel _ _ a b _ _ | .cmp _ _ a b _ => [x a, x b]
  | .clz _ _ a | .ctz _ _ a | .popc _ _ a | .sextB _ _ a | .sextH _ _ a | .sextW _ _ a | .zextB _ _ a | .zextH _ _ a
  | .zextW _ _ a | .addi _ _ a _ | .setc _ _ a | .mvtc _ a _ | .cmpiEq _ _ a _ | .cmpiNe _ _ a _ | .cmpiLt _ _ a _
  | .cmpiGe _ _ a _ | .cmpiLtu _ _ a _ | .cmpiGeu _ _ a _ | .shli _ _ a _ | .shri _ _ a _ | .srai _ _ a _ => [x a]
  | .movhi _ d _ => [x d]
  | .mts _ r _ => [x r]
  | .mma _ f =>
    let d := mmaD c f
    let n := mmaCount c f
    let cnt := [x f.cnt] ++ (if f.grd = 0 then [] else [x f.grd])
    if c.isEmpty (xKey f.cnt) || (f.grd != 0 && c.isEmpty (xKey f.grd)) || mmaNoop c f || n > 64 then cnt
    else cnt ++ rows (tileRows f.ta f.a0 (min (mE d) (32 - f.a0))) ++ rows (tileRows f.tb f.b0 (min (min (nE d) 32) (32 - f.b0)))
      ++ (if f.acc = 0 then [] else rows (tileRows f.tc 0 (mE d)))
  | .mrd _ f => rows (tileRows f.ta f.a0 (32 / fmtWidth f.fa))
  | .mtrn _ f | .mcpy _ f => rows (tileRows f.ta 0 32)
  | .ld _ f | .tld _ f | .tldm _ f | .ldsg _ f => [(xKey f.base, f.fe.testBit 2)]
  | .st _ f => [(xKey f.base, f.fe.testBit 2), (xKey f.data, f.fe.testBit 1)]
  | .bankAdd _ f | .bankFadd _ f | .bankMin _ f | .bankMax _ f | .bankOr _ f | .bankAnd _ f | .bankSwap _ f =>
    [(xKey f.base, f.fe.testBit 2), (xKey f.data, f.fe.testBit 1)]
  | .tst _ f => (xKey f.base, f.fe.testBit 2) :: (livePlaces c [f.data]).map fun p => (p, f.fe.testBit 1)
  | .tstm _ f => (xKey f.base, f.fe.testBit 2) ::
      (livePlaces c (tileRows 0 f.data (min (mRows c f) (32 - f.data % 32)))).map fun p => (p, f.fe.testBit 1)
  | .vgath _ f => (xKey f.base, f.fe.testBit 2) :: rows [f.off]
  | .vscat _ f => (xKey f.base, f.fe.testBit 2) :: ((livePlaces c [f.data]).map fun p => (p, f.fe.testBit 1)) ++ rows [f.off]
  | .sld _ _ b _ | .slil _ _ b _ | .slbs _ _ b _ | .atld _ _ b _ => [x b]
  | i => match vecUse i with
    | some (f, ua, ub, uc, _) =>
      let one := fun (u : VUse) (v : Nat) (fe : Bool) => match u with
        | .row => (livePlaces c [v]).map fun p => (p, fe)
        | .x => [(xKey v, fe)]
        | _ => []
      one ua f.a (f.fe.testBit 2) ++ one ub f.b (f.fe.testBit 1) ++ one uc f.c (f.fe.testBit 0)
    | none => []

/-- Destinations that a slot form names and that can be empty: it waits for them (R209, R296). -/
def writesOf (c : Ctx) (i : Instr) : List Nat :=
  let (r, k) := destsOf c i
  let base := livePlaces c r ++ k.filter (fun k => 0x800 ≤ k && k < 0x820)
  match i with
  | .prep _ n _ | .prepi _ n _ => [sgKey n]
  | .ldsg _ f => [sgKey f.data]
  | .call _ _ => [xKey 1]
  | i => match memOf i with
    | some f => base ++ (if f.pi = 1 && f.base != 0 then [xKey f.base] else [])
    | none => base

/-- What the block's dataflow digest takes from a store-type slot: the lineages of its data and of its base (R227). -/
def storeLinOf (c : Ctx) (i : Instr) : Option (W32 × W32) :=
  match i with
  | .st _ f | .bankAdd _ f | .bankFadd _ f | .bankMin _ f | .bankMax _ f | .bankOr _ f | .bankAnd _ f
  | .bankSwap _ f => some (c.xLin f.data, c.xLin f.base)
  | .tst _ f => some (c.rowLin f.data, c.xLin f.base)
  | .tstm _ f => some (gMix ((tileRows 0 f.data (min (mRows c f) (32 - f.data % 32))).map c.rowLin), c.xLin f.base)
  | .vscat _ f => some (c.rowLin f.data, gMix [c.xLin f.base, c.rowLin f.off])
  | _ => none

/-- Tile registers that a slot form names (R203): numbers of T0-T47, and whether a row range passes T47. -/
def tilesOf (i : Instr) : List Nat :=
  match i with
  | .waitfeRow _ r => [r / 32]
  | .mma _ f => [f.tc, f.ta, f.tb]
  | .mzero _ f => [f.tc]
  | .mrd _ f | .mtrn _ f | .mcpy _ f => [f.tc, f.ta]
  | .tld _ f | .tst _ f | .tldm _ f | .tstm _ f => [f.data / 32]
  | .vgath _ f | .vscat _ f => [f.data / 32, f.off / 32]
  | .vpart _ f => [f.d / 32, (f.d + 3) / 32, f.c / 32, f.a / 32, f.b / 32]
  | .aclr _ n => if n < 48 then [n] else []
  | .mvtc _ _ n | .mftc _ _ n => [n]
  | .mfs _ _ r | .mts _ _ r => if 0x40 ≤ r && r < 0x70 then [r - 0x40] else []
  | i => match vecUse i with
    | some (f, ua, ub, uc, _) =>
      [f.d / 32] ++ (if ua = .row then [f.a / 32] else []) ++ (if ub = .row then [f.b / 32] else [])
        ++ (if uc = .row then [f.c / 32] else [])
    | none => []

/-- Whether every tile register that a form names lies in the context's footprint (R203). -/
def inFoot (c : Ctx) (i : Instr) : Bool := (tilesOf i).all fun t => t < 48 && c.tmask.testBit t

/-! Running a slot -/

/-- What a slot that does not execute leaves: its destinations take the lineage it would have given, empty ones too, at its latency
for an exposed-latency form, at once for a MEM form, for CALL and for an MFS of variable latency; a load takes tag 0 (R213, R221,
R319, log entry 44). -/
def lineageOnly (c : Ctx) (slot : Nat) (i : Instr) : Ctx :=
  let l := linOf c 0 i
  let c' := c.stages slot (latOf c i) ((destKeysOf c i).map fun k => .linOnly k l)
  match memOf i with
  | some f => c'.stages slot 0 ((postInc c i f).filterMap fun w => match w with
      | .lin k v => some (.linOnly k v)
      | _ => none)
  | none => c'

/-- A slot run: outside a bundle it faults; where its predicate is false it leaves its lineage only; where it names a
tile register outside the footprint it raises footprint (R203, R212, R213); else `f` runs. -/
def slotOp (i : Instr) (s : State) (f : Issue → Ctx → State) : Host.Outcome State Fault Refusal :=
  match s.iss with
  | none => .fault .noBundle
  | some is =>
    let c := s.ctx is.ck
    if !predTrue c (predField i) then .next (s.setCtx is.ck (lineageOnly c is.slot i))
    else if !inFoot c i then .next (slotFault s 0x10 is.va)
    else .next (f is c)

/-- A slot that writes one x register: its value and lineage land at the form's latency (R313). -/
def xOp (i : Instr) (d : Nat) (s : State) (v : Ctx → W64) : Host.Outcome State Fault Refusal :=
  slotOp i s fun is c => s.setCtx is.ck (c.stages is.slot (latOf c i) [.x d (v c), .lin (xKey d) (linOf c 0 i)])

/-- A slot that writes one steer condition at latency 1 (R318). -/
def condOp (i : Instr) (n : Nat) (s : State) (v : Ctx → Bool) : Host.Outcome State Fault Refusal :=
  slotOp i s fun is c => s.setCtx is.ck (c.stage is.slot 1 (.cond n (v c)))

end Sys2Proof.Machine
end

