-- ==== Sys2Proof/Machine/Regs.lean ====
section
/-! DEFINITION. Reading registers: the system-register numbers of R320 with their classes and views (R110, R319), and
the value that each register reads as. -/

namespace Sys2Proof.Machine

/-- The class of a system-register number (R320): 0 context, 1 tile, 2 cluster, 3 die, 4 partition, 5 package. -/
def sysClass (n : Nat) : Nat :=
  if n < 0x400 then 0 else if n < 0x800 then 1 else if n < 0xC00 then 2 else if n < 0x1000 then 3
  else if n < 0x2000 then 4 else 5

/-- The unit of the reader's own instance of a class. -/
def sysUnit (c : Ctx) (tile cls : Nat) : Nat :=
  if cls = 1 then tile else if cls = 2 then tile / 8 else if cls = 3 then tile / 128 else if cls = 4 then c.part else 0

/-- Whether a register is reached in the privileged view only (R12, R22, R57, R111, R146, R177, R195, R217, R242). -/
def sysPriv (n : Nat) : Bool :=
  if n < 0x400 then (0x20 ≤ n && n ≤ 0x22) || (0x28 ≤ n && n ≤ 0x2C) else n != 0x806 && n != 0x807

/-- Whether a register or its fields are written in the privileged view only (R110, R124). -/
def sysPrivWrite (n : Nat) : Bool := sysPriv n || n == 0x12

/-- Whether a number names a register that is read-only in every view: a write is ignored (R319). -/
def sysReadOnly (n : Nat) : Bool :=
  n ≤ 8 || n == 0x16 || n == 0x28 || n == 0x29 || n == 0x2B || (0x40 ≤ n && n < 0x70) || n == 0x406
    || (0x800 ≤ n && n ≤ 0x802) || n == 0x806 || n == 0x807 || n == 0xC01 || n == 0xC07 || n == 0xC09
    || (0xC10 ≤ n && n ≤ 0xC13)

/-- JLK_STAT (R37). -/
def linkStat (l : Link) : Nat :=
  let v := fun (k : List Key) (i : Nat) => flagIf (k.getD i {}).valid 1
  l.nextSeq % 4096 * 2 ^ 20 + min l.replay.length 1023 * 2 ^ 10 + flagIf l.rolling.isSome 256
    + v l.tx 1 * 128 + v l.tx 0 * 64 + v l.rx 1 * 32 + v l.rx 0 * 16 + l.st % 4 * 4 + flagIf l.keyerr 2 + flagIf l.limit 1

/-- A register as read (R6, R177, R37, R78, R111, R195): registers that show other state are computed from it. -/
def readReg (s : State) (cls num unit : Nat) : Nat :=
  if cls = 2 ∧ num = 0x800 then (((s.cl unit).contq.head?).map (·.2)).getD 0
  else if cls = 2 ∧ num = 0x801 then (((s.cl unit).contq.getLast?).map (·.2)).getD 0
  else if cls = 2 ∧ num = 0x802 then (s.cl unit).contq.length
  else if cls = 3 ∧ num = 0xC08 then 0
  else if cls = 4 ∧ num = 0x1005 then
    s.rn 4 0x1005 unit % 2 + flagIf (s.ctxs.any fun x => x.2.part == unit && x.2.preempt) 2
      + (if (s.rn 4 0x1005 unit).testBit 2 then 4 else 0)
  else if cls = 9 ∧ 2 ≤ num ∧ num ≤ 6 then 0
  else if cls = 11 then
    if num = 0 then s.rn 11 0 unit % 2 + (s.link unit).txsel * 16
    else if num = 1 then linkStat (s.link unit)
    else if num ≥ 5 then 0
    else s.rn cls num unit
  else if cls = 14 ∧ num = 0x33 then (s.eft unit).park.length
  else s.rn cls num unit

/-- SEAL_IN for an index (R236, R242, R402): entries 0-127 are row loads, 128-255 scalar loads. -/
def sealIn (c : Ctx) (idx : Nat) : Nat :=
  let l := c.frozen.filter fun e => e.isRow == (idx < 128)
  match l[idx % 128]? with
  | some e => 2 ^ 54 + e.sub % 32 * 2 ^ 49 + e.bofs % 2 ^ 17 * 2 ^ 32 + e.tag % 2 ^ 32
  | none => 0

/-- A context register as read by its context on a physical tile (R12, R124, R217, R242, R309, R320). TSC reads as the exact
count, where R17 lets a read be within one tick of it (log entry 104). -/
def readCtxReg (s : State) (c : Ctx) (tile n : Nat) : Nat :=
  let a := c.arch
  if n = 0 then (if c.priv then tile / 128 else c.ltile / 128)
  else if n = 1 then (if c.priv then tile / 8 % 16 else c.ltile / 8 % 16)
  else if n = 2 then (if c.priv then tile % 8 else c.ltile % 8)
  else if n = 3 then s.ident.chip % 4096
  else if n = 4 then s.devRev
  else if n = 5 then s.capSpad
  else if n = 8 then s.tsc.toNat
  else if n = 0x10 then a.fst.toNat
  else if n = 0x11 then a.srseed.toNat
  else if n = 0x12 then a.depcnt.toNat
  else if n = 0x13 then a.collRtb.toNat
  else if n = 0x15 then a.waitDl.toNat
  else if n = 0x16 then flagIf c.timedOut 1
  else if n = 0x20 then a.epc.toNat
  else if n = 0x21 then a.ecause.toNat
  else if n = 0x22 then a.eva.toNat
  else if n = 0x28 then c.sealExp.toNat
  else if n = 0x29 then c.sealObs.toNat
  else if n = 0x2A then a.sealIdx.toNat
  else if n = 0x2B then sealIn c a.sealIdx.toNat
  else if 0x40 ≤ n ∧ n < 0x70 then (a.ast.get 0 (astPlace c (n - 0x40))).toNat
  else 0

/-- The value that an MTS to a context register leaves: its defined bits (R7, R202, R217, R242, R309). -/
def ctxRegMask (n : Nat) : W64 :=
  if n = 0x10 then 0x7F else if n = 0x11 then 0xFFFFFFFF else if n = 0x15 then 0xFFFFFFFFFFFF0000
  else if n = 0x21 then 0x7FF else if n = 0x2A then 0xFF else 0xFFFFFFFFFFFFFFFF

end Sys2Proof.Machine
end

