-- ==== Sys2Proof/Machine/Scalar.lean ====
section
/-! DEFINITION. The SCA and ADR forms over x registers and steer conditions (R313 to R318), and the deprecated VLX1
shifts (R293). -/

namespace Sys2Proof.Machine

/-- A shift or rotate count: the low six bits (R314). -/
def shAmt (v : W64) : Nat := v.toNat % 64
/-- Leading zeros, 64 of zero (R314). -/
def clz64 (v : W64) : W64 := if v = 0 then 64 else BitVec.ofNat 64 (63 - Nat.log2 v.toNat)
/-- Trailing zeros, 64 of zero (R314). -/
def ctz64 (v : W64) : W64 := BitVec.ofNat 64 (((List.range 64).find? fun k => v.toNat.testBit k).getD 64)
/-- Set bits (R314). -/
def popc64 (v : W64) : W64 := BitVec.ofNat 64 ((List.range 64).filter fun k => v.toNat.testBit k).length
/-- The low n bits sign-extended (R314). -/
def sextW (n : Nat) (v : W64) : W64 := BitVec.ofInt 64 (sext n v.toNat)
/-- The low n bits (R314). -/
def zextW (n : Nat) (v : W64) : W64 := BitVec.ofNat 64 (v.toNat % 2 ^ n)
/-- The high half of the signed product (R315). -/
def mulHs (a b : W64) : W64 := BitVec.ofInt 64 (a.toInt * b.toInt / 2 ^ 64)
/-- The high half of the unsigned product (R315). -/
def mulHz (a b : W64) : W64 := BitVec.ofNat 64 (a.toNat * b.toNat / 2 ^ 64)
/-- Signed quotient, truncated; -1 for a zero divisor (R315). -/
def divS (a b : W64) : W64 := if b = 0 then -1 else BitVec.ofInt 64 (a.toInt.tdiv b.toInt)
/-- Unsigned quotient; 2^64 - 1 for a zero divisor (R315). -/
def divU (a b : W64) : W64 := if b = 0 then -1 else BitVec.ofNat 64 (a.toNat / b.toNat)
/-- Signed remainder, of the dividend's sign; the dividend for a zero divisor (R315). -/
def remS (a b : W64) : W64 := BitVec.ofInt 64 (a.toInt.tmod b.toInt)
/-- Unsigned remainder; the dividend for a zero divisor (R315). -/
def remU (a b : W64) : W64 := BitVec.ofNat 64 (a.toNat % b.toNat)
/-- A comparison by cc (R318). -/
def cmpCc (cc : Nat) (a b : W64) : Bool :=
  if cc = 0 then a == b else if cc = 1 then a != b else if cc = 2 then decide (a.toInt < b.toInt)
  else if cc = 3 then decide (b.toInt ≤ a.toInt) else if cc = 4 then decide (a.toNat < b.toNat) else decide (b.toNat ≤ a.toNat)

/-- A deprecated slot counted in its block (R124). -/
def Ctx.deprec (c : Ctx) (va : Nat) : Ctx := { c with depr := c.depr + 1, deprVa := if c.depr = 0 then va else c.deprVa }

/-- A deprecated form that writes one x register (R293, R124). -/
def deprOp (i : Instr) (d : Nat) (s : State) (v : Ctx → W64) : Host.Outcome State Fault Refusal :=
  slotOp i s fun is c =>
    s.setCtx is.ck ((c.deprec is.va).stages is.slot (latOf c i) [.x d (v c), .lin (xKey d) (linOf c 0 i)])

/-- ADD: the sum modulo 2^64 (R314). -/
def execAdd (p : Pred) (d a b : Nat) (s : State) : Host.Outcome State Fault Refusal :=
  xOp (.add p d a b) d s fun c => c.rx a + c.rx b

/-- SUB (R314). -/
def execSub (p : Pred) (d a b : Nat) (s : State) : Host.Outcome State Fault Refusal :=
  xOp (.sub p d a b) d s fun c => c.rx a - c.rx b

/-- AND (R314). -/
def execAnd (p : Pred) (d a b : Nat) (s : State) : Host.Outcome State Fault Refusal :=
  xOp (.and p d a b) d s fun c => c.rx a &&& c.rx b

/-- OR (R314). -/
def execOr (p : Pred) (d a b : Nat) (s : State) : Host.Outcome State Fault Refusal :=
  xOp (.or p d a b) d s fun c => c.rx a ||| c.rx b

/-- XOR (R314). -/
def execXor (p : Pred) (d a b : Nat) (s : State) : Host.Outcome State Fault Refusal :=
  xOp (.xor p d a b) d s fun c => c.rx a ^^^ c.rx b

/-- ANDN: xA and not xB (R314). -/
def execAndn (p : Pred) (d a b : Nat) (s : State) : Host.Outcome State Fault Refusal :=
  xOp (.andn p d a b) d s fun c => c.rx a &&& ~~~ (c.rx b)

/-- SHL (R314). -/
def execShl (p : Pred) (d a b : Nat) (s : State) : Host.Outcome State Fault Refusal :=
  xOp (.shl p d a b) d s fun c => c.rx a <<< shAmt (c.rx b)

/-- SHR, zero-filled (R314). -/
def execShr (p : Pred) (d a b : Nat) (s : State) : Host.Outcome State Fault Refusal :=
  xOp (.shr p d a b) d s fun c => c.rx a >>> shAmt (c.rx b)

/-- SRA, sign-filled (R314). -/
def execSra (p : Pred) (d a b : Nat) (s : State) : Host.Outcome State Fault Refusal :=
  xOp (.sra p d a b) d s fun c => (c.rx a).sshiftRight (shAmt (c.rx b))

/-- ROTL (R314). -/
def execRotl (p : Pred) (d a b : Nat) (s : State) : Host.Outcome State Fault Refusal :=
  xOp (.rotl p d a b) d s fun c => (c.rx a).rotateLeft (shAmt (c.rx b))

/-- MIN, signed (R314). -/
def execMin (p : Pred) (d a b : Nat) (s : State) : Host.Outcome State Fault Refusal :=
  xOp (.min p d a b) d s fun c => if (c.rx a).toInt ≤ (c.rx b).toInt then c.rx a else c.rx b

/-- MAX, signed (R314). -/
def execMax (p : Pred) (d a b : Nat) (s : State) : Host.Outcome State Fault Refusal :=
  xOp (.max p d a b) d s fun c => if (c.rx a).toInt ≤ (c.rx b).toInt then c.rx b else c.rx a

/-- MINU (R314). -/
def execMinu (p : Pred) (d a b : Nat) (s : State) : Host.Outcome State Fault Refusal :=
  xOp (.minu p d a b) d s fun c => if (c.rx a).toNat ≤ (c.rx b).toNat then c.rx a else c.rx b

/-- MAXU (R314). -/
def execMaxu (p : Pred) (d a b : Nat) (s : State) : Host.Outcome State Fault Refusal :=
  xOp (.maxu p d a b) d s fun c => if (c.rx a).toNat ≤ (c.rx b).toNat then c.rx b else c.rx a

/-- MUL: the low half of the product, latency 3 (R315). -/
def execMul (p : Pred) (d a b : Nat) (s : State) : Host.Outcome State Fault Refusal :=
  xOp (.mul p d a b) d s fun c => c.rx a * c.rx b

/-- MULHS (R315). -/
def execMulhs (p : Pred) (d a b : Nat) (s : State) : Host.Outcome State Fault Refusal :=
  xOp (.mulhs p d a b) d s fun c => mulHs (c.rx a) (c.rx b)

/-- MULHZ (R315). -/
def execMulhz (p : Pred) (d a b : Nat) (s : State) : Host.Outcome State Fault Refusal :=
  xOp (.mulhz p d a b) d s fun c => mulHz (c.rx a) (c.rx b)

/-- DIV, latency 18 (R315). -/
def execDiv (p : Pred) (d a b : Nat) (s : State) : Host.Outcome State Fault Refusal :=
  xOp (.div p d a b) d s fun c => divS (c.rx a) (c.rx b)

/-- DIVU (R315). -/
def execDivu (p : Pred) (d a b : Nat) (s : State) : Host.Outcome State Fault Refusal :=
  xOp (.divu p d a b) d s fun c => divU (c.rx a) (c.rx b)

/-- REM (R315). -/
def execRem (p : Pred) (d a b : Nat) (s : State) : Host.Outcome State Fault Refusal :=
  xOp (.rem p d a b) d s fun c => remS (c.rx a) (c.rx b)

/-- REMU (R315). -/
def execRemu (p : Pred) (d a b : Nat) (s : State) : Host.Outcome State Fault Refusal :=
  xOp (.remu p d a b) d s fun c => remU (c.rx a) (c.rx b)

/-- CLZ (R314). -/
def execClz (p : Pred) (d a : Nat) (s : State) : Host.Outcome State Fault Refusal :=
  xOp (.clz p d a) d s fun c => clz64 (c.rx a)

/-- CTZ (R314). -/
def execCtz (p : Pred) (d a : Nat) (s : State) : Host.Outcome State Fault Refusal :=
  xOp (.ctz p d a) d s fun c => ctz64 (c.rx a)

/-- POPC (R314). -/
def execPopc (p : Pred) (d a : Nat) (s : State) : Host.Outcome State Fault Refusal :=
  xOp (.popc p d a) d s fun c => popc64 (c.rx a)

/-- SEXT.b (R314). -/
def execSextB (p : Pred) (d a : Nat) (s : State) : Host.Outcome State Fault Refusal :=
  xOp (.sextB p d a) d s fun c => sextW 8 (c.rx a)

/-- SEXT.h (R314). -/
def execSextH (p : Pred) (d a : Nat) (s : State) : Host.Outcome State Fault Refusal :=
  xOp (.sextH p d a) d s fun c => sextW 16 (c.rx a)

/-- SEXT.w (R314). -/
def execSextW (p : Pred) (d a : Nat) (s : State) : Host.Outcome State Fault Refusal :=
  xOp (.sextW p d a) d s fun c => Sys2Proof.Machine.sextW 32 (c.rx a)

/-- ZEXT.b (R314). -/
def execZextB (p : Pred) (d a : Nat) (s : State) : Host.Outcome State Fault Refusal :=
  xOp (.zextB p d a) d s fun c => zextW 8 (c.rx a)

/-- ZEXT.h (R314). -/
def execZextH (p : Pred) (d a : Nat) (s : State) : Host.Outcome State Fault Refusal :=
  xOp (.zextH p d a) d s fun c => zextW 16 (c.rx a)

/-- ZEXT.w (R314). -/
def execZextW (p : Pred) (d a : Nat) (s : State) : Host.Outcome State Fault Refusal :=
  xOp (.zextW p d a) d s fun c => Sys2Proof.Machine.zextW 32 (c.rx a)

/-- ADDI (R316). -/
def execAddi (p : Pred) (d a : Nat) (i : Imm) (s : State) : Host.Outcome State Fault Refusal :=
  xOp (.addi p d a i) d s fun c => c.rx a + immW 10 i

/-- MOVI (R316). -/
def execMovi (p : Pred) (d : Nat) (i : Imm) (s : State) : Host.Outcome State Fault Refusal :=
  xOp (.movi p d i) d s fun _ => immW 10 i

/-- MOVHI: the immediate above the low half of xD (R316). -/
def execMovhi (p : Pred) (d i : Nat) (s : State) : Host.Outcome State Fault Refusal :=
  xOp (.movhi p d i) d s fun c => BitVec.ofNat 64 (i * 2 ^ 32 + (c.rx d).toNat % 2 ^ 32)

/-- LEA (R317). -/
def execLea (p : Pred) (d a b sh : Nat) (s : State) : Host.Outcome State Fault Refusal :=
  xOp (.lea p d a b sh) d s fun c => c.rx a + c.rx b <<< sh

/-- SEL: by a steer condition as it stands at issue (R317). -/
def execSel (p : Pred) (d a b neg n : Nat) (s : State) : Host.Outcome State Fault Refusal :=
  xOp (.sel p d a b neg n) d s fun c => if (c.sg n).c != (neg == 1) then c.rx a else c.rx b

/-- CMP.cc (R318). -/
def execCmp (p : Pred) (n a b cc : Nat) (s : State) : Host.Outcome State Fault Refusal :=
  condOp (.cmp p n a b cc) n s fun c => cmpCc cc (c.rx a) (c.rx b)

/-- SETC (R318). -/
def execSetc (p : Pred) (n a : Nat) (s : State) : Host.Outcome State Fault Refusal :=
  condOp (.setc p n a) n s fun c => c.rx a != 0

/-- CMPI.eq (R318). -/
def execCmpiEq (p : Pred) (n a : Nat) (i : Imm) (s : State) : Host.Outcome State Fault Refusal :=
  condOp (.cmpiEq p n a i) n s fun c => cmpCc 0 (c.rx a) (immW 10 i)

/-- CMPI.ne (R318). -/
def execCmpiNe (p : Pred) (n a : Nat) (i : Imm) (s : State) : Host.Outcome State Fault Refusal :=
  condOp (.cmpiNe p n a i) n s fun c => cmpCc 1 (c.rx a) (immW 10 i)

/-- CMPI.lt (R318). -/
def execCmpiLt (p : Pred) (n a : Nat) (i : Imm) (s : State) : Host.Outcome State Fault Refusal :=
  condOp (.cmpiLt p n a i) n s fun c => cmpCc 2 (c.rx a) (immW 10 i)

/-- CMPI.ge (R318). -/
def execCmpiGe (p : Pred) (n a : Nat) (i : Imm) (s : State) : Host.Outcome State Fault Refusal :=
  condOp (.cmpiGe p n a i) n s fun c => cmpCc 3 (c.rx a) (immW 10 i)

/-- CMPI.ltu (R318). -/
def execCmpiLtu (p : Pred) (n a : Nat) (i : Imm) (s : State) : Host.Outcome State Fault Refusal :=
  condOp (.cmpiLtu p n a i) n s fun c => cmpCc 4 (c.rx a) (immW 10 i)

/-- CMPI.geu (R318). -/
def execCmpiGeu (p : Pred) (n a : Nat) (i : Imm) (s : State) : Host.Outcome State Fault Refusal :=
  condOp (.cmpiGeu p n a i) n s fun c => cmpCc 5 (c.rx a) (immW 10 i)

/-- SHLI: a deprecated VLX1 shift by its immediate (R269, R293). -/
def execShli (p : Pred) (d a : Nat) (n : Imm) (s : State) : Host.Outcome State Fault Refusal :=
  deprOp (.shli p d a n) d s fun c => c.rx a <<< shAmt (immU n)

/-- SHRI: a deprecated VLX1 shift by its immediate (R269, R293). -/
def execShri (p : Pred) (d a : Nat) (n : Imm) (s : State) : Host.Outcome State Fault Refusal :=
  deprOp (.shri p d a n) d s fun c => c.rx a >>> shAmt (immU n)

/-- SRAI: a deprecated VLX1 shift by its immediate (R269, R293). -/
def execSrai (p : Pred) (d a : Nat) (n : Imm) (s : State) : Host.Outcome State Fault Refusal :=
  deprOp (.srai p d a n) d s fun c => (c.rx a).sshiftRight (shAmt (immU n))

end Sys2Proof.Machine
end

