-- ==== Sys2Proof/Machine/Ctl.lean ====
section
/-! DEFINITION. The CTL forms (R284, R295 to R312): targets, transfers, the loop sequencer, suspension points, traps.
A form acts on the bundle in progress: the transfer and the act that it names take effect at the commit of its block. -/

namespace Sys2Proof.Machine

/-- The issue record changed. -/
def State.setIss (s : State) (is : Issue) : State := { s with iss := some is }

/-- A target VA as a physical tile's FINJ_STEER lets it be written (R400). -/
def steerVa (s : State) (tile va : Nat) : Nat :=
  let r := s.rn 1 0x407 tile
  let b := bits r 7 2
  if r.testBit 0 && 2 ≤ b then va ^^^ 2 ^ b else va

/-- A transfer named by the CTL slot (R303: in a body-end bundle it raises loop-state). -/
def bodyEnd (c : Ctx) (va : Nat) : Bool := c.arch.nloop != 0 && (c.arch.loops.getD (c.arch.nloop - 1) {}).stop == va

/-- A CTL form that a body-end bundle must not hold (R303). -/
def jumpOp (i : Instr) (s : State) (f : Issue → Ctx → State) : Host.Outcome State Fault Refusal :=
  slotOp i s fun is c => if bodyEnd c is.va then slotFault s 0x17 is.va else f is c

/-- The transfer through steer register n: steer-invalid where its target is not valid (R297, R299). -/
def takeSteer (s : State) (is : Issue) (c : Ctx) (n : Nat) (call : Bool) : State :=
  let t := c.sg n
  if t.v then s.setIss { is with xfer := .steer t.va t.i call, jumps := true } else slotFault s 0x0F is.va

/-- PREP (R296). -/
def execPrep (p : Pred) (n : Nat) (o : Imm) (s : State) : Host.Outcome State Fault Refusal :=
  slotOp (.prep p n o) s fun is c =>
    let va := (BitVec.ofNat 64 is.va + immW 16 o * 4).toNat / 4 * 4
    s.setCtx is.ck (c.stage is.slot 1 (.target n (steerVa s (is.ck / 2) va) true false))

/-- PREPI (R296). -/
def execPrepi (p : Pred) (n m : Nat) (s : State) : Host.Outcome State Fault Refusal :=
  slotOp (.prepi p n m) s fun is c =>
    let v := (c.rx m).toNat
    s.setCtx is.ck (c.stage is.slot 1 (.target n (steerVa s (is.ck / 2) (v / 4 * 4)) (v % 4 == 0) true))

/-- JMP (R297). -/
def execJmp (p : Pred) (n : Nat) (s : State) : Host.Outcome State Fault Refusal :=
  jumpOp (.jmp p n) s fun is c => takeSteer s is c n false

/-- BR (R297). -/
def execBr (p : Pred) (n : Nat) (s : State) : Host.Outcome State Fault Refusal :=
  jumpOp (.br p n) s fun is c => if (c.sg n).c then takeSteer s is c n false else s.setIss { is with jumps := true }

/-- BRN (R297). -/
def execBrn (p : Pred) (n : Nat) (s : State) : Host.Outcome State Fault Refusal :=
  jumpOp (.brn p n) s fun is c => if (c.sg n).c then s.setIss { is with jumps := true } else takeSteer s is c n false

/-- CALL: the link x1 is written at commit (R299). -/
def execCall (p : Pred) (n : Nat) (s : State) : Host.Outcome State Fault Refusal :=
  jumpOp (.call p n) s fun is c => takeSteer s is c n true

/-- RET: to x1 as read at issue; cause address where it is misaligned (R299). -/
def execRet (p : Pred) (s : State) : Host.Outcome State Fault Refusal :=
  jumpOp (.ret p) s fun is c =>
    let t := (c.rx 1).toNat
    if t % 4 = 0 then s.setIss { is with xfer := .ret t, jumps := true } else slotFault s 1 t

/-- The size of a slot word in bytes (R267). -/
def slotBytes (sl : Nat) : Nat := if sl = 3 ∨ sl = 4 ∨ sl = 5 then 8 else 4

/-- The 64-byte line of a bundle fetch: one that the context holds may be used, and one fetched in this step is; else it is
read now and held. A context holds at most 16 lines (R185, R194). -/
def fetchLine (s : State) (ck line : Nat) : State × Except Bad Nat :=
  let c := s.ctx ck
  match (c.lines.find? (·.1 == line)).filter (fun p => p.2.2 == s.tick || Config.may (s.tick * 2 ^ 64 + line)) with
  | some p => (s, .ok p.2.1)
  | none => match vaFetch s c.part line 64 (ck / 256) with
    | (s, .error b) => (s, .error b)
    | (s, .ok v) => (s.setCtx ck { c with lines := ((line, v, s.tick) :: c.lines.filter (·.1 != line)).take 16 }, .ok v)

/-- A word of a bundle fetched. -/
def fetchWord (s : State) (ck va : Nat) : State × Except Bad Nat :=
  match fetchLine s ck (va / 64 * 64) with
  | (s, .error b) => (s, .error b)
  | (s, .ok v) => (s, .ok (v / 256 ^ (va % 64) % 2 ^ 32))

/-- n words fetched, the first in the low bits. -/
def fetchWords : Nat → State → Nat → Nat → State × Except Bad Nat
  | 0, s, _, _ => (s, .ok 0)
  | n + 1, s, ck, va =>
    match fetchWord s ck va with
    | (s, .error b) => (s, .error b)
    | (s, .ok w) => match fetchWords n s ck (va + 4) with
      | (s, .error b) => (s, .error b)
      | (s, .ok v) => (s, .ok (w + 2 ^ 32 * v))

/-- The VA after the slots of a bundle that stand from a VA on, by the X bits of their words (R265). -/
def slotsSize : List Nat → State → Nat → Nat → State × Except Bad Nat
  | [], s, _, va => (s, .ok va)
  | sl :: rest, s, ck, va =>
    match fetchWord s ck (va + slotBytes sl - 4) with
    | (s, .error b) => (s, .error b)
    | (s, .ok w) => slotsSize rest s ck (va + slotBytes sl + (if w.testBit 31 then 4 else 0))

/-- The VA after the riser of the bundle at a VA, or none where that bundle ends no block (R300). -/
def afterRiser (s : State) (ck gen va : Nat) : State × Except Bad (Option Nat) :=
  match fetchWord s ck va with
  | (s, .error b) => (s, .error b)
  | (s, .ok w) =>
    match decodeHeader gen w with
    | .error _ => (s, .ok none)
    | .ok h =>
      if !h.isEnd then (s, .ok none)
      else match slotsSize ((List.range 7).filter fun k => h.pm.testBit k) s ck (va + 4) with
        | (s, .error b) => (s, .error b)
        | (s, .ok n) => (s, .ok (some (n + 16)))

/-- LOOP (R300). -/
def execLoop (p : Pred) (l r : Nat) (o : Imm) (s : State) : Host.Outcome State Fault Refusal :=
  jumpOp (.loop p l r o) s fun is c =>
    -- END is exact (R8): it may lie below 0 or beyond every VA
    let stop : Int := is.va + 4 * immUZ o
    let n := (c.rx r).toNat % 2 ^ 32
    if l ≠ c.arch.nloop ∨ stop < is.next then slotFault s 0x17 is.va
    else
    let stop := stop.toNat
    if n = 0 ∧ 2 ^ 64 ≤ stop then slotFault s 1 (stop % 2 ^ 64)
    else if n = 0 then
      match afterRiser s is.ck c.gen stop with
      | (s, .error b) => slotFault s b.cause stop b.level (some b.die)
      | (s, .ok none) => slotFault s 0x17 is.va
      | (s, .ok (some t)) => s.setIss { is with xfer := .zeroLoop t, jumps := true }
    else
      let lp := c.arch.loops.getD l {}
      let lp := { lp with count := n, iter := 0, start := is.next, stop := stop }
      (s.setCtx is.ck { c with arch := { c.arch with nloop := l + 1, loops := c.arch.loops.set l lp } }).setIss
        { is with jumps := true }

/-- LSTEP: a binding of a level (R302). -/
def execLstep (p : Pred) (l b r : Nat) (st : Imm) (s : State) : Host.Outcome State Fault Refusal :=
  slotOp (.lstep p l b r st) s fun is c =>
    let lp := c.arch.loops.getD l {}
    let lp := { lp with binds := lp.binds.set b (if r = 0 then (0, 0) else (r, immW 10 st)) }
    s.setCtx is.ck { c with arch := { c.arch with loops := c.arch.loops.set l lp } }

/-- Levels l to n - 1 closed: their bindings are emptied (R301, R303). -/
def closeLevels (loops : List Loop) (l n : Nat) : List Loop :=
  loops.mapIdx fun k lp => if l ≤ k ∧ k < n then { lp with binds := [(0, 0), (0, 0), (0, 0), (0, 0)] } else lp

/-- LBRK (R303). -/
def execLbrk (p : Pred) (l : Nat) (s : State) : Host.Outcome State Fault Refusal :=
  slotOp (.lbrk p l) s fun is c =>
    if l ≥ c.arch.nloop then s
    else s.setCtx is.ck { c with arch := { c.arch with nloop := l, loops := closeLevels c.arch.loops l c.arch.nloop } }

/-- ROT: for the bundles that issue after it (R305). -/
def execRot (p : Pred) (n : Nat) (s : State) : Host.Outcome State Fault Refusal :=
  slotOp (.rot p n) s fun is _ => s.setIss { is with rot := some n }

/-- LDEP (R305). -/
def execLdep (p : Pred) (n : Nat) (s : State) : Host.Outcome State Fault Refusal :=
  slotOp (.ldep p n) s fun is _ => s.setIss { is with ldep := some n }

/-- An arrival to be made after the commit; a group that is not enabled raises barrier-config (R184, R307). -/
def syncOp (i : Instr) (g : Nat) (x : Bool) (s : State) : Host.Outcome State Fault Refusal :=
  slotOp i s fun is c =>
    if (s.rn 4 (0x1020 + g) c.part).testBit 15 then s.setIss { is with act := .sync g x } else slotFault s 0x0C is.va

/-- SYNC.n (R307). -/
def execSyncN (p : Pred) (g : Nat) (s : State) : Host.Outcome State Fault Refusal := syncOp (.syncN p g) g false s

/-- SYNC.x (R307). -/
def execSyncX (p : Pred) (g : Nat) (s : State) : Host.Outcome State Fault Refusal := syncOp (.syncX p g) g true s

/-- WAITFE of a row: a dead row counts as full (R204, R307). -/
def execWaitfeRow (p : Pred) (r : Nat) (s : State) : Host.Outcome State Fault Refusal :=
  slotOp (.waitfeRow p r) s fun is c =>
    let (pl, live) := c.place r
    s.setIss { is with act := if live then .waitRow pl else .none }

/-- SUSP (R307). -/
def execSusp (p : Pred) (s : State) : Host.Outcome State Fault Refusal :=
  slotOp (.susp p) s fun is _ => s.setIss { is with act := .susp }

/-- YIELD (R307). -/
def execYield (p : Pred) (s : State) : Host.Outcome State Fault Refusal :=
  slotOp (.yield p) s fun is _ => s.setIss { is with act := .yield }

/-- The exit of a context: its status is x8 as read at issue (R307). -/
def exitAct (s : State) (is : Issue) (c : Ctx) : State :=
  (s.setCtx is.ck { c with exitStatus := (c.rx 8).toNat % 2 ^ 32 }).setIss { is with act := .exit }

/-- EXIT (R307). -/
def execExit (p : Pred) (s : State) : Host.Outcome State Fault Refusal :=
  slotOp (.exit p) s fun is c => exitAct s is c

/-- HALT: EXIT, and a deprecated form (R293). -/
def execHalt (p : Pred) (s : State) : Host.Outcome State Fault Refusal :=
  slotOp (.halt p) s fun is c => exitAct s is (c.deprec is.va)

/-- TRAP: cause user-trap, EVA the code (R310). -/
def execTrap (p : Pred) (c : Nat) (s : State) : Host.Outcome State Fault Refusal :=
  slotOp (.trap p c) s fun _ _ => slotFault s 0x18 c

/-- IFENCE: every fetched line is discarded and every target made invalid (R311). The wait for LDSG fills is part of
the bundle's issue. -/
def execIfence (p : Pred) (s : State) : Host.Outcome State Fault Refusal :=
  slotOp (.ifence p) s fun is c =>
    let c := (List.range 12).foldl (fun c n => c.setSg n { c.sg n with v := false }) c
    s.setCtx is.ck { c with lines := [] }

/-- ERET: priv-access in user mode; else the return follows the commit (R312). -/
def execEret (p : Pred) (s : State) : Host.Outcome State Fault Refusal :=
  slotOp (.eret p) s fun is c =>
    if bodyEnd c is.va then slotFault s 0x17 is.va
    else if !c.priv then slotFault s 0x0D is.va
    else s.setIss { is with act := .eret, jumps := true }

/-- NOP: a bundle without slots has no effect (R266). -/
def execNop (_bk _dp _lv : Nat) (s : State) : Host.Outcome State Fault Refusal :=
  match s.iss with
  | none => .fault .noBundle
  | some _ => .next s

end Sys2Proof.Machine
end

