-- ==== Sys2Proof/Machine/Mem.lean ====
section
/-! DEFINITION. The MEM forms at issue (R322 to R338): checks, loads in their two regimes, held stores, bank requests,
fences; and the SCL loads' reading of the own scratchpad. -/

namespace Sys2Proof.Machine

/-- The base VA of a context's own engine window (R126, R337). -/
def engBase (c : Ctx) : Nat :=
  2 ^ 63 + c.ltile / 128 * 2 ^ 60 + 0x300000000 + c.ltile / 8 % 16 * 2 ^ 16 + c.ltile % 8 * 2 ^ 12

/-- The location of a VA in the issuing tile's own scratchpad, reached through its logical identity (R206). -/
def ownLoc (s : State) (c : Ctx) (tile va : Nat) : Option Nat :=
  match vaClass s.capSpad va with
  | .spad d cl t o => if d * 128 + cl * 8 + t = c.ltile then some (region 1 (tile * 2 ^ 20 + o)) else none
  | _ => none

/-- The latency of a load from an own-scratchpad location (R206, R11). -/
def spadLat (loc : Nat) : Nat := if loc % 2 ^ 20 < 0x80000 then 6 else 9

/-- What an access is, for the checks made at issue (R323). -/
inductive MKind where
  | scalar (n : Nat)
  | dword (store : Bool)
  | row
  | elem (n : Nat)
  | bank (n : Nat)
  deriving DecidableEq, Repr

/-- The first check of R323 that fails: class, alignment, engine window, bank memory, own scratchpad. -/
def memCheck (s : State) (c : Ctx) (tile va : Nat) (k : MKind) : Option Nat :=
  let cls := vaClass s.capSpad va
  let align := match k with
    | .scalar n | .elem n | .bank n => n
    | .dword _ => 8
    | .row => if cls.translated then 64 else 256
  if cls = .none then some 1
  else if va % align ≠ 0 then some 1
  else match cls with
    | .eng d cl t w o =>
      (match k with
       | .dword st =>
         if d * 128 + cl * 8 + t ≠ c.ltile ∨ w ≠ 0 then some 3
         else if st && o > 32 then some 1 else none
       | _ => some 1)
    | cls =>
      (match k with
       | .bank _ => if bankable cls then none else some 1
       | _ => if (ownLoc s c tile va).isSome && !s.inMap c.part (tile / 8) then some 3 else none)

/-- The lines of a row after its first, in a translated range: each is classed on its own (R125). -/
def rowLines (s : State) (va : Nat) : List Nat :=
  if (vaClass s.capSpad va).translated then [va + 64, va + 128, va + 192] else []

/-- The first failing check of several accesses: its cause and VA (R125, R323). -/
def memChecks (s : State) (c : Ctx) (tile : Nat) (k : MKind) (vas : List Nat) : Option (Nat × Nat) :=
  vas.findSome? fun va =>
    match memCheck s c tile va k with
    | some b => some (b, va)
    | none =>
      if k = .row then (rowLines s va).findSome? fun a => if vaClass s.capSpad (a % 2 ^ 64) = .none then some (1, a % 2 ^ 64) else none
      else none

/-! Hold buffer -/

/-- What a held store writes, in order: places and their bytes (R181, R230). -/
def heldPieces (s : State) (c : Ctx) (h : Held) : List (Nat × Nat × Nat) :=
  let at_ := fun (a n v : Nat) => (piecesOf s c.part a n true).map fun p => (p.1, p.2.2, v / 256 ^ p.2.1 % 256 ^ p.2.2)
  match h.k with
  | .store a n v => at_ a n v
  | .row a v _ => at_ a 256 v
  | .scat l => l.flatMap fun e => at_ e.1 e.2.1 e.2.2
  | .eng o v => at_ (engBase c + o) 8 v
  | _ => []

/-- Bytes of a load that held stores of its own block cover, the newest of each, by location (R181, R230). -/
def coverOf (s : State) (c : Ctx) (va n off : Nat) : List (Nat × Nat) :=
  let held := (c.held.flatMap (heldPieces s c)).reverse
  if held.isEmpty then []
  else (piecesOf s c.part va n false).flatMap fun p => (List.range p.2.2).filterMap fun k =>
    (held.findSome? fun h => if h.1 ≤ p.1 + k ∧ p.1 + k < h.1 + h.2.1 then some (h.2.2 / 256 ^ (p.1 + k - h.1) % 256) else none).map
      fun b => (off + p.2.1 + k, b)

/-- A value with covered bytes replaced. -/
def overlay (v : Nat) (cover : List (Nat × Nat)) : Nat :=
  cover.foldl (fun v p => setBits v (8 * p.1 + 7) (8 * p.1) p.2) v

/-- Hold-buffer entries that an access takes (R230, R330). -/
def heldSize (h : Held) : Nat :=
  match h.k with
  | .scat _ => 8
  | .fence _ => 0
  | _ => 1

/-- Held accesses added to the block; a 65th entry raises illegal-bundle (R230). -/
def hold (s : State) (l : List Held) : State :=
  match s.iss with
  | none => s
  | some is =>
    let c := s.ctx is.ck
    if ((c.held ++ l).map heldSize).foldl (· + ·) 0 > 64 then slotFault s 0x13 is.va
    else s.setCtx is.ck { c with held := c.held ++ l }

/-! Loads -/

/-- The destination endpoint of a VA: physical die and leaf × 4 + port (R46, R133, R179). -/
def endpointOf (s : State) (part va : Nat) : Nat × Nat :=
  let clu := fun (pc : Nat) => (pc / 16, pc % 16 / 2 * 4 + pc % 2)
  match vaClass s.capSpad va with
  | .spad d c t _ => match s.physTile part (d * 128 + c * 8 + t) with
    | some pt => clu (pt / 8)
    | none => (s.physDie d, 0)
  | .clu d c _ => clu (s.physClu part d c)
  | .pool d o => (s.physDie d, bits o 10 8 * 4 + 2)
  | _ => (s.physDie (homeDie s.capSpad va), if va.testBit 12 then 7 else 3)

/-- The leaf of a cluster (R46). -/
def leafOf (clu : Nat) : Nat := clu % 16 / 2

/-- The endpoint of a source: its leaf port, or its core number. -/
def srcEp (src : Nat) : Nat :=
  let kind := bits src 13 8
  let u := src % 256
  if kind = 0 then u / 8 / 2 * 4 + u / 8 % 2
  else if kind = 1 then u / 2 * 4 + u % 2
  else if kind = 2 then 23
  else if kind = 7 then 27
  else u

/-- Whether a request of this package goes to its sender's own port: it reaches its home without the network (R46, R53). -/
def ownLeaf (s : State) (k : Pkt) : Bool :=
  k.dep == srcEp k.src && k.ddie == k.src / 2 ^ 14 && k.schip == s.ident.chip && k.dchip == s.ident.chip % 4096

/-- A packet of a context sent: at its cluster's leaf, where it waits for the window of its tile (R46, R55, R399). -/
def sendFrom (ck : Nat) (k : Pkt) : Instr := .packetInject (ck / 256) (leafOf (ck / 16)) k

/-- A request of a context for n bytes at a VA (R47). -/
def reqPkt (s : State) (ck : Nat) (c : Ctx) (opc va n rid : Nat) : Pkt :=
  let (d, e) := endpointOf s c.part va
  { cls := 0, ddie := d, dep := e, part := c.part, src := srcTile (ck / 2), dchip := s.ident.chip, va := va, opc := opc,
    rid := rid, who := ck, want := n, schip := s.ident.chip }

/-- A load: what it records, where it goes, its accesses (VA, length, place, own location), its latency when it is
exposed, and a value already known with the tag of its line. -/
structure LoadSpec where
  isRow : Bool
  addr : Nat
  sub : Nat
  dst : Dst
  size : Nat
  els : List (Nat × Nat × Nat × Option Nat)
  lat : Nat
  gather : Bool := false
  acq : Bool := false
  scope : Nat := 0
  known : Option (Nat × W32) := none
  instr : Instr

/-- What a load writes (R327, R328, R333). -/
def loadWrs (s : State) (ck : Nat) (dst : Dst) (v : Nat) (l : W32) : List Wr :=
  match dst with
  | .none => []
  | .x r => [.x r (BitVec.ofNat 64 v), .lin (xKey r) l]
  | .row p => [.row p (BitVec.ofNat 2048 v), .lin p l]
  | .target n => [.target n (steerVa s (ck / 2) (v / 4 * 4)) (v % 4 == 0) true]

/-- One load of the slot that runs (R206, R208, R231, R233, R324). -/
def loadOne (s : State) (l : LoadSpec) : State :=
  match s.iss with
  | none => s
  | some is =>
    let c := s.ctx is.ck
    let count := if l.isRow then c.rowLoads else c.scaLoads
    if count ≥ 128 then slotFault s 0x13 is.va
    else
      let c := if l.isRow then { c with rowLoads := c.rowLoads + 1 } else { c with scaLoads := c.scaLoads + 1 }
      let exposed := l.known.isNone && l.lat != 0 && l.els.all fun e => e.2.2.2.isSome
      if c.recasts > 0 then
        let e := (c.ibuf.filter fun e => e.isRow == l.isRow)[count]?
        let (v, t, ok) := match e with
          | some e => (e.val, e.tag, e.va == l.addr)
          | none => (0, 0, false)
        let lin := linOf c (BitVec.ofNat 32 (if l.gather then 0 else t)) l.instr
        s.setCtx is.ck ({ c with strayLoad := c.strayLoad || !ok }.stages is.slot (if exposed then l.lat else 1)
          (loadWrs s is.ck l.dst v lin))
      else
        let cover := l.els.flatMap fun e => coverOf s c e.1 e.2.1 e.2.2.1
        let vec := match l.els with
          | (_, n, _, some loc) :: _ => relAt s loc n
          | _ => []
        let ent : InEnt := ⟨l.isRow, l.addr, (is.va + 2 ^ 64 - c.entryVa) % 2 ^ 64 / 4, l.sub, 0, 0, false⟩
        if exposed then
          let raw := l.els.foldl (fun v e => v + rdNat s (e.2.2.2.getD 0) e.2.1 * 256 ^ e.2.2.1) 0
          let v := overlay raw cover
          let t : W32 := match l.els with
            | e :: _ => if l.gather then 0 else tagAt s (e.2.2.2.getD 0)
            | [] => 0
          let s := if l.acq then acqDone s (srcTile (is.ck / 2)) l.scope vec else s
          s.setCtx is.ck ({ c with ibuf := c.ibuf ++ [{ ent with val := v, tag := t.toNat, done := true }] }.stages is.slot
            l.lat (loadWrs s is.ck l.dst v (linOf c t l.instr)))
        else
          let (a, _, cc, _) := posOf c 0 l.instr
          let rid := s.nextRid
          let parts := match l.known with
            | some _ => [FPart.mk rid l.addr l.size 0 none 0]
            | none => l.els.mapIdx fun k e => FPart.mk (rid + k) e.1 e.2.1 e.2.2.1 (e.2.2.2.map fun loc => rdNat s loc e.2.1) 0
          let f : Fill := { dst := l.dst, size := l.size, parts := parts, cover := cover, k := kopOf l.instr, la := a,
                            lc := cc, gather := l.gather, idx := c.ibuf.length, acq := l.acq, scope := l.scope,
                            slot := is.slot, bad := none }
          let sends := match l.known with
            | some (v, t) => [Instr.readReply (is.ck / 256) { rid := rid, who := is.ck, opc := 2, len := l.size, payload := v,
                                                              tag := t.toNat, vec := vec }]
            | none => (parts.filter (·.got.isNone)).map fun p =>
                sendFrom is.ck { reqPkt s is.ck c 0 p.va p.len p.rid with acq := l.acq, row := p.len == 256 }
          let c := { c with fills := c.fills ++ [f], ibuf := c.ibuf ++ [ent] }
          let c := match dstKey l.dst with
            | some k => c.stage is.slot 0 (.empty k)
            | none => c
          { s.setCtx is.ck c with nextRid := rid + parts.length, iss := some { is with sends := is.sends ++ sends } }

/-- The accesses of n bytes at a VA: whole in tagged memory, line by line in a translated range (R125, R185). -/
def elsOf (s : State) (c : Ctx) (tile va n : Nat) : List (Nat × Nat × Nat × Option Nat) :=
  if (vaClass s.capSpad va).translated && n > 64 then (List.range (n / 64)).map fun k => (va + 64 * k, 64, 64 * k, none)
  else [(va, n, 0, ownLoc s c tile va)]

/-- The scope of an access: VLX1 ignores the field and acts at package scope (R292). -/
def scopeOf (c : Ctx) (f : MemF) : Nat := if c.gen = 1 then 3 else f.scope

/-- Post-increment staged for the slot that runs (R322). -/
def withPost (s : State) (i : Instr) (f : MemF) : State :=
  match s.iss with
  | none => s
  | some is => let c := s.ctx is.ck
               s.setCtx is.ck (c.stages is.slot 1 (postInc c i f))

/-- What an engine-window load returns (R337). -/
def engLoad (c : Ctx) (o : Nat) : Nat :=
  if o < 32 then (c.q.getD (o / 8) 0).toNat else if o = 40 then c.cmpl else if o = 48 then c.abrt else 0

/-- A value known at issue for an own-window load, with held stores to it overlaid (R230, R337). -/
def engKnown (s : State) (c : Ctx) (va : Nat) : Option (Nat × W32) :=
  match vaClass s.capSpad va with
  | .eng _ _ _ _ o => some (overlay (engLoad c o) (coverOf s c va 8 0), 0)
  | _ => none

/-- A value known at issue for a load of n bytes of the own scratchpad that goes the variable way: its bytes with held stores
over them, and the tag of its line (R220, R230, R231). -/
def ownKnown (s : State) (c : Ctx) (va n : Nat) (own : Option Nat) : Option (Nat × W32) :=
  own.map fun loc => (overlay (rdNat s loc n) (coverOf s c va n 0), tagAt s loc)

/-- LD (R327). -/
def execLd (p : Pred) (f : MemF) (s : State) : Host.Outcome State Fault Refusal :=
  let i := Instr.ld p f
  slotOp i s fun is c =>
    let va := memEa c f
    let n := 2 ^ f.size
    match memCheck s c (is.ck / 2) va (if n = 8 then .dword false else .scalar n) with
    | some b => slotFault s b va
    | none =>
      let own := ownLoc s c (is.ck / 2) va
      withPost (loadOne s { isRow := false, addr := va, sub := 0, dst := if f.data = 0 then .none else .x f.data, size := n,
                            els := elsOf s c (is.ck / 2) va n, lat := (own.map spadLat).getD 0, acq := f.ord == 1,
                            scope := scopeOf c f, known := engKnown s c va, instr := i }) i f

/-- TLD (R328). -/
def execTld (p : Pred) (f : MemF) (s : State) : Host.Outcome State Fault Refusal :=
  let i := Instr.tld p f
  slotOp i s fun is c =>
    let va := memEa c f
    match memChecks s c (is.ck / 2) .row [va] with
    | some (b, a) => slotFault s b a
    | none =>
      let (pl, live) := c.place f.data
      withPost (loadOne s { isRow := true, addr := va, sub := 0, dst := if live then .row pl else .none, size := 256,
                            els := elsOf s c (is.ck / 2) va 256, lat := ((ownLoc s c (is.ck / 2) va).map spadLat).getD 0,
                            acq := f.ord == 1, scope := scopeOf c f, instr := i }) i f

/-- TLDM: exposed only where every row lies in the own scratchpad; an acquire of such rows is one (R326, R329). -/
def execTldm (p : Pred) (f : MemF) (s : State) : Host.Outcome State Fault Refusal :=
  let i := Instr.tldm p f
  slotOp i s fun is c =>
    let va := memEa c f
    let n := mRows c f
    let vas := (List.range n).map fun k => (va + 256 * k) % 2 ^ 64
    if f.data % 32 + n > 32 then slotFault s 0x11 is.va
    else match memChecks s c (is.ck / 2) .row vas with
    | some (b, a) => slotFault s b a
    | none =>
      let all := vas.all fun a => (ownLoc s c (is.ck / 2) a).isSome
      let s := if f.ord = 1 ∧ all ∧ c.recasts = 0 ∧ c.rowLoads + n ≤ 128 then
          acqDone s (srcTile (is.ck / 2)) (scopeOf c f) (((ownLoc s c (is.ck / 2) va).map fun loc => relAt s loc (256 * n)).getD []) else s
      let s := (List.range n).foldl (fun s k =>
        let a := (va + 256 * k) % 2 ^ 64
        let (pl, live) := c.place (f.data + k)
        let own := ownLoc s c (is.ck / 2) a
        let known := if all then none else ownKnown s c a 256 own
        loadOne s { isRow := true, addr := a, sub := k, dst := if live then .row pl else .none, size := 256,
                    els := elsOf s c (is.ck / 2) a 256, lat := if all then (own.map spadLat).getD 0 else 0,
                    acq := f.ord == 1 && !all, scope := scopeOf c f, known := known, instr := i }) s
      withPost s i f

/-- Element bytes and count of a gather or scatter (R330). -/
def gathShape (size : Nat) : Nat × Nat :=
  (2 ^ size, if size ≤ 2 then 64 else if size = 3 then 32 else 16)

/-- Element addresses of a gather or scatter (R330). -/
def gathVas (c : Ctx) (f : MemF) : List Nat :=
  let (e, m) := gathShape f.size
  let idx := (rowElems 32 (c.row f.off).toNat).take m
  idx.map fun k => ((c.rx f.base).toNat + k * e) % 2 ^ 64

/-- VGATH (R330). -/
def execVgath (p : Pred) (f : MemF) (s : State) : Host.Outcome State Fault Refusal :=
  let i := Instr.vgath p f
  slotOp i s fun is c =>
    let e := (gathShape f.size).1
    let vas := gathVas c f
    if (c.rx f.base).toNat % e ≠ 0 then slotFault s 1 (c.rx f.base).toNat
    else match memChecks s c (is.ck / 2) (.elem e) vas with
    | some (b, a) => slotFault s b a
    | none =>
      let (pl, live) := c.place f.data
      let els := vas.mapIdx fun k a => (a, e, e * k, ownLoc s c (is.ck / 2) a)
      loadOne s { isRow := true, addr := packElems 64 vas, sub := 0, dst := if live then .row pl else .none, size := 256,
                  els := els, lat := if els.all (fun x => x.2.2.2.isSome) then 10 else 0, gather := true, instr := i }

/-- LDSG: the target half is empty until the fill, whatever the memory (R333). -/
def execLdsg (p : Pred) (f : MemF) (s : State) : Host.Outcome State Fault Refusal :=
  let i := Instr.ldsg p f
  slotOp i s fun is c =>
    let va := memEa c f
    match memCheck s c (is.ck / 2) va (.scalar 8) with
    | some b => slotFault s b va
    | none =>
      let own := ownLoc s c (is.ck / 2) va
      loadOne s { isRow := false, addr := va, sub := 0, dst := .target f.data, size := 8,
                  els := elsOf s c (is.ck / 2) va 8, lat := 0, acq := f.ord == 1, scope := scopeOf c f,
                  known := ownKnown s c va 8 own, instr := i }

/-- WAITFE of a flag: its first read is a load of the block, an acquire at package scope (R308). -/
def execWaitfeFlag (p : Pred) (r : Nat) (s : State) : Host.Outcome State Fault Refusal :=
  let i := Instr.waitfeFlag p r
  slotOp i s fun is c =>
    let va := (c.rx r).toNat
    match memCheck s c (is.ck / 2) va (.scalar 8) with
    | some b => slotFault s b va
    | none =>
      let own := ownLoc s c (is.ck / 2) va
      let s := loadOne s { isRow := false, addr := va, sub := 0, dst := .none, size := 8,
                           els := elsOf s c (is.ck / 2) va 8, lat := 0, acq := true, scope := 3,
                           known := ownKnown s c va 8 own, instr := i }
      match s.iss with
      | some is => s.setIss { is with act := .waitFlag va c.scaLoads }
      | none => s

/-! Stores, bank requests, fences -/

/-- A store-type form: its checks, then its held accesses and its post-increment. -/
def storeOp (i : Instr) (f : MemF) (k : MKind) (vas : List Nat) (s : State) (is : Issue) (c : Ctx) (l : List Held) : State :=
  match memChecks s c (is.ck / 2) k vas with
  | some (b, a) => slotFault s b a
  | none => withPost (hold s l) i f

/-- ST; a store to the own engine window stages a word or posts a card at commit (R327, R337). -/
def execSt (p : Pred) (f : MemF) (s : State) : Host.Outcome State Fault Refusal :=
  let i := Instr.st p f
  slotOp i s fun is c =>
    let va := memEa c f
    let n := 2 ^ f.size
    let v := (c.rx f.data).toNat % 256 ^ n
    let k := match vaClass s.capSpad va with
      | .eng _ _ _ _ o => if o = 32 then HeldK.go va v else .eng o v
      | _ => .store va n v
    storeOp i f (if n = 8 then .dword true else .scalar n) [va] s is c [⟨k, f.ord, scopeOf c f⟩]

/-- TST: tags its line with the row's lineage (R328, R223). -/
def execTst (p : Pred) (f : MemF) (s : State) : Host.Outcome State Fault Refusal :=
  let i := Instr.tst p f
  slotOp i s fun is c =>
    let va := memEa c f
    storeOp i f .row [va] s is c [⟨.row va (c.row f.data).toNat (c.rowLin f.data), f.ord, scopeOf c f⟩]

/-- TSTM: every row tags its line with g(rows stored) (R329). -/
def execTstm (p : Pred) (f : MemF) (s : State) : Host.Outcome State Fault Refusal :=
  let i := Instr.tstm p f
  slotOp i s fun is c =>
    let va := memEa c f
    let n := mRows c f
    let rows := tileRows 0 f.data n
    let tag := gMix (rows.map c.rowLin)
    let a := fun (k : Nat) => (va + 256 * k) % 2 ^ 64
    if f.data % 32 + n > 32 then slotFault s 0x11 is.va
    else storeOp i f .row ((List.range n).map a) s is c
      (rows.mapIdx fun k r => ⟨.row (a k) (c.row r).toNat tag, f.ord, scopeOf c f⟩)

/-- VSCAT: elements in increasing index; 8 hold entries (R330). -/
def execVscat (p : Pred) (f : MemF) (s : State) : Host.Outcome State Fault Refusal :=
  let i := Instr.vscat p f
  slotOp i s fun is c =>
    let e := (gathShape f.size).1
    let vas := gathVas c f
    let row := (c.row f.data).toNat
    if (c.rx f.base).toNat % e ≠ 0 then slotFault s 1 (c.rx f.base).toNat
    else storeOp i f (.elem e) vas s is c
      [⟨.scat (vas.mapIdx fun k a => (a, e, row / 256 ^ (e * k) % 256 ^ e)), f.ord, scopeOf c f⟩]

/-- A bank request held for the commit; its register is empty from issue, its lineage set at issue (R331, R221). -/
def bankSlot (i : Instr) (op : Nat) (f : MemF) (s : State) : Host.Outcome State Fault Refusal :=
  slotOp i s fun is c =>
    let va := memEa c f
    let n := 2 ^ f.size
    match memCheck s c (is.ck / 2) va (.bank n) with
    | some b => slotFault s b va
    | none =>
      let s := hold s [⟨.bank op va n ((c.rx f.data).toNat % 256 ^ n) f.data, f.ord, scopeOf c f⟩]
      match s.iss with
      | none => s
      | some is =>
        if f.data = 0 then s
        else s.setCtx is.ck ((s.ctx is.ck).stages is.slot 0 [.lin (xKey f.data) (linOf c 0 i), .empty (xKey f.data)])

/-- BANK.add (R331). -/
def execBankAdd (p : Pred) (f : MemF) (s : State) : Host.Outcome State Fault Refusal := bankSlot (.bankAdd p f) 0 f s
/-- BANK.fadd (R331). -/
def execBankFadd (p : Pred) (f : MemF) (s : State) : Host.Outcome State Fault Refusal := bankSlot (.bankFadd p f) 1 f s
/-- BANK.min (R331). -/
def execBankMin (p : Pred) (f : MemF) (s : State) : Host.Outcome State Fault Refusal := bankSlot (.bankMin p f) 2 f s
/-- BANK.max (R331). -/
def execBankMax (p : Pred) (f : MemF) (s : State) : Host.Outcome State Fault Refusal := bankSlot (.bankMax p f) 3 f s
/-- BANK.or (R331). -/
def execBankOr (p : Pred) (f : MemF) (s : State) : Host.Outcome State Fault Refusal := bankSlot (.bankOr p f) 4 f s
/-- BANK.and (R331). -/
def execBankAnd (p : Pred) (f : MemF) (s : State) : Host.Outcome State Fault Refusal := bankSlot (.bankAnd p f) 5 f s
/-- BANK.swap (R331). -/
def execBankSwap (p : Pred) (f : MemF) (s : State) : Host.Outcome State Fault Refusal := bankSlot (.bankSwap p f) 6 f s

/-- A fence among the held accesses; the acquire part at package or system scope applies the invalidation logs
(R143, R334). Its wait is part of the bundle's issue. -/
def fenceAct (s : State) (ord scope : Nat) (total : Bool) : State :=
  let s := hold s [⟨.fence total, ord, scope⟩]
  if ord % 2 = 1 && scope ≥ 3 then invAllDies s else s

/-- FENCE (R334). -/
def execFence (p : Pred) (f : MemF) (s : State) : Host.Outcome State Fault Refusal :=
  slotOp (.fence p f) s fun _ c => fenceAct s f.ord (scopeOf c f) false

/-- FENCE.SC: its place in the total order is the step that runs it (R191, R335). -/
def execFenceSc (p : Pred) (f : MemF) (s : State) : Host.Outcome State Fault Refusal :=
  slotOp (.fenceSc p f) s fun _ _ => fenceAct s 3 3 true

/-- FENCE.ALL: a FENCE with ORD 3 at system scope, deprecated (R293). -/
def execFenceAll (p : Pred) (f : MemF) (s : State) : Host.Outcome State Fault Refusal :=
  slotOp (.fenceAll p f) s fun is c => fenceAct (s.setCtx is.ck (c.deprec is.va)) 3 4 false

/-- PREF: it writes nothing and never faults; the home's leave to begin the access is not taken (R336). -/
def execPref (p : Pred) (f : MemF) (s : State) : Host.Outcome State Fault Refusal :=
  slotOp (.pref p f) s fun _ _ => s

end Sys2Proof.Machine
end

