-- ==== Sys2Proof/Machine/Sched.lean ====
section
/-! DEFINITION. Contexts between launch and end: continuation records, queues, save areas, loading and write-back, waits,
wakes and barriers (R148 to R166, R172 to R175, R183, R184, R307 to R309), with the vector clocks of R192. -/

namespace Sys2Proof.Machine

/-! What a load waits for (R188) -/

/-- The bytes that a held access writes, as its first VA and their number. -/
def heldSpan (c : Ctx) (h : Held) : Option (Nat × Nat) :=
  match h.k with
  | .store va n _ => some (va, n)
  | .row va _ _ => some (va, 256)
  | .bank _ va n _ _ => some (va, n)
  | .eng o _ => some (engBase c + o, 8)
  | _ => none

/-- Whether a held access is a FENCE. -/
def Held.isFence (h : Held) : Bool :=
  match h.k with
  | .fence _ => true
  | _ => false

/-- Whether a held access is a bank operation with acquire. -/
def Held.isAcqBank (h : Held) : Bool :=
  match h.k with
  | .bank _ _ _ _ _ => h.ord % 2 == 1
  | _ => false

/-- Whether all accesses of a fill have been performed. -/
def Fill.performed (f : Fill) : Bool := f.parts.all fun p => p.got.isSome

/-- An earlier acquire or FENCE of the context that later accesses are kept after has not been performed (R188, R326,
R393). -/
def acqOpen (c : Ctx) : Bool :=
  c.fills.any (fun f => f.acq && !f.performed) || c.out.any (fun h => h.isFence || h.isAcqBank) || c.outst.any (·.acq)

/-- Whether a committed access of the context that may write some of n bytes at a VA has not been performed (R188). -/
def storeOpen (s : State) (c : Ctx) (va n : Nat) : Bool :=
  c.out.any (fun h => match heldSpan c h with
    | some (a, k) => clash s c.part va n false a k true
    | none => false)
  || c.outst.any fun o => clash s c.part va n false o.va o.len true

/-! Release and acquire by VA (R192) -/

/-- A doubleword written by VA as a release of an agent at package scope. -/
def relWrite8 (s : State) (part va v : Nat) (cp : Bool) (src : Nat) : State × Option Bad :=
  match locateFar s part va 8 true false cp (src / 2 ^ 14) with
  | (s, .error b) => (s, some b)
  | (s, .ok a) =>
    let (s, _, vec) := relTake s src
    let (s, done) := putAt s part va src a 8 v 0
    (if done then relPut s a 8 vec else s, none)

/-- An acquire at a scope that an agent makes within its move: it waits until it may complete (R143, R192). -/
def acqNow (s : State) (src scope : Nat) (l : List Stamp) : State :=
  if acqReady s src scope l then acqDone s src scope l else { s with stalled := true }

/-- A doubleword read by VA as an acquire of an agent at a scope (R143, R192). -/
def acqRead8 (s : State) (part va src scope : Nat) : State × Except Bad Nat :=
  match locateFar s part va 8 false false false (src / 2 ^ 14) with
  | (s, .error b) => (s, .error b)
  | (s, .ok a) => let v := rdNat s a 8
                  (acqNow s src scope (relAt s a 8), .ok v)

/-! Contexts and launches -/

/-- A context from its launch to the end of the launch. -/
def State.live? (s : State) (part cr : Nat) : Option Live := s.live.find? fun l => l.part == part && l.cr == cr

/-- Its entry replaced. -/
def State.setLive (s : State) (l : Live) : State :=
  { s with live := s.live.map fun m => if m.part == l.part && m.cr == l.cr then l else m }

/-- STATE of a context noted (R152). -/
def State.setSt (s : State) (part cr st : Nat) : State :=
  match s.live? part cr with
  | some l => s.setLive { l with st := st }
  | none => s

/-- A context has ended: its launch counts it, and completes with its last (R109). -/
def endContext (s : State) (part cr st status : Nat) : State :=
  match s.live? part cr with
  | none => s
  | some l =>
    let s := s.setLive { l with st := st }
    match s.launches.find? (·.id == l.launch) with
    | none => s
    | some k =>
      let better := st == 4 && status != 0 && (k.exitV == 0 || l.g < k.exitG)
      let k' := { k with left := k.left - 1, exits := k.exits + (if st = 4 then 1 else 0),
                         exitG := if better then l.g else k.exitG, exitV := if better then status else k.exitV,
                         faulted := k.faulted || st == 6, lost := k.lost || st == 5 }
      let s := { s with launches := s.launches.map fun m => if m.id == k.id then k' else m }
      if k'.left = 0 then s.post (.launchCompletion k.id) else s

/-- Tile registers of a footprint. -/
def popFoot (m : Nat) : Nat := ((List.range 48).filter fun t => m.testBit t).length

/-- HOME of a context (R149). -/
def Live.home (l : Live) : Nat := if l.any then 0xFFFF else l.g

/-- Word 1 of a CR (R149). -/
def crWord1 (home lclu : Nat) (pv to_ sv rb : Bool) (st gen part ctxno : Nat) : Nat :=
  home * 2 ^ 48 + lclu * 2 ^ 42 + flagIf pv (2 ^ 35) + flagIf to_ (2 ^ 34) + flagIf sv (2 ^ 33) + flagIf rb (2 ^ 32)
    + st * 2 ^ 28 + gen * 2 ^ 26 + part * 2 ^ 21 + ctxno

/-! Continuation queues (R153) -/

/-- The physical cluster to whose queue a context goes (R153). -/
def homeCluster (s : State) (l : Live) : Option Nat :=
  if l.any then some (s.physClu l.part (l.g / 128) (l.g / 8 % 16)) else (s.physTile l.part l.g).map (· / 8)

/-- The cluster that acts for a context: that of its queue, or where its home is unplaced that of its logical cluster. -/
def homeClu (s : State) (l : Live) : Nat := (homeCluster s l).getD (s.physClu l.part (l.g / 128) (l.g / 8 % 16))

/-- A CR appended to the queue of a cluster: its LINK is 0, and its predecessor's LINK names it (R148, R153). -/
def appendTo (s : State) (clu part cr : Nat) : State :=
  let s := (vaWrite8 s part (cr + 48) 0 false (srcClu clu)).1
  let s := match (s.cl clu).contq.getLast? with
    | some (p, q) => (vaWrite8 s p (q + 48) cr false (srcClu clu)).1
    | none => s
  s.setCl clu { s.cl clu with contq := (s.cl clu).contq ++ [(part, cr)] }

/-- A context appended as queued (R153). One whose home is unplaced ends faulted with cause bounds (R158, log entry 13). -/
def appendCr (s : State) (part cr : Nat) : State :=
  match s.live? part cr with
  | none => s
  | some l =>
    match homeCluster s l with
    | some c => appendTo (s.setSt part cr 0) c part cr
    | none =>
      let src := srcClu (homeClu s l)
      let die := src / 2 ^ 14
      let (s, r) := vaRead8 s part (cr + 8) die
      let s := match r with
        | .ok w => (vaWrite8 s part (cr + 8) (setBits w 31 28 6) false src).1
        | .error _ => s
      endContext (emitFault s part src ⟨3, 255, die, cr⟩) part cr 6 0

/-- A CR taken from its cluster's queue: its predecessor's LINK names its successor. -/
def unqueue (s : State) (clu part cr : Nat) : State :=
  let q := (s.cl clu).contq
  let k := q.idxOf (part, cr)
  let s := match q[k - 1]? with
    | some (p, v) => if k = 0 then s else (vaWrite8 s p (v + 48) (q.getD (k + 1) (0, 0)).2 false (srcClu clu)).1
    | none => s
  s.setCl clu { s.cl clu with contq := q.eraseIdx k }

/-- A CR taken from every queue that it stands in. -/
def unqueueAll (s : State) (part cr : Nat) : State :=
  s.clusters.foldl (fun s p => if p.2.contq.contains (part, cr) then unqueue s p.1 part cr else s) s

/-! Save areas (R156, R157, R338) -/

/-- Pieces of bytes by offset. -/
def dwBytes (l : List Nat) : List Nat := l.flatMap (leBytes 8)

/-- The regions of a save area before the rows: offset and bytes (R156). -/
def saveRegions (c : Ctx) : List (Nat × List Nat) :=
  let a := c.arch
  let lvl := fun (l : Loop) => dwBytes ([l.count % 2 ^ 32, l.start, l.stop, l.iter % 2 ^ 32]
    ++ l.binds.map fun b => b.2.toNat % 2 ^ 32 + (b.1 % 32) * 2 ^ 32)
  [(0, dwBytes ((List.range 32).map fun r => (c.rx r).toNat)),
   (0x100, dwBytes ((List.range 12).map fun n => let g := c.sg n
                                                 g.va / 4 * 4 + flagIf g.i 2 + flagIf g.v 1)),
   (0x160, dwBytes [a.depcnt.toNat, a.collRtb.toNat, a.srseed.toNat % 2 ^ 32 + a.fst.toNat % 256 * 2 ^ 32]),
   (0x180, (List.range 48).map fun n => (a.ast.get 0 n).toNat),
   (0x1C0, dwBytes [c.cmpl, c.abrt]),
   (0x200, a.loops.flatMap lvl),
   (0x400, dwBytes ((List.range 48).map fun n => (c.tc.get 0 n).toNat)),
   (0x600, (List.range 4).flatMap fun n => leBytes 48 (c.tab.get 0 n).toNat),
   (0x700, (List.range 4).flatMap fun n => leBytes 64 (a.il.get 0 n).toNat),
   (0x800, (List.range 4).flatMap fun n => leBytes 32 (c.bs.get 0 n).toNat),
   (0x900, (List.range 8).flatMap fun n => leBytes 256 (c.sc.get 0 n).toNat)]

/-- Tile registers of a footprint, upward from T0. -/
def footTiles (m : Nat) : List Nat := (List.range 48).filter fun t => m.testBit t

/-- Whether a stored place holds a live row (R157). -/
def placeLive (c : Ctx) (t : Nat) : Bool := t < 32 || (t - 32 + 16 - c.arch.rot) % 16 < c.arch.ldep

/-- Rows of a save area: offset and bytes (R156, R157). -/
def saveRows (c : Ctx) : List (Nat × List Nat) :=
  ((footTiles c.tmask).mapIdx fun i t =>
    if placeLive c t then (List.range 32).map fun k => (0x1200 + 0x2000 * i + 256 * k, leBytes 256 (c.rows.get 0 (32 * t + k)).toNat)
    else []).flatten

/-- A context's register state written to its save area by a source; the first fault, where there is one. -/
def saveCtx (s : State) (c : Ctx) (src : Nat) : State × Option Bad :=
  (saveRegions c ++ saveRows c).foldl (fun (r : State × Option Bad) p =>
    let (s, b) := vaWrite r.1 c.part (c.save + p.1) p.2 false src
    (s, r.2 <|> b)) (s, none)

/-- A sparse map of a function's nonzero values below n. -/
def tabulate {β : Type} [DecidableEq β] (d : β) (n : Nat) (f : Nat → β) : SMap β :=
  (List.range n).filterMap fun i => if f i = d then none else some (i, f i)

/-- A tile control register without its reserved bits (R7, R200). -/
def tcMask (v : Nat) : Nat := setBits (v % 2 ^ 24) 4 3 0

/-- The register state of the first 0x1200 bytes of a save area; reserved bits of TC, AST and FST are dropped (R7, R200 to R202). -/
def loadRegs (c : Ctx) (b : Array Nat) : Ctx :=
  let num := fun (o n : Nat) => leNat ((List.range n).map fun k => b.getD (o + k) 0)
  let dw := fun (o : Nat) => num o 8
  { c with
    x := tabulate 0 32 fun r => if r = 0 then 0 else BitVec.ofNat 64 (dw (8 * r)),
    steer := tabulate {} 12 fun n => let v := dw (0x100 + 8 * n)
                                     { c.sg n with va := v / 4 * 4, v := v.testBit 0, i := v.testBit 1 },
    tc := tabulate 0 48 fun n => BitVec.ofNat 64 (tcMask (dw (0x400 + 8 * n))),
    tab := tabulate 0 4 fun n => BitVec.ofNat 384 (num (0x600 + 48 * n) 48),
    bs := tabulate 0 4 fun n => BitVec.ofNat 256 (num (0x800 + 32 * n) 32),
    sc := tabulate 0 8 fun n => BitVec.ofNat 2048 (num (0x900 + 256 * n) 256),
    cmpl := dw 0x1C0, abrt := dw 0x1C8,
    arch := { c.arch with
      depcnt := BitVec.ofNat 64 (dw 0x160), collRtb := BitVec.ofNat 64 (dw 0x168),
      srseed := BitVec.ofNat 64 (dw 0x170 % 2 ^ 32), fst := BitVec.ofNat 64 (bits (dw 0x170) 38 32),
      ast := tabulate 0 48 fun n => BitVec.ofNat 8 (b.getD (0x180 + n) 0 % 32),
      il := tabulate 0 4 fun n => BitVec.ofNat 512 (num (0x700 + 64 * n) 64),
      loops := (List.range 6).map fun k => let o := 0x200 + 64 * k
        { count := dw o % 2 ^ 32, start := dw (o + 8), stop := dw (o + 16), iter := dw (o + 24) % 2 ^ 32,
          binds := (List.range 4).map fun j => let v := dw (o + 32 + 8 * j)
                                               (bits v 36 32, BitVec.ofInt 64 (sext 32 v)) } } }

/-- A save area read into a context (R155 step 2). -/
def loadCtx (s : State) (c : Ctx) (die : Nat) : State × Except Bad Ctx :=
  match vaRead s c.part c.save 0x1200 die with
  | (s, .error b) => (s, .error b)
  | (s, .ok l) =>
    let c := loadRegs c l.toArray
    ((footTiles c.tmask).zipIdx).foldl (fun (r : State × Except Bad Ctx) ti =>
      match r with
      | (s, .error b) => (s, .error b)
      | (s, .ok c) =>
        if !placeLive c ti.1 then (s, .ok c)
        else match vaRead s c.part (c.save + 0x1200 + 0x2000 * ti.2) 0x2000 die with
          | (s, .error b) => (s, .error b)
          | (s, .ok l) =>
            let rows := (List.range 32).foldl (fun m k => SMap.put 0 m (32 * ti.1 + k)
              (BitVec.ofNat 2048 (leNat ((l.drop (256 * k)).take 256)))) c.rows
            (s, .ok { c with rows := rows })) (s, .ok c)

/-! Loading (R151, R154, R155, R108) -/

/-- A waiter removed from the wait lists. -/
def dropWaiter (s : State) (part cr : Nat) : State :=
  { s with clusters := s.clusters.map fun p => (p.1, { p.2 with waiters := p.2.waiters.filter fun w => !(w.part == part && w.cr == cr) }) }

/-- A written-back waiter, with its cluster. -/
def findWaiter (s : State) (part cr : Nat) : Option (Nat × Waiter) :=
  s.clusters.findSome? fun p => (p.2.waiters.find? fun w => w.part == part && w.cr == cr).map fun w => (p.1, w)

/-- Cards of a context, wherever they are (R155). -/
def cardsOf (s : State) (part cr : Nat) : List Card := s.clusters.flatMap fun p => p.2.cards.filter fun k => k.part == part && k.cr == cr

/-- Whether every card of a context is done or aborted. -/
def cardsDone (s : State) (part cr : Nat) : Bool := (cardsOf s part cr).all fun k => k.st == .done

/-- Whether a CR of a queue fits an idle slot of a tile: its place, HOLD, and the footprint of the image whose code region holds
its word 0 beside the other context's (R154). -/
def crFits (s : State) (tile slot part cr : Nat) : Bool :=
  match s.live? part cr with
  | none => false
  | some l =>
    let foot := ((s.imageOf part (rdNat s (locOf s part cr false) 8)).map fun im => popFoot im.tmask).getD 0
    let placed := if l.any then (List.range 8).any fun t => s.physTile part (l.g / 8 * 8 + t) == some tile
      else s.physTile part l.g == some tile
    let other := ((s.ctx? (2 * tile + 1 - slot)).map fun c => popFoot c.tmask).getD 0
    placed && !(s.rn 4 0x1005 part).testBit 0 && foot + other ≤ 48

/-- The CR that an idle slot takes: of each HOME only the oldest is a candidate (R154). -/
def loadPick (s : State) (tile slot : Nat) : Option (Nat × Nat) :=
  let home := fun (e : Nat × Nat) => ((s.live? e.1 e.2).map Live.home).getD 0
  let q := (s.cl (tile / 8)).contq
  let oldest := fun (e : Nat × Nat) => (q.find? fun f => home f == home e) == some e
  q.find? fun e => oldest e && crFits s tile slot e.1 e.2

/-- Whether an idle slot takes a CR: slot 0 before slot 1; a retired tile takes none (R154, R240). -/
def canLoad (s : State) (tile slot : Nat) : Bool :=
  (s.ctx? (2 * tile + slot)).isNone && !(s.reg 1 0x405 tile).toNat.testBit 0 && (loadPick s tile slot).isSome
    && (slot == 0 || (s.ctx? (2 * tile)).isSome || (loadPick s tile 0).isNone)

/-- Whether a CR's words break R151. -/
def crBad (w : List Nat) : Bool :=
  let g := fun k => nth w k
  let kind := g 4 % 8
  bits (g 0) 1 0 != 0 || bits (g 1) 27 26 == 0 || bits (g 1) 27 26 == 3 || bits (g 3) 20 16 == 0 || bits (g 3) 20 16 > 16
    || bits (g 3) 23 21 > 6 || kind > 2 || bits (g 1) 41 36 != 0 || bits (g 3) 63 24 != 0 || bits (g 5) 15 8 != 0
    || g 7 != 0 || (kind == 0 && g 4 / 8 != 0) || (kind == 1 && (bits (g 4) 63 9 != 0 || bits (g 4) 3 3 != 0))

/-- The registers of a context's first load (R108). -/
def firstRegs (s : State) (c : Ctx) (l : Live) : Ctx :=
  let top := 2 ^ 63 + c.ltile / 128 * 2 ^ 60 + c.ltile / 8 % 16 * 2 ^ 24 + c.ltile % 8 * 2 ^ 20 + s.capSpad
  ((((c.wx 2 (BitVec.ofNat 64 top)).wx 3 (BitVec.ofNat 64 l.link)).wx 4 (BitVec.ofNat 64 c.cr)).wx 8
    (BitVec.ofNat 64 l.args)).wx 9 (BitVec.ofNat 64 l.rank)

/-- A context that a tile does not run: its CR is written back faulted, with a device fault record (R151). -/
def refuseCr (s : State) (tile part cr : Nat) (w1 : Nat) (b : Bad) : State :=
  let s := (vaWrite8 s part (cr + 8) (setBits w1 31 28 6) false (srcTile tile)).1
  endContext (emitFault s part (srcTile tile) b) part cr 6 0

/-- What a loaded context does: it goes on, or waits on where it was queued with a wait (R239, log entry 18). -/
def waitOn (s : State) (part cr : Nat) : Phase :=
  match findWaiter s part cr with
  | some (_, w) => .waiting w.kind w.obj w.gen true 0
  | none => .running

/-- CONTEXT_LOAD (R154, R155, R108). -/
def execContextLoad (tile slot : Nat) (s : State) : Host.Outcome State Fault Refusal :=
  if tile ≥ 512 ∨ slot > 1 ∨ !canLoad s tile slot then .fault .notPossible
  else match loadPick s tile slot with
  | none => .fault .notPossible
  | some (part, cr) =>
    let die := tile / 128
    let ph := waitOn s part cr
    let s := dropWaiter (unqueue s (tile / 8) part cr) part cr
    let (s, r) := acqRead8 s part (cr + 8) (srcTile tile) 3
    match r, vaRead s part cr 64 die with
    | .error b, _ => .next (refuseCr s tile part cr 0 b)
    | _, (s, .error b) => .next (refuseCr s tile part cr 0 b)
    | .ok _, (s, .ok l) =>
      let w := (List.range 8).map fun k => leNat ((l.drop (8 * k)).take 8)
      let w1 := nth w 1
      if crBad w then .next (refuseCr s tile part cr w1 ⟨1, 255, die, cr⟩)
      else
        let w3 := nth w 3
        let lv := s.live? part cr
        let im := s.imageOf part (nth w 0)
        let lt := match lv with
          | some l => if l.any then ((List.range 8).find? fun t => s.physTile part (l.g / 8 * 8 + t) == some tile).map (l.g / 8 * 8 + ·)
                      else some l.g
          | none => s.logTile part tile
        let c : Ctx :=
          { pc := nth w 0, cr := cr, save := nth w 2, home := bits w1 63 48, lclu := bits w1 47 42, ctxno := bits w1 20 0,
            part := part, gen := bits w1 27 26, prio := nth w 5 % 256, tmask := (im.map (·.tmask)).getD 0,
            rb := w1.testBit 32, sv := w1.testBit 33, timedOut := w1.testBit 34, ltile := lt.getD 0,
            steer := tabulate {} 12 fun n => { c := w3.testBit n },
            arch := { rot := bits w3 15 12, ldep := bits w3 20 16, nloop := bits w3 23 21,
                      waitDl := BitVec.ofNat 64 (nth w 5 / 2 ^ 16 * 2 ^ 16) } }
        match (if w1.testBit 33 then loadCtx s c die else (s, .ok c)) with
        | (s, .error b) => .next (refuseCr s tile part cr w1 b)
        | (s, .ok c) =>
          let c := match lv with
            | some l => if l.first then firstRegs s c l else c
            | none => c
          let c := { c with posted := c.cmpl + (cardsOf s part cr).length, phase := ph }
          let s := (vaWrite8 s part (cr + 8) (setBits w1 31 28 1) false (srcTile tile)).1
          let s := match lv with
            | some l => s.setLive { l with st := 1, first := false, rtb := c.arch.collRtb.toNat }
            | none => s
          .next (s.setCtx (2 * tile + slot) c)

/-! Write-back (R155) -/

/-- Whether a context has drained: its fills have come, and its committed accesses are performed (R155). -/
def drained (c : Ctx) : Bool := c.out.isEmpty && c.outst.isEmpty && c.fills.all fun f => f.parts.all fun p => p.got.isSome

/-- Word 4 of a CR for a wait (R150). -/
def waitWord (kind obj : Nat) : Nat := if kind = 1 then obj + 1 else if kind = 2 then obj / 8 * 8 + 2 else 0

/-- A context written back with a STATE code and its wait (R155 to R157). EXIT drains and sets its STATE, and writes no
save area (R166). It waits for the die's invalidation log (R143). A fault of the save area or the CR is written as a device fault
record (log entry 14). -/
def writeBackCtx (s : State) (ck st kind obj : Nat) : State :=
  match s.ctx? ck with
  | none => s
  | some c =>
    let c := landAll c
    let die := ck / 256
    let s := if invStuck s die then { s with stalled := true } else invAll s die
    let (s, b) := if st = 4 then (s, none) else saveCtx s c (srcTile (ck / 2))
    let cond := (List.range 12).foldl (fun v n => v + flagIf (c.sg n).c (2 ^ n)) 0
    let words := [(0, c.pc), (2, c.save), (3, cond + c.arch.rot * 2 ^ 12 + c.arch.ldep * 2 ^ 16 + c.arch.nloop * 2 ^ 21),
      (4, waitWord kind obj), (5, c.arch.waitDl.toNat / 2 ^ 16 * 2 ^ 16 + c.prio)]
    let (s, b) := words.foldl (fun (r : State × Option Bad) p =>
      let (s, e) := vaWrite8 r.1 c.part (c.cr + 8 * p.1) p.2 false (srcTile (ck / 2))
      (s, r.2 <|> e)) (s, b)
    let w1 := crWord1 c.home c.lclu c.priv c.timedOut (c.sv || st != 4) c.rb st c.gen c.part c.ctxno
    let (s, e) := relWrite8 s c.part (c.cr + 8) w1 false (srcTile (ck / 2))
    let s := match b <|> e with
      | some b => emitFault s c.part (srcTile (ck / 2)) b
      | none => s
    let s := s.delCtx ck
    if st = 0 then appendCr s c.part c.cr
    else if st ≥ 4 then endContext s c.part c.cr st c.exitStatus
    else s.setSt c.part c.cr st

/-- CONTEXT_WRITE_BACK: a context that leaves its slot, once it has drained (R155, R162). -/
def execContextWriteBack (ck st : Nat) (s : State) : Host.Outcome State Fault Refusal :=
  match s.ctx? ck with
  | none => .fault .notPossible
  | some c =>
    if c.phase = .leaving st ∧ st ≠ 4 ∧ st ≠ 8 ∧ drained c then .next (writeBackCtx s ck st 0 0) else .fault .notPossible

/-- CONTEXT_EXIT: it waits for every card of the context (R166). -/
def execContextExit (ck : Nat) (s : State) : Host.Outcome State Fault Refusal :=
  match s.ctx? ck with
  | none => .fault .notPossible
  | some c =>
    if c.phase = .leaving 4 ∧ drained c ∧ cardsDone s c.part c.cr then .next (writeBackCtx s ck 4 0 0) else .fault .notPossible

/-- PREEMPTION: taken after a DP bundle; it waits for the context's fills and cards (R174). -/
def execPreemption (ck : Nat) (s : State) : Host.Outcome State Fault Refusal :=
  match s.ctx? ck with
  | none => .fault .notPossible
  | some c =>
    if c.preempt ∧ c.phase = .leaving 8 ∧ drained c ∧ cardsDone s c.part c.cr then .next (writeBackCtx s ck 0 0 0)
    else .fault .notPossible

/-- Whether a wait is to be written back: it has lasted more than 4,096 context cycles or meets a pre-emption, its barrier
arrival is made, it is not in the handler, and the wait list has room (R162, R163, R214). -/
def canWaitBack (s : State) (ck : Nat) : Bool :=
  match s.ctx? ck with
  | none => false
  | some c => match c.phase with
    | .waiting kind _ _ arrived cyc =>
      kind ≤ 2 && arrived && !c.priv && (cyc > 4096 || c.preempt) && (s.cl (ck / 16)).waiters.length < 64 && drained c
    | _ => false

/-- WAIT_WRITE_BACK (R162, R163). -/
def execWaitWriteBack (ck : Nat) (s : State) : Host.Outcome State Fault Refusal :=
  if !canWaitBack s ck then .fault .notPossible
  else
    let c := s.ctx ck
    match c.phase with
    | .waiting kind obj gen _ _ =>
      let s := writeBackCtx s ck 2 kind obj
      let clu := ck / 16
      .next (s.setCl clu { s.cl clu with waiters := (s.cl clu).waiters ++
        [⟨c.part, c.cr, kind, obj, gen, c.arch.waitDl.toNat / 2 ^ 16⟩] })
    | _ => .fault .notPossible

/-! Waking (R164, R165, R309) -/

/-- A wait of a resident context ends: it goes on in its slot (R165), or takes the pre-emption that it met at its DP bundle (R174,
R175). -/
def resumeCtx (s : State) (ck : Nat) (timed : Bool) : State :=
  let c := s.ctx ck
  s.setCtx ck { c with phase := if c.preDue then .leaving 8 else .running, preDue := false, fresh := true, timedOut := timed }

/-- Whether a CR stands in a queue. -/
def State.isQueued (s : State) (part cr : Nat) : Bool := s.clusters.any fun p => p.2.contq.contains (part, cr)

/-- A written-back waiter or suspended context woken by the cluster of its queue: word 4 := 0, TO as it stands, appended as queued
(R164) where an autotomy has not queued it before (R239). -/
def wakeCr (s : State) (part cr : Nat) (to_ : Option Bool) : State :=
  let clu := (s.live? part cr).elim 0 (homeClu s)
  let die := clu / 16
  let s := (vaWrite8 s part (cr + 32) 0 false (srcClu clu)).1
  let (s, r) := vaRead8 s part (cr + 8) die
  let s := match r with
    | .ok w =>
      let w := setBits w 31 28 0
      let w := match to_ with
        | some t => setBits w 34 34 (flagIf t 1)
        | none => w
      (vaWrite8 s part (cr + 8) w false (srcClu clu)).1
    | .error b => emitFault s part (srcClu clu) b
  if s.isQueued part cr then s else appendCr s part cr

/-- An imprecise fault of a resident context: it issues nothing further, its committed accesses are still performed, and it
is written back faulted, with a device fault record; a block that has committed makes its transfer first (R210). A context that a
split halts stays halted (R40). -/
def imprecise (s : State) (ck : Nat) (b : Bad) : State :=
  match s.ctx? ck with
  | none => s
  | some c =>
    let s := emitFault s c.part (srcTile (ck / 2)) b
    s.setCtx ck { c with held := [], phase := match c.phase with
      | .commit e => .commit { e with lost := true }
      | .leaving 5 => .leaving 5
      | _ => .leaving 6 }

/-- FLAG_REREAD: the flag of a resident or written-back waiter, read with an acquire at package scope (R164, R308). It waits for what
the context's loads wait for: an earlier acquire or FENCE, and a committed store of the flag (R188). -/
def execFlagReread (part cr ck : Nat) (s : State) : Host.Outcome State Fault Refusal :=
  let c := s.ctx ck
  match c.phase with
  | .waiting 2 va _ _ _ =>
    if (s.ctx? ck).isNone ∨ c.part ≠ part ∨ c.cr ≠ cr then .fault .notPossible
    else if acqOpen c || storeOpen s c va 8 then .next { s with stalled := true }
    else match acqRead8 s part va (srcTile (ck / 2)) 3 with
      | (s, .error b) => .next (imprecise s ck b)
      | (s, .ok v) => .next (if v = 0 then s else resumeCtx s ck false)
  | _ =>
    match findWaiter s part cr with
    | none => .fault .notPossible
    | some (clu, w) =>
      if w.kind ≠ 2 then .fault .notPossible
      else match acqRead8 s part w.obj (srcClu clu) 3 with
        | (s, .error b) =>
          let (s, r) := vaRead8 (unqueueAll s part cr) part (cr + 8) (clu / 16)
          let s := match r with
            | .ok w1 => (vaWrite8 s part (cr + 8) (setBits w1 31 28 6) false (srcClu clu)).1
            | .error _ => s
          .next (endContext (emitFault (dropWaiter s part cr) part (srcClu clu) b) part cr 6 0)
        | (s, .ok v) => .next (if v = 0 then s else wakeCr (dropWaiter s part cr) part cr (some false))

/-- Whether a deadline of a wait has come (R164, R309). -/
def deadlineDue (s : State) (dl : Nat) : Bool := dl != 0 && dl ≤ s.tsc.toNat / 2 ^ 16

/-- WAIT_DEADLINE: TO is set, and the wait ends as timed out; an arrival stays counted (R164, R309). -/
def execWaitDeadline (part cr ck : Nat) (s : State) : Host.Outcome State Fault Refusal :=
  let c := s.ctx ck
  match c.phase with
  | .waiting kind _ _ arrived _ =>
    if (s.ctx? ck).isNone ∨ c.part ≠ part ∨ c.cr ≠ cr ∨ kind > 2 ∨ !arrived ∨ !deadlineDue s (c.arch.waitDl.toNat / 2 ^ 16) then
      .fault .notPossible
    else .next (resumeCtx s ck true)
  | _ =>
    match findWaiter s part cr with
    | none => .fault .notPossible
    | some (_, w) => if deadlineDue s w.dl then .next (wakeCr (dropWaiter s part cr) part cr (some true)) else .fault .notPossible

/-- CONT_WAKE_WRITE: the CR is woken if it is suspended and of the writer's partition; else nothing (R164). -/
def execContWakeWrite (part va : Nat) (s : State) : Host.Outcome State Fault Refusal :=
  match s.live? part va with
  | some l => .next (if l.st = 3 then wakeCr s part va none else s)
  | none => .next s

/-! Barriers (R183, R184) -/

/-- Where the vectors of a group's arrivals are kept. -/
def barLoc (part g : Nat) : Nat := region 9 (8 * (part * 16 + g))

/-- Whether a group takes an arrival now: the arrival that reaches COUNT completes its generation first (R183). -/
def canArrive (s : State) (part g : Nat) : Bool := let v := s.rn 4 (0x1020 + g) part
                                                   bits v 31 21 < bits v 10 0

/-- An arrival at a group, a release at package scope; the last one completes the generation (R183, R184). -/
def arrive (s : State) (part g : Nat) (x : Bool) (src : Nat) : State :=
  let v := s.rn 4 (0x1020 + g) part
  let n := bits v 31 21 + 1
  let (s, _, vec) := relTake s src
  let s := relPut s (barLoc part g) 1 (joinStamps (relAt s (barLoc part g) 1) vec)
  let s := s.setN 4 (0x1020 + g) part (setBits v 31 21 n)
  let s := if x && !s.barX.contains (part * 16 + g) then { s with barX := (part * 16 + g) :: s.barX } else s
  if n ≥ bits v 10 0 then s.post (.barrierComplete part g) else s

/-- Cope and drag swapped in every cluster of a group's mask (R183). -/
def swapAll (s : State) (part g : Nat) : State :=
  (List.range 64).foldl (fun s k =>
    if (s.rn 4 (0x1030 + g) part).testBit k then
      let c := s.physClu part (k / 16) (k % 16)
      s.setCl c { s.cl c with qIsCope := !(s.cl c).qIsCope }
    else s) s

/-- Whether a wait is that of a completed generation. -/
def waitsFor (kind obj gen g old : Nat) : Bool := kind == 1 && bits obj 7 4 == g && gen == old

/-- BARRIER_COMPLETE: the swap, GEN and ARRIVED, and the release of every arrived context, an acquire (R183, R184). -/
def execBarrierComplete (part g : Nat) (s : State) : Host.Outcome State Fault Refusal :=
  let v := s.rn 4 (0x1020 + g) part
  if bits v 10 0 = 0 ∨ bits v 31 21 < bits v 10 0 then .fault .notPossible
  else
    let old := bits v 47 32
    let s := if s.barX.contains (part * 16 + g) then { swapAll s part g with barX := s.barX.filter (· != part * 16 + g) } else s
    let s := s.setN 4 (0x1020 + g) part (setBits (setBits v 31 21 0) 47 32 (old + 1))
    let vec := relAt s (barLoc part g) 1
    let s := relPut s (barLoc part g) 1 []
    let s := s.ctxs.foldl (fun s p =>
      match p.2.phase with
      | .waiting kind obj gen true _ =>
        if p.2.part == part && waitsFor kind obj gen g old then acqNow (resumeCtx s p.1 false) (srcTile (p.1 / 2)) 3 vec else s
      | _ => s) s
    let ws := s.clusters.flatMap fun p => (p.2.waiters.filter fun w => w.part == part && waitsFor w.kind w.obj w.gen g old).map fun w => (p.1, w)
    .next (ws.foldl (fun s pw => wakeCr (dropWaiter (acqNow s (srcNo (pw.1 / 16) 1 (pw.1 % 16)) 3 vec) part pw.2.cr) part pw.2.cr (some false)) s)

end Sys2Proof.Machine
end

