-- ==== Sys2Proof/Machine/Cards.lean ====
section
/-! DEFINITION. Job cards (R167 to R171, R339 to R347): posting, the window and its edges, the engine arbiters, the five
operations, completion and abort; and the injection of R241. -/

namespace Sys2Proof.Machine

/-! Fields of the staged words (R339) -/

/-- Staged word k. -/
def Card.w (k : Card) (n : Nat) : Nat := (k.q.getD n 0).toNat
/-- OP. -/
def Card.op (k : Card) : Nat := bits (k.w 0) 7 0
/-- SCOPE. -/
def Card.scope (k : Card) : Nat := bits (k.w 0) 10 8
/-- FOFS, signed. -/
def Card.fofs (k : Card) : Int := sext 32 (bits (k.w 0) 63 32)
/-- ROWS. -/
def Card.nrows (k : Card) : Nat := bits (k.w 3) 31 16
/-- RB. -/
def Card.rb (k : Card) : Nat := bits (k.w 3) 15 0
/-- The destination: for COPYX without its chip (R345). -/
def Card.dst (k : Card) : Nat := if k.op = 2 then setBits (k.w 2) 59 48 0 else k.w 2
/-- The destination chip of a COPYX (R345). -/
def Card.chip (k : Card) : Nat := bits (k.w 2) 59 48
/-- Whether the card goes to another chip. -/
def Card.remote (s : State) (k : Card) : Bool := k.op == 2 && k.chip != s.ident.chip % 4096
/-- The VA of the completion flag (R339). -/
def Card.flagVa (k : Card) : Nat := wrap 64 (k.dst + k.fofs)

/-- Whether a VA lies in an SRAM sub-window or a die-local translated range, whatever its offset names (R125). -/
def dieClass (va : Nat) : Bool := bits va 63 62 == 2 && va % 2 ^ 60 < 2 ^ 48

/-- Whether a VA has a class (R125). -/
def hasClass (va : Nat) : Bool := va < 2 ^ 57 || dieClass va

/-- Whether a captured card is ill-formed (R340). -/
def cardBad (s : State) (k : Card) : Bool :=
  let cls := fun va => vaClass s.capSpad va
  let op := k.op
  let esz := bits (k.w 0) 14 14
  let sub := bits (k.w 0) 13 11
  let sstr := bits (k.w 3) 47 32
  op == 0 || op > 5 || (k.w 0).testBit 15 || k.scope > 4 || sub > 5 || (op != 4 && (esz != 0 || sub != 0))
    || ((op == 3 || op == 5) && sstr != 0) || (esz == 1 && sub == 1) || (op == 4 && k.rb != 4 * (1 + esz))
    || (k.rb == 0 && k.nrows != 0) || k.guard % 8 != 0
    || (k.fofs != 0 && (!bankable (cls k.flagVa) || (!k.remote s && k.flagVa % 8 != 0)))
    || (op == 4 && !bankable (cls k.dst)) || (op == 2 && (k.scope < 3 || (k.remote s && k.scope < 4)))
    || (op != 5 && !hasClass (k.w 1)) || !hasClass k.dst || (k.guard != 0 && !hasClass k.guard) || (op == 2 && !dieClass k.dst)

/-- Rounded down and up to 64. -/
def down64 (v : Nat) : Nat := v / 64 * 64
/-- Rounded up to 64. -/
def up64 (v : Nat) : Nat := (v + 63) / 64 * 64

/-- Read and write extents of a card (R167, R341): low and high ends; equal ends are empty. Those on another chip lie
apart. -/
def cardExtents (s : State) (k : Card) : Nat × Nat × Nat × Nat :=
  let n := k.nrows
  if n = 0 then (0, 0, 0, 0)
  else
    let side := fun (a str : Nat) => (down64 a, up64 (a + (n - 1) * str * 64 + k.rb))
    let off := if k.remote s then (k.chip + 1) * 2 ^ 70 else 0
    let rd := if k.op ≤ 2 then side (k.w 1) (bits (k.w 3) 47 32)
      else if k.op = 3 then (down64 (k.w 1), up64 (k.w 1 + 8 * n))
      else if k.op = 4 then (down64 (k.w 1), up64 (k.w 1 + 16 * n)) else (0, 0)
    let wr := if k.op = 4 then (down64 k.dst, up64 (k.dst + bits (k.w 3) 63 32 * k.rb)) else side k.dst (bits (k.w 3) 63 48)
    (rd.1, rd.2, wr.1 + off, wr.2 + off)

/-- Whether two extents overlap. -/
def overlaps (a b c d : Nat) : Bool := a < b && c < d && a < d && c < b

/-- Whether a card writes an exchange window or the drag view of any cluster: its extent as captured at its GO, or its flag, be
it ill-formed or not (R183, R405). -/
def writesExchange (k : Card) : Bool :=
  let base := fun (i : Nat) => 2 ^ 63 + i / 16 * 2 ^ 60 + 0x100000000 + i % 16 * 2 ^ 22 + 0x200000
  let lo := k.wlo % 2 ^ 70
  let hi := if k.wlo < k.whi then lo + (k.whi - k.wlo) else lo
  (List.range 64).any fun i => overlaps lo hi (base i) (base i + 0x200000)
    || (k.fofs != 0 && overlaps k.flagVa (k.flagVa + 8) (base i) (base i + 0x200000))

/-! Posting and the window -/

/-- A GO performed at commit captures the staging registers and posts the card (R342). -/
def postCard (s : State) (ck guard : Nat) : State :=
  match s.ctx? ck with
  | none => s
  | some c =>
    let k : Card := { id := s.nextCard, part := c.part, cr := c.cr, ctxno := c.ctxno, serial := c.posted, prio := c.prio,
                      queue := ck % 16, q := c.q, guard := guard, st := .posted, rlo := 0, rhi := 0, wlo := 0, whi := 0,
                      edges := [], ill := false, rows := 0, sentAt := 0 }
    let (a, b, l, h) := cardExtents s k
    let k := { k with ill := cardBad s k, rlo := a, rhi := b, wlo := l, whi := h }
    let s := { s.setCtx ck { c with posted := c.posted + 1 } with nextCard := s.nextCard + 1 }
    let clu := ck / 16
    (s.setCl clu { s.cl clu with cards := (s.cl clu).cards ++ [k] }).post (.cardWindowEntry clu k.id)

/-- A card of a cluster. -/
def State.card? (s : State) (cl id : Nat) : Option Card := (s.cl cl).cards.find? fun k => k.id == id

/-- A card replaced. -/
def State.setCard (s : State) (cl : Nat) (k : Card) : State :=
  s.setCl cl { s.cl cl with cards := (s.cl cl).cards.map fun m => if m.id == k.id then k else m }

/-- Whether a card lies in the window. -/
def Card.inWindow (k : Card) : Bool := k.st != .posted && k.st != .done

/-- Whether a card can enter its window: it has room, and cards enter in GO order (R167). -/
def canEnter (s : State) (cl : Nat) (k : Card) : Bool :=
  k.st == .posted && ((s.cl cl).cards.filter Card.inWindow).length < 64
    && (s.cl cl).cards.all fun m => m.id ≥ k.id || m.st != .posted

/-- CARD_WINDOW_ENTRY (R167, R168, R340): edges to earlier cards of the context; an ill-formed card, whose extents are empty in the
window, aborts at once. -/
def execCardWindowEntry (cl id : Nat) (s : State) : Host.Outcome State Fault Refusal :=
  match s.card? cl id with
  | none => .fault .notPossible
  | some k =>
    if !canEnter s cl k then (if k.st = .posted then .next (s.post (.cardWindowEntry cl id)) else .fault .notPossible)
    else if k.ill then .next ((s.setCard cl { k with st := .finished 0x19 0 }).post (.cardDone cl id))
    else
      let hits := (s.cl cl).cards.filter fun e => e.part == k.part && e.cr == k.cr && e.id < k.id && e.inWindow && !e.ill
        && (overlaps k.rlo k.rhi e.wlo e.whi || overlaps k.wlo k.whi e.rlo e.rhi || overlaps k.wlo k.whi e.wlo e.whi)
      .next (s.setCard cl { k with st := .windowed, edges := hits.map (·.id) })

/-! The arbiters (R170) -/

/-- The kind of a card: 0 copy, 1 gather, 2 scatter-accumulate. -/
def Card.kind (k : Card) : Nat := if k.op = 3 then 1 else if k.op = 4 then 2 else 0

/-- Whether every card to which a card has an edge is done or aborted (R168). -/
def cardReady (s : State) (cl : Nat) (k : Card) : Bool :=
  k.st == .windowed && k.edges.all fun e => match s.card? cl e with
    | some m => m.st == .done
    | none => true

/-- Engines of a kind that are free (R170): two copy engines, one of each other kind. -/
def freeEngines (s : State) (cl kind : Nat) : List Nat :=
  (List.range (if kind = 0 then 2 else 1)).filter fun e => !(s.cl cl).cards.any fun k => k.kind == kind && k.st == .running e

/-- Whether an arbiter draws (R170). -/
def canDraw (s : State) (cl kind : Nat) : Bool :=
  !(freeEngines s cl kind).isEmpty && (s.cl cl).cards.any fun k => k.kind == kind && cardReady s cl k

/-- The winner of a draw among n queues: with no tickets, the next after the last winner (R104). -/
def drawWinner (tickets : List Nat) (run : List Bool) (x last : Nat) : Nat :=
  let n := run.length
  let tot := tickets.foldl (· + ·) 0
  if tot = 0 then
    ((((List.range n).map fun i => (last + 1 + i) % n).find? fun q => run.getD q false)).getD 0
  else
    let r := x % tot
    ((List.range n).find? fun q => (tickets.take (q + 1)).foldl (· + ·) 0 > r).getD 0

/-- CARD_DRAW (R170). -/
def execCardDraw (cl kind : Nat) (s : State) : Host.Outcome State Fault Refusal :=
  if kind > 2 ∨ !canDraw s cl kind then .fault .notPossible
  else
    let c := s.cl cl
    let first := fun (q : Nat) => c.cards.find? fun k => k.kind == kind && k.queue == q && cardReady s cl k
    let run := (List.range 16).map fun q => (first q).isSome
    let tk := (List.range 16).map fun q => ((first q).map (·.prio)).getD 0
    let x := draw (c.gens.getD kind 1)
    let w := drawWinner tk run x (c.last.getD kind 15)
    match first w with
    | none => .fault .notPossible
    | some k =>
      let s := s.setCl cl { c with gens := c.gens.set kind x, last := c.last.set kind w }
      .next (s.setCard cl { k with st := .running ((freeEngines s cl kind).headD 0) })

/-! Running (R343 to R345, R193, R224) -/

/-- The engine of its cluster on which a card runs: 0 and 1 copy, 2 gather, 3 scatter-accumulate (R170). -/
def Card.eng (k : Card) : Nat :=
  if k.kind ≠ 0 then k.kind + 1
  else match k.st with
    | .running e => e
    | _ => 0

/-- The window of a cluster's engine (R55). -/
def engKey (cl e : Nat) : Nat := srcClu cl + 2 ^ 16 * (1 + e)

/-- The handle of a cluster's engine as a requester, and what it names. -/
def engWho (cl e : Nat) : Nat := 0x10000 + 64 * e + cl
/-- The cluster. -/
def cluOfWho (who : Nat) : Nat := (who - 0x10000) % 64
/-- The engine. -/
def engOfWho (who : Nat) : Nat := (who - 0x10000) / 64

/-- Whether a packet is a request that its sender counts. -/
def isReq (k : Pkt) : Bool := k.opc == 0 || k.opc == 1 || k.opc == 4 || k.opc == 6 || k.opc == 8

/-- The window in which a request counts: that of its tile, engine, core or sequencer (R55). -/
def winKey (k : Pkt) : Nat := if bits k.src 13 8 = 1 then engKey (cluOfWho k.who) (engOfWho k.who) else k.src

/-- The window after a reply to request number q, and NOC_WINMIN (R55, R56). -/
def onReply (s : State) (key : Nat) (echo : Bool) (q : Nat) : State :=
  let (w, h, n) := s.wins.get (64, 0, 0) key
  let (w', h') := if echo && q ≥ h then (max 2 (w / 2), n) else if echo then (w, h) else (min 64 (w + 1), h)
  let die := key % 2 ^ 16 / 2 ^ 14
  let s := { s with wins := s.wins.put (64, 0, 0) key (w', h', n) }
  if w' < s.rn 3 0xC02 die then s.setN 3 0xC02 die w' else s

/-- A request that an engine makes to a VA and that is answered before its next, so that it never waits for the window; whether the
network marked one that leaves the cluster is free (R54, R55, log entry 112). -/
def engReq (s : State) (cl part e va : Nat) : State :=
  let key := engKey cl e
  let (w, h, n) := s.wins.get (64, 0, 0) key
  let own := endpointOf s part va = (cl / 16, cl % 16 / 2 * 4 + cl % 2)
  onReply { s with wins := s.wins.put (64, 0, 0) key (w, h, n + 1) } key (!own && Config.marked s.tick key n) n

/-- The requests that the engine of a card makes, one after another. -/
def engReqs (s : State) (cl : Nat) (k : Card) (vas : List Nat) : State := vas.foldl (fun s va => engReq s cl k.part k.eng va) s

/-- The line of one access at a VA: 64 bytes in a translated range, 256 in an SRAM sub-window (R125, R178). -/
def vaLine (va : Nat) : Nat := if (vaClass 0 va).translated then 64 else 256

/-- A range cut at lines of a size: VA and length of each piece; fuel. -/
def cuts (line : Nat → Nat) : Nat → Nat → Nat → List (Nat × Nat)
  | 0, _, _ => []
  | f + 1, va, n => if n = 0 then [] else let k := min n (line va - va % line va)
                                          (va, k) :: cuts line f ((va + k) % 2 ^ 64) (n - k)

/-- A range cut at the lines of its accesses. -/
def pieces (va n : Nat) : List (Nat × Nat) := cuts vaLine (n / 64 + 2) va n

/-- One piece of a card written with the tag of its line (R224, R399). -/
def cardPut (s : State) (cl : Nat) (k : Card) (va : Nat) (b : List Nat) (tag : W32) : State × Option Bad :=
  vaPut (engReqs s cl k [va]) k.part va b (srcClu cl) tag

/-- Bytes of a row written piece by piece in ascending order; it stops at the first fault (R193). -/
def cardRow (s : State) (cl : Nat) (k : Card) (va : Nat) (b : List Nat) (tag : Nat → W32) : State × Option Bad :=
  (pieces va b.length).foldl (fun (r : State × Option Bad) p =>
    match r.2 with
    | some e => (r.1, some e)
    | none =>
      let o := (p.1 + 2 ^ 64 - va) % 2 ^ 64
      cardPut r.1 cl k p.1 ((b.drop o).take p.2) (tag o)) (s, none)

/-- The tag of lines that a card writes whole from no tagged line (R224). -/
def cardTag (k : Card) : W32 := mix (BitVec.ofNat 32 (0x43500000 ^^^ (k.w 1 % 2 ^ 32) ^^^ (k.w 3 % 2 ^ 32)))

/-- The tag of a whole tagged source line, or 0 (R224). -/
def srcTag (s : State) (part va : Nat) : W32 :=
  let cls := vaClass s.capSpad va
  if va % 256 = 0 && cls.tagged then
    (match sramLoc s part cls false with
     | .ok a => tagAt s a
     | .error _ => 0)
  else 0

/-- A row copied: read whole, then written (R343, R224). -/
def copyRow (s : State) (cl : Nat) (k : Card) (src dst : Nat) (plain : Bool) : State × Option Bad :=
  match vaRead (engReqs s cl k ((pieces src k.rb).map (·.1))) k.part src k.rb (cl / 16) with
  | (s, .error b) => (s, some b)
  | (s, .ok b) =>
    let base := (src + 255) / 256 * 256
    let tags := (List.range (k.rb / 256 + 1)).map fun j => srcTag s k.part ((base + 256 * j) % 2 ^ 64)
    let tag := fun (o : Nat) =>
      if plain || !(vaClass s.capSpad src).tagged then cardTag k
      else if (src + o) % 256 = 0 then tags.getD ((src + o - base) / 256) 0 else 0
    cardRow s cl k dst b tag

/-- Row i of COPY2D, COPYX on this chip, GATHER and FILL (R343). -/
def cardStep (s : State) (cl : Nat) (k : Card) (i : Nat) : State × Option Bad :=
  let dst := (k.dst + 64 * bits (k.w 3) 63 48 * i) % 2 ^ 64
  if k.op = 5 then
    let pat := leBytes 8 (k.w 1)
    cardRow s cl k dst ((List.range k.rb).map fun j => nth pat ((dst + j) % 8)) fun _ => cardTag k
  else if k.op = 3 then
    match vaRead8 (engReqs s cl k [(k.w 1 + 8 * i) % 2 ^ 64]) k.part ((k.w 1 + 8 * i) % 2 ^ 64) (cl / 16) with
    | (s, .error b) => (s, some b)
    | (s, .ok v) => copyRow s cl k v dst true
  else copyRow s cl k ((k.w 1 + 64 * bits (k.w 3) 47 32 * i) % 2 ^ 64) dst false

/-- Rows from i on, n of them: the state, rows completed, the fault (R193). -/
def cardRows : Nat → State → Nat → Card → Nat → State × Nat × Option Bad
  | 0, s, _, _, i => (s, i, none)
  | n + 1, s, cl, k, i =>
    match cardStep s cl k i with
    | (s, some b) => (s, i, some b)
    | (s, none) => cardRows n s cl k (i + 1)

/-- Entries of one window of an index stream: index and value of each, up to the first that aborts (R344). -/
def scEntries (s : State) (cl : Nat) (k : Card) : List Nat → State × List (Nat × Nat × Nat) × Option Bad
  | [] => (s, [], none)
  | i :: t =>
    let va := (k.w 1 + 16 * i) % 2 ^ 64
    match vaRead (engReqs s cl k [va]) k.part va 16 (cl / 16) with
    | (s, .error b) => (s, [], some b)
    | (s, .ok l) =>
      let j := leNat (l.take 8)
      if j ≥ 2 ^ 32 ∨ j ≥ bits (k.w 3) 63 32 then (s, [], some ⟨3, 255, cl / 16, va⟩)
      else
        let (s, es, b) := scEntries s cl k t
        (s, (i, j, leNat ((l.drop 8).take k.rb)) :: es, b)

/-- Entries of equal index combined in stream order: first place, index, value (R344). -/
def scMerge (k : Card) (es : List (Nat × Nat × Nat)) : List (Nat × Nat × Nat) :=
  es.foldl (fun acc e =>
    if acc.any fun a => a.2.1 == e.2.1 then
      acc.map fun a => if a.2.1 == e.2.1 then (a.1, a.2.1, bankOp (bits (k.w 0) 13 11) k.rb a.2.2 e.2.2) else a
    else acc ++ [e]) []

/-- The VA of the target of an index. -/
def scVa (k : Card) (j : Nat) : Nat := (k.dst + k.rb * j) % 2 ^ 64

/-- The bank operation of an index, with a value (R331, R332, R344). -/
def scApply (s : State) (cl : Nat) (k : Card) (j v : Nat) : State × Option Bad :=
  let va := scVa k j
  if va % k.rb ≠ 0 then (s, some ⟨1, 255, cl / 16, va⟩)
  else match bankFar (engReqs s cl k [va]) k.part va k.rb (bits (k.w 0) 13 11) v (cl / 16) with
    | (s, .error b) => (s, some b)
    | (s, .ok _) => (s, none)

/-- The entries of a window before the first whose target faults, and that one (R344). -/
def scSplit (s : State) (cl : Nat) (k : Card) (es : List (Nat × Nat × Nat)) : List (Nat × Nat × Nat) × Option (Nat × Nat × Nat) :=
  (es.takeWhile fun e => (scApply s cl k e.2.1 e.2.2).2.isNone, es.find? fun e => (scApply s cl k e.2.1 e.2.2).2.isSome)

/-- The windows of an SCACC from entry i on: fuel in windows, entries in all; of a window in which an entry aborts, those before it
alone are combined and applied (R344). -/
def scWindows : Nat → State → Nat → Card → Nat → Nat → State × Nat × Option Bad
  | 0, s, _, _, i, _ => (s, i, none)
  | f + 1, s, cl, k, i, n =>
    if i ≥ n then (s, n, none)
    else
      let m := min 32 (n - i)
      let (s, es, bad) := scEntries s cl k ((List.range m).map (i + ·))
      let (good, hit) := scSplit s cl k es
      let s := (scMerge k good).foldl (fun s e => (scApply s cl k e.2.1 e.2.2).1) s
      match hit, bad with
      | some e, _ => let (s, b) := scApply s cl k e.2.1 e.2.2
                     (s, e.1, b)
      | none, some b => (s, i + es.length, some b)
      | none, none => scWindows f s cl k (i + m) n

/-- The guard pair read with an acquire at the card's scope: the card's count, or its fault (R171, R343). -/
def cardCount (s : State) (cl : Nat) (k : Card) : State × Except Bad Nat :=
  let st := bits (k.w 0) 31 16
  if k.guard = 0 then (s, .ok (if st = 0 then k.nrows else st))
  else
    let s := engReqs s cl k [k.guard, (k.guard + 8) % 2 ^ 64]
    let (s, r) := acqRead8 s k.part k.guard (srcClu cl) k.scope
    match r, vaRead8 s k.part ((k.guard + 8) % 2 ^ 64) (cl / 16) with
    | .error b, _ => (s, .error b)
    | .ok _, (s, .error b) => (s, .error b)
    | .ok g, (s, .ok n) => (s, .ok (if g = 0 ∨ n = 0 then 0 else min n k.nrows))

/-- A running card brought to its end; then CARD_DONE follows (R343). -/
def runCard (op : Nat) (cl id : Nat) (s : State) (body : State → Card → Nat → State × Nat × Option Bad) :
    Host.Outcome State Fault Refusal :=
  match s.card? cl id with
  | none => .fault .notPossible
  | some k =>
    match k.st with
    | .running _ =>
      if k.op ≠ op then .fault .notPossible
      else match cardCount s cl k with
        | (s, .error b) => .next ((s.setCard cl { k with st := .finished b.cause k.guard, rows := 0 }).post (.cardDone cl id))
        | (s, .ok n) =>
          let (s, rows, bad) := body s k n
          let st := match bad with
            | some b => CardState.finished b.cause b.va
            | none => .finished 0 0
          .next ((s.setCard cl { k with st := st, rows := rows }).post (.cardDone cl id))
    | _ => .fault .notPossible

/-- COPY2D (R343). -/
def execCopy2d (cl id : Nat) (s : State) : Host.Outcome State Fault Refusal :=
  runCard 1 cl id s fun s k n => cardRows n s cl k 0

/-- GATHER (R343). -/
def execGather (cl id : Nat) (s : State) : Host.Outcome State Fault Refusal :=
  runCard 3 cl id s fun s k n => cardRows n s cl k 0

/-- SCACC (R344). -/
def execScacc (cl id : Nat) (s : State) : Host.Outcome State Fault Refusal :=
  runCard 4 cl id s fun s k n => scWindows (n / 32 + 1) s cl k 0 n

/-- FILL (R343). -/
def execFill (cl id : Nat) (s : State) : Host.Outcome State Fault Refusal :=
  runCard 5 cl id s fun s k n => cardRows n s cl k 0

/-- A request of a COPYX to another chip: it names the logical home die, which the destination's port switch maps (R74), and
answers to the card (R345, R47). The endpoint is that of the VA under the sender's place tables; the destination resolves it
again (log entry 111). -/
def copyxReq (s : State) (cl : Nat) (k : Card) (va : Nat) : Pkt :=
  { cls := 0, ddie := homeDie s.capSpad va, dep := (endpointOf s k.part va).2, part := k.part, src := srcClu cl,
    dchip := k.chip, va := va, rid := k.id, who := engWho cl k.eng, schip := s.ident.chip }

/-- The packets of a row to another chip, in ascending order (R193, R224, R345). -/
def copyxPkts (s : State) (cl : Nat) (k : Card) (dst : Nat) (b : List Nat) (tag : Nat → W32) : List Pkt :=
  (pieces dst b.length).map fun p =>
    let o := (p.1 + 2 ^ 64 - dst) % 2 ^ 64
    { copyxReq s cl k p.1 with
      opc := 1, len := p.2, payload := leNat ((b.drop o).take p.2), tag := if p.2 = 256 then (tag o).toNat else 0, row := p.2 == 256 }

/-- A card has finished: its completion, or its abort, follows (R346). -/
def finishCard (s : State) (cl : Nat) (k : Card) (cause va : Nat) : State :=
  (s.setCard cl { k with st := .finished cause va, acks := 0 }).post (.cardDone cl k.id)

/-- A packet of a COPYX sent: the card waits for its acknowledgement (R345). A line without a class, or of the host's range, is not
sent: the card aborts with an address fault (R125). -/
def copyxSend (s : State) (cl : Nat) (k : Card) (p : Pkt) : State :=
  if !dieClass p.va then finishCard s cl k 1 p.va
  else (s.setCard cl { k with acks := 1, sentAt := s.tsc.toNat }).post (.packetInject (cl / 16) (leafOf cl) p)

/-- The next packet of a COPYX to another chip, each sent once the one before is acknowledged, so that no later line is written
where one faults (R193): the next of the row under way, the next row, the flag after every row, a release that carries its
vector; then the card is done (R345). -/
def copyxNext (s : State) (cl : Nat) (k : Card) (n : Nat) : State :=
  match k.buf with
  | p :: _ => copyxSend s cl k p
  | [] =>
    if k.rows < n then
      let src := (k.w 1 + 64 * bits (k.w 3) 47 32 * k.rows) % 2 ^ 64
      let dst := (k.dst + 64 * bits (k.w 3) 63 48 * k.rows) % 2 ^ 64
      match vaRead (engReqs s cl k ((pieces src k.rb).map (·.1))) k.part src k.rb (cl / 16) with
      | (s, .error b) => finishCard s cl k b.cause b.va
      | (s, .ok b) =>
        let tagged := (vaClass s.capSpad src).tagged
        match copyxPkts s cl k dst b (fun o => if tagged then srcTag s k.part ((src + o) % 2 ^ 64) else cardTag k) with
        | [] => s.setCard cl { k with rows := k.rows + 1 }
        | p :: t => copyxSend s cl { k with buf := p :: t } p
    else if k.fofs ≠ 0 ∧ !k.flagged then
      let (s, _, vec) := relTake s (srcClu cl)
      copyxSend s cl { k with flagged := true } { copyxReq s cl k k.flagVa with
        opc := 4, len := 8, payload := 1, bop := 0, want := 8, rel := true, vec := vec }
    else finishCard s cl k 0 0

/-- COPYX: on this chip as COPY2D. To another, its engine reads the count, then sends one packet after another; the card runs until
its last is acknowledged (R169, R343, R345). -/
def execCopyx (cl id : Nat) (s : State) : Host.Outcome State Fault Refusal :=
  match s.card? cl id with
  | none => .fault .notPossible
  | some k =>
    if !k.remote s then runCard 2 cl id s fun s k n => cardRows n s cl k 0
    else match k.st with
      | .running _ =>
        if k.op ≠ 2 ∨ k.acks ≠ 0 then .fault .notPossible
        else match k.count with
          | some n => .next (copyxNext s cl k n)
          | none =>
            match cardCount s cl k with
            | (s, .error b) => .next (finishCard s cl k b.cause k.guard)
            | (s, .ok n) => .next (s.setCard cl { k with count := some n })
      | _ => .fault .notPossible

/-- An acknowledgement, or a fault reply, of the packet that a COPYX sent last (R345): a row counts with its last line. -/
def copyxAck (s : State) (cl id cause va : Nat) : State :=
  match s.card? cl id with
  | none => s
  | some k =>
    match k.st with
    | .running _ =>
      if k.acks = 0 then s
      else if cause ≠ 0 then finishCard s cl k cause va
      else s.setCard cl { k with acks := 0, buf := k.buf.tail, rows := k.rows + (if k.buf.length = 1 then 1 else 0) }
    | _ => s

/-- Whether the acknowledgement of a COPYX is overdue (R345). -/
def copyxLate (s : State) (k : Card) : Bool := k.acks != 0 && k.sentAt + s.rn 4 0x1008 k.part ≤ s.tsc.toNat

/-- COPYX_TIMEOUT: the card aborts with home-unreachable (R345). -/
def execCopyxTimeout (cl id : Nat) (s : State) : Host.Outcome State Fault Refusal :=
  match s.card? cl id with
  | none => .fault .notPossible
  | some k =>
    if copyxLate s k then .next (finishCard s cl k 8 ((k.buf.head?.map (·.va)).getD k.flagVa)) else .fault .notPossible

/-! Completion (R338, R346) -/

/-- The flag raised: an 8-byte add of 1 by the bank ALU, a release at the card's scope (R346). -/
def cardFlag (s : State) (cl : Nat) (k : Card) : State × Option Bad :=
  if k.scope < 3 then
    (match bankFar s k.part k.flagVa 8 0 1 (cl / 16) with
     | (s, .error b) => (s, some b)
     | (s, .ok _) => (s, none))
  else relFlag s k.part k.flagVa (srcClu cl) false

/-- The prefix of done cards: CMPL after a count, over fuel. -/
def cmplAfter (ks : List Card) : Nat → Nat → Nat
  | 0, n => n
  | f + 1, n => if ks.any fun k => k.serial == n && k.st == .done then cmplAfter ks f (n + 1) else n

/-- CMPL and ABRT of a context advanced by a cluster's engines, in its slot or in its save area (R338, R346). -/
def advanceCmpl (s : State) (cl part cr : Nat) (aborted : Bool) : State :=
  let ks := cardsOf s part cr
  let drop := fun (s : State) (n : Nat) => { s with clusters := s.clusters.map fun p =>
    (p.1, { p.2 with cards := p.2.cards.filter fun k => !(k.part == part && k.cr == cr && k.serial < n) }) }
  match s.ctxs.find? fun p => p.2.part == part && p.2.cr == cr with
  | some (ck, c) =>
    let n := cmplAfter ks ks.length c.cmpl
    drop (s.setCtx ck { c with cmpl := n, abrt := c.abrt + (if aborted then 1 else 0) }) n
  | none =>
    let die := cl / 16
    let (s, r) := vaRead8 s part (cr + 16) die
    match r with
    | .error _ => s
    | .ok save =>
      let (s, m) := vaRead8 s part (save + 0x1C0) die
      let (s, a) := vaRead8 s part (save + 0x1C8) die
      let m := (match m with
        | .ok v => v
        | .error _ => 0)
      let a := (match a with
        | .ok v => v
        | .error _ => 0)
      let n := cmplAfter ks ks.length m
      let s := (vaWrite8 s part (save + 0x1C0) n false (srcClu cl)).1
      let s := if aborted then (vaWrite8 s part (save + 0x1C8) (a + 1) false (srcClu cl)).1 else s
      drop s n

/-- CARD_DONE: the flag, then the counts; an abort writes its record (R346). -/
def execCardDone (cl id : Nat) (s : State) : Host.Outcome State Fault Refusal :=
  match s.card? cl id with
  | none => .fault .notPossible
  | some k =>
    match k.st with
    | .finished cause va =>
      let (s, cause, va) := if cause = 0 ∧ k.fofs ≠ 0 ∧ !k.remote s then
          (match cardFlag s cl k with
           | (s, some b) => (s, b.cause, k.flagVa)
           | (s, none) => (s, 0, 0))
        else (s, cause, va)
      let s := s.setCard cl { k with st := .done }
      let s := advanceCmpl s cl k.part k.cr (cause ≠ 0)
      .next (if cause = 0 then s
        else emit s k.part (srcClu cl) 0x13 (cause + k.op * 2 ^ 8 + k.ctxno * 2 ^ 16) va
          (k.rows % 2 ^ 32 + k.serial % 2 ^ 32 * 2 ^ 32))
    | _ => .fault .notPossible

end Sys2Proof.Machine
end

