-- ==== Sys2Proof/Machine/RegWrites.lean ====
section
/-! DEFINITION. Writes of the registers that R320 numbers outside the context class: their fields and the effect of a
write (R7, R56, R111, R113, R146, R158, R159, R173, R177, R195, R217, R236, R238, R240 to R242, R400). -/

namespace Sys2Proof.Machine

/-- The fields that a write leaves of a register without an effect of its own (R7): a mask; 0 where nothing is written. -/
def regMask (cls num : Nat) : Nat :=
  if cls = 1 then
    if num = 0x401 then 7 else if num = 0x403 then 0xFF else if num = 0x404 then 2 ^ 64 - 1
    else if num = 0x407 then 0xFD else 0
  else if cls = 2 then (if num = 0x805 then 0x3FF else 0)
  else if cls = 3 then
    if num = 0xC00 then 0x1F else if num = 0xC03 then 0xFF else if num = 0xC04 then 2 ^ 39 - 2 ^ 12 else 0
  else if cls = 4 then
    if num = 0x1002 then 2 ^ 64 - 1 else if num = 0x1004 then 2 ^ 39 - 2 ^ 13 + 1
    else if num = 0x1006 then 2 ^ 64 - 3 else if 0x1007 ≤ num ∧ num ≤ 0x1009 then 2 ^ 64 - 1
    else if 0x1010 ≤ num ∧ num < 0x1014 then 0x3FF01FF else 0
  else if cls = 5 then (if 0x2010 ≤ num ∧ num < 0x2020 then 0x83F7 else 0)
  else 0

/-- Whether any context of a partition, or of the package, is resident or queued (R159). -/
def busyPart (s : State) (p : Option Nat) : Bool :=
  s.live.any fun l => l.st ≤ 1 && (p.isNone || p == some l.part)

/-- A context with a launch: live, queued, waiting or suspended (R113). -/
def livePart (s : State) (p : Nat) : Bool := s.live.any fun l => l.part == p && l.st ≤ 3

/-- PLERR of a partition set (R159). -/
def setPlerr (s : State) (p : Nat) : State := s.setN 4 0x1005 p (setBits (s.rn 4 0x1005 p) 2 2 1)

/-- SLOTTAB: it takes effect at the next cycle with index 0 (R177). -/
def wrSlottab (s : State) (tile v : Nat) : State :=
  let t := s.tile tile
  let old := t.slottab.getD (s.rn 1 0x400 tile)
  (s.setN 1 0x400 tile (v % 2 ^ 16)).setTile tile { t with slottab := some old }

/-- SFC: the tile notes the cycle when it leaves 0 (R238). -/
def wrSfc (s : State) (tile v : Nat) : State :=
  let s := if s.rn 1 0x402 tile = 0 then s.setTile tile { s.tile tile with sfcAt := (s.tile tile).cycle } else s
  s.setN 1 0x402 tile (v % 256)

/-- Place-table entries of any partition that name a tile with V = 1: partition and logical tile (R158, R239). -/
def namedBy (s : State) (tile : Nat) : List (Nat × Nat) :=
  (List.range 32).flatMap fun p => ((List.range 512).filter fun g => s.physTile p g == some tile).map fun g => (p, g)

/-- AUTO_STAT: RETIRED := 0 is refused while a place-table entry names the tile (R240). -/
def wrRetired (s : State) (tile v : Nat) : State :=
  if v % 2 = 0 ∧ !(namedBy s tile).isEmpty then s else s.setN 1 0x405 tile (v % 2)

/-- CARD_LSEED: the three arbiters are reseeded (R177). -/
def wrCardLseed (s : State) (clu v : Nat) : State :=
  let x := if v % 2 ^ 32 = 0 then 1 else v % 2 ^ 32
  (s.setN 2 0x803 clu (v % 2 ^ 32)).setCl clu { s.cl clu with gens := [x, x, x] }

/-- FINJ_CTL: every write restarts the count (R241). -/
def wrFinj (s : State) (clu v : Nat) : State :=
  (s.setN 2 0x804 clu (bits v 31 16 * 2 ^ 16 + v % 8)).setCl clu { s.cl clu with finj := 0 }

/-- INV_PROD: an overrun sets INV_ERR (R144). -/
def wrInvProd (s : State) (die v : Nat) : State :=
  let s := s.setN 3 0xC06 die v
  let ctl := s.rn 3 0xC05 die
  if (v + 2 ^ 64 - s.rn 3 0xC07 die) % 2 ^ 64 > 2 ^ (ctl % 32) then s.setN 3 0xC05 die (setBits ctl 5 5 1) else s

/-- PART_CLMAP (R113). One that is accepted leaves PERR as it stands (log entry 132, DESIGN CHOICE). -/
def wrClmap (s : State) (p v : Nat) : State :=
  let v := v % 2 ^ 32
  let held := (List.range 32).any fun q => q != p && s.rn 4 0x1000 q &&& v != 0
  if held || livePart s p then s.setN 4 0x1001 p (setBits (s.rn 4 0x1001 p) 2 2 1) else s.setN 4 0x1000 p v

/-- PART_CTL: PERR clears by a write of 1 (R111). -/
def wrPartCtl (s : State) (p v : Nat) : State :=
  let old := s.rn 4 0x1001 p
  s.setN 4 0x1001 p (v % 4 + (if old.testBit 2 && !v.testBit 2 then 4 else 0))

/-- PART_NRCTL: LOST is read-only (R111). -/
def wrNrctl (s : State) (p v : Nat) : State := s.setN 4 0x1003 p (setBits (s.rn 4 0x1003 p) 35 32 (bits v 35 32))

/-- PRE of PART_RUN: the request applies to every context of the partition resident now (R173). -/
def wrPre (s : State) (p : Nat) : State :=
  { s with ctxs := s.ctxs.map fun x => if x.2.part == p then (x.1, { x.2 with preempt := true }) else x }

/-- PART_RUN (R173, R177). -/
def wrRun (s : State) (p v : Nat) : State :=
  let old := s.rn 4 0x1005 p
  let s := s.setN 4 0x1005 p (v % 2 + (if old.testBit 2 && !v.testBit 2 then 4 else 0))
  if v.testBit 1 then wrPre s p else s

/-- BARG_CTL: ignored while ARRIVED is nonzero; EN stays 0 without a legal COUNT (R195). -/
def wrBargCtl (s : State) (p g v : Nat) : State :=
  let old := s.rn 4 (0x1020 + g) p
  if bits old 31 21 ≠ 0 then s
  else
    let n := bits v 10 0
    s.setN 4 (0x1020 + g) p (bits old 47 32 * 2 ^ 32 + (if v.testBit 15 && 1 ≤ n && n ≤ 1024 then 2 ^ 15 else 0) + n)

/-- BARG_CLU (R195). -/
def wrBargClu (s : State) (p g v : Nat) : State :=
  if bits (s.rn 4 (0x1020 + g) p) 31 21 ≠ 0 then s else s.setN 4 (0x1030 + g) p v

/-- Whether the V = 1 entries of a PLT register's value name clusters of the partition's map (R159). -/
def pltInMap (s : State) (p v : Nat) : Bool :=
  ((List.range 4).filterMap fun k => entryTile (bits v (16 * k + 15) (16 * k))).all fun t => s.inMap p (t / 8)

/-- Whether no two V = 1 tile entries of a partition name one physical tile (R159). -/
def pltOnce (s : State) (p : Nat) : Bool :=
  let ts := (List.range 512).filterMap fun g => s.physTile p g
  ts.eraseDups.length == ts.length

/-- PLT_d_c_h: number n of R320 (R158, R159). -/
def wrPlt (s : State) (p n v : Nat) : State :=
  let one := fun (e : Nat) => e - bits e 14 10 * 2 ^ 10 - bits e 3 3 * 8
  let v := packElems 16 ((List.range 4).map fun k => one (bits v (16 * k + 15) (16 * k)))
  let s' := s.setN 4 n p v
  if busyPart s (some p) || !pltInMap s p v || !pltOnce s' p then setPlerr s p else s'

/-- PLC_d: every entry names a cluster of the partition (R158, R159). -/
def wrPlc (s : State) (p d v : Nat) : State :=
  let bad := (List.range 16).any fun c => !s.inMap p (s.physDie d * 16 + bits v (4 * c + 3) (4 * c))
  if busyPart s (some p) || bad then setPlerr s p else s.setN 4 (0x1014 + d) p v

/-- PLD: a permutation, while no context of the package is resident or queued; a refused write sets PLERR of every
partition (R159, log entry 15). -/
def wrPld (s : State) (v : Nat) : State :=
  let v := v % 256
  let perm := (List.range 4).all fun d => (List.range 4).any fun l => bits v (2 * l + 1) (2 * l) == d
  if busyPart s none || !perm then (List.range 32).foldl setPlerr s else s.setN 5 0x2000 0 v

/-- Whether the group of a die holds package authority after a ring split (R39). -/
def hasAuthority (s : State) (die : Nat) : Bool :=
  let d0 := s.physDie 0
  (List.range 4).all (fun f => s.reach die f) || (s.reach die d0 && (s.reach die 0 || s.reach die 2))

/-- A write of a register of R320 by an agent of a die: `unit` is its instance. -/
def wrReg (s : State) (cls num unit v die : Nat) : State :=
  if cls = 1 then
    if num = 0x400 then wrSlottab s unit v
    else if num = 0x402 then wrSfc s unit v
    else if num = 0x405 then wrRetired s unit v
    else if regMask 1 num = 0 then s else s.setN 1 num unit (v &&& regMask 1 num)
  else if cls = 2 then
    if num = 0x803 then wrCardLseed s unit v
    else if num = 0x804 then wrFinj s unit v
    else if regMask 2 num = 0 then s else s.setN 2 num unit (v &&& regMask 2 num)
  else if cls = 3 then
    if num = 0xC02 then s.setN 3 num unit 0x40
    else if num = 0xC05 then
      let old := s.rn 3 num unit
      s.setN 3 num unit (v % 32 + (if old.testBit 5 && !v.testBit 5 then 32 else 0))
    else if num = 0xC06 then wrInvProd s unit v
    else if num = 0xC08 then invAll s unit
    else if regMask 3 num = 0 then s else s.setN 3 num unit (v &&& regMask 3 num)
  else if cls = 4 then
    if num = 0x1000 then wrClmap s unit v
    else if num = 0x1001 then wrPartCtl s unit v
    else if num = 0x1003 then wrNrctl s unit v
    else if num = 0x1005 then wrRun s unit v
    else if 0x1014 ≤ num ∧ num < 0x1018 then wrPlc s unit (num - 0x1014) v
    else if 0x1020 ≤ num ∧ num < 0x1030 then wrBargCtl s unit (num - 0x1020) v
    else if 0x1030 ≤ num ∧ num < 0x1040 then wrBargClu s unit (num - 0x1030) v
    else if 0x1100 ≤ num ∧ num < 0x1180 then wrPlt s unit num v
    else if regMask 4 num = 0 then s else s.setN 4 num unit (v &&& regMask 4 num)
  else if cls = 5 then
    if !hasAuthority s die then s
    else if num = 0x2000 then wrPld s v
    else if regMask 5 num = 0 then s else s.setN 5 num 0 (v &&& regMask 5 num)
  else s

/-! Verdicts (R236, R238) -/

/-- An autotomy takes its place in the queue, by the (timestamp, source) pair of its trigger (R238). -/
def queueAuto (l : List AutoReq) (a : AutoReq) : List AutoReq :=
  let first := fun (b : AutoReq) => b.at_ < a.at_ || (b.at_ == a.at_ && b.tile < a.tile)
  l.filter first ++ [a] ++ l.filter fun b => !first b

/-- SFC raised by a seal fault or a Local verdict; at AUTO_THR the tile's autotomy is triggered (R238). -/
def sfcUp (s : State) (tile va : Nat) : State :=
  let s := s.setTile tile { s.tile tile with failVa := va }
  let n := min 255 (s.rn 1 0x402 tile + 1)
  let s := wrSfc s tile n
  let thr := s.rn 1 0x403 tile
  if thr ≠ 0 ∧ n ≥ thr ∧ !s.retiring tile then { s with autoq := queueAuto s.autoq ⟨s.tsc.toNat, tile, n⟩ }.post (.autotomy tile) else s

/-- A verdict written by a context's handler: only the first after a seal fault counts (R236). -/
def verdict (s : State) (ck v : Nat) : State :=
  match s.ctx? ck with
  | none => s
  | some c =>
    let cause := c.arch.ecause.toNat % 256
    if c.verdict || (cause != 0x14 && cause != 0x15) || (v != 1 && v != 2) then s
    else
      let s := s.setCtx ck { c with verdict := true }
      if v = 1 then s.setN 1 0x402 (ck / 2) (s.rn 1 0x402 (ck / 2) - 1) else sfcUp s (ck / 2) c.arch.epc.toNat

/-! The events -/

/-- PRE_WRITE (R173). -/
def execPreWrite (p v : Nat) (s : State) : Host.Outcome State Fault Refusal :=
  if p ≥ 32 then .fault .notPossible else .next (if v % 2 = 1 then wrPre s p else s)

/-- HOLD_WRITE (R154, R177). -/
def execHoldWrite (p v : Nat) (s : State) : Host.Outcome State Fault Refusal :=
  if p ≥ 32 then .fault .notPossible else .next (s.setN 4 0x1005 p (setBits (s.rn 4 0x1005 p) 0 0 v))

/-- PLD_WRITE by an agent of a die: after a ring split only the package authority alters the table (R159, R39). -/
def execPldWrite (w : ByDie) (s : State) : Host.Outcome State Fault Refusal :=
  if w.die ≥ 4 then .fault .notPossible else .next (if hasAuthority s w.die then wrPld s w.val else s)

/-- PLC_WRITE (R159). -/
def execPlcWrite (p d v : Nat) (s : State) : Host.Outcome State Fault Refusal :=
  if p ≥ 32 ∨ d ≥ 4 then .fault .notPossible else .next (wrPlc s p d (v % 2 ^ 64))

/-- PLT_WRITE (R159). -/
def execPltWrite (p d c h v : Nat) (s : State) : Host.Outcome State Fault Refusal :=
  if p ≥ 32 ∨ d ≥ 4 ∨ c ≥ 16 ∨ h ≥ 2 then .fault .notPossible
  else .next (wrPlt s p (0x1100 + 32 * d + 2 * c + h) (v % 2 ^ 64))

/-- SLOTTAB_WRITE (R177). -/
def execSlottabWrite (tile v : Nat) (s : State) : Host.Outcome State Fault Refusal :=
  if tile ≥ 512 then .fault .notPossible else .next (wrSlottab s tile v)

/-- CARD_LSEED_WRITE (R177). -/
def execCardLseedWrite (cl v : Nat) (s : State) : Host.Outcome State Fault Refusal :=
  if cl ≥ 64 then .fault .notPossible else .next (wrCardLseed s cl v)

/-- VERDICT_REMOTE (R236). -/
def execVerdictRemote (ck : Nat) (s : State) : Host.Outcome State Fault Refusal := .next (verdict s ck 1)

/-- VERDICT_LOCAL (R236). -/
def execVerdictLocal (ck : Nat) (s : State) : Host.Outcome State Fault Refusal := .next (verdict s ck 2)

/-- RETIRED_WRITE (R240). -/
def execRetiredWrite (tile v : Nat) (s : State) : Host.Outcome State Fault Refusal :=
  if tile ≥ 512 then .fault .notPossible else .next (wrRetired s tile v)

/-- FINJ_CTL_WRITE (R241). -/
def execFinjCtlWrite (cl v : Nat) (s : State) : Host.Outcome State Fault Refusal :=
  if cl ≥ 64 then .fault .notPossible else .next (wrFinj s cl v)

/-- COLL_RTB_WRITE: the context's ring table is written, and a table found unmapped counts no more (R57, R59). -/
def execCollRtbWrite (ck v : Nat) (s : State) : Host.Outcome State Fault Refusal :=
  match s.ctx? ck with
  | none => .fault .notPossible
  | some c =>
    let s := s.setCtx ck { c with arch := { c.arch with collRtb := BitVec.ofNat 64 v } }
    .next (match s.live? c.part c.cr with
      | some l => s.setLive { l with rtbBad := false, rtb := v % 2 ^ 64 }
      | none => s)

/-- BARG_CTL_WRITE (R195). -/
def execBargCtlWrite (p g v : Nat) (s : State) : Host.Outcome State Fault Refusal :=
  if p ≥ 32 ∨ g ≥ 16 then .fault .notPossible else .next (wrBargCtl s p g v)

/-- BARG_CLU_WRITE (R195). -/
def execBargCluWrite (p g v : Nat) (s : State) : Host.Outcome State Fault Refusal :=
  if p ≥ 32 ∨ g ≥ 16 then .fault .notPossible else .next (wrBargClu s p g (v % 2 ^ 64))

/-- PART_CLMAP_WRITE (R113). -/
def execPartClmapWrite (p v : Nat) (s : State) : Host.Outcome State Fault Refusal :=
  if p ≥ 32 then .fault .notPossible else .next (wrClmap s p v)

/-- NOC_WINMIN_WRITE (R56). -/
def execNocWinminWrite (die _v : Nat) (s : State) : Host.Outcome State Fault Refusal :=
  if die ≥ 4 then .fault .notPossible else .next (s.setN 3 0xC02 die 0x40)

/-- INV_PROD_WRITE (R144). -/
def execInvProdWrite (die v : Nat) (s : State) : Host.Outcome State Fault Refusal :=
  if die ≥ 4 then .fault .notPossible else .next (wrInvProd s die (v % 2 ^ 64))

/-- INV_KICK_WRITE: the die applies its log (R143). -/
def execInvKickWrite (die _v : Nat) (s : State) : Host.Outcome State Fault Refusal :=
  if die ≥ 4 then .fault .notPossible else .next (invAll s die)

end Sys2Proof.Machine
end

