-- ==== Sys2Proof/Machine/Riser.lean ====
section
/-! DEFINITION. The end of a block: the held accesses performed after commit (R188, R230, R326), the riser and the legal
successors (R228, R229), the check with its commit, recast and seal fault (R232 to R235), loop completion (R301) and the acts
of suspension points (R307). -/

namespace Sys2Proof.Machine

/-! Committed accesses (R188, R192, R223, R230, R326, R342) -/

/-- Whether a committed access waits: for every earlier access where it is a release, a fence or a GO; for an access of the
same location; for an acquire BANK (R188, R326, R342). -/
def mustWait (s : State) (c : Ctx) (h : Held) : Bool :=
  let full := match h.k with
    | .fence _ => true
    | .go _ _ => true
    | _ => h.ord ≥ 2
  (full && !c.outst.isEmpty) || c.outst.any (·.acq)
    || (match heldSpan c h with
        | some (a, n) => c.outst.any fun o => clash s c.part a n true o.va o.len true
        | none => false)

/-- The epoch of a write of an agent and what it carries: a release at package or system scope takes the epoch (R192). -/
def stampOf (s : State) (src : Nat) (h : Held) : State × Nat × List Stamp :=
  if h.ord ≥ 2 && h.scope ≥ 3 then relTake s src else (s, s.rn 3 (0xC10 + src / 2 ^ 14) (src / 2 ^ 14), [])

/-- A store of n bytes at a VA: at once in the own scratchpad, else as a packet (R188, R223, R224). `row` is the lineage of a
whole row. -/
def putStore (s : State) (ck va n v : Nat) (row : Option W32) (h : Held) : State :=
  let c := s.ctx ck
  let die := ck / 256
  match ownLoc s c (ck / 2) va with
  | some _ =>
    (match locate s c.part va n true false false die with
     | (s, .error b) => imprecise s ck b
     | (s, .ok a) =>
       let s := storeAt s a n v
       let s := match row with
         | some t => setTag s a t
         | none => s
       let (s, _, vec) := stampOf s (srcTile (ck / 2)) h
       relPut s a n vec)
  | none =>
    let (s, ep, vec) := stampOf s (srcTile (ck / 2)) h
    let k := { reqPkt s ck c 1 va n s.nextRid with
               len := n, payload := v, tag := (row.getD 0).toNat, row := row.isSome, rel := h.ord ≥ 2, epoch := ep, vec := vec }
    ({ s.setCtx ck { c with outst := c.outst ++ [Outst.mk s.nextRid va n none false h.scope] } with nextRid := s.nextRid + 1 }).post
      (sendFrom ck k)

/-- A register write performed at commit (R319): CONT_WAKE, SEAL_VERD and the registers outside the context class. -/
def putMts (s : State) (ck num v : Nat) : State :=
  let c := s.ctx ck
  if num = 0x14 then s.post (.contWakeWrite c.part v)
  else if num = 0x2C then verdict s ck (v % 4)
  else wrReg s (sysClass num) num (sysUnit c (ck / 2) (sysClass num)) v (ck / 256)

/-- One committed access performed or sent. -/
def perform (s : State) (ck : Nat) (h : Held) : State :=
  let c := s.ctx ck
  match h.k with
  | .store va n v => putStore s ck va n v none h
  | .row va v t =>
    if (vaClass s.capSpad va).translated then
      (List.range 4).foldl (fun s k => putStore s ck (va + 64 * k) 64 (v / 2 ^ (512 * k) % 2 ^ 512) none h) s
    else putStore s ck va 256 v (some t) h
  | .scat _ => s
  | .bank op va n v d =>
    let (s, ep, vec) := stampOf s (srcTile (ck / 2)) h
    let k := { reqPkt s ck c 4 va n s.nextRid with
               len := n, payload := v, bop := op, acq := h.ord % 2 == 1, rel := h.ord ≥ 2, epoch := ep, vec := vec }
    ({ s.setCtx ck { c with outst := c.outst ++ [Outst.mk s.nextRid va n (some d) (h.ord % 2 == 1) h.scope] } with
       nextRid := s.nextRid + 1 }).post (sendFrom ck k)
  | .eng o v => s.setCtx ck { c with q := c.q.set (o / 8) (BitVec.ofNat 64 v) }
  | .go _ v => postCard s ck v
  | .fence _ => s
  | .mts num v => putMts s ck num v

/-- The committed accesses of a context performed in order, up to the first that waits: fuel bounds their number. -/
def pumpFrom : Nat → State → Nat → State
  | 0, s, _ => s
  | f + 1, s, ck =>
    match s.ctx? ck with
    | none => s
    | some c =>
      match c.out with
      | [] => s
      | h :: t => if mustWait s c h then s else pumpFrom f (perform (s.setCtx ck { c with out := t }) ck h) ck

/-- The committed accesses of a context performed as far as the orders of R188 let them. -/
def pump (s : State) (ck : Nat) : State := pumpFrom (s.ctx ck).out.length s ck

/-- A held access as it is performed: a scatter is its elements in increasing index (R330). -/
def spread (h : Held) : List Held :=
  match h.k with
  | .scat l => l.map fun e => { h with k := .store e.1 e.2.1 e.2.2 }
  | _ => [h]

/-! Arrival at a barrier (R183, R184, R307, R405) -/

/-- Whether a context still has cards that write an exchange window. -/
def exchangeBusy (s : State) (c : Ctx) : Bool :=
  (cardsOf s c.part c.cr).any (fun k => k.st != .done && writesExchange k)

/-- A context that waits to arrive does so once its earlier accesses are performed. -/
def tryArrive (s : State) (ck : Nat) : State :=
  match s.ctx? ck with
  | none => s
  | some c =>
    match c.phase with
    | .waiting 1 obj _ false cyc =>
      let g := obj / 16 % 16
      let x := obj.testBit 8
      if c.out.isEmpty && c.outst.isEmpty && canArrive s c.part g && !(x && exchangeBusy s c) then
        arrive (s.setCtx ck { c with phase := .waiting 1 obj (bits (s.rn 4 (0x1020 + g) c.part) 47 32) true cyc }) c.part g x
          (srcTile (ck / 2))
      else s
    | _ => s

/-! The riser (R228, R229) -/

/-- A riser. -/
structure Riser where
  odig : Nat
  ddig : Nat
  succA : Nat
  succB : Nat
  flags : Nat
  zero : Bool
  deriving DecidableEq, Repr

/-- The VA that SUCCA or SUCCB names, or none where it is 0. -/
def succOf (rva w : Nat) : Option Nat :=
  if w / 256 = 0 then none else some ((BitVec.ofNat 64 rva + BitVec.ofInt 64 (4 * sext 24 (w / 256))).toNat)

/-- The riser of 16 bytes at a VA. -/
def riserOf (rva v : Nat) : Riser :=
  let w := fun (k : Nat) => v / 2 ^ (32 * k) % 2 ^ 32
  { odig := w 0, ddig := w 1, succA := (succOf rva (w 2)).getD (2 ^ 64), succB := (succOf rva (w 3)).getD (2 ^ 64),
    flags := w 2 % 256, zero := w 3 % 256 == 0 }

/-- Whether a VA is one of the two direct successors. -/
def Riser.names (r : Riser) (t : Nat) : Bool := t == r.succA || t == r.succB

/-- Whether the bundle at a VA is an entry bundle: BK 10 or 11 (R229). Its header is fetched, and the fetch may fault. -/
def entryBundle (s : State) (ck gen va : Nat) : State × Except Bad Bool :=
  match fetchWord s ck va with
  | (s, .error b) => (s, .error b)
  | (s, .ok w) => match decodeHeader gen w with
    | .ok h => (s, .ok (h.bk ≥ 2))
    | .error _ => (s, .ok false)

/-- The target of the loop sequencer where the bundle completes an iteration: the body start, or none on the last (R301). -/
def backEdge (c : Ctx) (l : Nat) : Option Nat :=
  let lp := c.arch.loops.getD l {}
  if lp.iter + 1 < lp.count then some lp.start else none

/-- The successor that the end bundle takes, T of R235, and whether R229 allows it. -/
def successor (s : State) (ck : Nat) (c : Ctx) (e : EndRec) (r : Riser) : State × Except Bad (Nat × Bool) :=
  let fall := r.flags.testBit 0 || r.names e.next
  let x : State × Except Bad (Nat × Bool) := match e.xfer with
    | .steer t ind _ =>
      if !ind then (s, .ok (t, r.names t))
      else match entryBundle s ck c.gen t with
        | (s, .error b) => (s, .error b)
        | (s, .ok v) => (s, .ok (t, r.flags.testBit 1 && v))
    | .ret t => (s, .ok (t, r.flags.testBit 2))
    | .zeroLoop t => (s, .ok (t, r.names t))
    | .fall =>
      (match e.act with
       | .susp | .yield | .exit | .eret => (s, .ok (e.next, r.flags.testBit 4))
       | _ => if e.level.isSome then (s, .ok (e.next, true)) else (s, .ok (e.next, fall)))
  match x with
  | (s, .error b) => (s, .error b)
  | (s, .ok (t, ok)) =>
    if !ok then (s, .ok (t, false))
    else match e.level with
      | none => (s, .ok (t, r.zero))
      | some l => match backEdge c l with
        | some b => (s, .ok (b, r.zero && (r.names b || r.flags.testBit 3)))
        | none => (s, .ok (e.next, r.zero && fall))

/-- The target of a transfer or completion at a bundle that is no end bundle (R298, R301). -/
def strayTarget (c : Ctx) (e : EndRec) : Nat :=
  match e.xfer with
  | .steer t _ _ => t
  | .ret t => t
  | .zeroLoop t => t
  | .fall => match e.level with
    | some l => (backEdge c l).getD e.next
    | none => e.next

/-! Commit (R232, R301, R307) -/

/-- The completion of an iteration of a level: strides, ROT, ITER, and the sequencer's successor (R301). -/
def completeLoop (c : Ctx) (l next : Nat) : Ctx × Nat :=
  let lp := c.arch.loops.getD l {}
  let c := lp.binds.foldl (fun c b => if b.1 = 0 ∨ c.isEmpty (xKey b.1) then c else c.wx b.1 (c.rx b.1 + b.2)) c
  let c := c.setRot ((c.arch.rot + 1) % 16) c.arch.ldep
  if lp.iter + 1 < lp.count then
    ({ c with arch := { c.arch with loops := c.arch.loops.set l { lp with iter := lp.iter + 1 } } }, lp.start)
  else
    ({ c with arch := { c.arch with
        nloop := l, loops := closeLevels (c.arch.loops.set l { lp with iter := lp.iter + 1 }) l (l + 1) } }, next)

/-- The transfer of a committed block: word 0's successor, the link, the loop completion (R299, R301). -/
def transfer (c : Ctx) (e : EndRec) : Ctx :=
  let (c, next) := match e.level with
    | some l => completeLoop (landAll c) l e.next
    | none => (c, e.next)
  match e.xfer with
  | .steer t _ call => { (if call then c.wx 1 (BitVec.ofNat 64 e.next) else c) with pc := t }
  | .ret t => { c with pc := t }
  | .zeroLoop t => { c with pc := t }
  | .fall => { c with pc := next }

/-- The STATE code of a suspension point that leaves the slot (R162). -/
def Act.state : Act → Option Nat
  | .susp => some 3
  | .yield => some 0
  | .exit => some 4
  | _ => Option.none

/-- The context leaves at a suspension point; in privileged mode it does so only after ERET (R214, log entry 17). -/
def leaveAt (c : Ctx) (a : Act) : Ctx :=
  match a.state with
  | none => c
  | some st => if c.priv then { c with owed := a } else { c with phase := .leaving st }

/-- The act of the end bundle after its commit (R307, R308, R312). -/
def actAfter (s : State) (ck : Nat) (a : Act) : State :=
  let c := s.ctx ck
  match a with
  | .none => s
  | .sync g x => tryArrive (s.setCtx ck { c with phase := .waiting 1 (g * 16 + flagIf x 256) 0 false 0 }) ck
  | .waitRow p => if c.isEmpty p then s.setCtx ck { c with phase := .waiting 3 p 0 true 0 } else s
  | .waitFlag va idx =>
    let v := ((c.ibuf.filter fun e => !e.isRow)[idx]?).map (·.val)
    if v.getD 0 = 0 then s.setCtx ck { c with phase := .waiting 2 va 0 true 0 } else s.setCtx ck { c with timedOut := false }
  | .eret =>
    let c := returnFrom c
    s.setCtx ck { leaveAt c c.owed with owed := .none }
  | a => s.setCtx ck (leaveAt c a)

/-- The count of deprecated slots at commit, and its record to the hypervisor (R124). -/
def countDeprec (s : State) (ck : Nat) : State :=
  let c := s.ctx ck
  let old := c.arch.depcnt.toNat
  let new := old + c.depr
  let s := s.setCtx ck { c with depr := 0, arch := { c.arch with depcnt := BitVec.ofNat 64 new } }
  if c.depr ≠ 0 ∧ (s.rn 4 0x1001 c.part).testBit 1 ∧ (old = 0 ∨ new / 1024 ≠ old / 1024) then
    emitHv s (ck / 256) (srcTile (ck / 2)) 3 0 c.deprVa (new % 2 ^ 64)
  else s

/-- COLL_RTB as a block leaves it, its last write landed or still due (R57). -/
def Ctx.rtbLast (c : Ctx) : Nat :=
  ((c.pend.filterMap fun p => match p.wr with
    | .ctxReg 0x13 v => some v.toNat
    | _ => none).getLast?).getD c.arch.collRtb.toNat

/-- Whether a verdict waits among the committed accesses of a context (R319). -/
def verdictDue (c : Ctx) : Bool := c.out.any fun h => match h.k with
  | .mts num _ => num == 0x2C
  | _ => false

/-- A committed block's transfer takes effect, then its act; a pending pre-emption is taken at its DP bundle (R174, R232), which a
barrier or flag wait answers first where it is written back (R162, R175). After the fault of a store of the block nothing follows
the transfer (R210). -/
def finishCommit (s : State) (ck : Nat) (e : EndRec) : State :=
  let c := transfer { s.ctx ck with phase := .running } e
  if e.lost then s.setCtx ck { c with ibuf := [], phase := .leaving 6 }
  else
    let s := actAfter (s.setCtx ck c) ck e.act
    let c := s.ctx ck
    let due := c.preempt && e.dp && !c.priv && e.act != .eret
    s.setCtx ck (match c.phase with
      | .running => { c with ibuf := [], phase := if due then .leaving 8 else .running }
      | .waiting kind _ _ _ _ =>
        if kind = 3 then { c with ibuf := [], phase := if due then .leaving 8 else c.phase }
        else { c with ibuf := [], preDue := due }
      | _ => { c with ibuf := [] })

/-- An end bundle with the fault of a store of its block noted (R210). -/
def EndRec.after (e : EndRec) (c : Ctx) : EndRec :=
  match c.phase with
  | .leaving _ => { e with lost := true }
  | _ => e

/-- The block commits (R232): its held accesses go out, the transfer takes effect, then the act. A verdict among the held
accesses acts before the transfer (R319); where it has triggered the tile's autotomy nothing further of the context is done
(R239). -/
def commit (s : State) (ck : Nat) (e : EndRec) : State :=
  let c := s.ctx ck
  let s := if c.recasts > 0 then s.bump 1 0x406 (ck / 2) else s
  let s := s.setCtx ck { c with
    held := [], out := c.out ++ c.held.flatMap spread, rb := false, recasts := 0, fresh := true, phase := .running }
  let s := countDeprec s ck
  let s := match c.rtbSet, s.live? c.part c.cr with
    | true, some l => s.setLive { l with rtbBad := false, rtb := c.rtbLast }
    | _, _ => s
  let s := s.setCtx ck { s.ctx ck with rtbSet := false }
  let s := pump s ck
  let e := e.after (s.ctx ck)
  if s.retiring (ck / 2) then s
  else if verdictDue (s.ctx ck) then s.setCtx ck { s.ctx ck with phase := .commit e }
  else finishCommit s ck e

/-! Recast and seal fault (R233 to R235, R238) -/

/-- The last permitted attempt has failed: SEAL_EXP and SEAL_OBS, the frozen buffer, the report, SFC, and the fault, which is
not delivered where it triggers autotomy (R234, R238). `kind` is 1 digest, 2 successor. -/
def sealFault (s : State) (ck : Nat) (c : Ctx) (e : EndRec) (kind t odig ddig : Nat) : State :=
  let rva := if e.isEnd then e.next - 16 else e.next
  let ex := BitVec.ofNat 64 (ddig * 2 ^ 32 + odig)
  let ob := BitVec.ofNat 64 (c.ddig.toNat * 2 ^ 32 + c.odig.toNat)
  let c' := { c with sealExp := ex, sealObs := ob, frozen := c.ibuf }
  let s := emit s c.part (srcTile (ck / 2)) 0x11
    (kind + (c.recasts + 1) * 4 + ck % 2 * 2 ^ 6 + (rva + 2 ^ 64 - c.entryVa) % 2 ^ 32 * 2 ^ 8) c.entryVa
    (if kind = 1 then c.ddig.toNat * 2 ^ 32 + c.odig.toNat else t)
  let s := sfcUp s (ck / 2) c.entryVa
  if s.retiring (ck / 2) then s.setCtx ck { c'.restart with phase := .running }
  else takeFault s ck c' (0x13 + kind) 0 e.va 255 (ck / 256) true

/-- A failed attempt: recast while RCN allows it, else a seal fault (R233). -/
def failBlock (s : State) (ck : Nat) (c : Ctx) (e : EndRec) (kind t odig ddig : Nat) : State :=
  let rcn := s.rn 1 0x401 (ck / 2) % 8
  let limit := if kind = 1 then rcn else min 1 rcn
  if c.recasts < limit then s.setCtx ck { c.restart with recasts := c.recasts + 1, phase := .running }
  else sealFault s ck c e kind t odig ddig

/-- A table that an ATLD of the block found illegal, landed or pending (R384). -/
def Ctx.tableFault (c : Ctx) : Option Nat :=
  match c.badTab.reverse with
  | (_, va) :: _ => some va
  | [] => c.pend.findSome? fun p => match p.wr with
    | .badTab _ va => some va
    | _ => none

/-- The check of a block whose loads are performed: a fault reply first, then the digests, then the successor (R210, R232). -/
def checkBlock (s : State) (ck : Nat) (c : Ctx) (e : EndRec) : State :=
  match c.fills.findSome? fun f => f.bad.map fun b => (b, f.slot) with
  | some ((cause, va, level, die), slot) => takeFault s ck c cause slot va level die false
  | none =>
    match c.tableFault with
    | some va => takeFault s ck c 0x16 6 va 255 (ck / 256) false
    | none =>
      if !e.isEnd then failBlock s ck c e (if c.strayLoad then 1 else 2) (strayTarget c e) 0 0
      else match fetchWords 4 s ck (e.next - 16) with
        | (s, .error b) => takeFault s ck c b.cause 0 (e.next - 16) b.level b.die false
        | (s, .ok v) =>
          let r := riserOf (e.next - 16) v
          if c.strayLoad || c.odig.toNat != r.odig || c.ddig.toNat != r.ddig then failBlock s ck c e 1 0 r.odig r.ddig
          else match successor s ck c e r with
            | (s, .error b) => takeFault s ck c b.cause 0 (strayTarget c e) b.level b.die false
            | (s, .ok (t, ok)) => if ok then commit s ck e else failBlock s ck c e 2 t r.odig r.ddig

/-- Whether every load of the block has been performed (R232). -/
def loadsDone (c : Ctx) : Bool := c.fills.all fun f => f.parts.all fun p => p.got.isSome

/-- RISER_CHECK (R232). -/
def execRiserCheck (ck : Nat) (s : State) : Host.Outcome State Fault Refusal :=
  match s.ctx? ck with
  | none => .fault .notPossible
  | some c =>
    match c.phase with
    | .ended e => if loadsDone c ∧ !s.retiring (ck / 2) then .next (checkBlock s ck c e) else .fault .notPossible
    | _ => .fault .notPossible

end Sys2Proof.Machine
end

