-- ==== Sys2Proof/Machine/Seal.lean ====
section
/-! DEFINITION. The retirement of a tile (R238 to R240). -/

namespace Sys2Proof.Machine

/-- Whether a resident context has come to rest for autotomy: its fills have come, its committed accesses are performed, and
it is neither on its way out of its slot, nor into its handler, nor about to arrive at a barrier (R239 step 1). -/
def atRest (c : Ctx) : Bool :=
  drained c && (match c.phase with
    | .running => true
    | .ended _ => true
    | .commit _ => true
    | .waiting _ _ _ arrived _ => arrived
    | _ => false)

/-- A context stopped at the entry of its block, or at EPC where it is in its handler: held stores are discarded, and RB is set. -/
def stopAt (c : Ctx) : Ctx :=
  let idle := c.fresh && (match c.phase with
    | .ended _ => false
    | _ => true)
  let c := match c.phase with
    | .commit _ => c
    | _ => if idle then c else c.restart
  let c := if c.priv then { c with pc := c.arch.epc.toNat / 4 * 4, priv := false } else c
  { c with rb := true }

/-- A stopped context: pending results land, held stores are discarded, word 0 is the entry of its block, or EPC where it is
in its handler, and RB is set (R239 step 1). -/
def stopped (c : Ctx) : Ctx := stopAt (landAll c).dropFills

/-- The spare: the first entry that qualifies, with its index (R239 step 2). -/
def spareOf (s : State) (tile : Nat) : Option (Nat × Nat) :=
  (List.range 16).findSome? fun i =>
    match entryTile (s.rn 5 (0x2010 + i) 0) with
    | none => none
    | some t =>
      if s.reach (tile / 128) (t / 128) && s.rn 1 0x405 t % 2 == 0 && (s.ctx? (2 * t)).isNone && (s.ctx? (2 * t + 1)).isNone
          && (namedBy s t).isEmpty then some (i, t) else none

/-- A physical tile in the form of AUTO_SPAREi with V = 1 (R242). -/
def tileEntry (t : Nat) : Nat := 2 ^ 15 + t / 128 * 2 ^ 8 + t / 8 % 16 * 16 + t % 8

/-- The scratchpad of a tile copied to another's with its line tags and carried vectors; a line that cannot be read is zero with
tag 0 (R239 step 3, log entry 113). -/
def copySpad (s : State) (t u : Nat) : State :=
  let a := region 1 (t * 2 ^ 20)
  let b := region 1 (u * 2 ^ 20)
  let n := s.capSpad
  let cells := s.mem.filter fun c => a ≤ c.1 && c.1 < a + n && !Config.lineLost s.tick (c.1 / 256)
  let tags := s.tags.filter fun c => a / 256 ≤ c.1 && c.1 < (a + n) / 256 && !Config.lineLost s.tick c.1
  let vecs := s.relVec.filter fun c => a ≤ c.1 && c.1 < a + n
  let s := wipe s b n
  let s := { s with tags := s.tags.filter fun c => c.1 < b / 256 || (b + n) / 256 ≤ c.1 }
  let s := cells.foldl (fun s c => wrByte s (b + (c.1 - a)) c.2) s
  let s := tags.foldl (fun s c => setTag s (b + (c.1 * 256 - a)) c.2) s
  vecs.foldl (fun s c => relPut s (b + (c.1 - a)) 1 c.2) s

/-- Whether some line of a tile's scratchpad cannot be read: the copy is incomplete (R239, R240). -/
def copyLost (s : State) (t : Nat) : Bool :=
  (List.range (s.capSpad / 256)).any fun i => Config.lineLost s.tick (region 1 (t * 2 ^ 20) / 256 + i)

/-- The place-table entry of a logical tile replaced. -/
def setPlt (s : State) (p g e : Nat) : State :=
  let num := 0x1100 + 32 * (g / 128) + 2 * (g / 8 % 16) + g % 8 / 4
  let k := 16 * (g % 4)
  s.setN 4 num p (setBits (s.rn 4 num p) (k + 15) k e)

/-- Queued CRs of the affected homes moved, in order, to the tail of the spare's cluster queue (R239 step 4). -/
def moveQueued (s : State) (homes : List (Nat × Nat)) (clu to_ : Nat) : State :=
  let hit := fun (e : Nat × Nat) => match s.live? e.1 e.2 with
    | some l => !l.any && homes.contains (l.part, l.g)
    | none => false
  ((s.cl clu).contq.filter hit).foldl (fun s e => appendTo (unqueue s clu e.1 e.2) to_ e.1 e.2) s

/-- A stopped context written back: queued, and faulted where there is no spare (R239 step 5, R240). One that waits at a barrier or a
flag keeps its wait in word 4 and in the wait list of the spare's cluster, and goes on waiting when it is loaded (log entry 18). -/
def putBack (s : State) (ck clu : Nat) (c : Ctx) (spare : Bool) : State :=
  let s := s.setCtx ck (stopped c)
  if !spare then writeBackCtx s ck 6 0 0
  else match c.phase with
    | .waiting kind obj gen _ _ =>
      if c.priv || kind > 2 then writeBackCtx s ck 0 0 0
      else
        let s := writeBackCtx s ck 0 kind obj
        s.setCl clu { s.cl clu with waiters := (s.cl clu).waiters ++
          [⟨c.part, c.cr, kind, obj, gen, c.arch.waitDl.toNat / 2 ^ 16⟩] }
    | .commit e => writeBackCtx s ck (if e.lost then 6 else 0) 0 0
    | _ => writeBackCtx s ck 0 0 0

/-- Steps 2 to 5 of R239 for a tile whose contexts are at rest, and R240. -/
def retire (s : State) (tile : Nat) : State :=
  let homes := namedBy s tile
  let sp := spareOf s tile
  let new := match sp with
    | some (_, u) => tileEntry u
    | none => 0
  let sfc := ((s.autoq.find? (·.tile == tile)).map (·.sfc)).getD 0
  let part := sp.isSome && copyLost s tile
  let s := match sp with
    | some (i, u) => copySpad (s.setN 5 (0x2010 + i) 0 (s.rn 5 (0x2010 + i) 0 - 2 ^ 15)) tile u
    | none => s
  let s := homes.foldl (fun s h => setPlt s h.1 h.2 (if sp.isSome then new else s.pltEntry h.1 h.2 - 2 ^ 15)) s
  let clu := match sp with
    | some (_, u) => u / 8
    | none => tile / 8
  let s := if sp.isSome then moveQueued s homes (tile / 8) clu else s
  let s := [2 * tile, 2 * tile + 1].foldl (fun s ck => match s.ctx? ck with
    | some c => putBack s ck clu c sp.isSome
    | none => s) s
  let s := s.setN 1 0x405 tile 1
  let s := homes.foldl (fun s h =>
    let hi := tileEntry tile + new * 2 ^ 16 + flagIf part (2 ^ 32)
    let dw2 := h.2 + h.1 * 2 ^ 9 + sfc % 256 * 2 ^ 14
    let va := (s.tile tile).failVa
    emitHv (emit s h.1 (srcTile tile) 0x12 hi dw2 va) (tile / 128) (srcTile tile) 0x12 hi dw2 va) s
  { s with autoq := s.autoq.filter (·.tile != tile) }

/-- AUTOTOMY: one at a time, in the order of the triggers; it waits until the contexts of the tile are at rest (R238,
R239). -/
def execAutotomy (tile : Nat) (s : State) : Host.Outcome State Fault Refusal :=
  if !s.retiring tile then .fault .notPossible
  else
    let s := tryArrive (tryArrive s (2 * tile)) (2 * tile + 1)
    let ready := [2 * tile, 2 * tile + 1].all fun ck => match s.ctx? ck with
      | some c => atRest c
      | none => true
    if s.autoq.head?.map (·.tile) = some tile ∧ ready then .next (retire s tile) else .next (s.post (.autotomy tile))

/-- Whether a tile's window has passed (R238). -/
def windowOver (s : State) (tile : Nat) : Bool :=
  let n := s.rn 1 0x402 tile
  n != 0 && n < s.rn 1 0x403 tile && (s.tile tile).cycle ≥ (s.tile tile).sfcAt + s.rn 1 0x404 tile

/-- SFC_WINDOW_EXPIRY (R238). -/
def execSfcWindowExpiry (tile : Nat) (s : State) : Host.Outcome State Fault Refusal :=
  if windowOver s tile then .next (s.setN 1 0x402 tile 0) else .fault .notPossible

end Sys2Proof.Machine
end

