-- ==== Sys2Proof/Machine/Links.lean ====
section
/-! DEFINITION. Jalcy links (R27 to R44, R51): the head flit of a packet (R47), flits with their nonces and tags, sending,
receiving, credits, replay and retry, keys and rollover, the link registers, link failure and the split of the ring. -/

namespace Sys2Proof.Machine

/-! The head flit (R47) -/

/-- The head flit of a packet as four doublewords. -/
def headOf (k : Pkt) : List Nat :=
  [k.turns % 2 ^ 32 * 2 ^ 32 + k.tlen % 16 * 2 ^ 28 + flagIf k.mark (2 ^ 27) + flagIf k.echo (2 ^ 26) + k.cls % 4 * 2 ^ 24
     + k.hop % 4 * 2 ^ 22 + k.ddie % 4 * 2 ^ 20 + k.dep % 32 * 2 ^ 15 + k.part % 32 * 2 ^ 10,
   k.src % 2 ^ 16 * 2 ^ 48 + k.dchip % 2 ^ 12 * 2 ^ 36 + k.flow % 2 ^ 16 * 2 ^ 20 + k.len % 512 * 2 ^ 11,
   k.va % 2 ^ 64,
   k.tag % 2 ^ 32 * 2 ^ 32 + k.opc % 256 * 2 ^ 24 + k.reason % 256]

/-- The fields of a head flit in a packet. -/
def ofHead (k : Pkt) (h : List Nat) : Pkt :=
  let a := h.getD 0 0
  let b := h.getD 1 0
  let d := h.getD 3 0
  { k with
    turns := bits a 63 32, tlen := bits a 31 28, mark := a.testBit 27, echo := a.testBit 26, cls := bits a 25 24,
    hop := bits a 23 22, ddie := bits a 21 20, dep := bits a 19 15, part := bits a 14 10, src := bits b 63 48,
    dchip := bits b 47 36, flow := bits b 35 20, len := bits b 19 11, va := h.getD 2 0, tag := bits d 63 32,
    opc := bits d 31 24, reason := bits d 7 0 }

/-- Flits of 32 bytes of a packet. -/
def flitsOf (k : Pkt) : Nat := 1 + (k.len + 31) / 32

/-- The bodies of the link flits that carry a packet, 104 bytes each, as little-endian numbers. -/
def wireOf (k : Pkt) : List Nat :=
  let v := packElems 64 (headOf k) + k.payload % 2 ^ (8 * k.len) * 2 ^ 256
  (List.range ((32 * flitsOf k + 103) / 104)).map fun i => v / 2 ^ (832 * i) % 2 ^ 832

/-- A packet read from the bodies of its flits. Its chip is SCHIP where it has one (R76). -/
def ofWire (bs : List Nat) : Pkt :=
  let v := packElems 832 bs
  let k := ofHead {} ((List.range 4).map fun i => v / 2 ^ (64 * i) % 2 ^ 64)
  { k with payload := v / 2 ^ 256 % 2 ^ (8 * k.len), row := k.opc == 1 && k.len == 256, want := k.len,
           schip := if k.cls ≥ 2 then bits k.va 43 32 else 0 }

/-! Endpoints -/

/-- The other end of a Jalcy-D link; a Jalcy-X port has none in the package. -/
def twin (ep : Nat) : Option Nat :=
  if ep % 4 = 0 then some ((ep / 4 + 1) % 4 * 4 + 1) else if ep % 4 = 1 then some ((ep / 4 + 3) % 4 * 4) else none

/-- The endpoints of the link of an endpoint. -/
def ends (ep : Nat) : List Nat := ep :: (twin ep).toList

/-- NOC_RING as read (R74). -/
def nocRing (s : State) (d : Nat) : Nat := (List.range 4).foldl (fun v f => v + ringDir s d f * 4 ^ f) 0

/-- A link-event record (R43). `hi` is the slot of a key event. -/
def linkEvent (s : State) (ep ev slot dw3 : Nat) : State :=
  emitHv s (ep / 4) (srcNo (ep / 4) 6 (ep % 4)) 0x14 (ev + slot * 2 ^ 8) (linkStat (s.link ep)) dw3

/-! Flits (R27 to R31) -/

/-- The nonce of a flit under a key slot (R29). -/
def nonceOf (k : Key) (ctr : Nat) : List Nat := beBytes 4 k.salt ++ beBytes 8 ctr

/-- The authenticated header: ACK, CRD and CRDVC taken as zero (R31). -/
def aadOf (hdr : Nat) : List Nat := leBytes 8 (setBits (setBits hdr 47 36 0) 31 18 0)

/-- A flit formed under a key slot and counter. -/
def makeFlit (k : Key) (ctr hdr body : Nat) : Flit :=
  let iv := nonceOf k ctr
  let ct := gcmCrypt (leBytes 32 k.key) iv (leBytes 104 body)
  { hdr := hdr, body := leNat ct, tag := leNat (gcmTag (leBytes 32 k.key) iv (aadOf hdr) ct) }

/-- The body of a flit where its tag verifies under a key slot and counter. -/
def openFlit (k : Key) (ctr : Nat) (f : Flit) : Option Nat :=
  let iv := nonceOf k ctr
  let ct := leBytes 104 f.body
  if k.valid && leNat (gcmTag (leBytes 32 k.key) iv (aadOf f.hdr) ct) == f.tag then
    some (leNat (gcmCrypt (leBytes 32 k.key) iv ct))
  else none

/-- The ACK, CRD and CRDVC bits that an endpoint puts in a flit, and the endpoint after it (R28, R42). The credits are those of the
lowest channel that has some to return, up to 1,023 (log entry 128, DESIGN CHOICE). -/
def backBits (l : Link) : Nat × Link :=
  let ack := (l.expect + 4095) % 4096
  match (List.range 8).find? fun v => l.freed.getD v 0 != 0 with
  | some v => (ack * 2 ^ 36 + min 1023 (l.freed.getD v 0) * 2 ^ 22 + v * 2 ^ 18,
               { l with acked := ack, freed := l.freed.set v (l.freed.getD v 0 - min 1023 (l.freed.getD v 0)) })
  | none => (ack * 2 ^ 36, { l with acked := ack })

/-- A new data or control flit sent: encrypted, held for replay, put on the wire (R29, R31, R42). -/
def sendNew (l : Link) (typ vc body : Nat) : Link :=
  let k := keyAt l.tx l.txsel
  let (back, l) := backBits l
  let f := makeFlit k k.ctr (l.txsel * 2 ^ 63 + typ * 2 ^ 60 + l.nextSeq * 2 ^ 48 + vc * 2 ^ 32 + back) body
  { l with
    nextSeq := (l.nextSeq + 1) % 4096, tx := l.tx.set l.txsel { k with ctr := k.ctr + 1 },
    credits := if typ ≤ 1 then l.credits.set vc (l.credits.getD vc 0 - 1) else l.credits,
    replay := l.replay ++ [⟨l.nextSeq, f⟩], sent := l.sent ++ [f] }

/-- The records of R36 at 2^39 and 2^40 flits. -/
def keyLimits (s : State) (ep : Nat) : State :=
  let l := s.link ep
  let n := (keyAt l.tx l.txsel).ctr
  let s := if n ≥ 2 ^ 39 ∧ !l.warned then linkEvent (s.setLink ep { l with warned := true }) ep 2 l.txsel n else s
  let l := s.link ep
  if n ≥ 2 ^ 40 ∧ !l.limit then linkEvent (s.setLink ep { l with limit := true }) ep 3 l.txsel n else s

/-- Whether a data flit of a channel can be sent: a credit, and room in the replay buffer (R31, R42). -/
def canData (s : State) (ep vc n : Nat) : Bool :=
  canSend s ep && n ≤ (s.link ep).credits.getD vc 0 && (s.link ep).replay.length + n ≤ 512

/-- A data flit sent (R31). -/
def sendData (s : State) (ep vc body : Nat) (last : Bool) : State :=
  keyLimits (s.setLink ep (sendNew (s.link ep) (if last then 1 else 0) vc body)) ep

/-- The flits of a packet sent, as many as its key and channel take; the last ones may be left (R31, R36, R42). -/
def sendBodies (s : State) (ep vc : Nat) (k : Pkt) : List Nat → State
  | [] =>
    let l := s.link ep
    s.setLink ep { l with tail := none, pkts := l.pkts ++ [((l.nextSeq + 4095) % 4096, k)] }
  | b :: bs =>
    if canData s ep vc 1 then sendBodies (sendData s ep vc b bs.isEmpty) ep vc k bs
    else s.setLink ep { s.link ep with tail := some (vc, b :: bs, k) }

/-- A packet offered to a link is begun where the channel takes it whole and no packet begun before still waits; else it waits
(R34, R42, R52). -/
def linkSend (s : State) (ep : Nat) (k : Pkt) : Option State :=
  let vc := k.cls % 4 * 2 + min k.hop 1
  let bs := wireOf k
  if (s.link ep).tail.isSome || !canData s ep vc bs.length then none else some (sendBodies s ep vc k bs)

/-- An idle flit sent (R29, R34, R42): a pending retry request goes with it. While the selected transmit slot is invalid it is
unencrypted, with KI 0 and tag 0, though the other slot be valid (log entry 107). -/
def sendIdle (l : Link) : Link :=
  let body := match l.retry with
    | some q => 1 + q * 256
    | none => 0
  let (back, l) := backBits l
  let k := keyAt l.tx l.txsel
  if k.valid then
    let f := makeFlit k (2 ^ 63 + k.idle) (l.txsel * 2 ^ 63 + 3 * 2 ^ 60 + k.idle % 4096 * 2 ^ 48 + back) body
    { l with tx := l.tx.set l.txsel { k with idle := k.idle + 1 }, sent := l.sent ++ [f] }
  else { l with sent := l.sent ++ [⟨3 * 2 ^ 60 + back, body, 0⟩] }

/-! Acknowledgement, rollover (R31, R35) -/

/-- Whether a SEQ lies at or before another, in a window of half the numbers. -/
def seqLe (a b : Nat) : Bool := (b + 4096 - a) % 4096 < 2048

/-- The sender's next step of a rollover: old-key-retired once nothing is held under the old key; the old slot is cleared
when it is acknowledged (R35). -/
def rollStep (l : Link) (ok : Bool) : Link :=
  match l.rolling with
  | none => l
  | some (old, none) =>
    if ok && l.replay.length < 512 && l.replay.all (fun h => (h.flit.hdr / 2 ^ 63) % 2 != old) then
      { sendNew l 2 0 (2 + old * 256) with rolling := some (old, some l.nextSeq) }
    else l
  | some (old, some q) =>
    if l.replay.any (·.seq == q) then l
    else { l with rolling := none, tx := l.tx.set old { keyAt l.tx old with valid := false } }

/-- ACK and credits of a verified flit applied (R31, R42). -/
def applyBack (s : State) (ep hdr : Nat) : State :=
  let l := s.link ep
  let ack := bits hdr 47 36
  let vc := bits hdr 21 18
  let l := { l with
    replay := l.replay.filter fun h => !seqLe h.seq ack, pkts := l.pkts.filter fun p => !seqLe p.1 ack,
    credits := if vc < 8 then l.credits.set vc (l.credits.getD vc 0 + bits hdr 31 22) else l.credits,
    lastGood := s.tsc.toNat }
  s.setLink ep (rollStep l (canSend s ep))

/-- The sender retransmits every held flit from a SEQ on, bit-identical (R31). -/
def resend (s : State) (ep q : Nat) : State :=
  let l := s.link ep
  s.setLink ep { l with sent := l.sent ++ (l.replay.filter fun h => seqLe q h.seq).map (·.flit) }

/-! Receiving (R30, R42) -/

/-- An endpoint begins to retrain; a failed Jalcy-D endpoint stays failed (R32). -/
def trainEnd (s : State) (ep : Nat) : State :=
  if ep % 4 < 2 ∧ (s.link ep).st = 3 then s
  else
    let s := s.bump 11 4 ep
    s.setLink ep { s.link ep with st := 1, retryFails := 0 }

/-- The link of an endpoint begins to retrain, at each of its ends (R32). -/
def beginRetrain (s : State) (ep : Nat) : State := (ends ep).foldl trainEnd s

/-- A retry is requested from the expected SEQ; a further request for it counts as a failure of the earlier, and the eighth
in a row makes the link retrain (R30, R32, R42). Only a request made for a flit newly refused counts; an idle flit that repeats
code 0x01 while the request is pending does not (log entry 108). -/
def askRetry (s : State) (ep : Nat) : State :=
  let l := s.link ep
  let again := l.retry == some l.expect
  let l := { l with retry := some l.expect, retryFails := if again then l.retryFails + 1 else 0 }
  if l.retryFails ≥ 8 then beginRetrain (s.setLink ep l) ep else s.setLink ep (sendIdle l)

/-- What a data or control flit turns out to be: a duplicate, refused (with a tag that failed), or its body. -/
inductive Got where
  | dup
  | refused (tagBad : Bool)
  | body (v : Nat)
  deriving DecidableEq, Repr

/-- A data or control flit examined (R30). -/
def examine (l : Link) (f : Flit) : Got :=
  let seq := bits f.hdr 59 48
  let k := keyAt l.rx (bits f.hdr 63 63)
  if seq ≠ l.expect then (if seqLe seq ((l.expect + 4095) % 4096) then .dup else .refused false)
  else if bits f.hdr 62 60 > 3 ∨ bits f.hdr 35 32 > 7 ∨ bits f.hdr 17 0 ≠ 0 then .refused false
  else match openFlit k k.ctr f with
    | some b => .body b
    | none => .refused true

/-- An accepted flit: the expected SEQ and its slot's count advance, its ACK and credits are taken (R29, R30, R31). -/
def acceptSeq (s : State) (ep : Nat) (f : Flit) : State :=
  let l := s.link ep
  let ki := bits f.hdr 63 63
  let k := keyAt l.rx ki
  let l := { l with expect := (l.expect + 1) % 4096, rx := l.rx.set ki { k with ctr := k.ctr + 1 }, retry := none, retryFails := 0 }
  applyBack (s.setLink ep l) ep f.hdr

/-- A flit discarded: a duplicate silently, any other with a retry request (R30). -/
def discard (s : State) (ep : Nat) (g : Got) : State :=
  match g with
  | .refused t => askRetry (if t then s.bump 11 3 ep else s) ep
  | _ => s

/-- The packet whose last flit has been accepted: the sender's own, or one read from the flits (R42). -/
def packetOf (s : State) (ep seq : Nat) (bs : List Nat) : Pkt :=
  match (twin ep).bind fun t => ((s.link t).pkts.find? (·.1 == seq)).map (·.2) with
  | some k => k
  | none => ofWire bs

/-- The flits of a packet accepted at an endpoint leave the receive buffer, and the packet goes on (R42, R50, R74). -/
def linkDeliver (s : State) (ep vc seq : Nat) : State :=
  let l := s.link ep
  let mine := l.body.filter fun b => b.1 % 8 == vc
  let k := packetOf s ep seq (mine.map (·.2))
  let s := s.setLink ep { l with body := l.body.filter (fun b => b.1 % 8 != vc),
                                 freed := l.freed.set vc (l.freed.getD vc 0 + (mine.filter (·.1 < 8)).length) }
  if ep % 4 < 2 then s.post (.jalcyDEndpointRewrite ep k) else s.post (.portSwitchRoute (ep / 4) true k)

/-- Whether an endpoint receives: its link is up. -/
def listening (s : State) (ep : Nat) : Bool := ep < 16 && (s.link ep).st == 2

/-- DATA_FLIT_RECEIVE (R30, R42). -/
def execDataFlitReceive (ep : Nat) (f : Flit) (s : State) : Host.Outcome State Fault Refusal :=
  if !listening s ep ∨ bits f.hdr 62 60 = 2 ∨ bits f.hdr 62 60 = 3 then .fault .notPossible
  else match examine (s.link ep) f with
    | .body b =>
      let vc := bits f.hdr 35 32
      let s := acceptSeq s ep f
      let l := s.link ep
      let s := s.setLink ep { l with body := l.body ++ [(vc, b)] }
      .next (if bits f.hdr 62 60 = 1 then linkDeliver s ep vc (bits f.hdr 59 48) else s)
    | g => .next (discard s ep g)

/-- CONTROL_FLIT_RECEIVE: a control flit with a reserved code (R42). -/
def execControlFlitReceive (ep : Nat) (f : Flit) (s : State) : Host.Outcome State Fault Refusal :=
  if !listening s ep ∨ bits f.hdr 62 60 ≠ 2 then .fault .notPossible
  else match examine (s.link ep) f with
    | .body b => if b % 256 = 2 then .fault .notPossible else .next (acceptSeq s ep f)
    | g => .next (discard s ep g)

/-- OLD_KEY_RETIRED: the old receive slot's valid bit is cleared (R35, R42). -/
def execOldKeyRetired (ep : Nat) (f : Flit) (s : State) : Host.Outcome State Fault Refusal :=
  if !listening s ep ∨ bits f.hdr 62 60 ≠ 2 then .fault .notPossible
  else match examine (s.link ep) f with
    | .body b =>
      if b % 256 ≠ 2 then .fault .notPossible
      else
        let s := acceptSeq s ep f
        let l := s.link ep
        let i := b / 256 % 2
        .next (s.setLink ep { l with rx := l.rx.set i { keyAt l.rx i with valid := false } })
    | g => .next (discard s ep g)

/-- An idle flit checked: whether its tag verified, its body, and the endpoint after it; none where it is discarded (R29, R30). -/
def openIdle (l : Link) (f : Flit) : Option (Bool × Nat × Link) :=
  if !l.rx.any (·.valid) then some (false, f.body, l)
  else
    let ki := bits f.hdr 63 63
    let k := keyAt l.rx ki
    let c := k.idle + (bits f.hdr 59 48 + 4096 - k.idle % 4096) % 4096
    (openFlit k (2 ^ 63 + c) f).map fun b => (true, b, { l with rx := l.rx.set ki { k with idle := c + 1 } })

/-- An idle flit received: 0 for a plain one, 1 for a retry request; its ACK and credits count only where it verified (R30, R31,
R42). -/
def idleIn (code ep : Nat) (f : Flit) (s : State) : Host.Outcome State Fault Refusal :=
  if !listening s ep ∨ bits f.hdr 62 60 ≠ 3 then .fault .notPossible
  else match openIdle (s.link ep) f with
    | none => if code = 0 then .next (s.bump 11 3 ep) else .fault .notPossible
    | some (ok, b, l) =>
      if (b % 256 = 1) ≠ (code = 1) then .fault .notPossible
      else
        let s := s.setLink ep l
        let s := if ok then applyBack s ep f.hdr else s
        .next (if code = 1 then resend s ep (bits b 19 8) else s)

/-- IDLE_FLIT_RECEIVE (R30). -/
def execIdleFlitReceive (ep : Nat) (f : Flit) (s : State) : Host.Outcome State Fault Refusal := idleIn 0 ep f s

/-- RETRY_REQUEST (R31, R42). -/
def execRetryRequest (ep : Nat) (f : Flit) (s : State) : Host.Outcome State Fault Refusal := idleIn 1 ep f s

/-- DATA_FLIT_SEND (R31). -/
def execDataFlitSend (ep vc body last : Nat) (s : State) : Host.Outcome State Fault Refusal :=
  if ep ≥ 16 ∨ vc ≥ 8 ∨ (s.link ep).tail.isSome ∨ !canData s ep vc 1 then .fault .notPossible
  else .next (sendData s ep vc (body % 2 ^ 832) (last != 0))

/-- IDLE_FLIT_SEND (R29). -/
def execIdleFlitSend (ep : Nat) (s : State) : Host.Outcome State Fault Refusal :=
  if !listening s ep then .fault .notPossible else .next (s.setLink ep (sendIdle (s.link ep)))

/-- A flit that arrives at an endpoint, whatever its type (R28). -/
def flitIn (ep : Nat) (f : Flit) (s : State) : Host.Outcome State Fault Refusal :=
  let typ := bits f.hdr 62 60
  if typ = 3 then
    (match openIdle (s.link ep) f with
     | some (_, b, _) => if b % 256 = 1 then execRetryRequest ep f s else execIdleFlitReceive ep f s
     | none => execIdleFlitReceive ep f s)
  else if typ = 2 then
    (match examine (s.link ep) f with
     | .body b => if b % 256 = 2 then execOldKeyRetired ep f s else execControlFlitReceive ep f s
     | _ => execControlFlitReceive ep f s)
  else execDataFlitReceive ep f s

/-! Failure and the split of the ring (R32, R38 to R41, R44) -/

/-- The physical die on which a context has its home. -/
def homeOf (s : State) (l : Live) : Nat := ((homeCluster s l).map (· / 16)).getD (s.physDie (l.g / 128))

/-- A resident context halted: a committed block makes its transfer, any other is stopped at its entry; the context leaves its slot
with STATE halted once its fills have come and its committed accesses are performed (R40, R155). -/
def halted (c : Ctx) : Ctx :=
  let c := match c.phase with
    | .commit e => { transfer { c with phase := .running } e with rb := false }
    | _ => stopAt (landAll c)
  { c with phase := .leaving 5 }

/-- A context halted: written back with STATE halted (R40). -/
def haltCtx (s : State) (l : Live) : State :=
  match s.ctxs.find? fun p => p.2.part == l.part && p.2.cr == l.cr with
  | some (ck, c) => s.setCtx ck (halted c)
  | none =>
    let s := dropWaiter s l.part l.cr
    let s := unqueueAll s l.part l.cr
    let die := homeOf s l
    let (s, r) := vaRead8 s l.part (l.cr + 8) die
    let s := match r with
      | .ok w => (vaWrite8 s l.part (l.cr + 8) (setBits w 31 28 5) false (srcClu (homeClu s l))).1
      | .error _ => s
    endContext s l.part l.cr 5 0

/-- Whether the clusters of a partition lie on both sides of a die's group (R40). -/
def spans (s : State) (p die : Nat) : Bool :=
  let dies := (List.range 64).filterMap fun c => if s.inMap p c then some (c / 16) else none
  dies.any (fun d => s.reach die d) && dies.any (fun d => !s.reach die d)

/-- The halt that the command processor of a die makes in its group: contexts of the partitions that span, and their records
(R40, R44). Where both command processors are in one group, each halts the partitions of its own PF, and CP-A those of none
(log entry 109). -/
def splitCp (s : State) (die : Nat) : State :=
  let mine := (List.range 4).foldl (fun m d => m + flagIf (s.reach die d) (2 ^ d)) 0
  let hi := mine + (15 - mine) * 2 ^ 4 + (if hasAuthority s die then 0 else 1) * 2 ^ 8
  let ps := (List.range 32).filter fun p => spans s p die && (!s.reach 0 2 || (s.pfOf p).getD 0 == die / 2)
  let hit := fun (l : Live) => l.st ≤ 3 && ps.contains l.part && s.reach die (homeOf s l)
  let ls := s.live.filter hit
  let src := srcNo die 2 0
  let s' := ls.foldl haltCtx s
  let s' := ps.foldl (fun t p => emit t p src 0x15 hi ((ls.filter (·.part == p)).length % 1024 + p * 2 ^ 10) t.tsc.toNat) s'
  emitHv s' die src 0x15 hi (ls.length % 1024) s.tsc.toNat

/-- What the failure of a second Jalcy-D link does (R39, R40): each command processor acts in its group, and every context of
a group with none is halted. -/
def splitRing (s : State) : State :=
  let s := splitCp (splitCp s 0) 2
  let lone := (List.range 4).filter fun d => !s.reach d 0 && !s.reach d 2
  (s.live.filter fun l => l.st ≤ 3 && lone.contains (homeOf s l)).foldl haltCtx s

/-- Whether the dies have come apart. -/
def isSplit (s : State) : Bool := (List.range 4).any fun d => !s.reach 0 d

/-- The link report of a failed endpoint: its last accepted SEQ goes to the sending end the long way round (R38, R42). -/
def reportPkt (s : State) (ep : Nat) : Option Pkt :=
  (twin ep).map fun t =>
    { cls := 1, ddie := t / 4, dep := if t % 4 = 0 then 15 else 19, src := srcNo (ep / 4) 6 (ep % 4), dchip := s.ident.chip,
      len := 8, opc := 9, payload := ((s.link ep).expect + 4095) % 4096 + t / 4 * 2 ^ 12 + t % 4 * 2 ^ 14 }

/-- The packets that an endpoint has held or begun. -/
def Link.owed (l : Link) : List (Option Nat × Pkt) :=
  l.pkts.map (fun p => (some p.1, p.2)) ++ (l.tail.map fun t => (none, t.2.2)).toList

/-- A failed endpoint knows the last SEQ accepted: what had not all been accepted is to be re-injected, the first first (R38).
With no SEQ, because none can come, it is everything held. A Jalcy-X port that RETRAIN brings back later goes on with its next SEQ
and an empty replay buffer (log entry 127, DESIGN CHOICE). -/
def reportIn (s : State) (ep : Nat) (last : Option Nat) : State :=
  let l := s.link ep
  let keep := l.owed.filter fun p => match p.1, last with
    | some q, some a => !seqLe q a
    | _, _ => true
  s.setLink ep { l with pkts := [], replay := [], tail := none, reported := true, reinject := keep.map (·.2) }

/-- A link marked failed (R32, R38, R41): the record, the report of a Jalcy-D endpoint, the packets of a Jalcy-X port to be sent
toward the alternate, and the split where it is the second link of the ring. -/
def failLink (s : State) (ep : Nat) : State :=
  let l := s.link ep
  let was := isSplit s
  let s := s.setLink ep { l with st := 3, body := [], failedAt := s.tsc.toNat, reported := false }
  let s := linkEvent s ep 1 0 0
  if ep % 4 < 2 then
    let s := match reportPkt s ep with
      | some k => s.post (.packetInject (ep / 4) (if ep % 4 = 0 then 3 else 4) k)
      | none => s
    if isSplit s && !was then splitRing s else s
  else reportIn s ep none

/-- Whether an endpoint must hear flits that verify: it has a key to verify them with, or its other end has failed and sends none
(R32, R34). -/
def mustHear (s : State) (ep : Nat) : Bool :=
  (s.link ep).rx.any (·.valid) || match twin ep with
    | some t => (s.link t).st == 3
    | none => false

/-- Whether no flit has verified at an endpoint that is up for 1 ms (R32). An endpoint with no valid receive slot, whose idle flits
are taken unverified, does not fail for it (R30, R34, log entry 124, DEDUCED). -/
def linkLate (s : State) (ep : Nat) : Bool :=
  (s.link ep).st == 2 && mustHear s ep && (s.link ep).lastGood + 10 ^ 6 ≤ s.tsc.toNat

/-- LINK_FAILED (R32). -/
def execLinkFailed (ep : Nat) (s : State) : Host.Outcome State Fault Refusal :=
  let l := s.link ep
  if ep ≥ 16 ∨ l.st = 3 ∨ !(l.retrainFails ≥ 3 ∨ linkLate s ep) then .fault .notPossible
  else .next (failLink s ep)

/-- LINK_REPORT: the sending endpoint learns which packets it is to re-inject (R38). -/
def execLinkReport (die : Nat) (k : Pkt) (s : State) : Host.Outcome State Fault Refusal :=
  if die ≥ 4 ∨ k.opc ≠ 9 ∨ bits k.payload 13 12 ≠ die then .fault .notPossible
  else
    let ep := die * 4 + bits k.payload 14 14
    let s := if (s.link ep).st = 3 then s else failLink s ep
    .next (if (s.link ep).reported then s else reportIn s ep (some (k.payload % 4096)))

/-! Training (R32, R37, R42) -/

/-- An endpoint enters the up state: its receive buffer is empty, it has 64 credits a channel, and it sends its held flits again
from the oldest on, with no credits in them (R31, R32, R42). Bodies accepted of packets that are not yet whole stay to be put
together, outside the buffer. A retry request still owed stays in the idle flits (R42). The millisecond of R32 begins anew at each
entry, and runs in the up state only (log entry 124, DEDUCED). -/
def upEnd (s : State) (ep : Nat) : State :=
  let l := s.link ep
  let held := l.replay.map fun h => { h with flit := { h.flit with hdr := setBits h.flit.hdr 31 18 0 } }
  s.setLink ep { l with
    st := 2, credits := List.replicate 8 64, freed := List.replicate 8 0, retryFails := 0, retrainFails := 0,
    lastGood := s.tsc.toNat, body := l.body.map (fun b => (b.1 % 8 + 8, b.2)), replay := held, sent := held.map (·.flit) }

/-- The link of an endpoint enters the up state, at each of its ends (R42). -/
def linkUp (s : State) (ep : Nat) : State := (ends ep).foldl upEnd s

/-- JALCY_LINK_UP: training of a link that is enabled at its ends completes (R37, R42). -/
def execJalcyLinkUp (ep : Nat) (s : State) : Host.Outcome State Fault Refusal :=
  if ep ≥ 16 ∨ (s.link ep).st ≥ 2 ∨ (ends ep).any (fun e => (s.link e).st == 3 || s.rn 11 0 e % 2 == 0) then .fault .notPossible
  else .next (linkUp s ep)

/-- A retraining of an endpoint's link has failed: the third in a row fails the link, else another begins (R32). -/
def trainFail (s : State) (ep : Nat) : State :=
  let l := s.link ep
  let s := s.setLink ep { l with retrainFails := l.retrainFails + 1 }
  if l.st = 3 then s else if l.retrainFails + 1 ≥ 3 then failLink s ep else s.bump 11 4 ep

/-- LINK_RETRAIN: a retraining succeeds, or fails, at each end of the link (R32). -/
def execLinkRetrain (ep : Nat) (ok : Bool) (s : State) : Host.Outcome State Fault Refusal :=
  let l := s.link ep
  if ep ≥ 16 ∨ (ends ep).any (fun e => (s.link e).st == 3) ∨ !(l.st = 1 ∨ (l.st = 2 ∧ l.retryFails ≥ 8)) then .fault .notPossible
  else
    let s := if l.st = 2 then beginRetrain s ep else s
    .next (if ok then linkUp s ep else (ends ep).foldl trainFail s)

/-! Registers (R33, R35 to R37) -/

/-- KEY_LIMIT_WARNING (R36). -/
def execKeyLimitWarning (ep : Nat) (s : State) : Host.Outcome State Fault Refusal :=
  let l := s.link ep
  let n := (keyAt l.tx l.txsel).ctr
  if ep ≥ 16 ∨ n < 2 ^ 39 ∨ l.warned then .fault .notPossible
  else .next (linkEvent (s.setLink ep { l with warned := true }) ep 2 l.txsel n)

/-- KEY_LIMIT (R36, R37). -/
def execKeyLimit (ep : Nat) (s : State) : Host.Outcome State Fault Refusal :=
  let l := s.link ep
  let n := (keyAt l.tx l.txsel).ctr
  if ep ≥ 16 ∨ n < 2 ^ 40 ∨ l.limit then .fault .notPossible
  else .next (linkEvent (s.setLink ep { l with limit := true }) ep 3 l.txsel n)

/-- Whether a slot is in use (R33): a transmit slot that is selected or under which flits are held, a valid receive slot. -/
def slotBusy (l : Link) (rx : Bool) (i : Nat) : Bool :=
  if rx then (keyAt l.rx i).valid
  else l.txsel == i || l.replay.any fun h => h.flit.hdr / 2 ^ 63 % 2 == i

/-- A write of JLK_KLD: it keeps DIR and SLOT, and loads the slot they name (R33, R37). From the first receive key on, flits must
verify (log entry 124, DEDUCED). -/
def loadKey (s : State) (ep v : Nat) : State :=
  let s := s.setN 11 2 ep (v % 4)
  let l := s.link ep
  let rx := v.testBit 1
  let i := v % 2
  if slotBusy l rx i then s.setLink ep { l with keyerr := true }
  else
    let d := fun (k : Nat) => (l.kdata.getD k 0).toNat
    let k : Key := { key := packElems 64 [d 0, d 1, d 2, d 3], salt := d 4 % 2 ^ 32, valid := true }
    let since := if l.rx.any (·.valid) then l.lastGood else s.tsc.toNat
    s.setLink ep (if rx then { l with rx := l.rx.set i k, lastGood := since } else { l with tx := l.tx.set i k })

/-- A write of TXSEL (R35, R36). -/
def setTxsel (s : State) (ep v : Nat) : State :=
  let l := s.link ep
  let i := v % 2
  if !(keyAt l.tx i).valid || l.rolling.isSome then s.setLink ep { l with keyerr := true }
  else if i = l.txsel then s
  else
    let old := l.txsel
    let l := { l with
      txsel := i, tx := l.tx.set i { keyAt l.tx i with ctr := 0, idle := 0 }, limit := false, warned := false,
      rolling := if (keyAt l.tx old).valid then some (old, none) else none }
    s.setLink ep (rollStep l (l.st == 2 && s.rn 11 0 ep % 2 == 1))

/-- A write of RETRAIN: on an enabled Jalcy-X port only (R32, R37). -/
def setRetrain (s : State) (ep v : Nat) : State :=
  if v % 2 = 1 ∧ ep % 4 ≥ 2 ∧ s.rn 11 0 ep % 2 = 1 then
    (let t := beginRetrain s ep
     t.setLink ep { t.link ep with retrainFails := 0 })
  else s

/-- An endpoint forced down, unless it is marked failed (R37). -/
def downEnd (s : State) (ep : Nat) : State :=
  let l := s.link ep
  if l.st = 3 then s else s.setLink ep { l with st := 0, sent := [] }

/-- A write of EN: 0 forces the link down, at each of its ends, without marking it failed (R37). -/
def setEnable (s : State) (ep v : Nat) : State :=
  let s := s.setN 11 0 ep (v % 2)
  if v % 2 = 0 then (ends ep).foldl downEnd s else s

/-- A write of JLK_CTL (R37): EN, a TXSEL that differs, RETRAIN. -/
def wrJlkCtl (s : State) (ep v : Nat) : State :=
  let s := setEnable s ep v
  let s := if bits v 4 4 = (s.link ep).txsel then s else setTxsel s ep (bits v 4 4)
  setRetrain s ep (bits v 7 7)

/-- JLK_KLD_WRITE (R33). -/
def execJlkKldWrite (ep v : Nat) (s : State) : Host.Outcome State Fault Refusal :=
  if ep ≥ 16 then .fault .notPossible else .next (loadKey s ep v)

/-- TXSEL_WRITE (R35). -/
def execTxselWrite (ep v : Nat) (s : State) : Host.Outcome State Fault Refusal :=
  if ep ≥ 16 then .fault .notPossible else .next (setTxsel s ep v)

/-- RETRAIN_WRITE (R37). -/
def execRetrainWrite (ep v : Nat) (s : State) : Host.Outcome State Fault Refusal :=
  if ep ≥ 16 then .fault .notPossible else .next (setRetrain s ep v)

/-- LINK_ENABLE_WRITE (R37). -/
def execLinkEnableWrite (ep v : Nat) (s : State) : Host.Outcome State Fault Refusal :=
  if ep ≥ 16 then .fault .notPossible else .next (setEnable s ep v)

/-! The endpoint's own moves -/

/-- Whether a failed Jalcy-D endpoint waits for a report that cannot come, since the other end is out of reach (R38, R40). -/
def noReport (s : State) (ep : Nat) : Bool :=
  let l := s.link ep
  l.st == 3 && !l.reported && (match twin ep with
    | some t => !s.reach (ep / 4) (t / 4)
    | none => true)

/-- Whether the last flits of a packet begun can be sent (R36). -/
def tailReady (s : State) (ep : Nat) : Bool :=
  match (s.link ep).tail with
  | some (vc, _, _) => canData s ep vc 1
  | none => false

/-- Whether an endpoint sends an idle flit for its twin to verify: none is on the wire, and the twin has verified none since the
counter's last tick (R29, R32). -/
def keepAlive (s : State) (ep : Nat) : Bool :=
  (s.link ep).st == 2 && (s.link ep).sent.isEmpty && match twin ep with
    | some t => (s.link t).st == 2 && (s.link t).rx.any (·.valid) && (s.link t).lastGood < s.tsc.toNat
    | none => false

/-- Whether an endpoint has something to do of its own: to fail for want of flits, to re-inject packets, to finish training, to send
the last flits of a packet, to take a flit that its twin has put on the wire, or to send back an acknowledgement, credits, a retry
request or an idle flit. -/
def linkBusy (s : State) (ep : Nat) : Bool :=
  let l := s.link ep
  noReport s ep || linkLate s ep || keepAlive s ep || !l.reinject.isEmpty || tailReady s ep
    || (l.st < 2 && (ends ep).all (fun e => (s.link e).st != 3 && s.rn 11 0 e % 2 == 1))
    || (l.st == 2 && ((match twin ep with
        | some t => !(s.link t).sent.isEmpty
        | none => false) || l.acked != (l.expect + 4095) % 4096 || l.freed.any (· != 0)))

/-- An endpoint takes the next flit that its twin has put on the wire, or answers with an idle flit. -/
def hearMove (ep : Nat) (s : State) : Host.Outcome State Fault Refusal :=
  match (twin ep).map fun t => (t, s.link t) with
  | some (t, m) =>
    (match m.sent with
     | f :: rest => flitIn ep f (s.setLink t { m with sent := rest })
     | [] => execIdleFlitSend ep s)
  | none => execIdleFlitSend ep s

/-- One move of an endpoint on its link. -/
def wireMove (ep : Nat) (s : State) : Host.Outcome State Fault Refusal :=
  let l := s.link ep
  if l.st < 2 then execJalcyLinkUp ep s
  else if l.st = 3 then .next s
  else match l.tail with
    | some (vc, bs, k) => if canData s ep vc 1 then .next (sendBodies s ep vc k bs) else hearMove ep s
    | none => hearMove ep s

end Sys2Proof.Machine
end

