-- ==== Sys2Proof/Machine/Net.lean ====
section
/-! DEFINITION. The on-die network (R45 to R56, R74): turn tables, injection, switches, endpoints, the request window; the
accesses performed at their home (R178, R180, R192, R208, R223, R224, R241) and the replies at their requester. -/

namespace Sys2Proof.Machine

/-! The request window (R55, R56) -/

/-- Answers to a context that come from no reply: the value is known at issue, or the network did not take the request. -/
def localAnswers (s : State) (ck : Nat) : Nat :=
  (s.events.filter fun i => match i with
    | .readReply _ k => k.who == ck && k.cls == 0
    | .writeAcknowledge _ k => k.who == ck && k.cls == 0
    | .bankReply _ k => k.who == ck && k.cls == 0
    | _ => false).length

/-- Requests of a window that await their reply, sent or not: a tile's of both slots, a cluster engine's, a core's, a sequencer's. -/
def openReqs (s : State) (key : Nat) : Nat :=
  let die := key % 2 ^ 16 / 2 ^ 14
  let kind := bits key 13 8
  let u := key % 256
  if kind = 0 then
    [0, 1].foldl (fun n i => match s.ctx? (2 * (die * 128 + u) + i) with
      | some c => n + (c.outst.length + (c.fills.flatMap fun f => f.parts.filter fun p => p.got.isNone).length
          - localAnswers s (2 * (die * 128 + u) + i))
      | none => n) 0
  else if kind = 1 then
    ((s.cl (die * 16 + u)).cards.filter fun k => engKey (die * 16 + u) k.eng == key).foldl (fun n k => n + k.acks) 0
  else if kind = 4 then (s.eft (die * 12 + u)).outb.length
  else if kind = 7 then (s.seqr die).sent.length
  else 0

/-- Requests of a window that still wait to be sent. -/
def unsent (s : State) (key : Nat) : Nat :=
  (s.events.filter fun i => match i with
    | .packetInject _ _ k => winKey k == key && isReq k
    | _ => false).length

/-- Whether the request that is being sent waits for the window of its sender. -/
def windowFull (s : State) (k : Pkt) : Bool :=
  isReq k && (s.wins.get (64, 0, 0) (winKey k)).1 + 1 + unsent s (winKey k) ≤ openReqs s (winKey k)

/-- A request's number noted in the packet that its sender holds: an eft core's or a sequencer's. -/
def noteReq (s : State) (k : Pkt) (n : Nat) : State :=
  let die := k.src / 2 ^ 14
  let note := fun (x : Sent) => if x.pkt.rid = k.rid then { x with pkt := { x.pkt with q := n } } else x
  if bits k.src 13 8 = 4 then
    (let u := die * 12 + k.src % 256
     s.setEft u { s.eft u with outb := (s.eft u).outb.map note })
  else if bits k.src 13 8 = 7 then s.setSeqr die { s.seqr die with sent := (s.seqr die).sent.map note }
  else s

/-- A request issued: it takes the next number of its requester (R55). -/
def countReq (s : State) (k : Pkt) : State × Pkt :=
  if isReq k then
    let (w, h, n) := s.wins.get (64, 0, 0) (winKey k)
    (noteReq { s with wins := s.wins.put (64, 0, 0) (winKey k) (w, h, n + 1) } k n, { k with q := n })
  else (s, k)

/-! Turn tables (R48, R74) -/

/-- Where a turn list has come to. -/
inductive At where
  | leafUp
  | midUp
  | spine
  | midDown
  | leafDown
  | done
  | bad
  deriving DecidableEq, Repr

/-- One turn from a place. -/
def At.turn (a : At) (t : Nat) : At :=
  match a with
  | .leafUp => if t = 15 then .midUp else if t < 4 then .done else .bad
  | .midUp => if t = 15 then .spine else if t < 4 then .leafDown else .bad
  | .spine => if t < 2 then .midDown else if t < 4 then .done else .bad
  | .midDown => if t < 4 then .leafDown else .bad
  | .leafDown => if t < 4 then .done else .bad
  | .done => .bad
  | .bad => .bad

/-- The turns of an entry, the first first. -/
def turnsOf (v : Nat) : List Nat := (List.range (bits v 35 32)).map fun i => bits v (4 * i + 3) (4 * i)

/-- Whether an entry may be written (R48, R74): a valid one must lead to an endpoint. -/
def turnOk (e v : Nat) : Bool :=
  let ts := turnsOf v
  let end_ := ts.foldl At.turn .leafUp
  bits v 35 32 ≤ 8 && end_ != .bad && (!v.testBit 63 || end_ == .done)
    && (!(32 ≤ e && e < 40) || ts == [15, 15, 2 + e % 2])

/-- A turn-table entry written (R48, R74). -/
def wrTurn (s : State) (die leaf e v : Nat) : State :=
  if turnOk e v then s.setN 12 (leaf * 64 + e) die (v - bits v 62 36 * 2 ^ 36) else s

/-- NOC_TURN_WRITE (R48). -/
def execNocTurnWrite (die leaf e v : Nat) (s : State) : Host.Outcome State Fault Refusal :=
  if die ≥ 4 ∨ leaf ≥ 8 ∨ e ≥ 44 then .fault .notPossible else .next (wrTurn s die leaf e (v % 2 ^ 64))

/-! Routing (R46, R50, R74, R76) -/

/-- The Jalcy-X endpoint of a port number. -/
def portEp (p : Nat) : Nat := p / 2 * 4 + 2 + p % 2

/-- The port by which a die reaches a chip: the primary, or the alternate (R41, R74). -/
def pickPort (s : State) (die chip : Nat) : Option Nat :=
  let v := s.rn 13 (chip % 4096) die
  let ok := fun (p : Nat) => (s.link (portEp p)).st != 3
  if v.testBit 3 && ok (bits v 2 0) then some (bits v 2 0)
  else if v.testBit 7 && ok (bits v 6 4) then some (bits v 6 4) else none

/-- Where the injecting leaf sends a packet: a table entry, a fault of the requester, or nowhere yet. -/
inductive Route where
  | entry (e : Nat)
  | fault (cause : Nat)
  | hold
  deriving DecidableEq, Repr

/-- The way of a packet to another die: the one it took while that is open, else the ring table's (R50, R51). -/
def toDie (s : State) (d f way : Nat) : Route :=
  let (cw, ccw) := wayOpen s d f
  let r := if way = 1 ∧ cw ∨ way = 2 ∧ ccw then way else ringDir s d f
  if r = 1 then .entry 15 else if r = 2 then .entry 19 else if s.reach d f then .hold else .fault 8

/-- The route of a packet from a die. A CLASS 3 packet for an endpoint above 11 is refused wherever it is bound (R76). -/
def routeOf (s : State) (die : Nat) (k : Pkt) : Route :=
  if k.cls = 3 ∧ k.dep ≥ 12 then .fault 1
  else if k.dchip ≠ s.ident.chip % 4096 then
    match pickPort s die k.dchip with
    | none => .fault 8
    | some p => if p / 2 = die then .entry 11 else toDie s die (p / 2) k.way
  else if k.ddie ≠ die then toDie s die k.ddie k.way
  else if k.cls = 3 then .entry (32 + k.dep)
  else .entry k.dep

/-- Whether a packet is an answer of an eft core or a collective sequencer (R415). -/
def isAnswer (k : Pkt) : Bool := k.opc == 7 || (k.opc == 3 && (bits k.src 13 8 == 4 || bits k.src 13 8 == 7))

/-- A packet that the network does not take: its requester takes a device fault (R74). A reply that cannot go ends the access
with that fault at its requester (R40); an answer or a link report is dropped, and its sender or receiver times out. -/
def bounce (s : State) (die : Nat) (k : Pkt) (cause : Nat) : State :=
  let r := { k with cls := 0, cause := cause, level := 255, way := 0 }
  if k.opc = 9 ∨ isAnswer k then s
  else if k.opc ∈ [0, 1, 4] then
    if k.schip ≠ s.ident.chip then
      (if k.dchip = k.schip % 4096 then s
       else s.post (.packetInject die 2 { r with
         cls := 1, opc := k.opc + (if k.opc = 0 then 2 else if k.opc = 1 then 2 else 1), len := 0, payload := 0,
         ddie := k.src / 2 ^ 14, dchip := k.schip % 4096, src := srcNo die 3 0, echo := k.mark, mark := false }))
    else if k.who ≥ 0x10000 then copyxAck s (cluOfWho k.who) k.rid cause k.va
    else
      s.post (if k.opc = 0 then .readReply die { r with opc := 2 } else if k.opc = 1 then .writeAcknowledge die { r with opc := 3 }
        else .bankReply die { r with opc := 5 })
  else if k.opc ∈ [2, 3, 5] then
    if k.dchip ≠ s.ident.chip % 4096 then s
    else s.post (if k.opc = 2 then .readReply die r else if k.opc = 3 then .writeAcknowledge die r else .bankReply die r)
  else emitFault s k.part k.src ⟨cause, 255, die, k.va⟩

/-! Switches (R45, R48, R49, R54) -/

/-- Flits of a class in an output queue. -/
def queued (s : State) (die stage num port cls : Nat) : Nat :=
  (s.net.filter fun h => h.die == die && h.stage == stage && h.num == num && h.port == port && h.pkt.cls == cls).foldl
    (fun n h => n + flitsOf h.pkt) 0

/-- The output port that a turn names at a switch; an up turn of a leaf is adaptive (R49). -/
def portOf (s : State) (die stage num : Nat) (k : Pkt) : Nat :=
  let t := k.turns % 16
  if stage = 0 then
    if t < 4 then t
    else if k.cls = 3 ∧ k.dep < 8 then 4 + k.dep / 2
    else
      let n := fun j => queued s die 1 (num / 4 * 4 + j) 4 k.cls
      4 + (List.range 4).foldl (fun b j => if n j < n b then j else b) 0
  else if stage = 1 then (if t < 4 then t else 4)
  else t % 4

/-- A packet enters a switch: it takes its turn and joins the output queue, which marks it where it holds more than
NOC_MARKTHR flits; none where the queue has no room (R48, R54). A threshold of 31 marks the packet that fills the queue (R56,
log entry 110). -/
def enterSwitch (s : State) (die stage num : Nat) (k : Pkt) : Option State :=
  let p := portOf s die stage num k
  let n := queued s die stage num p k.cls
  if n + flitsOf k > 32 then none
  else
    let thr := s.rn 3 0xC00 die % 32
    let mk := !k.mark && (n > thr || (thr == 31 && n + flitsOf k == 32))
    let s := if mk then s.bump 3 0xC01 die else s
    some { s with net := s.net ++ [⟨die, stage, num, p, { k with turns := k.turns / 16, tlen := k.tlen - 1, mark := k.mark || mk }⟩] }

/-- A packet injected at a leaf, or none where it waits (R48, R50, R74). -/
def inject (s : State) (die leaf : Nat) (k : Pkt) : Option State :=
  match routeOf s die k with
  | .hold => none
  | .fault c => some (bounce s die k c)
  | .entry e =>
    let v := s.rn 12 (leaf * 64 + e) die
    if !v.testBit 63 then some (bounce s die k 1)
    else
      let away := k.dchip ≠ s.ident.chip % 4096 ∨ k.ddie ≠ die
      enterSwitch s die 0 leaf { k with
        turns := v % 2 ^ 32, tlen := bits v 35 32,
        way := if away ∧ e = 15 then 1 else if away ∧ e = 19 then 2 else 0 }

/-- Whether a request of this package that is about to enter the network waits at its place-table lookup (R239). -/
def lookupHeld (s : State) (k : Pkt) : Bool :=
  k.opc ∈ [0, 1, 4] && k.schip == s.ident.chip && k.dchip == s.ident.chip % 4096 && lookupWaits s k.part k.va (some k.src)

/-- A request come to its home: it is performed there. -/
def performed (die : Nat) (k : Pkt) : Instr :=
  if k.opc = 0 then .read die k else if k.opc = 1 then .write die k else .bankOperation die k

/-- PACKET_INJECT: a request waits for its window and at its place-table lookup; one for its own cluster's port then reaches its home
without the network (R46, R48, R55, R74, R239). -/
def execPacketInject (die leaf : Nat) (k : Pkt) (s : State) : Host.Outcome State Fault Refusal :=
  if die ≥ 4 ∨ leaf ≥ 8 then .fault .notPossible
  else
    let again := s.post (.packetInject die leaf k)
    let (t, k') := countReq s k
    if windowFull s k || lookupHeld s k then .next again
    else if k.opc ∈ [0, 1, 4] ∧ ownLeaf s k then .next (t.post (performed die k'))
    else .next ((inject t die leaf k').getD again)

/-- JALCY_D_ENDPOINT_REWRITE (R50). -/
def execJalcyDEndpointRewrite (ep : Nat) (k : Pkt) (s : State) : Host.Outcome State Fault Refusal :=
  if ep ≥ 16 ∨ ep % 4 ≥ 2 then .fault .notPossible
  else
    let k' := { k with hop := min 3 (k.hop + 1) }
    .next ((inject s (ep / 4) (if ep % 4 = 0 then 3 else 4) k').getD (s.post (.jalcyDEndpointRewrite ep k)))

/-- Whether a Jalcy-X port of a die still has packets to re-inject, which go before those not yet sent (R41). -/
def portOwes (s : State) (die : Nat) : Bool := [2, 3].any fun u => !(s.link (die * 4 + u)).reinject.isEmpty

/-- A packet at the port switch of a die goes out by its port, or on toward the port's die; none where it waits. -/
def portOut (s : State) (die : Nat) (k : Pkt) (p : Nat) : Option State :=
  if p / 2 = die then linkSend s (portEp p) k else inject s die 2 k

/-- PORT_SWITCH_ROUTE (R50, R74): from Jalcy-X into the die, or out toward another chip; with no usable port the requester
takes a device fault. -/
def execPortSwitchRoute (die : Nat) (fromX : Bool) (k : Pkt) (s : State) : Host.Outcome State Fault Refusal :=
  if die ≥ 4 then .fault .notPossible
  else
    let again := s.post (.portSwitchRoute die fromX k)
    let own := k.dchip == s.ident.chip % 4096
    if fromX && own then
      let k := if k.cls = 0 ∧ k.opc ∈ [0, 1, 4] then { k with dep := (endpointOf s k.part k.va).2 } else k
      let k' := if k.opc = 3 ∨ k.opc = 7 then k else { k with ddie := s.physDie k.ddie }
      .next ((inject s die 2 k').getD again)
    else if portOwes s die then .next again
    else match pickPort s die k.dchip with
      | none => .next (bounce s die k 8)
      | some p => .next ((portOut s die k p).getD again)

/-- The first packet that a failed endpoint is to re-inject goes: the long way round the ring, or by the alternate port; with no
alternate it is discarded (R38, R41). None where it waits, or there is none. -/
def reinjectMove (s : State) (ep : Nat) : Option State :=
  let l := s.link ep
  match l.reinject with
  | [] => none
  | p :: rest =>
    let k := { p with way := 0 }
    let t := s.setLink ep { l with reinject := rest }
    if ep % 4 < 2 then inject t (ep / 4) (if ep % 4 = 0 then 3 else 4) k
    else match pickPort s (ep / 4) k.dchip with
      | none => some t
      | some q => portOut t (ep / 4) k q

/-- One move of an endpoint. -/
def linkMove (ep : Nat) (s : State) : Host.Outcome State Fault Refusal :=
  if noReport s ep then .next (reportIn s ep none)
  else if linkLate s ep then execLinkFailed ep s
  else match reinjectMove s ep with
    | some t => .next t
    | none => wireMove ep s

/-- A packet at a Jalcy-D endpoint: over the link; or, where that has failed, along the chain that remains, behind what the
endpoint re-injects (R38). -/
def atRing (s : State) (die e : Nat) (k : Pkt) : Option State :=
  let ep := die * 4 + (if e = 15 then 0 else 1)
  let l := s.link ep
  if s.linkFailed (if e = 15 then die else (die + 3) % 4) then
    if l.reported && l.reinject.isEmpty then inject s die (e / 4) { k with way := 0 } else none
  else linkSend s ep k

/-- A packet at its endpoint; none where it waits for a link (R46, R50, R76). -/
def atEndpoint (s : State) (die e : Nat) (k : Pkt) : Option State :=
  let here := k.dchip == s.ident.chip % 4096 && k.ddie == die
  if e = 15 ∨ e = 19 then
    if here ∧ k.opc = 9 then some (s.post (.linkReport die k)) else atRing s die e k
  else if e = 11 then
    if here ∧ k.cls = 3 ∧ 8 ≤ k.dep ∧ k.dep < 12 then some (s.post (.eftPacketArrival die k.dep k))
    else some (s.post (.portSwitchRoute die false k))
  else if e = 27 then
    if k.opc = 6 then some (s.post (.collectiveData die k))
    else if k.opc = 3 then some (s.post (.answer die k))
    else if k.opc = 7 then some (s.post (.nack die k))
    else some s
  else if k.opc = 0 then some (s.post (.read die k))
  else if k.opc = 1 then some (s.post (.write die k))
  else if k.opc = 2 then some (s.post (.readReply die k))
  else if k.opc = 3 then some (s.post (.writeAcknowledge die k))
  else if k.opc = 4 then some (s.post (.bankOperation die k))
  else if k.opc = 5 then some (s.post (.bankReply die k))
  else some s

/-- Where a packet at the head of an output queue goes: to the next switch, to an eft core, or to an endpoint (R45). -/
def hopNext (s : State) (h : Hop) : Option State :=
  if h.stage = 0 then
    if h.port ≥ 4 then enterSwitch s h.die 1 (h.num / 4 * 4 + (h.port - 4)) h.pkt else atEndpoint s h.die (h.num * 4 + h.port) h.pkt
  else if h.stage = 1 then
    if h.port ≥ 4 then enterSwitch s h.die 2 (h.num % 4) h.pkt else enterSwitch s h.die 0 (h.num / 4 * 4 + h.port) h.pkt
  else if h.port < 2 then enterSwitch s h.die 1 (4 * h.port + h.num) h.pkt
  else some (s.post (.eftPacketArrival h.die (2 * h.num + (h.port - 2)) h.pkt))

/-- The move of a packet in the network, or none while it waits. -/
def hopMove (s : State) (i : Nat) : Option State :=
  match s.net[i]? with
  | none => none
  | some h => hopNext { s with net := s.net.eraseIdx i } h

/-- SWITCH_TURN (R48, R49, R54). -/
def execSwitchTurn (i : Nat) (s : State) : Host.Outcome State Fault Refusal :=
  match hopMove s i with
  | some s => .next s
  | none => .fault .notPossible

/-! Accesses at their home -/

/-- The die that answers an access performed at a location: the owner of its HBM frame, else the home (R136). -/
def answerer (home a : Nat) : Nat := if a / 2 ^ 60 = 6 then a % 2 ^ 60 / 2 ^ 37 else home

/-- A request performed at its home; one of the home's own cluster waits at its place-table lookup where it must (R239). -/
def atHome (s : State) (k : Pkt) (o : Host.Outcome State Fault Refusal) : Host.Outcome State Fault Refusal :=
  if ownLeaf s k && lookupHeld s k then .next { s with stalled := true } else o

/-- The source number of a request as its home's accesses take it: one of another chip comes from no die or cluster of this one, with the
die that performs it (R140, R399). -/
def reqSrc (s : State) (die : Nat) (k : Pkt) : Nat := if k.schip = s.ident.chip then k.src else (4 + die) * 2 ^ 14

/-- A reply to a request, from the die that performed it: at once where the request did not enter the network (R46, R53, R54,
R136). -/
def reply (s : State) (die : Nat) (k r : Pkt) : State :=
  let sdie := k.src / 2 ^ 14
  let own := ownLeaf s k
  let r := { r with
    cls := 1, ddie := sdie, dep := srcEp k.src, part := k.part, src := srcNo die 3 0, dchip := k.schip % 4096,
    va := k.va, echo := k.mark, q := k.q, rid := k.rid, who := k.who, want := k.want, acq := k.acq }
  if own then
    s.post (if r.opc = 2 then .readReply die r else if r.opc = 3 then .writeAcknowledge die r else .bankReply die r)
  else s.post (.packetInject die (k.dep / 4) r)

/-- A fault reply (R134). -/
def faultReply (s : State) (die : Nat) (k : Pkt) (opc : Nat) (b : Bad) : State :=
  reply s die k { opc := opc, cause := b.cause, level := b.level }

/-- Reads on their way: as packets, or come to their home. -/
def readsDue (s : State) : List Pkt :=
  (underWay s).filter (·.opc == 0) ++ s.events.filterMap fun i => match i with
    | .read _ k => some k
    | _ => none

/-- Whether an earlier load of the same context, of a byte that this one reads too, has not been performed (R188, R190). -/
def loadBefore (s : State) (k : Pkt) : Bool :=
  k.who < 0x10000 && (readsDue s).any fun r =>
    r.who == k.who && r.schip == k.schip && r.rid < k.rid && clash s k.part k.va k.want false r.va r.want false

/-- READ: behind the earlier loads of its location by its context (R178, R185, R188, R192, R224). -/
def execRead (die : Nat) (k : Pkt) (s : State) : Host.Outcome State Fault Refusal :=
  if die ≥ 4 ∨ k.opc ≠ 0 then .fault .notPossible
  else if loadBefore s k then .next (s.post (.read die k))
  else atHome s k <|
    match locate s k.part k.va k.want false false false (reqSrc s die k / 2 ^ 14) with
    | (s, .error b) => .next (faultReply s die k 2 b)
    | (s, .ok a) =>
      .next (reply s (answerer die a) k { opc := 2, len := k.want, payload := rdNat s a k.want, tag := (tagAt s a).toNat, vec := relAt s a k.want })

/-- n bytes of a write packet performed at a VA: their location, or their fault (R223, R241, R399). -/
def homePut (s : State) (die : Nat) (k : Pkt) (va n : Nat) : State × Except Bad Nat :=
  let src := reqSrc s die k
  match locate s k.part va n true false false (src / 2 ^ 14) with
  | (s, .error b) => (s, .error b)
  | (s, .ok a) =>
    let t : W32 := if n = 256 ∧ va % 256 = 0 then BitVec.ofNat 32 k.tag else 0
    let (s, done) := putAt s k.part va src a n (k.payload / 256 ^ (va - k.va) % 256 ^ n) t
    (if done && k.rel && k.schip == s.ident.chip then relPut s a n k.vec else s, .ok a)

/-- A write packet performed: whole in an SRAM sub-window, in a translated range line by line up to its first fault (R125). -/
def homeWrite (s : State) (die : Nat) (k : Pkt) : State × Except Bad Nat :=
  if vaLine k.va = 64 ∧ 64 < k.va % 64 + k.len then
    (pieces k.va k.len).foldl (fun r p => match r.2 with
      | .error _ => r
      | .ok _ => homePut r.1 die k p.1 p.2) (s, .ok 0)
  else homePut s die k k.va k.len

/-- WRITE (R125, R178, R185, R192, R223, R224, R241). -/
def execWrite (die : Nat) (k : Pkt) (s : State) : Host.Outcome State Fault Refusal :=
  if die ≥ 4 ∨ k.opc ≠ 1 then .fault .notPossible
  else atHome s k <|
    match homeWrite s die k with
    | (s, .error b) => .next (faultReply s die k 3 b)
    | (s, .ok a) => .next (reply s (answerer die a) k { opc := 3 })

/-- BANK_OPERATION (R180, R331, R332): the vector that its location carried stays, joined by a release's (R189, R192). -/
def execBankOperation (die : Nat) (k : Pkt) (s : State) : Host.Outcome State Fault Refusal :=
  if die ≥ 4 ∨ k.opc ≠ 4 then .fault .notPossible
  else atHome s k <|
    let loc := sramLoc s k.part (vaClass s.capSpad k.va) true
    let vec := match loc with
      | .ok a => relAt s a k.want
      | .error _ => []
    match bankAt s k.part k.va k.want k.bop k.payload (reqSrc s die k / 2 ^ 14) with
    | (s, .error b) => .next (faultReply s die k 5 b)
    | (s, .ok old) =>
      let s := match loc with
        | .ok a => relPut s a k.want (if k.rel && k.schip == s.ident.chip then joinStamps vec k.vec else vec)
        | .error _ => s
      .next (reply s die k { opc := 5, len := k.want, payload := old, vec := vec })

/-! Replies at their requester -/

/-- The value of a completed fill: its parts in place, covered by held stores (R230). -/
def fillValue (f : Fill) : Nat := overlay (f.parts.foldl (fun v p => v + p.got.getD 0 % 256 ^ p.len * 256 ^ p.off) 0) f.cover

/-- A completed fill lands: its destination is full, its lineage lands with its value, and the input buffer records it
(R208, R221, R231). -/
def landFill (s : State) (ck : Nat) (c : Ctx) (f : Fill) : Ctx :=
  let v := fillValue f
  let t : W32 := if f.gather then 0 else BitVec.ofNat 32 ((f.parts.head?.map (·.tag)).getD 0)
  let l := foldLin f.k f.la t f.lc 0
  let c := match dstKey f.dst with
    | some k => c.mkFull k
    | none => c
  let c := (loadWrs s ck f.dst v l).foldl landWr c
  let c := { c with
    fills := c.fills.filter (fun g => g != f),
    ibuf := match c.ibuf[f.idx]? with
      | some e => c.ibuf.set f.idx { e with val := v, tag := t.toNat, done := true }
      | none => c.ibuf }
  match c.phase with
  | .waiting 3 p _ _ _ => if c.isEmpty p then c else { c with phase := .running }
  | _ => c

/-- READ_REPLY: an acquire completes when it may (R55, R143, R192, R208, R210). -/
def execReadReply (die : Nat) (k : Pkt) (s : State) : Host.Outcome State Fault Refusal :=
  match s.ctx? k.who with
  | none => .fault .notPossible
  | some c =>
    match c.fills.find? fun f => f.parts.any fun p => p.rid == k.rid && p.got.isNone with
    | none => .fault .notPossible
    | some f =>
      if f.acq && k.cause == 0 && !acqReady s (srcTile (k.who / 2)) f.scope k.vec then .next (s.post (.readReply die k))
      else
      let s := if k.cls = 1 then onReply s (srcTile (k.who / 2)) k.echo k.q else s
      let parts := f.parts.map fun p =>
        if p.rid = k.rid ∧ p.got.isNone then { p with got := some (if k.cause = 0 then k.payload else 0), tag := k.tag } else p
      let g := { f with parts := parts, bad := if k.cause ≠ 0 ∧ f.bad.isNone then some (k.cause, k.va, k.level, k.src / 2 ^ 14) else f.bad }
      let c := { c with fills := c.fills.map fun h => if h == f then g else h }
      let whole := parts.all fun p => p.got.isSome
      let c := if whole && g.bad.isNone then landFill s k.who c g else c
      let s := s.setCtx k.who c
      .next (if f.acq && k.cause == 0 then acqDone s (srcTile (k.who / 2)) f.scope k.vec else s)

/-- A committed access answered: it is outstanding no more; what waited for it goes on (R188, R210). -/
def answered (s : State) (ck : Nat) (c : Ctx) (k : Pkt) : State :=
  let s := if k.cls = 1 then onReply s (srcTile (ck / 2)) k.echo k.q else s
  let s := s.setCtx ck { c with outst := c.outst.filter fun o => o.rid != k.rid }
  let s := if k.cause ≠ 0 then imprecise s ck ⟨k.cause, k.level, k.src / 2 ^ 14, k.va⟩ else s
  tryArrive (pump s ck) ck

/-- WRITE_ACKNOWLEDGE (R53, R210). -/
def execWriteAcknowledge (_die : Nat) (k : Pkt) (s : State) : Host.Outcome State Fault Refusal :=
  if k.who ≥ 0x10000 then .next (copyxAck (onReply s (engKey (cluOfWho k.who) (engOfWho k.who)) k.echo k.q)
    (cluOfWho k.who) k.rid k.cause k.va)
  else match s.ctx? k.who with
    | none => .fault .notPossible
    | some c => if c.outst.any (·.rid == k.rid) then .next (answered s k.who c k) else .fault .notPossible

/-- BANK_REPLY: the old value fills the register; with a fault reply it stays empty (R210, R331). An acquire completes when it
may (R143, R192). -/
def execBankReply (die : Nat) (k : Pkt) (s : State) : Host.Outcome State Fault Refusal :=
  if k.who ≥ 0x10000 then .next (copyxAck (onReply s (engKey (cluOfWho k.who) (engOfWho k.who)) k.echo k.q)
    (cluOfWho k.who) k.rid k.cause k.va)
  else match s.ctx? k.who with
    | none => .fault .notPossible
    | some c =>
      match c.outst.find? (·.rid == k.rid) with
      | none => .fault .notPossible
      | some o =>
        if o.acq && k.cause == 0 && !acqReady s (srcTile (k.who / 2)) o.scope k.vec then .next (s.post (.bankReply die k))
        else
        let c := match o.dst with
          | some d => if k.cause = 0 then (c.mkFull (xKey d)).wx d (BitVec.ofNat 64 k.payload) else c
          | none => c
        let s := if o.acq && k.cause == 0 then acqDone s (srcTile (k.who / 2)) o.scope k.vec else s
        .next (answered s k.who c k)

end Sys2Proof.Machine
end

