-- ==== Sys2Proof/Machine/Xlat.lean ====
section
/-! DEFINITION. Translation on its own account: the walk on a miss (R133), the zeroing before first access (R138) and the
entries of the invalidation logs (R142 to R144). -/

namespace Sys2Proof.Machine

/-- Whether a die is the home of a VA in a translated range (R125, R133). -/
def translatesAt (s : State) (die va : Nat) : Bool :=
  (vaClass s.capSpad va).translated && s.physDie (homeDie s.capSpad va) == die

/-- TLB_WALK: a miss at the home die; the leaf enters the TLB, or the walk faults (R133). -/
def execTlbWalk (die part va : Nat) (s : State) : Host.Outcome State Fault Refusal :=
  if die ≥ 4 ∨ part ≥ 32 ∨ !translatesAt s die va ∨ (tlbFind s die part va).isSome then .fault .notPossible
  else .next (walkTlb s die part va).1

/-- Whether a walk meets a 64 KiB device leaf with V = 1 and Z = 1 (R138). -/
def meetsZero (s : State) (part va : Nat) : Bool :=
  let ttb := s.rn 4 0x1004 part
  ttb.testBit 0 && (match walkFrom s va (dirLevels va) (bits ttb 38 13 * 8192) with
    | .ok (dw0, _, 0) => dw0.testBit 4 && dw0.testBit 0
    | _ => false)

/-- ZERO_BEFORE_FIRST_ACCESS: the frame is zeroed and Z cleared; where the owner cannot complete the zeroing Z stays
(R138). -/
def execZeroBeforeFirstAccess (die part va : Nat) (ok : Bool) (s : State) : Host.Outcome State Fault Refusal :=
  if die ≥ 4 ∨ part ≥ 32 ∨ !translatesAt s die va ∨ (tlbFind s die part va).isSome ∨ !meetsZero s part va then .fault .notPossible
  else .next (if ok then (walkTlb s die part va).1 else s.bump 3 0xC09 die)

/-- KIND of the entry that a die is to apply next, where it is well-formed (R142). -/
def invKind (s : State) (die : Nat) : Option Nat :=
  match invNext s die with
  | none => none
  | some (_, dw0, _) =>
    if bits dw0 15 12 != 0 || bits dw0 7 5 != 0 || bits dw0 11 10 == 3 || bits dw0 9 8 == 3 then none else some (bits dw0 11 10)

/-- INVALIDATE_PAGE (R143). -/
def execInvalidatePage (die : Nat) (s : State) : Host.Outcome State Fault Refusal :=
  if die < 4 ∧ invKind s die = some 0 then .next (invApply s die true) else .fault .notPossible

/-- INVALIDATE_PARTITION (R143). -/
def execInvalidatePartition (die : Nat) (s : State) : Host.Outcome State Fault Refusal :=
  if die < 4 ∧ invKind s die = some 1 then .next (invApply s die true) else .fault .notPossible

/-- MOVE_PAGE: `ok` tells whether the copy completes (R144). -/
def execMovePage (die : Nat) (ok : Bool) (s : State) : Host.Outcome State Fault Refusal :=
  if die < 4 ∧ invKind s die = some 2 then .next (invApply s die ok) else .fault .notPossible

/-- A die applies the next entry of its log (R143). -/
def invMoveOf (die : Nat) (s : State) : Host.Outcome State Fault Refusal :=
  match invKind s die with
  | some 0 => execInvalidatePage die s
  | some 1 => execInvalidatePartition die s
  | some _ => execMovePage die true s
  | none => .next (invApply s die true)

end Sys2Proof.Machine
end

