-- ==== Sys2Proof/Machine/Launch.lean ====
section
/-! DEFINITION. Command processors (R99, R103 to R109, R117 to R119): the lottery, launch records and their checks,
admission of images, the creation of contexts, and completion. -/

namespace Sys2Proof

/-! Fields of a record (R105) -/

/-- Doubleword k of a record. -/
def LRec.dw (r : LRec) (k : Nat) : Nat := r.raw / 2 ^ (64 * k) % 2 ^ 64
/-- OPC. -/
def LRec.opc (r : LRec) : Nat := r.dw 0 % 256
/-- IMAGE. -/
def LRec.image (r : LRec) : Nat := r.dw 1
/-- FIRST. -/
def LRec.first (r : LRec) : Nat := bits (r.dw 7) 8 0
/-- COUNT. -/
def LRec.count (r : LRec) : Nat := bits (r.dw 7) 25 16
/-- ANY. -/
def LRec.any (r : LRec) : Bool := (r.dw 7).testBit 26
/-- BGRP. -/
def LRec.bgrp (r : LRec) : Nat := bits (r.dw 0) 31 24
/-- SSTRIDE. -/
def LRec.sstride (r : LRec) : Nat := r.dw 6 % 2 ^ 32
/-- FLAG. -/
def LRec.flag (r : LRec) : Nat := r.dw 8
/-- STATUS. -/
def LRec.status (r : LRec) : Nat := r.dw 9

/-- WAIT of a record. -/
def LRec.waits (r : LRec) : Bool := r.raw.testBit 8

end Sys2Proof

namespace Sys2Proof.Machine

/-! Queues and the lottery (R99, R103, R104) -/

/-- The partition of a queue's VF. Queue numbers are VF × 4 + q over the package. -/
def queuePart (s : State) (n : Nat) : Nat := s.rn 6 0 (n / 4) % 32

/-- The command processor that serves a queue (R99). -/
def queueCp (n : Nat) : Nat := n / 1024

/-- A register of a queue: 0 CQ_BASE, 1 CQ_CTL, 2 CQ_TAIL, 3 CQ_HEAD (R100). -/
def State.cq (s : State) (n k : Nat) : Nat := s.rn 6 (0x10 + 4 * (n % 4) + k) (n / 4)

/-- Whether a queue is runnable (R103, R26): its link is up, and no record that it has had taken waits. -/
def runnable (s : State) (n : Nat) : Bool :=
  (s.cq n 1).testBit 4 && s.cq n 3 < s.cq n 2 && (s.rn 6 0 (n / 4)).testBit 5
    && !(s.rn 4 0x1001 (queuePart s n)).testBit 0 && !s.pfDown.contains (queueCp n)
    && !(s.cp (queueCp n)).taken.any fun r => r.queue == n && r.waits

/-- The queue whose CQ_CTL a register key names. -/
def queueOfKey (key : Nat) : Option Nat :=
  let num := key / 65536 % 65536
  if key / 2 ^ 32 = 6 ∧ num % 4 = 1 ∧ 0x11 ≤ num ∧ num < 0x20 then some (key % 65536 * 4 + (num - 0x11) / 4) else none

/-- Whether a command processor draws: it holds no record but those that wait, and a queue is runnable. An enabled queue's
CQ_CTL differs from its reset value, so it is listed. -/
def canLottery (s : State) (cp : Nat) : Bool :=
  (s.cp cp).taken.all LRec.waits
    && s.regs.any fun p => match queueOfKey p.1 with
      | some n => queueCp n == cp && runnable s n
      | none => false

/-- The event that processes a record (R106): an unassigned OPC is refused as a launch is. -/
def recEvent (r : LRec) : Instr :=
  match r.raw % 256 with
  | 2 => .admitImage r
  | 3 => .retire r
  | 4 => .marker r
  | _ => .launch r

/-- LOTTERY_DRAW (R104): the generator steps, the winner's record at CQ_HEAD is read from host memory and taken. -/
def execLotteryDraw (cp : Nat) (s : State) : Host.Outcome State Fault Refusal :=
  if cp ≥ 2 ∨ !canLottery s cp then .fault .notPossible
  else
    let c := s.cp cp
    let q := fun (k : Nat) => cp * 1024 + k
    let run := (List.range 1024).map fun k => runnable s (q k)
    let tk := (List.range 1024).map fun k =>
      if runnable s (q k) then min (bits (s.cq (q k) 1) 15 8) (s.rn 6 1 (q k / 4) % 256) else 0
    let x := draw c.x
    let w := drawWinner tk run x c.last
    let n := q w
    let head := s.cq n 3
    let raw := rdNat s (region 7 (s.cq n 0 + 128 * (head % 2 ^ (s.cq n 1 % 16)))) 128
    let r : LRec := ⟨n, head, raw⟩
    let s := s.setN 6 (0x13 + 4 * (n % 4)) (n / 4) (head + 1)
    .next ((s.setCp cp { c with x := x, last := w, taken := c.taken ++ [r], open_ := c.open_ ++ [(n, head)] }).post (recEvent r))

/-- CP_LSEED_WRITE (R104, R111). -/
def wrCpLseed (s : State) (cp v : Nat) : State :=
  let v := v % 2 ^ 32
  (s.setN 9 1 cp v).setCp cp { s.cp cp with x := if v = 0 then 1 else v }

/-- CP_LSEED_WRITE (R104). -/
def execCpLseedWrite (cp v : Nat) (s : State) : Host.Outcome State Fault Refusal :=
  if cp ≥ 2 then .fault .notPossible else .next (wrCpLseed s cp v)

/-- The checks that every OPC makes (R106): reserved fields zero, FLAG and STATUS aligned. -/
def recBad (r : LRec) : Bool :=
  bits (r.dw 0) 63 40 != 0 || bits (r.dw 0) 15 9 != 0 || bits (r.dw 6) 63 32 != 0 || bits (r.dw 7) 15 9 != 0
    || bits (r.dw 7) 63 27 != 0 || r.raw / 2 ^ 640 != 0 || r.flag % 8 != 0 || r.status % 8 != 0
    || r.opc == 0 || r.opc > 4

/-- The checks of the fields that LAUNCH uses (R106). -/
def launchBad (r : LRec) : Bool :=
  recBad r || r.image % 128 != 0 || r.dw 3 % 8 != 0 || r.dw 4 % 64 != 0 || r.dw 5 % 256 != 0 || r.sstride % 256 != 0
    || r.count == 0 || r.count > 512 || r.first + r.count > 512 || (r.bgrp > 15 && r.bgrp != 0xFF)

/-! Completion (R109) -/

/-- The flag raised by 1, with release at system scope (R109). -/
def raiseRel (s : State) (part va die : Nat) : State × Option Bad := relFlag s part va (srcNo die 2 0) true

/-- A record completed: the status word, the flag, and the launch-refused record of every status but 1 and 5 (R109, R116).
A fault of the status or the flag is a device fault of the command processor. -/
def complete (s : State) (part queue head flag status code exits exitV : Nat) : State :=
  let die := 2 * queueCp queue
  let src := srcNo die 2 0
  let report := fun (r : State × Option Bad) => match r.2 with
    | some b => emitFault r.1 part src b
    | none => r.1
  let s := if status = 0 ∨ status % 8 ≠ 0 then s
    else report (vaWrite8 s part status (code + exits % 1024 * 2 ^ 8 + exitV % 2 ^ 32 * 2 ^ 32) true src)
  let s := if flag = 0 ∨ flag % 8 ≠ 0 then s else report (raiseRel s part flag die)
  if code = 1 ∨ code = 5 then s else emit s part src 1 code (queue / 4 * 2 ^ 16 + queue % 4) head

/-- A record leaves its command processor. -/
def closeRec (s : State) (queue head : Nat) : State :=
  let c := s.cp (queueCp queue)
  s.setCp (queueCp queue) { c with open_ := c.open_.filter fun e => e != (queue, head) }

/-- A record processed is held no longer; its completion may be later. -/
def untake (s : State) (r : LRec) : State :=
  let c := s.cp (queueCp r.queue)
  s.setCp (queueCp r.queue) { c with taken := c.taken.filter (· != r) }

/-- A record that completes as it is processed. -/
def finishRec (s : State) (r : LRec) (code : Nat) : State :=
  closeRec (complete (untake s r) (queuePart s r.queue) r.queue r.head r.flag r.status code 0 0) r.queue r.head

/-- Whether a record may be processed now (R103): the first taken of its queue, and with WAIT every earlier one complete. -/
def recTurn (s : State) (r : LRec) : Bool :=
  let c := s.cp (queueCp r.queue)
  c.taken.find? (·.queue == r.queue) == some r
    && !(r.waits && c.open_.any fun e => e.1 == r.queue && e.2 != r.head)

/-- A record of one of the OPCs, processed in its turn; it waits while R103 holds it. -/
def onRecord (s : State) (r : LRec) (ok : Bool) (f : State → State) : Host.Outcome State Fault Refusal :=
  if !ok ∨ !(s.cp (queueCp r.queue)).taken.contains r then .fault .notPossible
  else if recTurn s r then .next (f s) else .next (s.post (recEvent r))

/-- Whether a partition lies wholly inside the group of a die (R39). -/
def wholly (s : State) (part die : Nat) : Bool :=
  (List.range 64).all fun c => !s.inMap part c || s.reach die (c / 16)

/-- A record that is well formed is served where its partition lies wholly inside the group of its command processor; else it is
group-lost (R39, R106, log entry 67, DEDUCED). -/
def serveRec (s : State) (r : LRec) (bad : Bool) (f : State → Nat → Nat → State) : State :=
  let part := queuePart s r.queue
  let die := 2 * queueCp r.queue
  if bad then finishRec s r 4
  else if !wholly s part die then finishRec s r 6
  else f s part die

/-! Admission (R117 to R119) -/

/-- The header's reserved fields and ranges (R117, R119). `w k` is doubleword k of the header. A SIZE that R117's table does not
allow is refused, and a CODEOFF or CODELEN that is no multiple of 64 is not (log entry 130, DESIGN CHOICE). -/
def headerBad (w : Nat → Nat) : Bool :=
  let size := w 2 % 2 ^ 32
  let gen := bits (w 0) 39 32
  let live := bits (w 1) 52 48
  let entn := bits (w 4) 40 32
  w 0 % 2 ^ 32 != 0x4E525645 || gen == 0 || gen > 2 || bits (w 0) 63 40 != 0 || bits (w 1) 63 53 != 0 || live == 0 || live > 16
    || bits (w 2) 63 32 != 0 || size % 128 != 0 || size < 128 || bits (w 4) 63 41 != 0 || entn == 0 || entn > 256
    || bits (w 6) 63 32 != 0 || bits (w 7) 35 32 > 8 || bits (w 7) 63 36 != 0 || bits (w 8) 63 32 != 0
    || (List.range 5).any fun k => w (9 + k) != 0

/-- The end of the eft section (R278): EFTN entries from an offset. -/
def eftEnd (b : Array Nat) : Nat → Nat → Nat
  | 0, o => o
  | n + 1, o =>
    let len := (b.getD (o + 16) 0 + 256 * b.getD (o + 17) 0) % 512
    eftEnd b n (o + 32 + (4 * len + 7) / 8 * 8)

/-- Whether every region that the header names lies inside SIZE (R117). -/
def regionsIn (w : Nat → Nat) (b : Array Nat) : Bool :=
  let size := w 2 % 2 ^ 32
  let within := fun (o n : Nat) => o + n ≤ size
  within (w 3 % 2 ^ 32) (w 3 / 2 ^ 32) && within (w 4 % 2 ^ 32) (4 * bits (w 4) 40 32)
    && within (w 5 % 2 ^ 32) (16 * (w 5 / 2 ^ 32)) && eftEnd b (bits (w 7) 35 32) (w 7 % 2 ^ 32) ≤ size

/-- The certificate of an image's bytes (R118): with no key written every admission fails. -/
def certOf (s : State) (gen : Nat) (b : List Nat) : Option (List Nat) :=
  if s.rn 9 6 0 = 0 then none
  else
    let key := (List.range 4).flatMap fun i => leBytes 8 (s.rn 9 (2 + i) 0)
    let h := sha384 (b.take 112 ++ List.replicate 16 0 ++ b.drop 128)
    some (aesCmac key (h ++ leBytes 4 s.devRev ++ [gen]))

/-- Admission of the image at a VA, read once, in ascending order (R119): status 1, or the status of its refusal. An image that
cannot be read is refused as a bad record, with a device fault record. -/
def admitImage (s : State) (part va die : Nat) : State × Nat :=
  let src := srcNo die 2 0
  match vaRead s part va 128 die with
  | (s, .error b) => (emitFault s part src b, 4)
  | (s, .ok hd) =>
    let w := fun (k : Nat) => leNat ((hd.drop (8 * k)).take 8)
    if headerBad w then (s, 4)
    else
      let size := w 2 % 2 ^ 32
      match vaRead s part (va + 128) (size - 128) die with
      | (s, .error b) => (emitFault s part src b, 4)
      | (s, .ok rest) =>
        let bytes := hd ++ rest
        let arr := bytes.toArray
        let gen := bits (w 0) 39 32
        let ims := s.images.get [] part
        if !regionsIn w arr then (s, 4)
        else if certOf s gen bytes ≠ some ((bytes.drop 112).take 16) then (s, 2)
        else if ims.any fun im => im.base < va + size && va < im.base + im.size then (s, 4)
        else if ims.length ≥ 64 then (s, 7)
        else
          let ent := (List.range (bits (w 4) 40 32)).map fun i =>
            leNat ((List.range 4).map fun k => arr.getD (w 4 % 2 ^ 32 + 4 * i + k) 0)
          let im : Image := ⟨va, size, w 3 % 2 ^ 32, w 3 / 2 ^ 32, gen, bits (w 1) 47 0, bits (w 1) 52 48, ent⟩
          ({ s with images := s.images.put [] part (ims ++ [im]) }, 1)

/-- The copy of an ADMIT (R106): SIZE bytes from ARGS to IMAGE, unless they are one. SIZE is that of the header at ARGS. -/
def admitCopy (s : State) (part src dst die : Nat) : State × Option Bad :=
  if src = dst then (s, none)
  else match vaRead8 s part ((src + 16) % 2 ^ 64) die with
    | (s, .error b) => (s, some b)
    | (s, .ok w) =>
      match vaRead s part src (w % 2 ^ 32) die with
      | (s, .error b) => (s, some b)
      | (s, .ok l) => vaWrite s part dst l true (srcNo die 2 0)

/-- ADMIT (R106, R119). -/
def execAdmit (r : LRec) (s : State) : Host.Outcome State Fault Refusal :=
  onRecord s r (r.opc == 2) fun s =>
    serveRec s r (recBad r || r.image % 128 != 0) fun s part die =>
      match admitCopy s part (r.dw 2) r.image die with
      | (s, some b) => finishRec (emitFault s part (srcNo die 2 0) b) r 4
      | (s, none) =>
        let (s, st) := admitImage s part r.image die
        finishRec s r st

/-- RETIRE: the image at IMAGE leaves the table (R106, R120). -/
def execRetire (r : LRec) (s : State) : Host.Outcome State Fault Refusal :=
  onRecord s r (r.opc == 3) fun s =>
    serveRec s r (recBad r || r.image % 128 != 0) fun s part _ =>
      finishRec { s with images := s.images.put [] part ((s.images.get [] part).filter (·.base != r.image)) } r 1

/-- MARKER (R106). -/
def execMarker (r : LRec) (s : State) : Host.Outcome State Fault Refusal :=
  onRecord s r (r.opc == 4) fun s => serveRec s r (recBad r) fun s _ _ => finishRec s r 1

/-! LAUNCH (R106 to R108) -/

/-- Step 3's check of FLT_VEC: without an enabled vector, or with one that names an entry bundle of an admitted image of
the generation (R106, R229, R266). -/
def fltVecOk (s : State) (part gen : Nat) : Bool :=
  let v := s.rn 4 0x1006 part
  !v.testBit 0 || (s.entryOf part (v / 4 * 4)).any fun im => im.gen == gen

/-- Live contexts of a partition by physical tile, for R107. -/
def liveOn (s : State) (part t : Nat) : List Live :=
  s.live.filter fun l => l.part == part && l.st ≤ 3 && s.physTile part l.g == some t

/-- Gang placement (R107). -/
def gangOk (s : State) (part : Nat) (r : LRec) (foot : Nat) : Bool :=
  (List.range r.count).all fun k =>
    match s.physTile part (r.first + k) with
    | none => false
    | some t =>
      let ls := liveOn s part t
      s.inMap part (t / 8)
        && (r.bgrp == 0xFF || (ls.filter (·.bgrp == r.bgrp)).length + 1 ≤ 2)
        && ls.all fun l => l.foot + foot ≤ 48

/-- The words of a new continuation record (R108, R149). -/
def newCr (r : LRec) (im : Image) (part g ctxno : Nat) : List Nat :=
  let e := im.entries.getD (bits (r.dw 0) 23 16) 0
  [(im.base + e) % 2 ^ 64,
   crWord1 (if r.any then 0xFFFF else g) (if r.any then g / 8 else 0) false false false false 0 im.gen part ctxno,
   (r.dw 5 + r.sstride * (g - r.first)) % 2 ^ 64, im.live * 2 ^ 16, 0, bits (r.dw 0) 39 32, 0, 0]

/-- Step 5 for one logical tile: the record written, and the context noted. -/
def createCr (r : LRec) (im : Image) (part die serial id : Nat) (s : State) (k : Nat) : State :=
  let g := r.first + k
  let cr := (r.dw 4 + 64 * k) % 2 ^ 64
  let ctxno := serial % 4096 * 512 + g
  let (s, b) := vaWrite s part cr (dwBytes (newCr r im part g ctxno)) true (srcNo die 2 0)
  let s := match b with
    | some b => emitFault s part (srcNo die 2 0) b
    | none => s
  let l : Live := { part := part, cr := cr, ctxno := ctxno, g := g, any := r.any, launch := id, bgrp := r.bgrp,
                    foot := popFoot im.tmask, st := 0, first := true, link := r.dw 3, args := r.dw 2, rank := k, rtbBad := false }
  { s with live := (s.live.filter fun m => !(m.part == part && m.cr == cr)) ++ [l] }

/-- Steps 5 and 6 of a LAUNCH (R106). -/
def startLaunch (s : State) (r : LRec) (im : Image) (part die : Nat) : State :=
  let serial := s.serials.get 0 part
  let (id, s) := s.fresh
  let k : Launch := { id := id, queue := r.queue, head := r.head, part := part, flag := r.flag, status := r.status, left := r.count,
                      exits := 0, exitG := 0, exitV := 0, faulted := false, lost := false }
  let s := { untake s r with launches := s.launches ++ [k], serials := s.serials.put 0 part (serial + 1) }
  let s := (List.range r.count).foldl (createCr r im part die serial id) s
  (List.range r.count).foldl (fun s k => appendCr s part ((r.dw 4 + 64 * k) % 2 ^ 64)) s

/-- Steps 2 to 6 of a LAUNCH whose record is well formed. -/
def doLaunch (s : State) (r : LRec) (part die : Nat) : State :=
  let find := fun (s : State) => (s.images.get [] part).find? (·.base == r.image)
  let (s, st) := if (find s).isSome then (s, 1) else admitImage s part r.image die
  match find s with
  | none => finishRec s r st
  | some im =>
    let foot := popFoot im.tmask
    if bits (r.dw 0) 23 16 ≥ im.entries.length ∨ r.sstride < 0x1200 + 0x2000 * foot then finishRec s r 4
    else if !fltVecOk s part im.gen then finishRec s r 8
    else if !gangOk s part r foot then finishRec s r 3
    else startLaunch s r im part die

/-- LAUNCH (R106). -/
def execLaunch (r : LRec) (s : State) : Host.Outcome State Fault Refusal :=
  onRecord s r (!(2 ≤ r.opc && r.opc ≤ 4)) fun s => serveRec s r (launchBad r) fun s part die => doLaunch s r part die

/-- LAUNCH_COMPLETION: every context of the launch has ended (R109). -/
def execLaunchCompletion (id : Nat) (s : State) : Host.Outcome State Fault Refusal :=
  match s.launches.find? (·.id == id) with
  | none => .fault .notPossible
  | some k =>
    if k.left ≠ 0 then .fault .notPossible
    else
      let code := if k.lost then 6 else if k.faulted then 5 else 1
      let s := complete s k.part k.queue k.head k.flag k.status code k.exits k.exitV
      let s := closeRec s k.queue k.head
      .next { s with launches := s.launches.filter (·.id != id), live := s.live.filter (·.launch != id) }

end Sys2Proof.Machine
end

