-- ==== Sys2Proof/Machine/Eft.lean ====
section
/-! DEFINITION. Eft cores (R75 to R98): arrival and matching, parking and arming, runs, the kernel instructions, traps,
the output buffer, and the kernel registers. A unit is die × 12 + core. -/

namespace Sys2Proof.Machine

/-! Kernel registers (R78) -/

/-- EFT_KCTL of a kernel. -/
def State.kctl (s : State) (u k : Nat) : Nat := s.rn 14 (3 * k) u
/-- EN of a kernel. -/
def kernOn (s : State) (u k : Nat) : Bool := (s.kctl u k).testBit 16
/-- PART of a kernel. -/
def kernPart (s : State) (u k : Nat) : Nat := bits (s.kctl u k) 28 24
/-- FLO and FHI of a kernel. -/
def kernFlow (s : State) (u k : Nat) : Nat × Nat := let v := s.rn 14 (3 * k + 1) u
                                                    (bits v 15 0, bits v 47 32)
/-- SLO and SHI of a kernel. -/
def kernSlot (s : State) (u k : Nat) : Nat × Nat := let v := s.rn 14 (3 * k + 2) u
                                                    (bits v 9 0, bits v 25 16)
/-- An instruction word. -/
def State.imem (s : State) (u w : Nat) : Nat := s.rn 14 (0x1000 + w) u
/-- A flow-state word. -/
def State.flow (s : State) (u w : Nat) : Nat := s.rn 14 (0x4000 + w) u
/-- A flow-state word stored. -/
def State.setFlow (s : State) (u w v : Nat) : State := s.setN 14 (0x4000 + w) u (v % 2 ^ 32)

/-- The kernel that a packet matches (R77). -/
def matchKern (s : State) (u : Nat) (p : Pkt) : Option Nat :=
  (List.range 8).find? fun k => kernOn s u k && (kernFlow s u k).1 ≤ p.flow && p.flow ≤ (kernFlow s u k).2 && kernPart s u k == p.part

/-- The slot of a matched packet (R77). -/
def slotOf (s : State) (u k : Nat) (p : Pkt) : Nat := (kernSlot s u k).1 + (p.flow - (kernFlow s u k).1)

/-- ARM of a slot (R83). -/
def armed (s : State) (u slot : Nat) : Bool := (s.flow u (16 * slot)).testBit 31

/-! Sending and answers (R82, R86, R415) -/

/-- The chip's number. -/
def State.chipNo (s : State) : Nat := s.ident.chip % 4096

/-- The source number of an eft core. -/
def srcEft (u : Nat) : Nat := srcNo (u / 12) 4 (u % 12)

/-- The leaf whose turn table serves an eft core: L2 for those of the port switch; for a core of spine Sj, Lj (log
entry 20). -/
def eftLeaf (u : Nat) : Nat := if u % 12 ≥ 8 then 2 else u % 12 / 2

/-- An answer to a packet, by an agent of a die (R415). -/
def answerPkt (s : State) (die src ep : Nat) (k : Pkt) (opc reason : Nat) : Pkt :=
  { cls := if bits k.src 13 8 = 4 then 3 else 1, dchip := bits k.va 43 32, ddie := k.src / 2 ^ 14, dep := srcEp k.src, part := k.part,
    flow := k.flow, tag := k.tag, echo := k.mark, src := src, opc := opc, reason := reason, schip := s.chipNo, rid := k.rid,
    va := s.chipNo * 2 ^ 52 + s.logDie die * 2 ^ 50 + ep * 2 ^ 45 + s.chipNo * 2 ^ 32 + k.va % 2 ^ 32 }

/-- A core answers a packet (R86). -/
def eftAnswer (s : State) (u : Nat) (k : Pkt) (opc : Nat) : State :=
  s.post (.packetInject (u / 12) (eftLeaf u) (answerPkt s (u / 12) (srcEft u) (u % 12) k opc 0))

/-- Onward chip, logical die and endpoint of h5, or of an MCAST entry. -/
def onward (h : Nat) : Nat × Nat × Nat := (bits h 31 20, bits h 19 18, bits h 17 13)

/-- Whether an onward endpoint is an eft core or the sequencer (R76). -/
def epOk (ep : Nat) : Bool := ep < 12 || ep == 27

/-- The packet that leaves a core in place of one that came (R82): header words, window, onward destination. A payload that the kernel
has not changed is the source line's still (R69). -/
def eftOut (s : State) (u : Nat) (h : List Nat) (win : Nat) (to_ : Nat × Nat × Nat) (k : Pkt) : Pkt :=
  let (chip, ldie, ep) := to_
  let len := bits (nth h 2) 19 11
  { cls := if ep < 12 then 3 else 2, ddie := if chip = s.chipNo then s.physDie ldie else ldie, dep := ep, part := k.part,
    src := srcEft u, dchip := chip, flow := bits (nth h 2) 31 20 + bits (nth h 3) 3 0 * 2 ^ 12, len := len,
    va := chip * 2 ^ 52 + ldie * 2 ^ 50 + ep * 2 ^ 45 + s.chipNo * 2 ^ 32 + nth h 4 % 2 ^ 32, tag := nth h 7,
    opc := bits (nth h 6) 31 24, payload := win % 256 ^ len, schip := s.chipNo,
    ltag := if len = k.len ∧ win % 256 ^ len = k.payload % 256 ^ len then k.ltag else some 0 }

/-- A packet sent by a kernel's run and held until its answer (R75, R86). -/
def eftSend (s : State) (u k : Nat) (p : Pkt) : State :=
  let (rid, s) := s.fresh
  let p := { p with rid := rid }
  let e := s.eft u
  let x : Sent := { pkt := p, kern := k, part := kernPart s u k, job := bits (s.kctl u k) 44 29, at_ := s.tsc.toNat, tries := 0, due := 0, op := 0 }
  (s.setEft u { e with outb := e.outb ++ [x] }).post (.packetInject (u / 12) (eftLeaf u) p)

/-- The eight header words of a packet (R47, R81). -/
def headWords (k : Pkt) : List Nat := (headOf k).flatMap fun d => [d % 2 ^ 32, d / 2 ^ 32 % 2 ^ 32]

/-! Trap records (R98) -/

/-- A trap record of a core. -/
def trapRec (s : State) (u part cause pc kern traps : Nat) (dis : Bool) (dw2 code addr job : Nat) : State :=
  emit s part (srcEft u) 0x40
    (cause + pc % 256 * 2 ^ 8 + kern * 2 ^ 16 + part * 2 ^ 19 + traps % 16 * 2 ^ 24 + flagIf dis (2 ^ 28)) dw2
    (code % 2 ^ 16 + addr % 2 ^ 32 * 2 ^ 16 + job % 2 ^ 16 * 2 ^ 48)

/-- A held packet leaves the output buffer; what of it still waits to be sent goes with it (R86). -/
def freeSent (s : State) (u : Nat) (x : Sent) : State :=
  let e := s.eft u
  { s.setEft u { e with outb := e.outb.filter fun y => y.pkt.rid != x.pkt.rid } with
    events := s.events.filter fun i => match i with
      | .packetInject _ _ k => !(isReq k && k.src == srcEft u && k.rid == x.pkt.rid)
      | _ => true }

/-- A held packet discarded with a send-lost record (R86). -/
def sendLost (s : State) (u : Nat) (x : Sent) : State :=
  let s := freeSent s u x
  trapRec s u x.part 5 0xFF x.kern (bits (s.kctl u x.kern) 23 20) false ((headOf x.pkt).getD 1 0) 0 0 x.job

/-- Whether an answer is that of a held packet (R415). -/
def answers (x a : Pkt) : Bool :=
  x.flow == a.flow && x.va % 2 ^ 32 == a.va % 2 ^ 32 && x.tag == a.tag && bits x.va 63 45 == bits a.va 63 45

/-- The wait before the nth retry (R71). -/
def retryWait (n : Nat) : Nat := 1000 * min (2 ^ (n - 1)) 256

/-- An answer that reaches a core: it releases the packet, schedules a retry, or ends it as lost (R77, R86). -/
def eftAnswered (s : State) (u : Nat) (a : Pkt) : State :=
  let e := s.eft u
  match e.outb.find? fun x => answers x.pkt a with
  | none => s
  | some x =>
    let s := onReply s (srcEft u) a.echo x.pkt.q
    if a.opc = 3 then freeSent s u x
    else if a.reason = 1 then sendLost s u x
    else
      let x' := { x with tries := x.tries + 1, due := s.tsc.toNat + retryWait (x.tries + 1) }
      s.setEft u { e with outb := e.outb.map fun y => if y.pkt.rid = x.pkt.rid then x' else y }

/-! Disabled kernels (R80, R97) -/

/-- A packet handled as TRAPACT states: dropped, or forwarded as it arrived, and acknowledged (R80, R97). -/
def trapAct (s : State) (u k : Nat) (p : Pkt) : State :=
  let h := headWords p
  let to_ := onward (nth h 5)
  let s := if (s.kctl u k).testBit 17 && epOk to_.2.2 then eftSend s u k (eftOut s u h p.payload to_ p) else s
  eftAnswer s u p 3

/-- Whether the output buffer can take what TRAPACT forwards of a packet (R75, R97). -/
def actRoom (s : State) (u k : Nat) (p : Pkt) : Bool :=
  !((s.kctl u k).testBit 17 && epOk (onward (nth (headWords p) 5)).2.2) || (s.eft u).outb.length < 64

/-- The parked packets of a kernel that is disabled are handled as TRAPACT states, at once while the output buffer has room for what
is forwarded, the rest as it frees (R75, R80, log entry 117). -/
def actPark (s : State) (u k : Nat) : State :=
  let e := s.eft u
  let mine := e.park.filter fun x => matchKern s u x.pkt == some k
  let s := s.setEft u { e with park := e.park.filter fun x => !(matchKern s u x.pkt == some k) }
  mine.foldl (fun t x => if actRoom t u k x.pkt then trapAct t u k x.pkt
    else t.setEft u { t.eft u with park := (t.eft u).park ++ [{ x with ready := true }] }) s

/-- The parked packets that match a kernel leave their entries; each is handled in turn. -/
def flushPark (s : State) (u k : Nat) (f : State → Pkt → State) : State :=
  let e := s.eft u
  let mine := e.park.filter fun x => matchKern s u x.pkt == some k
  let s := s.setEft u { e with park := e.park.filter fun x => !(matchKern s u x.pkt == some k) }
  mine.foldl (fun t x => f t x.pkt) s

/-- EFT_KCTL as written: the fields of v, the read-only bits and EN (R78). -/
def putKctl (s : State) (u k v ro en : Nat) : State :=
  s.setN 14 (3 * k) u (bits v 44 24 * 2 ^ 24 + ro * 2 ^ 18 + bits v 17 17 * 2 ^ 17 + en * 2 ^ 16 + bits v 8 0)

/-- A write v that clears EN takes effect: the parked packets of the kernel are discarded, their senders NACKed (R80). -/
def disableKern (s : State) (u k v : Nat) : State :=
  let s := flushPark s u k fun t p => eftAnswer t u p 7
  putKctl s u k v (bits (s.kctl u k) 23 18) 0

/-! Runs (R81, R84, R95, R97) -/

/-- A scalar register as read. -/
def Run.get (r : Run) (n : Nat) : Nat := if n = 0 then 0 else nth r.e n % 2 ^ 32
/-- A scalar register written; e0 ignores it (R89). -/
def Run.put (r : Run) (n v : Nat) : Run := if n = 0 then r else { r with e := r.e.set n (v % 2 ^ 32) }
/-- The next instruction. -/
def Run.step (r : Run) : Run := { r with pc := r.pc + 1 }
/-- A vector register written. -/
def Run.putV (r : Run) (n v : Nat) : Run := { r with v := r.v.set n v }

/-- A run of the core replaced. -/
def setRun (s : State) (u : Nat) (r : Run) : State := s.setEft u { s.eft u with run := some r }

/-- A run starts (R81). -/
def startRun (s : State) (u k : Nat) (p : Pkt) : State :=
  let slot := slotOf s u k p
  setRun s u { kern := k, pkt := p, h := headWords p, win := p.payload % 256 ^ p.len,
               e := [0, (slot - (kernSlot s u k).1) * 64, p.len, p.opc] ++ List.replicate 12 0, v := List.replicate 8 0, c := false,
               pc := 0, emits := 0 }

/-- A run ends: it is counted, and a clearing of EN that waited takes effect (R78, R80). -/
def endRun (s : State) (u : Nat) : State :=
  let e := s.eft u
  let s := (s.setEft u { e with run := none, stopping := [] }).bump 14 0x31 u
  e.stopping.foldl (fun t x => disableKern t u (x % 8) (x / 8)) s

/-- A trap (R97): cause, code and address. -/
def eftTrap (s : State) (u : Nat) (r : Run) (cause code addr : Nat) : State :=
  let v := s.kctl u r.kern
  let n := bits v 23 20 + 1
  let dis := n ≥ 8 && !v.testBit 19
  let v' := setBits v 23 20 n
  let s := s.setN 14 (3 * r.kern) u (if dis then setBits v' 19 19 1 else v')
  let s := trapAct s u r.kern r.pkt
  let s := trapRec s u (bits v 28 24) cause r.pc r.kern n dis ((headOf r.pkt).getD 1 0) code addr (bits v 44 29)
  let s := if dis then actPark s u r.kern else s
  endRun s u

/-- A packet parked, or NACKed where no entry is free (R70, R85, R95). -/
def eftParkPkt (s : State) (u : Nat) (p : Pkt) : State :=
  let e := s.eft u
  if e.park.length < 16 then s.setEft u { e with park := e.park ++ [⟨p, s.tsc.toNat, false⟩] } else eftAnswer s u p 7

/-- The flow of a packet: its FLOW in its partition. -/
def sameFlow (a b : Pkt) : Bool := a.flow == b.flow && a.part == b.part

/-- Whether the output buffer has room for a run (R84). -/
def eftRoom (s : State) (u : Nat) : Bool := (s.eft u).outb.length + 20 ≤ 64

/-- What a core takes next: a replay, else the packet that has waited longest (R84, R85). None where nothing can be taken.
`arm` tells whether an arm packet is taken. -/
def eftTake (s : State) (u : Nat) (arm : Bool) : Option State :=
  let e := s.eft u
  if e.run.isSome then none
  else match e.park.find? (·.ready) with
    | some x =>
      if arm then none
      else match matchKern s u x.pkt with
        | none => some (eftAnswer ((s.setEft u { e with park := e.park.eraseP (·.ready) }).bump 14 0x30 u) u x.pkt 7)
        | some k =>
          if (s.kctl u k).testBit 19 then
            (if actRoom s u k x.pkt then some (trapAct (s.setEft u { e with park := e.park.eraseP (·.ready) }) u k x.pkt) else none)
          else if !armed s u (slotOf s u k x.pkt) then
            some (s.setEft u { e with park := e.park.map fun y => if sameFlow y.pkt x.pkt then { y with ready := false } else y })
          else if !eftRoom s u then none
          else some (startRun (s.setEft u { e with park := e.park.eraseP (·.ready) }) u k x.pkt)
    | none =>
      match e.waiting with
      | [] => none
      | p :: rest =>
        if (p.opc == 8) != arm then none
        else
          let s' := s.setEft u { e with waiting := rest }
          match matchKern s u p with
          | none => some (eftAnswer (s'.bump 14 0x30 u) u p 7)
          | some k =>
            let slot := slotOf s u k p
            if (s.kctl u k).testBit 19 then (if actRoom s u k p then some (trapAct s' u k p) else none)
            else if !arm && !armed s u slot then some (eftParkPkt s' u p)
            else if !eftRoom s u then none
            else if arm then
              let w := s.flow u (16 * slot)
              let s' := s'.setFlow u (16 * slot) (setBits w 31 31 1)
              let e' := s'.eft u
              some (startRun (s'.setEft u { e' with park := e'.park.map fun y => if sameFlow y.pkt p then { y with ready := true } else y }) u k p)
            else some (startRun s' u k p)

/-- Whether a core can take something. -/
def eftCanTake (s : State) (u : Nat) : Bool := (eftTake s u false).isSome || (eftTake s u true).isSome

/-- EFT_PACKET_ARRIVAL (R77). -/
def execEftPacketArrival (die core : Nat) (k : Pkt) (s : State) : Host.Outcome State Fault Refusal :=
  if die ≥ 4 ∨ core ≥ 12 ∨ k.cls ≠ 3 then .fault .notPossible
  else
    let u := die * 12 + core
    if k.opc = 3 ∨ k.opc = 7 then .next (eftAnswered s u k)
    else if k.opc ≠ 6 ∧ k.opc ≠ 8 then .next (s.bump 14 0x30 u)
    else if (matchKern s u k).isNone then .next (eftAnswer (s.bump 14 0x30 u) u k 7)
    else .next (s.setEft u { s.eft u with waiting := (s.eft u).waiting ++ [k] })

/-- EFT_RUN: a core takes a packet of OPC 0x06, new or replayed (R84, R85). -/
def execEftRun (die core : Nat) (s : State) : Host.Outcome State Fault Refusal :=
  if die ≥ 4 ∨ core ≥ 12 then .fault .notPossible
  else match eftTake s (die * 12 + core) false with
    | some s => .next s
    | none => .fault .notPossible

/-- ARM: a core takes an arm packet (R85). -/
def execArm (die core : Nat) (k : Pkt) (s : State) : Host.Outcome State Fault Refusal :=
  if die ≥ 4 ∨ core ≥ 12 ∨ (s.eft (die * 12 + core)).waiting.head? ≠ some k then .fault .notPossible
  else match eftTake s (die * 12 + core) true with
    | some s => .next s
    | none => .fault .notPossible

/-! Kernel instructions (R87 to R97) -/

/-- A kernel instruction, run by the core that moves. -/
def onRun (s : State) (f : Nat → Run → State) : Host.Outcome State Fault Refusal :=
  match s.cur with
  | .none => .fault .noRun
  | .eft d c =>
    match (s.eft (d * 12 + c)).run with
    | none => .fault .noRun
    | some r => .next (f (d * 12 + c) r)

/-- A scalar operation that writes eD (R89). -/
def eftAlu (d : Nat) (v : Run → Nat) (s : State) : Host.Outcome State Fault Refusal :=
  onRun s fun u r => setRun s u (r.put d (v r)).step

/-- A 17-bit immediate (R89). -/
def eftImm (i : Nat) : Nat := wrap 32 (sext 17 i)

/-- The signed minimum. -/
def eftMinV (a b : Nat) : Nat := if sext 32 a ≤ sext 32 b then a else b
/-- The signed maximum. -/
def eftMaxV (a b : Nat) : Nat := if sext 32 a ≤ sext 32 b then b else a
/-- A left shift by s[4:0]. -/
def eftShlV (a b : Nat) : Nat := a * 2 ^ (b % 32)
/-- A logical right shift by s[4:0]. -/
def eftShrV (a b : Nat) : Nat := a / 2 ^ (b % 32)
/-- A difference mod 2^32. -/
def eftSubV (a b : Nat) : Nat := a + 2 ^ 32 - b

/-- MOVI (R89). -/
def execEftMovi (d h i : Nat) (s : State) : Host.Outcome State Fault Refusal :=
  eftAlu d (fun r => if h = 0 then wrap 32 (sext 21 i) else i % 2 ^ 16 * 2 ^ 16 + r.get d % 2 ^ 16) s
/-- ADD (R89). -/
def execEftAdd (d a b : Nat) (s : State) : Host.Outcome State Fault Refusal := eftAlu d (fun r => r.get a + r.get b) s
/-- ADD with an immediate (R89). -/
def execEftAddImm (d a i : Nat) (s : State) : Host.Outcome State Fault Refusal := eftAlu d (fun r => r.get a + eftImm i) s
/-- SUB (R89). -/
def execEftSub (d a b : Nat) (s : State) : Host.Outcome State Fault Refusal := eftAlu d (fun r => eftSubV (r.get a) (r.get b)) s
/-- SUB with an immediate (R89). -/
def execEftSubImm (d a i : Nat) (s : State) : Host.Outcome State Fault Refusal := eftAlu d (fun r => eftSubV (r.get a) (eftImm i)) s
/-- AND (R89). -/
def execEftAnd (d a b : Nat) (s : State) : Host.Outcome State Fault Refusal := eftAlu d (fun r => r.get a &&& r.get b) s
/-- AND with an immediate (R89). -/
def execEftAndImm (d a i : Nat) (s : State) : Host.Outcome State Fault Refusal := eftAlu d (fun r => r.get a &&& eftImm i) s
/-- OR (R89). -/
def execEftOr (d a b : Nat) (s : State) : Host.Outcome State Fault Refusal := eftAlu d (fun r => r.get a ||| r.get b) s
/-- OR with an immediate (R89). -/
def execEftOrImm (d a i : Nat) (s : State) : Host.Outcome State Fault Refusal := eftAlu d (fun r => r.get a ||| eftImm i) s
/-- XOR (R89). -/
def execEftXor (d a b : Nat) (s : State) : Host.Outcome State Fault Refusal := eftAlu d (fun r => r.get a ^^^ r.get b) s
/-- XOR with an immediate (R89). -/
def execEftXorImm (d a i : Nat) (s : State) : Host.Outcome State Fault Refusal := eftAlu d (fun r => r.get a ^^^ eftImm i) s
/-- SHL (R89). -/
def execEftShl (d a b : Nat) (s : State) : Host.Outcome State Fault Refusal := eftAlu d (fun r => eftShlV (r.get a) (r.get b)) s
/-- SHL with an immediate (R89). -/
def execEftShlImm (d a i : Nat) (s : State) : Host.Outcome State Fault Refusal := eftAlu d (fun r => eftShlV (r.get a) (eftImm i)) s
/-- SHR (R89). -/
def execEftShr (d a b : Nat) (s : State) : Host.Outcome State Fault Refusal := eftAlu d (fun r => eftShrV (r.get a) (r.get b)) s
/-- SHR with an immediate (R89). -/
def execEftShrImm (d a i : Nat) (s : State) : Host.Outcome State Fault Refusal := eftAlu d (fun r => eftShrV (r.get a) (eftImm i)) s
/-- MUL (R89). -/
def execEftMul (d a b : Nat) (s : State) : Host.Outcome State Fault Refusal := eftAlu d (fun r => r.get a * r.get b) s
/-- MUL with an immediate (R89). -/
def execEftMulImm (d a i : Nat) (s : State) : Host.Outcome State Fault Refusal := eftAlu d (fun r => r.get a * eftImm i) s
/-- MIN (R89). -/
def execEftMin (d a b : Nat) (s : State) : Host.Outcome State Fault Refusal := eftAlu d (fun r => eftMinV (r.get a) (r.get b)) s
/-- MIN with an immediate (R89). -/
def execEftMinImm (d a i : Nat) (s : State) : Host.Outcome State Fault Refusal := eftAlu d (fun r => eftMinV (r.get a) (eftImm i)) s
/-- MAX (R89). -/
def execEftMax (d a b : Nat) (s : State) : Host.Outcome State Fault Refusal := eftAlu d (fun r => eftMaxV (r.get a) (r.get b)) s
/-- MAX with an immediate (R89). -/
def execEftMaxImm (d a i : Nat) (s : State) : Host.Outcome State Fault Refusal := eftAlu d (fun r => eftMaxV (r.get a) (eftImm i)) s

/-- The condition codes (R90). -/
def eftCond (cc a b : Nat) : Bool :=
  match cc with
  | 0 => a == b
  | 1 => a != b
  | 2 => decide (sext 32 a < sext 32 b)
  | 3 => decide (sext 32 b ≤ sext 32 a)
  | 4 => a < b
  | _ => b ≤ a

/-- CMP (R90). -/
def execEftCmp (c a b : Nat) (s : State) : Host.Outcome State Fault Refusal :=
  onRun s fun u r => setRun s u { r with c := eftCond c (r.get a) (r.get b) }.step
/-- CMP with an immediate (R90). -/
def execEftCmpImm (c a i : Nat) (s : State) : Host.Outcome State Fault Refusal :=
  onRun s fun u r => setRun s u { r with c := eftCond c (r.get a) (eftImm i) }.step

/-- A branch by OFF where a condition holds (R90). -/
def eftBranch (o : Nat) (taken : Run → Bool) (s : State) : Host.Outcome State Fault Refusal :=
  onRun s fun u r => setRun s u { r with pc := if taken r then r.pc + o else r.pc + 1 }

/-- BF (R90). -/
def execEftBf (o : Nat) (s : State) : Host.Outcome State Fault Refusal := eftBranch o (fun r => r.c) s
/-- BFN (R90). -/
def execEftBfn (o : Nat) (s : State) : Host.Outcome State Fault Refusal := eftBranch o (fun r => !r.c) s
/-- J (R90). -/
def execEftJ (o : Nat) (s : State) : Host.Outcome State Fault Refusal := eftBranch o (fun _ => true) s

/-- HRD (R91). -/
def execEftHrd (d n : Nat) (s : State) : Host.Outcome State Fault Refusal := eftAlu d (fun r => nth r.h n) s
/-- HWR (R91). -/
def execEftHwr (a n : Nat) (s : State) : Host.Outcome State Fault Refusal :=
  onRun s fun u r => setRun s u { r with h := r.h.set n (r.get a) }.step

/-- The address of format M (R92). -/
def Run.addr (r : Run) (a o : Nat) : Nat := (r.get a + o) % 2 ^ 32

/-- Bytes of a kernel's slot range (R92). -/
def kernBytes (s : State) (u k : Nat) : Nat := ((kernSlot s u k).2 - (kernSlot s u k).1 + 1) * 64

/-- The flow word that a byte offset of a kernel's range names. -/
def flowAt (s : State) (u k a : Nat) : Nat := 16 * (kernSlot s u k).1 + a / 4

/-- An access of a format M address, which traps out-of-range where it is not allowed (R92). -/
def eftMem (a o : Nat) (s : State) (ok : Nat → Nat → Nat → Bool) (f : Nat → Run → Nat → State) : Host.Outcome State Fault Refusal :=
  onRun s fun u r =>
    let ad := r.addr a o
    if ok u r.kern ad then f u r ad else eftTrap s u r 1 0 ad

/-- Window accesses (R92). -/
def winOk (ad : Nat) : Bool := ad % 64 == 0 && ad ≤ 192

/-- Flow accesses of a size (R92). -/
def flowOk (s : State) (n u k ad : Nat) : Bool := ad % n == 0 && ad < kernBytes s u k

/-- A 64-byte flow read. -/
def flowRead (s : State) (u w : Nat) : Nat := packElems 32 ((List.range 16).map fun i => s.flow u (w + i))

/-- A 64-byte flow store. -/
def flowWrite (s : State) (u w v : Nat) : State := (List.range 16).foldl (fun s i => s.setFlow u (w + i) (v / 2 ^ (32 * i))) s

/-- PLD (R92). -/
def execEftPld (d a o : Nat) (s : State) : Host.Outcome State Fault Refusal :=
  eftMem a o s (fun _ _ ad => winOk ad) fun u r ad => setRun s u (r.putV d (r.win / 256 ^ ad % 2 ^ 512)).step
/-- PST (R92). -/
def execEftPst (x a o : Nat) (s : State) : Host.Outcome State Fault Refusal :=
  eftMem a o s (fun _ _ ad => winOk ad) fun u r ad =>
    setRun s u { r with win := setBits r.win (8 * ad + 511) (8 * ad) (nth r.v x) }.step
/-- FLD (R92). -/
def execEftFld (d a o : Nat) (s : State) : Host.Outcome State Fault Refusal :=
  eftMem a o s (flowOk s 4) fun u r ad => setRun s u (r.put d (s.flow u (flowAt s u r.kern ad))).step
/-- FST (R92). -/
def execEftFst (x a o : Nat) (s : State) : Host.Outcome State Fault Refusal :=
  eftMem a o s (flowOk s 4) fun u r ad => setRun (s.setFlow u (flowAt s u r.kern ad) (r.get x)) u r.step
/-- FVLD (R92). -/
def execEftFvld (d a o : Nat) (s : State) : Host.Outcome State Fault Refusal :=
  eftMem a o s (flowOk s 64) fun u r ad => setRun s u (r.putV d (flowRead s u (flowAt s u r.kern ad))).step
/-- FVST (R92). -/
def execEftFvst (x a o : Nat) (s : State) : Host.Outcome State Fault Refusal :=
  eftMem a o s (flowOk s 64) fun u r ad => setRun (flowWrite s u (flowAt s u r.kern ad) (nth r.v x)) u r.step

/-- Lanes of a vector register. -/
def eftLanes (w v : Nat) : List Nat := (List.range (512 / w)).map fun i => v / 2 ^ (w * i) % 2 ^ w

/-- Lane-by-lane arithmetic (R93): on integers by `fi`, on values by `ff`, whose flag says invalid. -/
def eftVec (t a b : Nat) (fi : Nat → Nat → Nat) (ff : Num → Num → Num × Bool) : Nat × Bool :=
  if t = 0 then (packElems 32 (List.zipWith (fun x y => fi x y % 2 ^ 32) (eftLanes 32 a) (eftLanes 32 b)), false)
  else
    let w := if t = 1 then 32 else 16
    let m := if t = 1 then 23 else 7
    let l := List.zipWith (fun x y =>
      let p := decIeee m x
      let q := decIeee m y
      let (v, bad) := ff p q
      ((encIeeeR (if t = 1 then 1 else 0) false .rne 0 v).1, bad || p.isNan || q.isNan)) (eftLanes w a) (eftLanes w b)
    (packElems w (l.map (·.1)), l.any (·.2))

/-- A vector operation: an invalid lane traps and writes nothing (R93). -/
def eftVop (d : Nat) (v : Run → Nat × Bool) (s : State) : Host.Outcome State Fault Refusal :=
  onRun s fun u r =>
    let (x, bad) := v r
    if bad then eftTrap s u r 3 0 0 else setRun s u (r.putV d x).step

/-- VADD (R93). -/
def execEftVadd (d a b t _h : Nat) (s : State) : Host.Outcome State Fault Refusal :=
  eftVop d (fun r => eftVec t (nth r.v a) (nth r.v b) (· + ·) fun p q => sumNum false [p, q]) s
/-- VMAX (R93). -/
def execEftVmax (d a b t _h : Nat) (s : State) : Host.Outcome State Fault Refusal :=
  eftVop d (fun r => eftVec t (nth r.v a) (nth r.v b) eftMaxV fun p q => (if p.below q then q else p, false)) s
/-- VMIN (R93). -/
def execEftVmin (d a b t _h : Nat) (s : State) : Host.Outcome State Fault Refusal :=
  eftVop d (fun r => eftVec t (nth r.v a) (nth r.v b) eftMinV fun p q => (if q.below p then q else p, false)) s
/-- VMUL (R93). -/
def execEftVmul (d a b t _h : Nat) (s : State) : Host.Outcome State Fault Refusal :=
  eftVop d (fun r => eftVec t (nth r.v a) (nth r.v b) (· * ·) Num.mul) s

/-- The four kinds of VCVT (R94): kind, half, source, old destination. -/
def eftCvt (t h v old : Nat) : Nat × Bool :=
  if t = 0 then (packElems 32 ((eftLanes 32 v).map fun x => (encIeeeR 1 false .rne 0 (ofInt (sext 32 x))).1), false)
  else if t = 1 then
    let l := (eftLanes 32 v).map (decIeee 23)
    (packElems 32 (l.map fun x => (encInt 32 .rne 0 x).1), l.any Num.isNan)
  else if t = 2 then
    let l := ((eftLanes 16 v).drop (16 * h)).take 16 |>.map (decIeee 7)
    (packElems 32 (l.map fun x => (encIeeeR 1 false .rne 0 x).1), l.any Num.isNan)
  else
    let l := (eftLanes 32 v).map (decIeee 23)
    (setBits old (256 * h + 255) (256 * h) (packElems 16 (l.map fun x => (encIeeeR 0 false .rne 0 x).1)), l.any Num.isNan)

/-- VCVT (R94). -/
def execEftVcvt (d a t h : Nat) (s : State) : Host.Outcome State Fault Refusal :=
  eftVop d (fun r => eftCvt t h (nth r.v a) (nth r.v d)) s

/-! Dispositions (R95 to R97) -/

/-- LEN of the packet as it stands. -/
def Run.len (r : Run) : Nat := bits (nth r.h 2) 19 11

/-- What stops a send: an endpoint that is neither a core nor the sequencer, or LEN above 256 (R95). -/
def fwdTrap (r : Run) : Option Nat := if !epOk (onward (nth r.h 5)).2.2 then some 2 else if r.len > 256 then some 1 else none

/-- The packet sent as it stands to its onward destination. -/
def sendOn (s : State) (u : Nat) (r : Run) : State := eftSend s u r.kern (eftOut s u r.h r.win (onward (nth r.h 5)) r.pkt)

/-- A run ended with an answer to the packet's sender (R86). -/
def finishRun (s : State) (u : Nat) (r : Run) (opc : Nat) : State := endRun (eftAnswer s u r.pkt opc) u

/-- FWD (R95). -/
def execEftFwd (s : State) : Host.Outcome State Fault Refusal :=
  onRun s fun u r =>
    match fwdTrap r with
    | some c => eftTrap s u r c 0 0
    | none => finishRun (sendOn s u r) u r 3

/-- EMIT: at most four of a run; the run goes on (R96). -/
def execEftEmit (s : State) : Host.Outcome State Fault Refusal :=
  onRun s fun u r =>
    if r.emits ≥ 4 then eftTrap s u r 2 0 0
    else match fwdTrap r with
      | some c => eftTrap s u r c 0 0
      | none => setRun (sendOn s u r) u { r with emits := r.emits + 1 }.step

/-- The entries of an MCAST list at a flow address (R95). -/
def mcastList (s : State) (u k ad : Nat) : List Nat :=
  let w := flowAt s u k ad
  (List.range (s.flow u w % 16)).map fun i => s.flow u (w + 1 + i)

/-- MCAST (R95). A list at an address that is misaligned or not below B traps out-of-range with that address, and one that R95 does not
allow traps illegal-operation with address 0 (log entry 129, DESIGN CHOICE). -/
def execEftMcast (a o : Nat) (s : State) : Host.Outcome State Fault Refusal :=
  eftMem a o s (flowOk s 64) fun u r ad =>
    let l := mcastList s u r.kern ad
    if l.isEmpty || l.any fun e => !epOk (onward e).2.2 || bits e 12 0 != 0 then eftTrap s u r 2 0 0
    else if r.len > 256 then eftTrap s u r 1 0 0
    else finishRun (l.foldl (fun t e => eftSend t u r.kern (eftOut t u r.h r.win (onward e) r.pkt)) s) u r 3

/-- DROP (R95). -/
def execEftDrop (s : State) : Host.Outcome State Fault Refusal := onRun s fun u r => finishRun s u r 3
/-- DONE (R95). -/
def execEftDone (s : State) : Host.Outcome State Fault Refusal := onRun s fun u r => finishRun s u r 3
/-- NACK (R95). -/
def execEftNack (s : State) : Host.Outcome State Fault Refusal := onRun s fun u r => finishRun s u r 7
/-- PARK (R95). -/
def execEftPark (s : State) : Host.Outcome State Fault Refusal := onRun s fun u r => endRun (eftParkPkt s u r.pkt) u
/-- TRAP (R95, R97). -/
def execEftTrap (c : Nat) (s : State) : Host.Outcome State Fault Refusal := onRun s fun u r => eftTrap s u r 4 c 0

/-! Held packets (R71, R86) -/

/-- Whether a held packet's retry has come. -/
def retryDue (s : State) (x : Sent) : Bool := x.due != 0 && x.due ≤ s.tsc.toNat

/-- EFT_RETRY (R86). -/
def execEftRetry (die core i : Nat) (s : State) : Host.Outcome State Fault Refusal :=
  let u := die * 12 + core
  let e := s.eft u
  match e.outb[i]? with
  | none => .fault .notPossible
  | some x =>
    if die ≥ 4 ∨ core ≥ 12 ∨ !retryDue s x then .fault .notPossible
    else .next ((s.setEft u { e with outb := e.outb.set i { x with due := 0 } }).post (.packetInject die (eftLeaf u) x.pkt))

/-- Whether a held packet has gone COLL_TODEF ticks without its acknowledgement. -/
def sendLate (s : State) (x : Sent) : Bool := x.at_ + s.rn 4 0x1008 x.part ≤ s.tsc.toNat

/-- EFT_SEND_LOST (R86). -/
def execEftSendLost (die core i : Nat) (s : State) : Host.Outcome State Fault Refusal :=
  let u := die * 12 + core
  match (s.eft u).outb[i]? with
  | none => .fault .notPossible
  | some x => if die ≥ 4 ∨ core ≥ 12 ∨ !sendLate s x then .fault .notPossible else .next (sendLost s u x)

/-! Loading (R78 to R80) -/

/-- Whether a word may stand at index i of a kernel of a length (R79). -/
def wordOk (len i w : Nat) : Bool :=
  match decodeEft w with
  | none => false
  | some (.eftBf o) => i + o < len
  | some (.eftBfn o) => i + o < len
  | some (.eftJ o) => i + o < len
  | some _ => true

/-- Whether a word ends a kernel (R79). -/
def isEnding (w : Nat) : Bool :=
  match decodeEft w with
  | some .eftFwd => true
  | some (.eftMcast _ _) => true
  | some .eftDrop => true
  | some .eftNack => true
  | some .eftPark => true
  | some .eftDone => true
  | some (.eftTrap _) => true
  | _ => false

/-- Whether ranges of two kernels meet. -/
def rangesMeet (a b : Nat × Nat) : Bool := a.1 ≤ b.2 && b.1 ≤ a.2

/-- The verification of a kernel (R79). -/
def kernOk (s : State) (u k : Nat) : Bool :=
  let len := s.kctl u k % 512
  let f := kernFlow s u k
  let sl := kernSlot s u k
  1 ≤ len && len ≤ 256 && (List.range len).all (fun i => wordOk len i (s.imem u (256 * k + i)))
    && isEnding (s.imem u (256 * k + len - 1)) && f.1 ≤ f.2 && sl.1 ≤ sl.2 && f.2 - f.1 ≤ sl.2 - sl.1
    && (List.range 8).all fun j => j == k || !kernOn s u j || (!rangesMeet f (kernFlow s u j) && !rangesMeet sl (kernSlot s u j))

/-- A slot range zeroed (R79). -/
def zeroSlots (s : State) (u lo hi : Nat) : State :=
  { s with regs := s.regs.filter fun p =>
      !(p.1 % 65536 == u && p.1 / 2 ^ 32 == 14 && 0x4000 + 16 * lo ≤ p.1 / 65536 % 65536 && p.1 / 65536 % 65536 < 0x4000 + 16 * (hi + 1)) }

/-- EFT_KCTL written (R78 to R80): a write that clears EN waits for the run in progress, as kernel + 8 × value. A later write is
applied at once, and the one that waits over it when the run ends: R80 does not say which stands (log entry 80, DESIGN
CHOICE). -/
def wrKctl (s : State) (u k v : Nat) : State :=
  let old := s.kctl u k
  let ro := bits old 23 18
  if v.testBit 16 && !old.testBit 16 then
    let s := putKctl s u k v ro 0
    if kernOk s u k then putKctl (zeroSlots s u (kernSlot s u k).1 (kernSlot s u k).2) u k v 0 1 else putKctl s u k v (setBits ro 0 0 1) 0
  else if !v.testBit 16 && old.testBit 16 then
    if (s.eft u).run.isSome then s.setEft u { s.eft u with stopping := (s.eft u).stopping ++ [k + 8 * v] } else disableKern s u k v
  else putKctl s u k v ro (bits old 16 16)

/-- EFT_KERNEL_ENABLE (R79). -/
def execEftKernelEnable (die core kern v : Nat) (s : State) : Host.Outcome State Fault Refusal :=
  let u := die * 12 + core
  if die ≥ 4 ∨ core ≥ 12 ∨ kern ≥ 8 ∨ !v.testBit 16 ∨ kernOn s u kern then .fault .notPossible else .next (wrKctl s u kern v)

/-- EFT_KERNEL_DISABLE (R80). -/
def execEftKernelDisable (die core kern v : Nat) (s : State) : Host.Outcome State Fault Refusal :=
  let u := die * 12 + core
  if die ≥ 4 ∨ core ≥ 12 ∨ kern ≥ 8 ∨ v.testBit 16 ∨ !kernOn s u kern then .fault .notPossible else .next (wrKctl s u kern v)

/-- An instruction word written: ignored while its kernel is enabled (R78). -/
def wrImem (s : State) (u w v : Nat) : State := if kernOn s u (w / 256) then s else s.setN 14 (0x1000 + w) u (v % 2 ^ 32)

/-- EFT_IMEM_WRITE (R78). -/
def execEftImemWrite (die core w v : Nat) (s : State) : Host.Outcome State Fault Refusal :=
  if die ≥ 4 ∨ core ≥ 12 ∨ w ≥ 2048 then .fault .notPossible else .next (wrImem s (die * 12 + core) w v)

/-- Whether a flow-state word lies in the slots of an enabled kernel (R78). -/
def flowHeld (s : State) (u w : Nat) : Bool :=
  (List.range 8).any fun k => kernOn s u k && (kernSlot s u k).1 ≤ w / 16 && w / 16 ≤ (kernSlot s u k).2

/-- EFT_FLOWWIN read (R78). -/
def rdFlowwin (s : State) (u w : Nat) : Nat := if flowHeld s u w then 0 else s.flow u w

/-- EFT_FLOWWIN written (R78). -/
def wrFlowwin (s : State) (u w v : Nat) : State := if flowHeld s u w then s else s.setFlow u w v

/-- EFT_FLOWWIN_ACCESS: a read answers its word to the host, a write stores it (R78). -/
def execEftFlowwinAccess (die core w : Nat) (v : Option Nat) (s : State) : Host.Outcome State Fault Refusal :=
  if die ≥ 4 ∨ core ≥ 12 ∨ w ≥ 16384 then .fault .notPossible
  else match v with
    | none => .next { s with resp := some (some (rdFlowwin s (die * 12 + core) w)) }
    | some x => .next (wrFlowwin s (die * 12 + core) w x)

end Sys2Proof.Machine
end

