-- ==== Sys2Proof/Machine/Coll.lean ====
section
/-! DEFINITION. The collective sequencers (R57 to R73, R76, R409 to R411, R415): polling of the rings, parameter blocks
and groups, reductions, the in-network protocol, answers, parking and timeouts. -/

namespace Sys2Proof.Machine

/-- The source number of a sequencer. -/
def srcSeq (die : Nat) : Nat := srcNo die 7 0

/-! Parameter blocks (R62 to R64) -/

/-- Doubleword k of a parameter block. -/
def COp.dw (o : COp) (k : Nat) : Nat := o.raw / 2 ^ (64 * k) % 2 ^ 64
/-- OP. -/
def COp.op (o : COp) : Nat := o.dw 0 % 256
/-- REDOP. -/
def COp.redop (o : COp) : Nat := bits (o.dw 0) 15 8
/-- DTYPE. -/
def COp.dtype (o : COp) : Nat := bits (o.dw 0) 23 16
/-- ALGO. -/
def COp.algo (o : COp) : Nat := bits (o.dw 0) 31 24
/-- GROUP. -/
def COp.group (o : COp) : Nat := bits (o.dw 0) 47 32
/-- SEND. -/
def COp.sendVa (o : COp) : Nat := o.dw 1
/-- RECV. -/
def COp.recvVa (o : COp) : Nat := o.dw 2
/-- COUNT. -/
def COp.count (o : COp) : Nat := o.dw 3
/-- V. -/
def COp.eftV (o : COp) : Bool := (o.dw 4).testBit 31
/-- ROOT. -/
def COp.root (o : COp) : Nat := o.dw 8 % 2 ^ 16
/-- The flow key (R76). -/
def COp.flowKey (o : COp) : Nat := if o.eftV then bits (o.dw 4) 47 32 else o.group
/-- Whether the block reduces. -/
def COp.reducing (o : COp) : Bool := o.op == 0 || o.op == 1 || o.op == 4

/-- Bits of an element of a format (R248). -/
def fmtWidth (f : Nat) : Nat := [16, 32, 8, 4, 8, 16, 32, 32].getD f 32

/-- Bytes of a number of elements. -/
def COp.bytes (o : COp) (n : Nat) : Nat := (n * fmtWidth o.dtype + 7) / 8

/-- A member entry: its chip, logical die, cluster and tile (R63). -/
def memberOf (e : Nat) : Nat × Nat × Nat × Nat := (bits e 11 0, bits e 13 12, bits e 17 14, bits e 20 18)

/-- The members that a group's table lists (R63, R73); none where COLL_GTB is 0 or the table cannot be read. -/
def groupOf (s : State) (part grp die : Nat) : State × List Nat :=
  let gtb := s.rn 4 0x1007 part
  if gtb = 0 then (s, [])
  else match vaRead s part ((gtb + 16 * grp) % 2 ^ 64) 16 die with
    | (s, .error _) => (s, [])
    | (s, .ok e) =>
      let n := leNat (e.drop 8) % 2 ^ 13
      match vaRead s part (leNat (e.take 8)) (4 * n) die with
      | (s, .error _) => (s, [])
      | (s, .ok l) => (s, (List.range n).map fun i => leNat ((l.drop (4 * i)).take 4))

/-- The caller's entry: its chip and home tile (R63). -/
def ownEntry (s : State) (l : Live) : Nat × Nat × Nat × Nat := (s.chipNo, l.g / 128, l.g / 8 % 16, l.g % 8)

/-- The rank of a tile in a group. -/
def rankIn (ms : List Nat) (me : Nat × Nat × Nat × Nat) : Option Nat := ms.findIdx? fun e => memberOf e == me

/-- Whether a block is ill-formed (R64); a DTYPE that names no format is (log entry 23). Nonzero bits 30:21 of a member entry and
63:13 of a group entry's doubleword 1 are ignored: R63 gives them no consequence (log entry 118, DESIGN CHOICE). -/
def blockBad (o : COp) : Bool :=
  bits (o.dw 0) 63 48 != 0 || bits (o.dw 4) 63 48 != 0 || bits (o.dw 4) 30 21 != 0 || bits (o.dw 8) 63 16 != 0
    || o.raw / 2 ^ 576 != 0 || o.op > 8 || o.redop > 4 || o.algo > 3 || o.dtype > 7 || o.sendVa % 64 != 0 || o.recvVa % 64 != 0
    || o.dw 5 % 8 != 0 || o.dw 7 % 32 != 0 || o.count ≥ 2 ^ 32 || o.group > 255 || o.members.isEmpty || o.members.length > 4096
    || o.members.any (fun e => !e.testBit 31) || o.rank ≥ o.n || o.root ≥ o.n
    || (o.reducing && (o.dtype == 2 || o.dtype == 3 || o.dtype == 7)) || (o.redop ≥ 3 && o.dtype ≤ 3)

/-- The match signature (R64), for an OP: a send's packets carry that of the receive that takes them (log entry 24). -/
def COp.sigOf (o : COp) (op : Nat) : W32 :=
  mix (BitVec.ofNat 32 (op ^^^ (o.redop * 2 ^ 8) ^^^ (o.dtype * 2 ^ 16) ^^^ (o.group * 2 ^ 20) ^^^ (o.count % 2 ^ 32))
    ^^^ (BitVec.ofNat 32 o.seqno).rotateLeft 11)

/-- The signature of a block. -/
def COp.sig (o : COp) : W32 := o.sigOf o.op

/-- The algorithm of a block (R66, R409): 1 ring, 2 tree, 3 in-network, by the choice of R66 or by ALGO 3 with V = 1, of any OP
(log entry 84). -/
def pickAlg (o : COp) : Nat :=
  let auto := if o.eftV ∧ o.op ≤ 1 then 3 else if o.bytes o.count ≤ 65536 then 2 else 1
  let a := if o.algo = 0 ∨ (o.algo = 3 ∧ !o.eftV) then auto else o.algo
  if a = 3 ∧ o.n > 15 then 2 else a

/-- The tag of a line that a reduction writes whole (R69). -/
def COp.redTag (o : COp) : W32 := mix (BitVec.ofNat 32 (0x52440000 ^^^ o.group ^^^ (o.redop * 2 ^ 8) ^^^ o.dtype))

/-! Writes of a receive buffer (R69, R241) -/

/-- A piece within one line written by a sequencer. -/
def seqPut (s : State) (die part va : Nat) (b : List Nat) (tag : W32) : State × Option Bad := vaPut s part va b (srcSeq die) tag

/-- Bytes written line by line, up to the first fault; `tag` gives a whole line's tag by its offset. -/
def seqWrite (s : State) (die part va : Nat) (b : List Nat) (tag : Nat → W32) : State × Option Bad :=
  (pieces va b.length).foldl (fun (r : State × Option Bad) p =>
    match r.2 with
    | some e => (r.1, some e)
    | none =>
      let o := (p.1 + 2 ^ 64 - va) % 2 ^ 64
      seqPut r.1 die part p.1 ((b.drop o).take p.2) (tag o)) (s, none)

/-! Completion (R65, R72) -/

/-- A block leaves its sequencer, with the packets that it holds, those that still wait to enter the network among them (R64,
R71); its key and signature are kept for R76. -/
def dropOp (s : State) (die : Nat) (o : COp) : State :=
  let q := s.seqr die
  let mine := (q.sent.filter (·.op == o.id)).map (·.pkt.rid)
  { s.setSeqr die { q with
      ops := q.ops.filter (·.id != o.id), sent := q.sent.filter (·.op != o.id),
      recent := q.recent ++ [(o.part * 2 ^ 16 + o.flowKey, o.sig.toNat, s.tsc.toNat)] } with
    events := if mine.isEmpty then s.events else s.events.filter fun i => match i with
      | .packetInject _ _ k => !(k.src == srcSeq die && (k.opc == 6 || k.opc == 8) && mine.contains k.rid)
      | _ => true }

/-- The flag raised by a bank-ALU increment, with release at package scope (R65). -/
def collFlag (s : State) (die part va : Nat) : State × Option Bad := relFlag s part va (srcNo die 7 0) false

/-- The status record and then the flag (R65): code, contributions combined, missing ranks. -/
def collDone (s : State) (die : Nat) (o : COp) (code combined : Nat) (missing : List Nat) : State :=
  let report := fun (r : State × Option Bad) => match r.2 with
    | some b => emitFault r.1 o.part (srcSeq die) b
    | none => r.1
  let ranks := (missing.take 12 ++ List.replicate 12 0xFFFF).take 12
  let rec_ := leBytes 8 (code + flagIf (missing.length > 12) 256 + combined % 2 ^ 32 * 2 ^ 32) ++ ranks.flatMap (leBytes 2)
  let s := if o.dw 7 = 0 then s else report (seqWrite s die o.part (o.dw 7) rec_ fun _ => 0)
  if o.dw 5 = 0 then s else report (collFlag s die o.part (o.dw 5))

/-- An armed block completed. -/
def finishOp (s : State) (die : Nat) (o : COp) (code combined : Nat) (missing : List Nat) : State :=
  collDone (dropOp s die o) die o code combined missing

/-- An armed block completed by a fault of its send or receive access (R65). -/
def faultOp (s : State) (die : Nat) (o : COp) (b : Bad) : State :=
  finishOp (emitFault s o.part (srcSeq die) b) die o 5 0 []

/-! Contributions (R66, R69) -/

/-- Bytes of a member's send buffer, by OP. -/
def COp.sendLen (o : COp) : Nat :=
  if o.op = 4 then o.bytes (o.n * o.count) else if o.op = 5 then o.n * o.bytes o.count
  else if o.op = 6 ∨ o.op = 8 then 0 else o.bytes o.count

/-- The send buffer as read: its place in a line, its bytes, the tags of its whole lines. -/
def contribution (s : State) (die : Nat) (o : COp) : State × Except Bad (List Nat) :=
  match vaRead s o.part o.sendVa o.sendLen die with
  | (s, .error b) => (s, .error b)
  | (s, .ok l) =>
    let base := (o.sendVa + 255) / 256 * 256
    (s, .ok (o.sendVa % 256 :: l ++ (List.range (o.sendLen / 256 + 1)).map fun j => (srcTag s o.part ((base + 256 * j) % 2 ^ 64)).toNat))

/-- The bytes of a contribution of length n. -/
def cBytes (c : List Nat) (n : Nat) : List Nat := (c.drop 1).take n

/-- The tag of the whole source line at an offset, or 0 (R69). -/
def cTag (c : List Nat) (n o : Nat) : W32 :=
  let a := c.headD 0
  if (a + o) % 256 = 0 ∧ o + 256 ≤ n then BitVec.ofNat 32 (c.getD (1 + n + (a + o - (a + 255) / 256 * 256) / 256) 0) else 0

/-! Reductions (R67, R68) -/

/-- A value of a format as a reduction holds it: BF16 in FP32. -/
def redLoad (dt v : Nat) : Nat := if dt = 0 then v * 2 ^ 16 else v

/-- One combination (R68). -/
def redOne (redop dt a b : Nat) : Nat :=
  if dt ≤ 1 then
    let p := decIeee 23 a
    let q := decIeee 23 b
    let v : Num := if redop = 0 then (sumNum false [p, q]).1
      else if p.isNan || q.isNan then .nan
      else if redop = 1 then (if q.below p then q else p) else (if p.below q then q else p)
    (encIeeeR 1 false .rne 0 v).1
  else
    let w := fmtWidth dt
    if redop = 0 then (a + b) % 2 ^ w
    else if redop = 1 then (if sext w a ≤ sext w b then a else b)
    else if redop = 2 then (if sext w a ≤ sext w b then b else a)
    else if redop = 3 then a ||| b else a &&& b

/-- The result as written (R68): BF16 rounded once; a NaN is the canonical one. -/
def redStore (dt v : Nat) : Nat :=
  if dt = 0 then (encIeeeR 0 false .rne 0 (decIeee 23 v)).1
  else if dt = 1 then (encIeeeR 1 false .rne 0 (decIeee 23 v)).1 else v

/-- Neighbours combined. -/
def pairUp (f : Nat → Nat → Nat) : List Nat → List Nat
  | a :: b :: t => f a b :: pairUp f t
  | l => l

/-- The binomial tree rooted at rank 0 (R67): fuel. -/
def treeRed (f : Nat → Nat → Nat) : Nat → List Nat → Nat
  | 0, l => l.headD 0
  | k + 1, l => if l.length ≤ 1 then l.headD 0 else treeRed f k (pairUp f l)

/-- The ring order of a chunk (R67). -/
def ringRed (f : Nat → Nat → Nat) (c : Nat) (l : List Nat) : Nat :=
  let n := l.length
  match (List.range n).map fun j => l.getD ((c + 1 + j) % n) 0 with
  | [] => 0
  | x :: t => t.foldl f x

/-- Element i of a reduction from the members' parts in rank order; `c` is its chunk. -/
def redElem (o : COp) (cs : List (List Nat)) (c i : Nat) : Nat :=
  let k := fmtWidth o.dtype / 8
  let xs := cs.map fun x => redLoad o.dtype (leNat ((x.drop (k * i)).take k))
  let f := redOne o.redop o.dtype
  redStore o.dtype (if o.alg = 1 then ringRed f c xs else treeRed f 13 xs)

/-- The chunk of an element: of a reduce-scatter the rank that receives it; else a free value (R67, log entry 21, DESIGN
CHOICE). -/
def COp.chunk (o : COp) (i : Nat) : Nat := if o.op = 4 then o.rank else Config.chunk o.n o.count i % o.n

/-- A reduction's result as bytes. -/
def redBytes (o : COp) (cs : List (List Nat)) : List Nat :=
  (List.range o.count).flatMap fun i => leBytes (fmtWidth o.dtype / 8) (redElem o cs (o.chunk i) i)

/-! The transfers of a ring or tree block (R66, R69 to R72, log entries 25, 115) -/

/-- The bytes that each member of a block gives to a member. -/
def COp.nb (o : COp) : Nat := o.bytes o.count

/-- The offset of the part of a rank: in the receive buffer, or among the contributions of a reduction (log entry 25). -/
def COp.ofsOf (o : COp) (r : Nat) : Nat := if o.op = 2 ∨ o.op = 7 ∨ o.op = 8 then 0 else if o.op = 6 then r else r * o.nb

/-- The offset in the send buffer of what goes to a rank (log entry 25). -/
def COp.partFor (o : COp) (r : Nat) : Nat := if o.op = 4 ∨ o.op = 5 then r * o.nb else 0

/-- The ranks other than a member's own. -/
def COp.others (o : COp) : List Nat := (List.range o.n).filter (· != o.rank)

/-- The ranks to which a member sends its data. -/
def sendsTo (o : COp) : List Nat :=
  match o.op with
  | 1 => if o.rank = o.root then [] else [o.root]
  | 2 => if o.rank = o.root then o.others else []
  | 7 => [o.root]
  | 8 => []
  | _ => o.others

/-- The ranks whose data a member needs (R72). -/
def wants (o : COp) : List Nat :=
  match o.op with
  | 1 => if o.rank = o.root then o.others else []
  | 2 => if o.rank = o.root then [] else [o.root]
  | 7 => []
  | 8 => [o.root]
  | _ => o.others

/-- How far accepted pieces reach from an offset: fuel. -/
def coverTo (l : List (Nat × Nat)) : Nat → Nat → Nat
  | 0, p => p
  | f + 1, p => match l.find? fun x => x.1 ≤ p && p < x.1 + x.2 with
    | some x => coverTo l f (x.1 + x.2)
    | none => p

/-- Whether the data of a rank has come whole; of a barrier it is a packet with no payload. -/
def dataFrom (o : COp) (r : Nat) : Bool :=
  let p := o.ofsOf r % 2 ^ 32
  if o.op = 6 then o.covered.contains (p, 0) else coverTo o.covered o.covered.length p ≥ p + o.nb

/-- Whether a packet of a block for a rank awaits its answer. -/
def unanswered (s : State) (die : Nat) (o : COp) (r : Nat) : Bool :=
  (s.seqr die).sent.any fun x => x.op == o.id && x.pkt.who == r + 1

/-- Whether a ring or tree block has all that it needs: data, and the answers to what it sent (R72). -/
def ringReady (s : State) (die : Nat) (o : COp) : Bool :=
  (wants o).all (dataFrom o) && !(s.seqr die).sent.any fun x => x.op == o.id

/-- Contributions combined into a member's result (R65), of those that have come. Of an op that combines nothing: 1 where a
broadcast's or receive's data has come, 0 for a send, and for barrier, all-gather and all-to-all the members whose part has
(log entry 119, DESIGN CHOICE). -/
def combined (o : COp) : Nat :=
  let has := fun (r : Nat) => (r == o.rank && o.op != 8) || dataFrom o r
  let all := ((List.range o.n).filter has).length
  match o.op with
  | 1 => if o.rank = o.root then all else 0
  | 2 => if has o.root then 1 else 0
  | 7 => 0
  | 8 => if has o.root then 1 else 0
  | _ => all

/-- The staged bytes of a part of a reduction, n from offset p on: a byte that has not come is given by `miss`. -/
def stagedBytes (o : COp) (p n : Nat) (miss : Nat → Nat) : List Nat :=
  (List.range n).map fun i => (o.data.findSome? fun d => if d.1 ≤ p + i then d.2[p + i - d.1]? else none).getD (miss i)

/-- What a reduction writes at the receive buffer from the members' parts: nothing where the member is not the root of a
reduce. -/
def redResult (o : COp) (cs : List (List Nat)) : List Nat := if o.op = 1 ∧ o.rank ≠ o.root then [] else redBytes o cs

/-- What a member writes of its own contribution: offset, bytes, and the tag of a whole line by its offset. The root of a broadcast
writes its own receive buffer too: R62 does not say (log entry 120, DESIGN CHOICE). -/
def ownWrites (o : COp) (c : List Nat) : List (Nat × List Nat × (Nat → W32)) :=
  let len := o.sendLen
  let at_ := o.partFor o.rank
  if o.op = 3 ∨ o.op = 5 ∨ (o.op = 2 ∧ o.rank = o.root) then
    [(o.ofsOf o.rank, ((cBytes c len).drop at_).take o.nb, fun x => cTag c len (at_ + x))]
  else []

/-- What a member's receive buffer takes when its block is brought to its end (R67, R69); what other members sent outside a
reduction is there already. -/
def resultOf (o : COp) (own : List Nat) (cs : List (List Nat)) : List (Nat × List Nat × (Nat → W32)) :=
  if o.reducing then [(0, redResult o cs, fun _ => o.redTag)] else ownWrites o own

/-- A block replaced. -/
def setOp (s : State) (die : Nat) (o : COp) : State :=
  let q := s.seqr die
  s.setSeqr die { q with ops := q.ops.map fun p => if p.id = o.id then o else p }

/-- A ring or tree block that has all it needs is brought to its end (R66 to R69). Where offsets have wrapped at 2^32 and hide a
part of a reduction, its bytes are free values (log entry 115). -/
def runOp (s : State) (die : Nat) (o : COp) : State :=
  match contribution s die o with
  | (s', .error b) => faultOp s' die o b
  | (s', .ok own) =>
    let cs := (List.range o.n).map fun r => stagedBytes o (o.ofsOf r) o.nb fun i => Config.lost s.tick r i % 256
    let (s', bad) := (resultOf o own cs).foldl (fun (a : State × Option Bad) w =>
      match a.2 with
      | some b => (a.1, some b)
      | none => seqWrite a.1 die o.part ((o.recvVa + w.1) % 2 ^ 64) w.2.1 w.2.2) (s', none)
    match bad with
    | some b => faultOp s' die o b
    | none => finishOp s' die o 1 (combined o) []

/-- A ring or tree block of an OP, of a partition, runs; it waits while data or answers that it needs have not come. -/
def onOp (op die id part : Nat) (s : State) (again : Instr) : Host.Outcome State Fault Refusal :=
  match (s.seqr die).ops.find? (·.id == id) with
  | none => .fault .notPossible
  | some o =>
    if o.op ≠ op ∨ o.part ≠ part ∨ o.alg = 3 then .fault .notPossible
    else .next (if ringReady s die o then runOp s die o else s.post again)

/-- ALL_REDUCE (R66 to R69). -/
def execAllReduce (die op part : Nat) (s : State) : Host.Outcome State Fault Refusal := onOp 0 die op part s (.allReduce die op part)
/-- REDUCE (R66 to R69). -/
def execReduce (die op part : Nat) (s : State) : Host.Outcome State Fault Refusal := onOp 1 die op part s (.reduce die op part)
/-- BROADCAST (R69). -/
def execBroadcast (die op part : Nat) (s : State) : Host.Outcome State Fault Refusal := onOp 2 die op part s (.broadcast die op part)
/-- ALL_GATHER (R69). -/
def execAllGather (die op part : Nat) (s : State) : Host.Outcome State Fault Refusal := onOp 3 die op part s (.allGather die op part)
/-- REDUCE_SCATTER (R67). -/
def execReduceScatter (die op part : Nat) (s : State) : Host.Outcome State Fault Refusal := onOp 4 die op part s (.reduceScatter die op part)
/-- ALL_TO_ALL (R69). -/
def execAllToAll (die op part : Nat) (s : State) : Host.Outcome State Fault Refusal := onOp 5 die op part s (.allToAll die op part)
/-- BARRIER (R62). -/
def execBarrier (die op part : Nat) (s : State) : Host.Outcome State Fault Refusal := onOp 6 die op part s (.barrier die op part)
/-- SEND (R62). -/
def execSend (die op part : Nat) (s : State) : Host.Outcome State Fault Refusal := onOp 7 die op part s (.send die op part)
/-- RECEIVE (R62). -/
def execReceive (die op part : Nat) (s : State) : Host.Outcome State Fault Refusal := onOp 8 die op part s (.receive die op part)

/-- The event by which a ring or tree block is brought to its end. -/
def opEvent (die : Nat) (o : COp) : Instr :=
  match o.op with
  | 0 => .allReduce die o.id o.part
  | 1 => .reduce die o.id o.part
  | 2 => .broadcast die o.id o.part
  | 3 => .allGather die o.id o.part
  | 4 => .reduceScatter die o.id o.part
  | 5 => .allToAll die o.id o.part
  | 6 => .barrier die o.id o.part
  | 7 => .send die o.id o.part
  | _ => .receive die o.id o.part

/-! The in-network protocol (R409 to R411) -/

/-- A packet of the sequencer to the core that a block names, with the tag of the source line that is its payload (R69, R409, R410). -/
def corePkt (s : State) (die : Nat) (o : COp) (opc ofs : Nat) (b : List Nat) (ltag : W32) : Pkt :=
  let h := o.dw 4
  let chip := bits h 11 0
  { cls := 3, ddie := if chip = s.chipNo then s.physDie (bits h 13 12) else bits h 13 12, dep := bits h 17 14, part := o.part,
    src := srcSeq die, dchip := chip, flow := o.flowKey, len := b.length, tag := o.sig.toNat, opc := opc, payload := leNat b,
    va := s.chipNo * 2 ^ 52 + (memberOf (o.members.getD o.rank 0)).2.1 * 2 ^ 50 + 27 * 2 ^ 45 + s.chipNo * 2 ^ 32 + ofs % 2 ^ 32,
    ltag := some ltag.toNat, schip := s.chipNo }

/-- A packet sent and held until its answer (R71). -/
def seqSend (s : State) (die : Nat) (o : COp) (p : Pkt) : State :=
  let (rid, s) := s.fresh
  let p := { p with rid := rid }
  let q := s.seqr die
  let x : Sent := { pkt := p, kern := 0, part := o.part, job := 0, at_ := s.tsc.toNat, tries := 0, due := 0, op := o.id }
  (s.setSeqr die { q with sent := q.sent ++ [x] }).post (.packetInject die 6 p)

/-- A packet of a ring or tree block to a rank, of at most 256 bytes of its send buffer (R47, R64, R66, R76). -/
def ringPkt (s : State) (die : Nat) (o : COp) (r ofs : Nat) (b : List Nat) (ltag : W32) : Pkt :=
  let (chip, ldie, _, _) := memberOf (o.members.getD r 0)
  { cls := 2, ddie := if chip = s.chipNo then s.physDie ldie else ldie, dep := 27, part := o.part, src := srcSeq die, dchip := chip,
    flow := o.flowKey, len := b.length, tag := (o.sigOf (if o.op = 7 then 8 else o.op)).toNat, opc := 6, payload := leNat b,
    va := s.chipNo * 2 ^ 52 + (memberOf (o.members.getD o.rank 0)).2.1 * 2 ^ 50 + 27 * 2 ^ 45 + s.chipNo * 2 ^ 32 + ofs % 2 ^ 32,
    who := r + 1, ltag := some ltag.toNat, schip := s.chipNo }

/-- A contribution's part for a rank sent, cut at its source lines; of a barrier, a packet with no payload (R66, R69, R71). -/
def sendPart (s : State) (die : Nat) (o : COp) (c : List Nat) (r : Nat) : State :=
  let len := o.sendLen
  let p := o.partFor r
  if o.op = 6 then seqSend s die o (ringPkt s die o r (o.ofsOf o.rank) [] 0)
  else (cuts (fun _ => 256) (o.nb / 256 + 2) (o.sendVa + p) o.nb).foldl (fun t x =>
    let d := x.1 - (o.sendVa + p)
    seqSend t die o (ringPkt t die o r (o.ofsOf o.rank + d) (((cBytes c len).drop (p + d)).take x.2) (cTag c len (p + d)))) s

/-- A ring or tree block sends its contribution; of a reduction it stages its own part. A fault of the send buffer ends the block
(R65, R66). -/
def sendRing (s : State) (die : Nat) (o : COp) : State :=
  match contribution s die o with
  | (s, .error b) => faultOp s die o b
  | (s, .ok c) =>
    let own := ((cBytes c o.sendLen).drop (o.partFor o.rank)).take o.nb
    let s := if o.reducing then setOp s die { o with data := [(o.ofsOf o.rank, own)] } else s
    ((sendsTo o).foldl (fun t r => sendPart t die o c r) s).post (opEvent die o)

/-- The packets of a member's contribution: of a barrier, which moves no data, one with no payload (R409). -/
def COp.ownPkts (o : COp) : Nat := if o.op = 6 then 1 else (o.sendLen + 255) / 256

/-- A member's contribution cut into packets and sent; a fault of the send buffer ends the block (R65, R409). -/
def sendOwn (s : State) (die : Nat) (o : COp) : State :=
  match contribution s die o with
  | (s, .error b) => faultOp s die o b
  | (s, .ok c) =>
    let len := o.sendLen
    let s := setOp s die { o with armed := true }
    (List.range o.ownPkts).foldl (fun s i =>
      seqSend s die o (corePkt s die o 6 (256 * i) (((cBytes c len).drop (256 * i)).take 256) (cTag c len (256 * i)))) s

/-- The payload of the arm packet: an MCAST list of the members (R410). -/
def armList (o : COp) : List Nat :=
  let e := fun (m : Nat) => let (c, d, _, _) := memberOf m
                            c * 2 ^ 20 + d * 2 ^ 18 + 27 * 2 ^ 13
  ((o.n :: o.members.map e) ++ List.replicate 16 0).take 16 |>.flatMap (leBytes 4)

/-- A member completes once results cover its buffer and its packets are acknowledged (R409). -/
def checkNet (s : State) (die id : Nat) : State :=
  match (s.seqr die).ops.find? (·.id == id) with
  | none => s
  | some o =>
    if o.alg = 3 ∧ o.armed ∧ !(s.seqr die).sent.any (·.op == id) ∧ coverTo o.covered o.covered.length 0 ≥ o.bytes o.count then
      finishOp s die o 1 o.n []
    else s

/-! Data packets (R64, R70, R71, R76) -/

/-- A sequencer answers a packet (R415). -/
def seqAnswer (s : State) (die : Nat) (k : Pkt) (opc reason : Nat) : State :=
  s.post (.packetInject die 6 (answerPkt s die (srcSeq die) 27 k opc reason))

/-- Whether a line lies in a receive buffer and packets have covered it whole. -/
def lineWhole (o : COp) (va : Nat) : Bool :=
  o.recvVa ≤ va && va + 256 ≤ o.recvVa + o.nb && coverTo o.covered o.covered.length (va - o.recvVa) ≥ va - o.recvVa + 256

/-- The lines that n bytes at a VA touch and that packets of a reduction have covered whole take its tag (R69). -/
def tagWhole (s : State) (o : COp) (va n : Nat) : State :=
  (List.range 2).foldl (fun s k =>
    let a := va / 256 * 256 + 256 * k
    if a < va + n && lineWhole o a then
      (match sramLoc s o.part (vaClass s.capSpad a) true with
       | .ok loc => setTag s loc o.redTag
       | .error _ => s)
    else s) s

/-- What FINJ_CTL does with a sequencer's next write to a VA (R399). -/
def injected (s : State) (part va : Nat) : Nat := ((exchangeOf s part va).map fun c => (finjAct s c).2).getD 0

/-- A data packet taken by an armed block and acknowledged: a reduction by ring or tree stages it; else it is written at RECV + OFS,
with the tag of R69 (R76, R409). A fault ends the block. -/
def takeData (s : State) (die : Nat) (o : COp) (k : Pkt) : State :=
  let ofs := k.va % 2 ^ 32
  let b := leBytes k.len k.payload
  let o' := { o with covered := o.covered ++ [(ofs, k.len)] }
  if o.reducing && o.alg != 3 then setOp (seqAnswer s die k 3 0) die { o' with data := o.data ++ [(ofs, b)] }
  else
    let va := (o.recvVa + ofs) % 2 ^ 64
    let tag : W32 := if o.reducing then o.redTag else BitVec.ofNat 32 (k.ltag.getD (Config.farTag s.tick))
    match seqWrite s die o.part va b (fun _ => tag) with
    | (t, some e) => faultOp (seqAnswer t die k 7 0) die o e
    | (t, none) =>
      let s := if o.reducing && injected s o.part va = 0 then tagWhole t o' va k.len else t
      checkNet (setOp (seqAnswer s die k 3 0) die o') die o.id

/-- Whether a packet is one of a block completed within COLL_PARKTO ticks (R76). -/
def isRecent (s : State) (die : Nat) (k : Pkt) : Bool :=
  (s.seqr die).recent.any fun r => r.1 == k.part * 2 ^ 16 + k.flow && r.2.1 == k.tag && s.tsc.toNat ≤ r.2.2 + s.rn 4 0x1009 k.part

/-- Armed blocks of a packet's partition and flow key. -/
def keyedOps (s : State) (die : Nat) (k : Pkt) : List COp :=
  (s.seqr die).ops.filter fun o => o.part == k.part && o.flowKey == k.flow

/-- An early arrival parked, or NACKed where the park is full (R70, R71). -/
def seqPark (s : State) (die : Nat) (k : Pkt) : State :=
  let q := s.seqr die
  if q.park.length < 32 then s.setSeqr die { q with park := q.park ++ [⟨k, s.tsc.toNat, false⟩] } else seqAnswer s die k 7 0

/-- A data packet handled: by the oldest armed block of its key and signature (R76, R64, R70, R71). -/
def takeColl (s : State) (die : Nat) (k : Pkt) : State :=
  let keyed := keyedOps s die k
  match keyed.find? (fun o => o.sig.toNat == k.tag), keyed with
  | some o, _ => takeData s die o k
  | none, o :: _ => finishOp (seqAnswer s die k 7 1) die o 3 0 []
  | none, [] => if isRecent s die k then seqAnswer s die k 3 0 else seqPark s die k

/-- COLLECTIVE_DATA (R76). -/
def execCollectiveData (die : Nat) (k : Pkt) (s : State) : Host.Outcome State Fault Refusal :=
  if die ≥ 4 ∨ k.opc ≠ 6 then .fault .notPossible else .next (takeColl s die k)

/-- The parked packets of a block's flow are handled, oldest first (R70). -/
def unpark (s : State) (die : Nat) (o : COp) : State :=
  let q := s.seqr die
  let hit := fun (x : Parked) => x.pkt.part == o.part && x.pkt.flow == o.flowKey
  let mine := q.park.filter hit
  let s := s.setSeqr die { q with park := q.park.filter fun x => !hit x }
  mine.foldl (fun s x => takeColl s die x.pkt) s

/-! Answers (R71, R415) -/

/-- The destination of a held packet as its block names it: chip, logical die and endpoint (R63, R409, R415). -/
def sentTo (o : COp) (p : Pkt) : Nat :=
  if p.cls = 2 then
    (let (chip, ldie, _, _) := memberOf (o.members.getD (p.who - 1) 0)
     chip * 2 ^ 7 + ldie * 2 ^ 5 + 27)
  else bits (o.dw 4) 11 0 * 2 ^ 7 + bits (o.dw 4) 13 12 * 2 ^ 5 + bits (o.dw 4) 17 14

/-- Whether an answer matches a held packet of a block (R415). -/
def seqMatch (o : COp) (x : Sent) (a : Pkt) : Bool :=
  x.pkt.flow == a.flow && x.pkt.va % 2 ^ 32 == a.va % 2 ^ 32 && x.pkt.tag == a.tag && bits a.va 63 45 == sentTo o x.pkt

/-- The held packet that an answer matches, the oldest, and its block (R415). -/
def seqHeld (s : State) (die : Nat) (a : Pkt) : Option (Sent × COp) :=
  let q := s.seqr die
  q.sent.findSome? fun x => match q.ops.find? (·.id == x.op) with
    | some o => if seqMatch o x a then some (x, o) else none
    | none => none

/-- A held packet released. -/
def releaseSent (s : State) (die rid : Nat) : State :=
  let q := s.seqr die
  s.setSeqr die { q with sent := q.sent.filter fun x => x.pkt.rid != rid }

/-- ANSWER: an acknowledgement releases its packet; the root's contribution follows that of the arm packet (R409, R415). An
answer that matches nothing is discarded. -/
def execAnswer (die : Nat) (k : Pkt) (s : State) : Host.Outcome State Fault Refusal :=
  if die ≥ 4 ∨ k.opc ≠ 3 then .fault .notPossible
  else match seqHeld s die k with
    | none => .next s
    | some (x, o) =>
      let s := releaseSent (onReply s (srcSeq die) k.echo x.pkt.q) die x.pkt.rid
      let s := if x.pkt.opc = 8 then sendOwn s die o else s
      .next (checkNet s die o.id)

/-- NACK: REASON 1 ends the block with mismatch, any other schedules a retry (R64, R71). -/
def execNack (die : Nat) (k : Pkt) (s : State) : Host.Outcome State Fault Refusal :=
  if die ≥ 4 ∨ k.opc ≠ 7 then .fault .notPossible
  else match seqHeld s die k with
    | none => .next s
    | some (x, o) =>
      let s := onReply s (srcSeq die) k.echo x.pkt.q
      if k.reason = 1 then .next (finishOp s die o 3 0 [])
      else
        let q := s.seqr die
        let y := { x with tries := x.tries + 1, due := s.tsc.toNat + retryWait (x.tries + 1) }
        .next (s.setSeqr die { q with sent := q.sent.map fun z => if z.pkt.rid = x.pkt.rid then y else z })

/-- COLLECTIVE_RETRY (R71): held packet i, of block `op`. -/
def execCollectiveRetry (die op i : Nat) (s : State) : Host.Outcome State Fault Refusal :=
  let q := s.seqr die
  match q.sent[i]? with
  | none => .fault .notPossible
  | some x =>
    if x.op ≠ op ∨ !retryDue s x then .fault .notPossible
    else .next ((s.setSeqr die { q with sent := q.sent.set i { x with due := 0 } }).post (.packetInject die 6 x.pkt))

/-! Timeouts (R71, R72, R411) -/

/-- Whether the tick at which a parked packet has waited COLL_PARKTO ticks is over, so that an arming in that tick has won (R71,
R85). -/
def parkLate (s : State) (x : Parked) : Bool := !x.ready && x.at_ + s.rn 4 0x1009 x.pkt.part < s.tsc.toNat

/-- PARK_TIMEOUT: the parked packet i of an eft core (unit 0 to 11) or of the sequencer (unit 27) is discarded and its
sender NACKed; an arming of its flow that has come wins (R71, R85). -/
def execParkTimeout (die unit i : Nat) (s : State) : Host.Outcome State Fault Refusal :=
  if die ≥ 4 then .fault .notPossible
  else if unit = 27 then
    let q := s.seqr die
    match q.park[i]? with
    | none => .fault .notPossible
    | some x =>
      if !parkLate s x then .fault .notPossible
      else .next (seqAnswer (s.setSeqr die { q with park := q.park.eraseIdx i }) die x.pkt 7 0)
  else if unit < 12 then
    let u := die * 12 + unit
    let e := s.eft u
    match e.park[i]? with
    | none => .fault .notPossible
    | some x =>
      if !parkLate s x || e.waiting.any (fun p => p.opc == 8 && sameFlow p x.pkt) then .fault .notPossible
      else .next (eftAnswer (s.setEft u { e with park := e.park.eraseIdx i }) u x.pkt 7)
  else .fault .notPossible

/-- Ticks that a member allows its operation (R62, R73). -/
def opTicks (s : State) (o : COp) : Nat := if o.dw 6 = 0 then s.rn 4 0x1008 o.part else o.dw 6

/-- Whether a block's timeout has come (R72). -/
def opLate (s : State) (o : COp) : Bool := o.started + opTicks s o ≤ s.tsc.toNat

/-- The ranks of which a member lacks a packet at its timeout (R72, R411): those whose data has not come whole, and those of which
an answer has not come (log entry 26). -/
def missingOf (s : State) (die : Nat) (o : COp) : List Nat :=
  if o.alg = 3 then o.others
  else (List.range o.n).filter fun r => ((wants o).contains r && !dataFrom o r) || unanswered s die o r

/-- The runs of consecutive numbers below n that are kept: the first of each, and its length. -/
def runsOf (keep : Nat → Bool) (n : Nat) : List (Nat × Nat) :=
  (List.range n).foldr (fun i a =>
    if !keep i then a
    else match a with
      | (st, l) :: t => if st = i + 1 then (i, l + 1) :: t else (i, 1) :: (st, l) :: t
      | [] => [(i, 1)]) []

/-- The receive buffer of a reduction by ring or tree that lost a member: each element holds its old contents or a combined value,
and nothing tells which; bytes that have not come are free values (R72, log entry 102). -/
def leftOver (s : State) (die : Nat) (o : COp) : State :=
  let k := max 1 (fmtWidth o.dtype / 8)
  let cs := (List.range o.n).map fun r => stagedBytes o (o.ofsOf r) o.nb fun i => Config.lost s.tick r i % 256
  let b := redResult o cs
  (runsOf (fun i => Config.may (s.tick * 2 ^ 64 + k * i)) (b.length / k)).foldl (fun s1 r =>
    (seqWrite s1 die o.part ((o.recvVa + k * r.1) % 2 ^ 64) ((b.drop (k * r.1)).take (k * r.2)) fun _ => o.redTag).1) s

/-- COLLECTIVE_TIMEOUT: the member completes with status member-lost; a ring or tree block whose last packet was accepted before
completes ok (R72, R411). -/
def execCollectiveTimeout (die op : Nat) (s : State) : Host.Outcome State Fault Refusal :=
  match (s.seqr die).ops.find? (·.id == op) with
  | none => .fault .notPossible
  | some o =>
    if !opLate s o then .fault .notPossible
    else if o.alg = 3 then .next (finishOp s die o 2 0 (missingOf s die o))
    else if ringReady s die o then .next (runOp s die o)
    else .next (finishOp (if o.reducing then leftOver s die o else s) die o 2 (combined o) (missingOf s die o))

/-! Polling (R57 to R61) -/

/-- The ring table of a context, as its committed blocks have set it (R57). -/
def rtbOf (_s : State) (l : Live) : Nat := l.rtb

/-- Whether the sequencer of a die polls a context: from its first load until its EXIT, unless its table was found unmapped (R59).
A context that ends in another way is polled until its launch completes (log entry 121). -/
def polled (s : State) (die : Nat) (l : Live) : Bool := l.st != 4 && !l.first && !l.rtbBad && homeOf s l == die && rtbOf s l != 0

/-- The ring that the sweep of a die comes to next, as place × 64 + ring, where it polls any context (R59). -/
def nextRing (s : State) (die : Nat) : Option Nat :=
  let l := (List.range s.live.length).filter fun i => match s.live[i]? with
    | some l => polled s die l
    | none => false
  let at_ := (s.seqr die).sweep
  match l.find? fun i => i * 64 + 63 ≥ at_ with
  | some i => some (max at_ (i * 64))
  | none => l.head?.map (· * 64)

/-- The sweep goes on behind a ring. -/
def sweepPast (s : State) (die p : Nat) : State := s.setSeqr die { s.seqr die with sweep := p + 1 }

/-- A ring-disabled record (R60). -/
def ringRecord (s : State) (die : Nat) (l : Live) (ring reason dw2 dw3 : Nat) : State :=
  emit s l.part (srcSeq die) 0x16 (ring + reason * 2 ^ 8 + l.ctxno % 2 ^ 21 * 2 ^ 16) dw2 dw3

/-- Why a descriptor is ill-formed (R59, R60), or 0. -/
def descBad (base ctl prod cons : Nat) : Nat :=
  let logn := ctl % 16
  if bits ctl 63 17 ≠ 0 ∨ bits ctl 15 4 ≠ 0 then 1
  else if logn = 0 ∨ logn > 12 then 2
  else if base % 128 ≠ 0 then 3
  else if prod < cons then 4
  else if prod - cons > 2 ^ logn then 5 else 0

/-- The next number of a (partition, context, group): of the sequencers that have polled the context the one that has come
furthest, so that numbers go on where its home moves (R61). -/
def nextNum (s : State) (key : Nat) : Nat := (List.range 4).foldl (fun m d => max m ((s.seqr d).nums.get 0 key)) 0

/-- A block expanded (R59, R61 to R66, R409). -/
def expand (s : State) (die : Nat) (l : Live) (raw : Nat) : State :=
  let q := s.seqr die
  let grp := raw / 2 ^ 32 % 2 ^ 16
  let (s, ms) := groupOf s l.part grp die
  let rank := (rankIn ms (ownEntry s l)).getD ms.length
  let key := (l.part * 2 ^ 21 + l.ctxno) * 256 + grp
  let o : COp := { id := q.nextId, part := l.part, cr := l.cr, die := die, raw := raw, alg := 0, n := ms.length, rank := rank,
                   members := ms, seqno := nextNum s key, started := s.tsc.toNat, covered := [], armed := false, data := [] }
  if blockBad o then collDone s die o 4 0 []
  else
    let o := { o with alg := pickAlg o }
    let s := s.setSeqr die { q with nextId := q.nextId + 1, nums := q.nums.put 0 key (o.seqno + 1) }
    if o.count = 0 then collDone s die o 1 0 []
    else
      let q := s.seqr die
      let s := s.setSeqr die { q with ops := q.ops ++ [o] }
      let s := if o.alg = 3 then
          (if o.rank = o.root then seqSend s die o (corePkt s die o 8 0 (armList o) 0) else sendOwn s die o)
        else sendRing s die o
      unpark s die o

/-- A ring disabled: EN cleared, and its record (R59). -/
def disableRing (s : State) (die : Nat) (l : Live) (ring ctl desc reason dw2 prod : Nat) : State :=
  ringRecord (vaWrite8 s l.part (desc + 8) (setBits ctl 16 16 0) false (srcSeq die)).1 die l ring reason dw2 prod

/-- RING_POLL: one ring of the context at place `i` of the list of contexts (R59). A COLL_RTB that is not 32-byte aligned, which R57
leaves to software, is read as it stands (log entry 122, DESIGN CHOICE). -/
def execRingPoll (die i ring : Nat) (s : State) : Host.Outcome State Fault Refusal :=
  match s.live[i]? with
  | none => .fault .notPossible
  | some l =>
    if die ≥ 4 ∨ ring ≥ 64 ∨ !polled s die l then .fault .notPossible
    else
      let rtb := rtbOf s l
      let desc := (rtb + 32 * ring) % 2 ^ 64
      match vaRead s l.part desc 32 die with
      | (s, .error _) => .next (ringRecord (s.setLive { l with rtbBad := true }) die l 0xFF 6 rtb 0)
      | (s, .ok b) =>
        let d := fun (k : Nat) => leNat ((b.drop (8 * k)).take 8)
        let ctl := d 1
        if !ctl.testBit 16 then .next s
        else match acqRead8 s l.part (desc + 16) (srcNo die 7 0) 3 with
          | (s, .error _) => .next (ringRecord (s.setLive { l with rtbBad := true }) die l 0xFF 6 rtb 0)
          | (s, .ok prod) =>
            let cons := d 3
            let why := descBad (d 0) ctl prod cons
            if why ≠ 0 then .next (disableRing s die l ring ctl desc why desc prod)
            else if prod = cons then .next s
            else
              let va := (d 0 + 128 * (cons % 2 ^ (ctl % 16))) % 2 ^ 64
              match vaRead s l.part va 128 die with
              | (s, .error _) => .next (disableRing s die l ring ctl desc 7 va prod)
              | (s, .ok blk) =>
                let s := (relWrite8 s l.part (desc + 24) (cons + 1) false (srcNo die 7 0)).1
                .next (expand s die l (leNat blk))

end Sys2Proof.Machine
end

