-- ==== Sys2Proof/Machine/Package.lean ====
section
/-! DEFINITION. The package as a whole (R15 to R22): resets, power and clock stretch, the timestamp counter, refresh
management. -/

namespace Sys2Proof.Machine

/-- Whether an entry of `events` is under way inside the package; the others arrive from outside (log entry 3). -/
def isInternal (i : Instr) : Bool :=
  match i with
  | .packetInject _ _ _ | .read _ _ | .write _ _ | .readReply _ _ | .writeAcknowledge _ _ | .bankOperation _ _
  | .bankReply _ _ | .jalcyDEndpointRewrite _ _ | .portSwitchRoute _ _ _ | .collectiveData _ _ | .answer _ _ | .nack _ _
  | .eftPacketArrival _ _ _ | .arm _ _ _ | .riserCheck _ | .contextWriteBack _ _ | .contextExit _ | .cardWindowEntry _ _
  | .cardDone _ _ | .launch _ | .admitImage _ | .retire _ | .marker _ | .launchCompletion _ | .barrierComplete _ _ | .autotomy _
  | .allReduce _ _ _ | .reduce _ _ _ | .broadcast _ _ _ | .allGather _ _ _ | .reduceScatter _ _ _ | .allToAll _ _ _
  | .barrier _ _ _ | .send _ _ _ | .receive _ _ _ | .linkReport _ _ | .lotteryDraw _ | .contWakeWrite _ _ | .preemption _
  | .waitWriteBack _ => true
  | _ => false

/-- The package reset (R20): no state of the package is kept, its keys and IDE streams among it. Its fused identity, the
host's memory, whether a host link is up and what arrives from outside are not the package's (log entry 91). -/
def resetPackage (s : State) : State :=
  { State.reset with
    ident := s.ident, tick := s.tick, mem := s.mem.filter fun c => region 7 0 ≤ c.1 && c.1 < region 8 0, pfDown := s.pfDown,
    events := s.events.filter fun i => !isInternal i }

/-- PACKAGE_RESET (R20). -/
def execPackageReset (s : State) : Host.Outcome State Fault Refusal := .next (resetPackage s)

/-- POWER_LOSS: nothing is kept across it (R20). -/
def execPowerLoss (s : State) : Host.Outcome State Fault Refusal := .next (resetPackage s)

/-- CRITICAL_TEMPERATURE: a package reset (R20). -/
def execCriticalTemperature (die : Nat) (s : State) : Host.Outcome State Fault Refusal :=
  if die ≥ 4 then .fault .notPossible else .next (resetPackage s)

/-- POWER_MEASUREMENT: the running mean over 1 ms in watts; above the cap every cluster is stretched until it falls below
(R20). The amount is the controller's (log entry 10). -/
def execPowerMeasurement (mean : Nat) (s : State) : Host.Outcome State Fault Refusal :=
  let cap := s.rn 9 0 0
  .next (if mean > cap then { s with powerK := Config.powerStretch s.tick } else if mean < cap then { s with powerK := 0 } else s)

/-- PWR_CAP written: above 2,200 W is taken as 2,200 W (R20). -/
def wrPwrCap (s : State) (v : Nat) : State := s.setN 9 0 0 (min v 2200)

/-- PWR_CAP_WRITE by an agent of a die; after a ring split only the package authority alters the register (R20, R39). -/
def execPwrCapWrite (w : ByDie) (s : State) : Host.Outcome State Fault Refusal :=
  if w.die ≥ 4 then .fault .notPossible else .next (if hasAuthority s w.die then wrPwrCap s (w.val % 2 ^ 64) else s)

/-- SUPPLY_SAG_STEP_UP: k rises by one, to 8 at most (R21, R22). -/
def execSupplySagStepUp (cl : Nat) (s : State) : Host.Outcome State Fault Refusal :=
  if cl ≥ 64 then .fault .notPossible
  else
    let c := s.cl cl
    let s := if c.k = 0 then s.bump 2 0x806 cl else s
    .next (s.setCl cl { c with k := min 8 (c.k + 1) })

/-- SUPPLY_SAG_STEP_DOWN: k falls by one, to 0 at least (R21). -/
def execSupplySagStepDown (cl : Nat) (s : State) : Host.Outcome State Fault Refusal :=
  if cl ≥ 64 then .fault .notPossible else .next (s.setCl cl { s.cl cl with k := (s.cl cl).k - 1 })

/-- The step count at which a cluster runs: the larger of its own and the power controller's (R22). -/
def clusterK (s : State) (cl : Nat) : Nat := max (s.cl cl).k s.powerK

/-- Cycles of a cluster that end in one tick: 2.7 GHz stretched by (8 + k)/8, a cycle more or less as the phase falls (R21,
log entry 28). -/
def cyclesIn (s : State) (cl : Nat) : Nat := 216 / (10 * (8 + clusterK s cl)) + (if Config.may (s.tick + cl) then 1 else 0)

/-- CLKSTR_CYC of the stretched clusters after one tick (R22). -/
def countStretch (s : State) : State :=
  s.clusters.foldl (fun t p => if p.2.k > 0 then t.setN 2 0x807 p.1 (t.rn 2 0x807 p.1 + cyclesIn s p.1) else t) s

/-- Held records whose source may write again are written, one of each source; rings that wait for their records-lost record
go first (R18, R114). -/
def releaseRecs (s : State) : State :=
  let s := (List.range 34).foldl flushRing s
  s.recq.foldl (fun t r => if t.recAt.get 0 r.src = t.tsc.toNat + 1 then { t with recq := t.recq ++ [r] } else stamp t r) { s with recq := [] }

/-- TSC_TICK (R17). -/
def execTscTick (s : State) : Host.Outcome State Fault Refusal := .next (releaseRecs (countStretch { s with tsc := s.tsc + 1 }))

/-- What a row's activations do: the triggers, and the counter after them (R15). The counter triggers, and is cleared, each
time an activation brings it to the threshold. -/
def rowCount (thr old acts : Nat) : Nat × Nat :=
  let need := max 1 (thr - old)
  if acts < need then (0, old + acts) else (1 + (acts - need) / thr, (acts - need) % thr)

/-- REFRESH_MANAGEMENT: a row of a stack was activated so many times; each time its counter reaches the threshold the stack's
alert is raised, the counter cleared and HBM_RFMCNT incremented (R15, R16). The alert stays raised until a package reset:
R15 does not say when it is lowered (log entry 103). -/
def execRefreshManagement (stack row acts : Nat) (s : State) : Host.Outcome State Fault Refusal :=
  if stack ≥ 8 then .fault .notPossible
  else
    let key := row * 8 + stack
    let (q, n) := rowCount (max 1 (s.rn 10 0 stack % 2 ^ 16)) (s.rowActs.get 0 key) acts
    let s := { s with rowActs := s.rowActs.put 0 key n }
    .next (if q = 0 then s
      else { s.setN 10 1 stack (s.rn 10 1 stack + q) with
             alerts := if s.alerts.contains stack then s.alerts else s.alerts ++ [stack] })

end Sys2Proof.Machine
end

