-- ==== Sys2Proof/Machine/HostIf.lean ====
section
/-! DEFINITION. The host's side (R23 to R26, R100 to R102, R110 to R115, R146): host requests at the BARs, command-queue
and ring registers, host links, and writes of any register. -/

namespace Sys2Proof.Machine

/-! Command queues (R100, R102) -/

/-- CQ_CTL written: ERR clears by 1; EN = 1 is ignored where the queue cannot be enabled (R102). -/
def wrCqCtl (s : State) (vf q v : Nat) : State :=
  let n := vf * 4 + q
  let old := s.cq n 1
  let err := old.testBit 16 && !v.testBit 16
  let en := if v.testBit 4 then
      (if err || s.cq n 0 % 128 != 0 || v % 16 == 0 || v % 16 > 12 then bits old 4 4 else 1) else 0
  s.setN 6 (0x11 + 4 * q) vf (flagIf err (2 ^ 16) + bits v 15 8 * 2 ^ 8 + en * 16 + v % 16)

/-- CQ_TAIL written; a count that does not fit stops the queue with a queue-error record (R102, R116). -/
def wrCqTail (s : State) (vf q v : Nat) : State :=
  let n := vf * 4 + q
  let ctl := s.cq n 1
  let head := s.cq n 3
  if v < head ∨ v - head > 2 ^ (ctl % 16) then
    let s := s.setN 6 (0x11 + 4 * q) vf (setBits (setBits ctl 16 16 1) 4 4 0)
    if (s.rn 6 0 vf).testBit 5 then emit s (s.rn 6 0 vf % 32) (srcNo (2 * queueCp n) 2 0) 2 0 (vf * 2 ^ 16 + q) v else s
  else s.setN 6 (0x12 + 4 * q) vf v

/-- CQ_TAIL_WRITE (R102). -/
def execCqTailWrite (vf q v : Nat) (s : State) : Host.Outcome State Fault Refusal :=
  if vf ≥ 512 ∨ q ≥ 4 then .fault .notPossible else .next (wrCqTail s vf q (v % 2 ^ 64))

/-- CQ_CTL_WRITE (R102). -/
def execCqCtlWrite (vf q v : Nat) (s : State) : Host.Outcome State Fault Refusal :=
  if vf ≥ 512 ∨ q ≥ 4 then .fault .notPossible else .next (wrCqCtl s vf q (v % 2 ^ 64))

/-! Functions (R25, R111) -/

/-- VF_PART written: binding to a partition of the other PF's VFs is refused (R111). -/
def wrVfPart (s : State) (vf v : Nat) : State :=
  let p := v % 32
  let other := v.testBit 5 && (List.range 512).any fun w =>
    w / 256 != vf / 256 && (s.rn 6 0 w).testBit 5 && s.rn 6 0 w % 32 == p
  if other then s.setN 4 0x1001 p (setBits (s.rn 4 0x1001 p) 2 2 1) else s.setN 6 0 vf (v % 64)

/-- VF_PART_WRITE (R111). -/
def execVfPartWrite (vf v : Nat) (s : State) : Host.Outcome State Fault Refusal :=
  if vf ≥ 512 then .fault .notPossible else .next (wrVfPart s vf v)

/-- PF_IDECTL written: REQ is not set while no stream of the link is Secure (R25). -/
def wrIdectl (s : State) (pf v : Nat) : State :=
  if v % 2 = 1 ∧ !s.streams.any (fun x => x.1 == pf && x.2.2) then s else s.setN 7 5 pf (v % 2)

/-- PF_IDECTL_WRITE (R25). -/
def execPfIdectlWrite (pf v : Nat) (s : State) : Host.Outcome State Fault Refusal :=
  if pf ≥ 2 then .fault .notPossible else .next (wrIdectl s pf v)

/-- IDE_INTEGRITY_FAILURE: the stream enters the Insecure state (R25). -/
def execIdeIntegrityFailure (pf stream : Nat) (s : State) : Host.Outcome State Fault Refusal :=
  if pf ≥ 2 ∨ stream ≥ 8 then .fault .notPossible
  else .next { s with streams := (s.streams.filter fun x => !(x.1 == pf && x.2.1 == stream)) ++ [(pf, stream, false)] }

/-! Notification rings (R26, R114, R115) -/

/-- NR_CONS of a partition written; freed space takes the records-lost record first (R114). -/
def wrNrCons (s : State) (p v : Nat) : State := flushRing (s.setN 8 1 p v) p

/-- NR_CONS_WRITE (R114). -/
def execNrConsWrite (p v : Nat) (s : State) : Host.Outcome State Fault Refusal :=
  if p ≥ 32 then .fault .notPossible else .next (wrNrCons s p v)

/-- HV_NR_CONS written (R115). -/
def wrHvCons (s : State) (pf v : Nat) : State := flushRing (s.setN 7 3 pf v) (32 + pf)

/-- HV_NR_CONS_WRITE (R115). -/
def execHvNrConsWrite (pf v : Nat) (s : State) : Host.Outcome State Fault Refusal :=
  if pf ≥ 2 then .fault .notPossible else .next (wrHvCons s pf v)

/-- The link event of a host link (R43). -/
def pcieEvent (s : State) (pf ev : Nat) : State := emitHv s (2 * pf) (srcNo (2 * pf) 6 4) 0x14 ev 0 0

/-- PCIE_LINK_DOWN (R26, R43). -/
def execPcieLinkDown (pf : Nat) (s : State) : Host.Outcome State Fault Refusal :=
  if pf ≥ 2 ∨ s.pfDown.contains pf then .fault .notPossible else .next (pcieEvent { s with pfDown := s.pfDown ++ [pf] } pf 4)

/-- PCIE_LINK_UP: the rings of the function take the count of records discarded, then the records held, in order (R26, R43). -/
def execPcieLinkUp (pf : Nat) (s : State) : Host.Outcome State Fault Refusal :=
  if !s.pfDown.contains pf then .fault .notPossible
  else
    let s := { s with pfDown := s.pfDown.filter (· != pf) }
    .next (pcieEvent ((List.range 34).foldl (fun s r => if s.ringPf r == some pf then flushRing s r else s) s) pf 5)

/-! Writes of any register -/

/-- A SEAL_KEY register written: the key is written from then on (R111, R118, log entry 29). -/
def wrSealKey (s : State) (i v : Nat) : State := (s.setN 9 (2 + i) 0 v).setN 9 6 0 1

/-- JLK_STAT written: KEYERR clears by 1 (R37). -/
def wrJlkStat (s : State) (ep v : Nat) : State := if v.testBit 1 then s.setLink ep { s.link ep with keyerr := false } else s

/-- JLK_KDATA written (R33, R37). -/
def wrKdata (s : State) (ep i v : Nat) : State :=
  let l := s.link ep
  s.setLink ep { l with kdata := l.kdata.set i (BitVec.ofNat 64 (if i = 4 then v % 2 ^ 32 else v)) }

/-- A register of any class written by an agent of a die, in the privileged view. Read-only registers ignore it (R319). -/
def wrAny (s : State) (cls num unit v die : Nat) : State :=
  match cls with
  | 6 =>
    if num = 0 then wrVfPart s unit v
    else if num = 1 then s.setN 6 1 unit (v % 256)
    else if num < 0x10 ∨ num ≥ 0x20 then s
    else
      let q := (num - 0x10) / 4
      (match num % 4 with
       | 0 => s.setN 6 num unit v
       | 1 => wrCqCtl s unit q v
       | 2 => wrCqTail s unit q v
       | _ => s)
  | 7 =>
    if num = 0 then s.setN 7 0 unit v
    else if num = 1 then s.setN 7 1 unit (setBits (s.rn 7 1 unit) 35 32 (bits v 35 32))
    else if num = 3 then wrHvCons s unit v
    else if num = 4 then s.setN 7 4 unit (bits v 38 36 * 2 ^ 36)
    else if num = 5 then wrIdectl s unit v else s
  | 8 => if num = 1 then wrNrCons s unit v else s
  | 9 =>
    if num = 1 then wrCpLseed s unit v
    else if !hasAuthority s die then s
    else if num = 0 then wrPwrCap s v
    else if num < 6 then wrSealKey s (num - 2) v else s
  | 10 => if num = 0 then s.setN 10 0 unit (v % 2 ^ 16) else s
  | 11 =>
    if num = 0 then wrJlkCtl s unit v
    else if num = 1 then wrJlkStat s unit v
    else if num = 2 then loadKey (s.setN 11 2 unit (v % 4)) unit v
    else if num < 5 ∨ num > 9 then s else wrKdata s unit (num - 5) v
  | 12 => wrTurn s unit (num / 64) (num % 64) v
  | 13 => s.setN 13 num unit (v % 256)
  | 14 =>
    if num < 24 then
      (match num % 3 with
       | 0 => wrKctl s unit (num / 3) v
       | 1 => s.setN 14 num unit (bits v 47 32 * 2 ^ 32 + v % 2 ^ 16)
       | _ => s.setN 14 num unit (bits v 25 16 * 2 ^ 16 + v % 2 ^ 10))
    else if 0x1000 ≤ num ∧ num < 0x1800 then wrImem s unit (num - 0x1000) v
    else if 0x4000 ≤ num ∧ num < 0x8000 then wrFlowwin s unit (num - 0x4000) v
    else s
  | 15 => s.setN 15 num unit v
  | _ => wrReg s cls num unit v die

/-- A register of any class as read by the host. -/
def rdAny (s : State) (cls num unit : Nat) : Nat :=
  if cls = 14 ∧ 0x4000 ≤ num then rdFlowwin s unit (num - 0x4000)
  else if cls = 16 then nocRing s unit
  else if cls = 17 then Config.pending (s.tick * 1024 + unit) % 2 ^ 64
  else readReg s cls num unit

/-- Whether a register is written in the unprivileged view (R100, R101, R114). -/
def userWritable (cls num : Nat) : Bool := (cls == 6 && num ≥ 0x10) || (cls == 8 && num == 1) || cls == 15

/-- REGISTER_WRITE: a write of a register by its key (`rkey`) by an agent of a die, in the privileged view or not; an
unprivileged write of a privileged register is refused (R110). -/
def execRegisterWrite (key : Nat) (w : ByDie) (priv : Bool) (s : State) : Host.Outcome State Fault Refusal :=
  let cls := key / 2 ^ 32
  let num := key / 2 ^ 16 % 2 ^ 16
  let unit := key % 2 ^ 16
  if cls = 0 ∨ cls > 15 ∨ w.die ≥ 4 then .fault .notPossible
  else .next (if priv || userWritable cls num then wrAny s cls num unit (w.val % 2 ^ 64) w.die else s)

/-! The maps of the BARs (R101, R112) -/

/-- A register of a die's block (R112), reached with a size: class, number and unit. -/
def dieReg (d o size : Nat) : Option (Nat × Nat × Nat) :=
  if size = 1 then (if 0xC000 ≤ o ∧ o < 0xD000 then some (13, o - 0xC000, d) else none)
  else if o ≥ 0x100000 then
    let k := (o - 0x100000) / 0x20000
    let r := (o - 0x100000) % 0x20000
    let u := d * 12 + k
    if k ≥ 12 then none
    else if size = 4 then
      if r % 4 ≠ 0 then none
      else if 0x2000 ≤ r ∧ r < 0x4000 then some (14, 0x1000 + (r - 0x2000) / 4, u)
      else if 0x10000 ≤ r then some (14, 0x4000 + (r - 0x10000) / 4, u) else none
    else if size ≠ 8 ∨ r % 8 ≠ 0 then none
    else if r < 0x100 then (if r % 0x20 < 0x18 then some (14, r / 0x20 * 3 + r % 0x20 / 8, u) else none)
    else if r = 0x100 then some (14, 0x33, u) else if r = 0x108 then some (14, 0x30, u)
    else if r = 0x110 then some (14, 0x31, u) else none
  else if size ≠ 8 ∨ o % 8 ≠ 0 then none
  else if o < 0xA0 then some (3, 0xC00 + o / 8, d)
  else if 0x1000 ≤ o ∧ o < 0x1200 then (if o % 0x100 < 0x10 then some (10, o % 0x100 / 8, 2 * d + (o - 0x1000) / 0x100) else none)
  else if 0x2000 ≤ o ∧ o < 0x2400 then (if o % 0x100 < 0x50 then some (11, o % 0x100 / 8, d * 4 + (o - 0x2000) / 0x100) else none)
  else if 0x4000 ≤ o ∧ o < 0x5000 then some (2, 0x800 + o % 0x100 / 8, d * 16 + (o - 0x4000) / 0x100)
  else if 0x8000 ≤ o ∧ o < 0x9000 then
    (if o % 0x200 < 44 * 8 then some (12, (o - 0x8000) / 0x200 * 64 + o % 0x200 / 8, d) else none)
  else if o = 0xA000 then some (16, 0, d)
  else if 0x10000 ≤ o ∧ o < 0x18000 then some (1, 0x400 + o % 0x100 / 8, d * 128 + (o - 0x10000) / 0x100)
  else none

/-- The die whose block an offset of PF BAR0 lies in (R112). -/
def pfDie (off : Nat) : Option Nat := if 0x400000 ≤ off ∧ off < 0x1400000 then some ((off - 0x400000) / 0x400000) else none

/-- A register of PF BAR0 (R112). -/
def pfReg (pf off size : Nat) : Option (Nat × Nat × Nat) :=
  match pfDie off with
  | some d => dieReg d ((off - 0x400000) % 0x400000) size
  | none =>
    if size ≠ 8 ∨ off % 8 ≠ 0 then none
    else if off < 0x100 then some (5, 0x2000 + off / 8, 0)
    else if off = 0x1000 then some (9, 0, 0)
    else if 0x1020 ≤ off ∧ off < 0x1040 then some (9, 2 + (off - 0x1020) / 8, 0)
    else if 0x1040 ≤ off ∧ off < 0x1050 then some (9, 1, (off - 0x1040) / 8)
    else if 0x1080 ≤ off ∧ off < 0x10A0 then some (7, (off - 0x1080) / 8, pf)
    else if 0x10A0 ≤ off ∧ off < 0x10B0 then some (7, 4 + (off - 0x10A0) / 8, pf)
    else if 0x10000 ≤ off ∧ off < 0x30000 then
      (if off % 0x100 < 0x18 then some (6, off % 0x100 / 8, (off - 0x10000) / 0x100) else none)
    else if 0x40000 ≤ off ∧ off < 0x60000 then some (4, 0x1000 + off % 0x1000 / 8, (off - 0x40000) / 0x1000)
    else if 0x1F00000 ≤ off ∧ off < 0x1F00400 then some (15, (off - 0x1F00000) / 8, pf)
    else if off = 0x1F08000 then some (17, 0, pf)
    else none

/-- What an offset of a VF's BAR0 names (R101): a register, a register of a partition that is not bound, or nothing. -/
inductive VfHit where
  | reg (cls num unit : Nat)
  | unbound
  | bad
  deriving DecidableEq, Repr

/-- A register of a VF's BAR0 (R101). -/
def vfReg (s : State) (v off size : Nat) : VfHit :=
  if size ≠ 8 ∨ off % 8 ≠ 0 then .bad
  else if off < 0x100 then (if off % 0x40 < 0x20 then .reg 6 (0x10 + off / 0x40 * 4 + off % 0x40 / 8) v else .bad)
  else if off = 0x100 ∨ off = 0x108 then
    (if (s.rn 6 0 v).testBit 5 then .reg 8 ((off - 0x100) / 8) (s.rn 6 0 v % 32) else .unbound)
  else if 0x1000 ≤ off ∧ off < 0x1080 then .reg 15 ((off - 0x1000) / 8) (2 + v)
  else if off = 0x1800 then .reg 17 0 (2 + v)
  else .bad

/-- The completion of a read. -/
def answerHost (s : State) (v : Nat) : State := { s with resp := some (some v) }

/-- A request at a VF's BAR0 (R100, R101, R110). A write of NR_PROD, which R101 has read-only there and R114 writable, changes nothing
and is not counted (log entry 131, DESIGN CHOICE). -/
def vfAccess (s : State) (v off size : Nat) (data : Option Nat) : State :=
  match vfReg s v off size, data with
  | .reg c n u, none => answerHost s (rdAny s c n u)
  | .reg c n u, some x => if c = 17 ∨ (c = 8 ∧ n = 0) then s else wrAny s c n u (x % 2 ^ 64) (2 * (v / 256))
  | .unbound, none => answerHost s 0
  | .unbound, some _ => s
  | .bad, none => answerHost (s.bump 6 2 v) 0
  | .bad, some _ => s.bump 6 2 v

/-- A request at PF BAR0 (R112): dies outside the PF's group read as ones after a split. -/
def pfAccess (s : State) (pf off size : Nat) (data : Option Nat) : State :=
  let gone : Bool := match pfDie off with
    | some d => !s.reach (2 * pf) d
    | none => false
  match pfReg pf off size, data with
  | none, none => answerHost s 0
  | none, some _ => s
  | some (c, n, u), none => answerHost s (if gone then 256 ^ size - 1 else rdAny s c n u)
  | some (c, n, u), some x => if gone ∨ c ≥ 16 then s else wrAny s c n u (x % 256 ^ size) (2 * pf)

/-- A request at PF BAR2, the window of device memory at PF_DPAWIN (R128, R146); one that meets no memory is not completed
with data. -/
def windowAccess (s : State) (pf off size : Nat) (data : Option Nat) : State :=
  let dpa := s.rn 7 4 pf + off
  if off + size > 2 ^ 36 ∨ dpa ≥ 2 ^ 39 ∨ unpop dpa ∨ !s.reach (2 * pf) (dpa / 2 ^ 37) then { s with resp := some none }
  else match data with
    | none => answerHost s (rdNat s (region 6 dpa) size)
    | some x => storeAt s (region 6 dpa) size x

/-- The physical function through whose link a request comes. -/
def Fn.pfNo (f : Fn) : Nat :=
  match f with
  | .pf p => p
  | .vf v => v / 256

/-- Whether a function exists (R23). -/
def fnOk (f : Fn) : Bool :=
  match f with
  | .pf p => p < 2
  | .vf v => v < 512

/-- What IDE_KM over DOE leaves of a selective stream of a PF: keys in both directions and the stream Secure, or no stream
(R24, R25; log entry 105). Offset: the stream. -/
def ideKm (s : State) (pf stream : Nat) (data : Option Nat) : State :=
  let rest := s.streams.filter fun x => !(x.1 == pf && x.2.1 == stream)
  match data with
  | none => { s with resp := some none }
  | some v => if stream ≥ 8 then s else { s with streams := if v % 2 = 1 then rest ++ [(pf, stream, true)] else rest }

/-- HOST_REQUEST (R25, R101, R112): with REQ set, a request that is not bound to a Secure stream is accepted only at PF
BAR0; any other, and one at a BAR that the function has not, completes with Unsupported Request. Number 6 stands for the DOE
mailbox of a PF (log entry 105). -/
def execHostRequest (r : HostReq) (s : State) : Host.Outcome State Fault Refusal :=
  let pf := Fn.pfNo r.fn
  if !fnOk r.fn ∨ s.pfDown.contains pf ∨ r.size = 0 then .fault .notPossible
  else
    let pf0 := r.fn == .pf pf && r.bar == 0
    if (s.rn 7 5 pf).testBit 0 && !r.secure && !pf0 then .next { s with resp := some none }
    else match r.fn, r.bar with
      | .pf p, 0 => .next (pfAccess s p r.off r.size r.data)
      | .pf p, 2 => .next (windowAccess s p r.off r.size r.data)
      | .pf p, 6 => .next (ideKm s p r.off r.data)
      | .vf v, 0 => .next (vfAccess s v r.off r.size r.data)
      | _, _ => .next { s with resp := some none }

end Sys2Proof.Machine
end

