-- ==== Sys2Proof/Machine/Flags.lean ====
section
/-! DEFINITION. Flags: where the conditions of a result go (R201, R202, R351, R379, R383), and the conditions of each
computation over elements. The conditions of a rounding are formed with it, in Num. -/

namespace Sys2Proof.Machine

/-- The tile registers of live places, each once. -/
def tilesOfPlaces (places : List Nat) : List Nat := (places.map (· / 32)).eraseDups

/-- The conditions that go to AST bytes: those of the tile registers written (R201, R351). -/
def astWrs (places : List Nat) (fl : Nat) : List Wr := (tilesOfPlaces places).map fun n => .astOr n (astOf fl)

/-- The conditions of a VEC form: all but IOVF to FST, and OVF, SAT, INV and SUND to the AST of each tile register
written (R202, R351). -/
def vecFlags (places : List Nat) (fl : Nat) : List Wr := .fstOr (BitVec.ofNat 64 (fl % 128)) :: astWrs places fl

/-- A row written with its lineage: both, or neither where the row is dead (R204). -/
def rowWr (c : Ctx) (l : W32) (row : Nat) (v : Row) : List Wr :=
  let (p, live) := c.place row
  if live then [.row p v, .lin p l] else []

/-- SRSEED after an instruction that drew (R250). MFS sees it from the next bundle on, before the row and FST of the instruction
have landed: R250 and R251 give the order of draws and no time (log entry 126, DESIGN CHOICE). -/
def Ctx.drew (c : Ctx) (seed : Nat) : Ctx := { c with arch := { c.arch with srseed := BitVec.ofNat 64 seed } }

/-- The generator's state as an instruction finds it. -/
def Ctx.seed (c : Ctx) : Nat := c.arch.srseed.toNat % 2 ^ 32

/-- A VEC form that writes one row: the row, its conditions and SRSEED after it. -/
def vecOp (i : Instr) (s : State) (f : Ctx → VecF → Nat × Nat × Nat) : Host.Outcome State Fault Refusal :=
  slotOp i s fun is c =>
    match vecUse i with
    | none => s
    | some (g, _) =>
      let (v, fl, seed) := f c g
      let rows := rowWr c (linOf c 0 i) g.d (BitVec.ofNat 2048 v)
      s.setCtx is.ck ((c.drew seed).stages is.slot (latOf c i) (rows ++ vecFlags (livePlaces c [g.d]) fl))

end Sys2Proof.Machine
end

