-- ==== Sys2Proof/Machine/Vec.lean ====
section
/-! DEFINITION. The VEC forms (R348 to R372) over elements of a format, with the quantization of R255. A form answers the
row it writes, the conditions of its results and SRSEED after its draws. -/

namespace Sys2Proof.Machine

/-- The elements of a named row in a format of width w. -/
def vElems (c : Ctx) (w r : Nat) : List Nat := rowElems w (c.row r).toNat

/-- The values of a named row in a format. -/
def vNums (c : Ctx) (fmt r : Nat) : List Num := (vElems c (fmtWidth fmt) r).map (decFmt fmt)

/-- The union of conditions. -/
def orAll (l : List Nat) : Nat := l.foldl (· ||| ·) 0

/-- The rounding mode of a VEC form: its extension word, RNE without one (R350). -/
def vRm (f : VecF) : Rm := rmOf (f.ext.getD 0 % 8)

/-- Values rounded to a format from element 0 on, the rest of the row zero: row, conditions, SRSEED. -/
def vRound (c : Ctx) (fmt : Nat) (rm : Rm) (l : List (Num × Nat)) : Nat × Nat × Nat :=
  let (b, fl, seed) := roundList fmt rm c.seed (l.map (·.1))
  (packElems (fmtWidth fmt) b, fl ||| orAll (l.map (·.2)), seed)

/-- A row of bit patterns: no conditions and no draw. -/
def vBits (c : Ctx) (w : Nat) (l : List Nat) : Nat × Nat × Nat := (packElems w l, 0, c.seed)

/-- A form of two rows element by element: `fl` on floating-point values, `int` on patterns of an integer format. -/
def vBin (c : Ctx) (f : VecF) (fl : Num → Num → Num × Nat) (int : Nat → Nat → Nat → Nat) : Nat × Nat × Nat :=
  if f.fmt ≤ 1 then vRound c f.fmt (vRm f) (List.zipWith fl (vNums c f.fmt f.a) (vNums c f.fmt f.b))
  else let w := fmtWidth f.fmt
       vBits c w (List.zipWith (int w) (vElems c w f.a) (vElems c w f.b))

/-- A form of one row element by element, exact on floating-point values. -/
def vUn (c : Ctx) (f : VecF) (fl : Num → Num) (int : Nat → Nat → Nat) : Nat × Nat × Nat :=
  if f.fmt ≤ 1 then vRound c f.fmt .rne ((vNums c f.fmt f.a).map fun v => (fl v, 0))
  else let w := fmtWidth f.fmt
       vBits c w ((vElems c w f.a).map (int w))

/-- An exact sum of values with its condition. -/
def sumF (rm : Rm) (l : List Num) : Num × Nat := let (v, i) := sumNum (rm == .rdn) l
                                                 (v, flagIf i fINV)

/-- An exact product with its condition. -/
def mulF (a b : Num) : Num × Nat := let (v, i) := a.mul b
                                    (v, flagIf i fINV)

/-- A product and a third term, exact: 0 × ∞ gives NaN and INV even beside a NaN (R354). -/
def fmaF (rm : Rm) (a b x : Num) (negP : Bool) : Num × Nat :=
  let (p, i) := a.mul b
  if i then (.nan, fINV) else sumF rm [if negP then p.neg else p, x]

/-- VMIN and VMAX of values: a NaN operand gives NaN (R353). -/
def minF (a b : Num) : Num × Nat := (if a.isNan || b.isNan then .nan else if b.below a then b else a, 0)
/-- The larger of two values (R353). -/
def maxF (a b : Num) : Num × Nat := (if a.isNan || b.isNan then .nan else if a.below b then b else a, 0)
/-- The smaller of two signed elements. -/
def minI (w a b : Nat) : Nat := if sext w a ≤ sext w b then a else b
/-- The larger of two signed elements. -/
def maxI (w a b : Nat) : Nat := if sext w a ≤ sext w b then b else a

/-- VADD (R353). -/
def vAdd (c : Ctx) (f : VecF) : Nat × Nat × Nat := vBin c f (fun a b => sumF (vRm f) [a, b]) fun w a b => (a + b) % 2 ^ w
/-- VSUB (R353). -/
def vSub (c : Ctx) (f : VecF) : Nat × Nat × Nat :=
  vBin c f (fun a b => sumF (vRm f) [a, b.neg]) fun w a b => (a + 2 ^ w - b) % 2 ^ w
/-- VMUL (R353). -/
def vMul (c : Ctx) (f : VecF) : Nat × Nat × Nat := vBin c f mulF fun w a b => a * b % 2 ^ w

/-- The fused forms (R354). -/
def vFused (c : Ctx) (f : VecF) (negP negC : Bool) : Nat × Nat × Nat :=
  let rm := vRm f
  let l := List.zipWith (fun (ab : Num × Num) x => fmaF rm ab.1 ab.2 (if negC then x.neg else x) negP)
    (List.zip (vNums c f.fmt f.a) (vNums c f.fmt f.b)) (vNums c f.fmt f.c)
  vRound c f.fmt rm l

/-- The functions of R355. -/
def vFun (c : Ctx) (f : VecF) (g : Num → Num × Nat) : Nat × Nat × Nat := vRound c f.fmt (vRm f) ((vNums c f.fmt f.a).map g)

/-- A comparison of elements: all ones where it holds (R356). -/
def vCmp (c : Ctx) (f : VecF) (fl : Num → Num → Bool) (int : Nat → Nat → Nat → Bool) : Nat × Nat × Nat :=
  let w := fmtWidth f.fmt
  let m := fun (b : Bool) => if b then 2 ^ w - 1 else 0
  if f.fmt ≤ 1 then vBits c w (List.zipWith (fun a b => m (fl a b)) (vNums c f.fmt f.a) (vNums c f.fmt f.b))
  else vBits c w (List.zipWith (fun a b => m (int w a b)) (vElems c w f.a) (vElems c w f.b))

/-- VSEL: by the bit pattern of C (R357). -/
def vSel (c : Ctx) (f : VecF) : Nat × Nat × Nat :=
  let w := fmtWidth f.fmt
  vBits c w (List.zipWith (fun (ab : Nat × Nat) m => if m = 0 then ab.2 else ab.1)
    (List.zip (vElems c w f.a) (vElems c w f.b)) (vElems c w f.c))

/-- The shifts (R358). -/
def vShift (c : Ctx) (f : VecF) (g : Nat → Nat → Nat → Nat) : Nat × Nat × Nat :=
  let w := fmtWidth f.fmt
  vBits c w (List.zipWith (g w) (vElems c w f.a) (vElems c w f.b))

/-- VCVT (R359). -/
def vCvt (c : Ctx) (f : VecF) : Nat × Nat × Nat :=
  let sf := bits f.c 2 0
  let seg := bits f.c 5 3
  let ws := fmtWidth sf
  let wd := fmtWidth f.fmt
  let src := vNums c sf f.a
  let rm := vRm f
  if ws ≤ wd then
    let n := 2048 / wd
    vRound c f.fmt rm (((src.drop (if ws = wd then 0 else seg * n)).take n).map fun v => (v, 0))
  else
    let n := 2048 / ws
    let (b, fl, seed) := roundList f.fmt rm c.seed src
    let old := vElems c wd f.b
    (packElems wd (old.take (seg * n) ++ b ++ old.drop (seg * n + n)), fl, seed)

/-! Quantization (R255, R360 to R364) -/

/-- An inclusion list as entries of position and value (R198, R254). -/
def ilEntries (v : BitVec 512) : List (Nat × Nat) := (List.range 16).map fun k => (bits v.toNat (32 * k + 15) (32 * k), bits v.toNat (32 * k + 31) (32 * k + 16))

/-- A register of entries. -/
def ilPack (l : List (Nat × Nat)) : BitVec 512 := BitVec.ofNat 512 (packElems 32 (l.map fun e => e.1 + e.2 * 2 ^ 16))

/-- The population of a list (R198). -/
def ilPop (l : List (Nat × Nat)) : Nat := (l.findIdx? fun e => e.1 == 0xFFFF).getD 16

/-- An entry inserted in ascending position; one of the same position is replaced (R255, R362). -/
def ilInsert (l : List (Nat × Nat)) (pos v : Nat) : List (Nat × Nat) :=
  let live := l.take (ilPop l)
  match live.findIdx? (·.1 == pos) with
  | some k => l.set k (pos, v)
  | none =>
    let k := (live.findIdx? fun e => pos ≤ e.1).getD live.length
    (l.take k ++ [(pos, v)] ++ l.drop k).take 16

/-- A value of a band-scale register (R384). -/
def bsVal (c : Ctx) (n k : Nat) : Num := decIeee 7 (bits (c.bs.get 0 n).toNat (16 * k + 15) (16 * k))

/-- A block-scale code (R384). -/
def scCode (c : Ctx) (n k : Nat) : Nat := bits (c.sc.get 0 n).toNat (8 * k + 7) (8 * k)

/-- Whether a is at least b; false with a NaN. -/
def geNum (a b : Num) : Bool := a.lt? b == some false

/-- The escapes of a block: which elements escape, the list, the conditions (R255). -/
def qEscapes (o : Bool) (th b : Num) : List (Num × Nat) → List (Nat × Nat) → List Bool × List (Nat × Nat) × Nat
  | [], il => ([], il, 0)
  | (v, pos) :: t, il =>
    if o && geNum v.abs th && ilPop il < 16 then
      let (e, f) := encIeeeR 0 false .rne 0 (numDiv v b)
      let (es, il, fl) := qEscapes o th b t (ilInsert il pos (if v.isNan then 0x7FC0 else e))
      (true :: es, il, fl ||| f)
    else
      let (es, il, fl) := qEscapes o th b t il
      (false :: es, il, fl)

/-- The least scale code c with val(c) × six at least amax, and its conditions (R255). -/
def qScale (amax six : Num) : Nat × Nat :=
  let at_ := fun (k : Nat) => ((decE3m5 k).mul six).1
  if amax.isZero then (0, 0)
  else if amax.lt? (at_ 1) == some true then (1, fSUND)
  else (((List.range 256).find? fun k => k != 0 && geNum (at_ k) amax).getD 255, 0)

/-- One block (R255): codes, scale code, the list, the conditions. -/
def qBlock (o : Bool) (th b : Num) (l : List (Num × Nat)) (il : List (Nat × Nat)) : List Nat × Nat × List (Nat × Nat) × Nat :=
  let good := match b with
    | .fin false n _ => n != 0
    | _ => false
  if !good then (l.map fun _ => 0, 0, il, fINV)
  else
    let (esc, il, f1) := qEscapes o th b l il
    let rest := (List.zip (l.map (·.1)) esc)
    let f2 := flagIf (rest.any fun p => p.1.isNan && !p.2) fINV
    let vals := rest.map fun p => if p.1.isNan then (Num.fin false 0 0, p.2) else p
    let amax := vals.foldl (fun m p => if p.2 then m else (maxF m p.1.abs).1) (Num.fin false 0 0)
    let (sc, f3) := qScale amax ((Num.fin false 6 0).mul b).1
    let sb := ((decE3m5 sc).mul b).1
    let q := vals.map fun p => if p.2 then (8, 0) else if sc = 0 then (0, 0) else encE2m1 .rne 0 (numDiv p.1 sb)
    (q.map (·.1), sc, il, f1 ||| f2 ||| f3 ||| orAll (q.map (·.2)))

/-- Blocks of a segment in order: codes, scale codes, the list, the conditions (R362). -/
def qBlocks (o : Bool) (th b : Num) : List (List (Num × Nat)) → List (Nat × Nat) → List Nat × List Nat × List (Nat × Nat) × Nat
  | [], il => ([], [], il, 0)
  | blk :: t, il =>
    let (q, sc, il, fl) := qBlock o th b blk il
    let (qs, scs, il, fl') := qBlocks o th b t il
    (q ++ qs, sc :: scs, il, fl ||| fl')

/-- A list in blocks of eight. -/
def byEight (l : List (Num × Nat)) : List (List (Num × Nat)) := (List.range (l.length / 8)).map fun j => (l.drop (8 * j)).take 8

/-- VDQ: one segment expanded; INV for a missing escape alone (R351, R364). -/
def vDq (c : Ctx) (f : VecF) : Nat × Nat × Nat :=
  let e := f.ext.getD 0
  let m := if f.fmt = 0 then 128 else 64
  let seg := bits e 21 19
  let b := bsVal c (bits e 6 5) (bits e 10 7)
  let il := ilEntries (c.arch.il.get 0 (bits e 4 3))
  let live := il.take (ilPop il)
  let q := (vElems c 4 f.a).drop (seg * m)
  vRound c f.fmt (rmOf (bits e 2 0)) ((List.range m).map fun t =>
    let k := seg * m + t
    let x := nth q t
    if x = 8 then
      match live.find? fun p => p.1 == k * 64 + bits e 27 22 with
      | some p => ((mulF (decIeee 7 p.2) b).1, 0)
      | none => (Num.fin false 0 0, fINV)
    else ((mulF ((decE2m1 x).mul (decE3m5 (scCode c (bits e 13 11) (bits e 18 14 * 8 + t / 8)))).1 b).1, 0))

/-! Reductions, movement, partition, algebra -/

/-- Groups of 2^g consecutive elements. -/
def groups {α : Type} (g : Nat) (l : List α) : List (List α) :=
  (List.range (l.length / 2 ^ g)).map fun j => (l.drop (j * 2 ^ g)).take (2 ^ g)

/-- VRSUM (R365). -/
def vRsum (c : Ctx) (f : VecF) : Nat × Nat × Nat :=
  let w := fmtWidth f.fmt
  if f.fmt ≤ 1 then vRound c f.fmt (vRm f) ((groups f.c (vNums c f.fmt f.a)).map (sumF (vRm f)))
  else vBits c w ((groups f.c (vElems c w f.a)).map fun l => l.foldl (· + ·) 0 % 2 ^ w)

/-- VRMAX and VRMIN (R365). -/
def vRext (c : Ctx) (f : VecF) (fl : Num → Num → Num × Nat) (int : Nat → Nat → Nat → Nat) : Nat × Nat × Nat :=
  let w := fmtWidth f.fmt
  if f.fmt ≤ 1 then vRound c f.fmt .rne ((groups f.c (vNums c f.fmt f.a)).map fun l =>
    (match l with
     | [] => (.fin false 0 0, 0)
     | v :: t => (t.foldl (fun m x => (fl m x).1) v, 0)))
  else vBits c w ((groups f.c (vElems c w f.a)).map fun l =>
    (match l with
     | [] => 0
     | v :: t => t.foldl (int w) v))

/-- VBAMAX (R366). -/
def vBamax (c : Ctx) (f : VecF) : Nat × Nat × Nat :=
  vRound c f.fmt .rne ((groups 3 (vNums c f.fmt f.a)).map fun l => (l.foldl (fun m x => (maxF m x.abs).1) (.fin false 0 0), 0))

/-- VBCST: an element, a register or an immediate (R367). -/
def vBcst (c : Ctx) (f : VecF) (g : VecF) : Nat × Nat × Nat :=
  let w := fmtWidth f.fmt
  let n := fmtCount f.fmt
  let v := match f.ext with
    | some e => e % 2 ^ w
    | none => if f.c ≥ 1024 then (c.rx g.c).toNat % 2 ^ w else nth (vElems c w f.a) (f.c % n)
  vBits c w (List.replicate n v)

/-- VEXT (R368). -/
def vExt (c : Ctx) (f : VecF) : Nat × Nat × Nat :=
  let w := fmtWidth f.fmt
  vBits c w (((vElems c w f.a ++ vElems c w f.b).drop (f.c % fmtCount f.fmt)).take (fmtCount f.fmt))

/-- VROT (R368). -/
def vRot (c : Ctx) (f : VecF) : Nat × Nat × Nat :=
  let w := fmtWidth f.fmt
  let l := vElems c w f.a
  let k := f.c % fmtCount f.fmt
  vBits c w (l.drop k ++ l.take k)

/-- VPERM (R368). -/
def vPerm (c : Ctx) (f : VecF) : Nat × Nat × Nat :=
  let w := fmtWidth f.fmt
  let p := min (fmtCount f.fmt) (2 ^ w)
  let a := (vElems c w f.a).toArray
  vBits c w ((vElems c w f.b).mapIdx fun i b => a.getD (i - i % p + b % p) 0)

/-- VINS (R369). -/
def vIns (c : Ctx) (f : VecF) : Nat × Nat × Nat :=
  let w := fmtWidth f.fmt
  vBits c w ((vElems c w f.a).set (f.c % fmtCount f.fmt) ((c.rx f.b).toNat % 2 ^ w))

/-- VIOTA (R369). -/
def vIota (c : Ctx) (f : VecF) : Nat × Nat × Nat :=
  let w := fmtWidth f.fmt
  vBits c w ((List.range (fmtCount f.fmt)).map fun (i : Nat) => wrap w ((c.rx f.a).toNat + (i : Int) * sext 11 f.c))

/-- VPACK (R370). -/
def vPack (c : Ctx) (f : VecF) : Nat × Nat × Nat :=
  let w := fmtWidth f.fmt
  vBits c w ((vElems c (2 * w) f.a ++ vElems c (2 * w) f.b).map (· % 2 ^ w))

/-- VUNPK (R370). -/
def vUnpk (c : Ctx) (f : VecF) : Nat × Nat × Nat :=
  let w := fmtWidth f.fmt
  let n := fmtCount f.fmt
  vBits c w ((((vElems c (w / 2) f.a).drop (f.c % 2 * n)).take n).map fun v =>
    if f.c.testBit 1 then wrap w (sext (w / 2) v) else v)

/-- VCMPR (R370). -/
def vCmpr (c : Ctx) (f : VecF) : Nat × Nat × Nat :=
  let w := fmtWidth f.fmt
  vBits c w (((List.zip (vElems c w f.a) (vElems c w f.b)).filter fun p => p.2 != 0).map (·.1))

/-- The buckets of VPART: for each of four, the indices of its keys in increasing order (R371). -/
def vBuckets (c : Ctx) (f : VecF) : List (List Nat) :=
  let w := fmtWidth f.fmt
  let b := vElems c w f.b
  let n := min (nth b 3) (min (fmtCount f.fmt) 128)
  let sp := (b.take 3).map (sext w)
  let bkt := ((vElems c w f.a).take n).map fun k => (sp.filter fun s => s ≤ sext w k).length
  (List.range 4).map fun q => ((List.range n).zip bkt).filterMap fun p => if p.2 = q then some p.1 else none

/-- The product of two elements through a table: the exact component sums and the conditions (R260). -/
def algProd (t : AlgTab) (rm : Rm) (only0 : Bool) (x y : List Num) : List (Num × Nat) :=
  let z : Num := .fin false 0 0
  (List.range (if only0 then 1 else t.d)).map fun k =>
    let terms := (t.ents.filter fun e => e.2.2.1 == k).map fun e =>
      let (p, fl) := mulF (x.getD e.1 z) (y.getD e.2.1 z)
      (if e.2.2.2 then p.neg else p, fl)
    let (v, fl) := sumF rm (terms.map (·.1))
    (v, fl ||| orAll (terms.map (·.2)))

/-- An element with the components of the table's mask negated (R263). -/
def algConj (t : AlgTab) (x : List Num) : List Num := x.mapIdx fun i v => if t.mask.testBit i then v.neg else v

/-- The table that an algebra form names (R372). -/
def vTab (c : Ctx) (f : VecF) : AlgTab := algTab (c.tab.get 0 (f.c % 4))

/-- Elements of d components. -/
def byD (d : Nat) (l : List Num) : List (List Num) := (List.range (l.length / d)).map fun j => (l.drop (j * d)).take d

/-- VAMUL (R372). -/
def vAmul (c : Ctx) (f : VecF) : Nat × Nat × Nat :=
  let t := vTab c f
  vRound c f.fmt (vRm f) ((List.zipWith (algProd t (vRm f) false) (byD t.d (vNums c f.fmt f.a)) (byD t.d (vNums c f.fmt f.b))).flatten)

/-- VCONJ (R372). -/
def vConj (c : Ctx) (f : VecF) : Nat × Nat × Nat :=
  let t := vTab c f
  vRound c f.fmt .rne (((byD t.d (vNums c f.fmt f.a)).map (algConj t)).flatten.map fun v => (v, 0))

/-- VNORM (R372, R264). -/
def vNorm (c : Ctx) (f : VecF) : Nat × Nat × Nat :=
  let t := vTab c f
  vRound c f.fmt (vRm f) (((byD t.d (vNums c f.fmt f.a)).map fun x => algProd t (vRm f) true x (algConj t x)).flatten)

/-- The row operations of a VEC form that writes one row. -/
def allOnes : Nat := 2 ^ 2048 - 1

/-- A bit-pattern form of whole rows (R358). -/
def vLogic (c : Ctx) (f : VecF) (g : Nat → Nat → Nat) : Nat × Nat × Nat := (g (c.row f.a).toNat (c.row f.b).toNat, 0, c.seed)

/-- VQNT (R362): the row, the codes and, in outlier mode, the list land together. -/
def execVqnt (p : Pred) (f : VecF) (s : State) : Host.Outcome State Fault Refusal :=
  let i := Instr.vqnt p f
  slotOp i s fun is c =>
    let e := f.ext.getD 0
    let src := bits f.c 5 5
    let m := if src = 0 then 128 else 64
    let seg := bits e 21 19
    let o := bits e 0 0 == 1
    let th := decIeee 23 ((c.rx (bits f.c 4 0)).toNat % 2 ^ 32)
    let b := bsVal c (bits e 6 5) (bits e 10 7)
    -- each entry read carries its index, so that those that VQNT writes or moves are known from those it leaves
    let il := (ilEntries (c.arch.il.get 0 (bits e 4 3))).mapIdx fun k e => (e.1, e.2 + 2 ^ 16 * (k + 1))
    let v := (vNums c src f.a).mapIdx fun k x => (x, (seg * m + k) * 64 + bits e 27 22)
    let (q, codes, il', fl) := qBlocks o th b (byEight v) il
    let ents := (List.zip il' il).mapIdx (fun k e => if e.1 == e.2 then none else some (k, e.1.1 + e.1.2 % 2 ^ 16 * 2 ^ 16))
    let old := vElems c 4 f.b
    let row := packElems 4 (old.take (seg * m) ++ q ++ old.drop (seg * m + m))
    let l := linOf c 0 i
    let sc := bits e 13 11
    let more := [Wr.scCodes sc (bits e 18 14 * 8) codes, .lin (0x900 + sc) l]
      ++ (if o then [.ilEnts (bits e 4 3) (ents.filterMap id), .lin (0x910 + bits e 4 3) l] else [])
    s.setCtx is.ck (c.stages is.slot 4 (rowWr c l f.d (BitVec.ofNat 2048 row) ++ more ++ vecFlags (livePlaces c [f.d]) fl))

/-- VPART (R371): the buckets in rows D to D + 3, the counts in row C; every other index element 0xFFFF. -/
def execVpart (p : Pred) (f : VecF) (s : State) : Host.Outcome State Fault Refusal :=
  let i := Instr.vpart p f
  slotOp i s fun is c =>
    let l := linOf c 0 i
    let bk := vBuckets c f
    let rows := bk.mapIdx fun q ks => rowWr c l (f.d + q) (ofElems 16 (ks ++ List.replicate (128 - ks.length) 0xFFFF))
    s.setCtx is.ck (c.stages is.slot 4 (rows.flatten ++ rowWr c l f.c (ofElems 16 (bk.map List.length))))

/-- VADD (R353). -/
def execVadd (p : Pred) (f : VecF) (s : State) : Host.Outcome State Fault Refusal :=
  vecOp (.vadd p f) s fun c g => vAdd c g

/-- VSUB (R353). -/
def execVsub (p : Pred) (f : VecF) (s : State) : Host.Outcome State Fault Refusal :=
  vecOp (.vsub p f) s fun c g => vSub c g

/-- VMUL (R353). -/
def execVmul (p : Pred) (f : VecF) (s : State) : Host.Outcome State Fault Refusal :=
  vecOp (.vmul p f) s fun c g => vMul c g

/-- VFMA (R354). -/
def execVfma (p : Pred) (f : VecF) (s : State) : Host.Outcome State Fault Refusal :=
  vecOp (.vfma p f) s fun c g => vFused c g false false

/-- VFMS (R354). -/
def execVfms (p : Pred) (f : VecF) (s : State) : Host.Outcome State Fault Refusal :=
  vecOp (.vfms p f) s fun c g => vFused c g false true

/-- VFNM (R354). -/
def execVfnm (p : Pred) (f : VecF) (s : State) : Host.Outcome State Fault Refusal :=
  vecOp (.vfnm p f) s fun c g => vFused c g true false

/-- VNEG (R353). -/
def execVneg (p : Pred) (f : VecF) (s : State) : Host.Outcome State Fault Refusal :=
  vecOp (.vneg p f) s fun c g => vUn c g Num.neg fun w a => (2 ^ w - a) % 2 ^ w

/-- VABS (R353). -/
def execVabs (p : Pred) (f : VecF) (s : State) : Host.Outcome State Fault Refusal :=
  vecOp (.vabs p f) s fun c g => vUn c g Num.abs fun w a => (sext w a).natAbs % 2 ^ w

/-- VMIN (R353). -/
def execVmin (p : Pred) (f : VecF) (s : State) : Host.Outcome State Fault Refusal :=
  vecOp (.vmin p f) s fun c g => vBin c { g with ext := none } minF minI

/-- VMAX (R353). -/
def execVmax (p : Pred) (f : VecF) (s : State) : Host.Outcome State Fault Refusal :=
  vecOp (.vmax p f) s fun c g => vBin c { g with ext := none } maxF maxI

/-- VRCP (R355). -/
def execVrcp (p : Pred) (f : VecF) (s : State) : Host.Outcome State Fault Refusal :=
  vecOp (.vrcp p f) s fun c g => vFun c g numRcp

/-- VRSQ (R355). -/
def execVrsq (p : Pred) (f : VecF) (s : State) : Host.Outcome State Fault Refusal :=
  vecOp (.vrsq p f) s fun c g => vFun c g numRsq

/-- VEXP2 (R355). -/
def execVexp2 (p : Pred) (f : VecF) (s : State) : Host.Outcome State Fault Refusal :=
  vecOp (.vexp2 p f) s fun c g => vFun c g numExp2

/-- VLOG2 (R355). -/
def execVlog2 (p : Pred) (f : VecF) (s : State) : Host.Outcome State Fault Refusal :=
  vecOp (.vlog2 p f) s fun c g => vFun c g numLog2

/-- VSEL (R357). -/
def execVsel (p : Pred) (f : VecF) (s : State) : Host.Outcome State Fault Refusal :=
  vecOp (.vsel p f) s fun c g => vSel c g

/-- VCMPEQ (R356). -/
def execVcmpEq (p : Pred) (f : VecF) (s : State) : Host.Outcome State Fault Refusal :=
  vecOp (.vcmpEq p f) s fun c g => vCmp c g Num.eqv fun _ a b => a == b

/-- VCMPNE (R356). -/
def execVcmpNe (p : Pred) (f : VecF) (s : State) : Host.Outcome State Fault Refusal :=
  vecOp (.vcmpNe p f) s fun c g => vCmp c g (fun a b => !a.eqv b) fun _ a b => a != b

/-- VCMPLT (R356). -/
def execVcmpLt (p : Pred) (f : VecF) (s : State) : Host.Outcome State Fault Refusal :=
  vecOp (.vcmpLt p f) s fun c g => vCmp c g (fun a b => a.lt? b == some true) fun w a b => decide (sext w a < sext w b)

/-- VCMPGE (R356). -/
def execVcmpGe (p : Pred) (f : VecF) (s : State) : Host.Outcome State Fault Refusal :=
  vecOp (.vcmpGe p f) s fun c g => vCmp c g geNum fun w a b => decide (sext w b ≤ sext w a)

/-- VCMPLTU (R356). -/
def execVcmpLtu (p : Pred) (f : VecF) (s : State) : Host.Outcome State Fault Refusal :=
  vecOp (.vcmpLtu p f) s fun c g => vCmp c g (fun _ _ => false) fun _ a b => decide (a < b)

/-- VCMPGEU (R356). -/
def execVcmpGeu (p : Pred) (f : VecF) (s : State) : Host.Outcome State Fault Refusal :=
  vecOp (.vcmpGeu p f) s fun c g => vCmp c g (fun _ _ => false) fun _ a b => decide (b ≤ a)

/-- VAND (R358). -/
def execVand (p : Pred) (f : VecF) (s : State) : Host.Outcome State Fault Refusal :=
  vecOp (.vand p f) s fun c g => vLogic c g (· &&& ·)

/-- VOR (R358). -/
def execVor (p : Pred) (f : VecF) (s : State) : Host.Outcome State Fault Refusal :=
  vecOp (.vor p f) s fun c g => vLogic c g (· ||| ·)

/-- VXOR (R358). -/
def execVxor (p : Pred) (f : VecF) (s : State) : Host.Outcome State Fault Refusal :=
  vecOp (.vxor p f) s fun c g => vLogic c g (· ^^^ ·)

/-- VNOT (R358). -/
def execVnot (p : Pred) (f : VecF) (s : State) : Host.Outcome State Fault Refusal :=
  vecOp (.vnot p f) s fun c g => vLogic c g fun a _ => a ^^^ allOnes

/-- VSHL (R358). -/
def execVshl (p : Pred) (f : VecF) (s : State) : Host.Outcome State Fault Refusal :=
  vecOp (.vshl p f) s fun c g => vShift c g fun w a k => if k ≥ w then 0 else a * 2 ^ k % 2 ^ w

/-- VSHR (R358). -/
def execVshr (p : Pred) (f : VecF) (s : State) : Host.Outcome State Fault Refusal :=
  vecOp (.vshr p f) s fun c g => vShift c g fun w a k => if k ≥ w then 0 else a / 2 ^ k

/-- VSRA (R358). -/
def execVsra (p : Pred) (f : VecF) (s : State) : Host.Outcome State Fault Refusal :=
  vecOp (.vsra p f) s fun c g => vShift c g fun w a k => wrap w (sext w a / (2 ^ min k w : Nat))

/-- VCVT (R359). -/
def execVcvt (p : Pred) (f : VecF) (s : State) : Host.Outcome State Fault Refusal :=
  vecOp (.vcvt p f) s fun c g => vCvt c g

/-- VDQ (R364). -/
def execVdq (p : Pred) (f : VecF) (s : State) : Host.Outcome State Fault Refusal :=
  vecOp (.vdq p f) s fun c g => vDq c g

/-- VRSUM (R365). -/
def execVrsum (p : Pred) (f : VecF) (s : State) : Host.Outcome State Fault Refusal :=
  vecOp (.vrsum p f) s fun c g => vRsum c g

/-- VRMAX (R365). -/
def execVrmax (p : Pred) (f : VecF) (s : State) : Host.Outcome State Fault Refusal :=
  vecOp (.vrmax p f) s fun c g => vRext c g maxF maxI

/-- VRMIN (R365). -/
def execVrmin (p : Pred) (f : VecF) (s : State) : Host.Outcome State Fault Refusal :=
  vecOp (.vrmin p f) s fun c g => vRext c g minF minI

/-- VBAMAX (R366). -/
def execVbamax (p : Pred) (f : VecF) (s : State) : Host.Outcome State Fault Refusal :=
  vecOp (.vbamax p f) s fun c g => vBamax c g

/-- VMOV (R367). -/
def execVmov (p : Pred) (f : VecF) (s : State) : Host.Outcome State Fault Refusal :=
  vecOp (.vmov p f) s fun c g => ((c.row g.a).toNat, 0, c.seed)

/-- VBCST (R367). -/
def execVbcst (p : Pred) (f : VecF) (s : State) : Host.Outcome State Fault Refusal :=
  vecOp (.vbcst p f) s fun c g => vBcst c f g

/-- VEXT (R368). -/
def execVext (p : Pred) (f : VecF) (s : State) : Host.Outcome State Fault Refusal :=
  vecOp (.vext p f) s fun c g => vExt c g

/-- VINS (R369). -/
def execVins (p : Pred) (f : VecF) (s : State) : Host.Outcome State Fault Refusal :=
  vecOp (.vins p f) s fun c g => vIns c g

/-- VPERM (R368). -/
def execVperm (p : Pred) (f : VecF) (s : State) : Host.Outcome State Fault Refusal :=
  vecOp (.vperm p f) s fun c g => vPerm c g

/-- VROT (R368). -/
def execVrot (p : Pred) (f : VecF) (s : State) : Host.Outcome State Fault Refusal :=
  vecOp (.vrot p f) s fun c g => vRot c g

/-- VIOTA (R369). -/
def execViota (p : Pred) (f : VecF) (s : State) : Host.Outcome State Fault Refusal :=
  vecOp (.viota p f) s fun c g => vIota c g

/-- VPACK (R370). -/
def execVpack (p : Pred) (f : VecF) (s : State) : Host.Outcome State Fault Refusal :=
  vecOp (.vpack p f) s fun c g => vPack c g

/-- VUNPK (R370). -/
def execVunpk (p : Pred) (f : VecF) (s : State) : Host.Outcome State Fault Refusal :=
  vecOp (.vunpk p f) s fun c g => vUnpk c g

/-- VCMPR (R370). -/
def execVcmpr (p : Pred) (f : VecF) (s : State) : Host.Outcome State Fault Refusal :=
  vecOp (.vcmpr p f) s fun c g => vCmpr c g

/-- VAMUL (R372). -/
def execVamul (p : Pred) (f : VecF) (s : State) : Host.Outcome State Fault Refusal :=
  vecOp (.vamul p f) s fun c g => vAmul c g

/-- VCONJ (R372). -/
def execVconj (p : Pred) (f : VecF) (s : State) : Host.Outcome State Fault Refusal :=
  vecOp (.vconj p f) s fun c g => vConj c g

/-- VNORM (R372). -/
def execVnorm (p : Pred) (f : VecF) (s : State) : Host.Outcome State Fault Refusal :=
  vecOp (.vnorm p f) s fun c g => vNorm c g

/-- VMAC: VFMA with C := D, a deprecated form (R293). -/
def execVmac (p : Pred) (f : VecF) (s : State) : Host.Outcome State Fault Refusal :=
  slotOp (.vmac p f) s fun is c =>
    let g := { f with c := f.d }
    let (v, fl, seed) := vFused c g false false
    let rows := rowWr c (linOf c 0 (.vmac p f)) f.d (BitVec.ofNat 2048 v)
    s.setCtx is.ck (((c.deprec is.va).drew seed).stages is.slot 4 (rows ++ vecFlags (livePlaces c [f.d]) fl))

end Sys2Proof.Machine
end

