-- ==== Sys2Proof/Machine/Mtx.lean ====
section
/-! DEFINITION. The MTX forms (R373 to R383): the matrix product through an algebra table with the order of summation of
R256 and R257, clears, copies and transposes of tile registers, and the readout of R258. -/

namespace Sys2Proof.Machine

/-- The columns of a block-scaled operand, one scalar of every line at a time, its escapes taking the entries of an
inclusion list in order (R253, R254, R378): values and how many escapes have been numbered. -/
def mmaColumn (il : List (Nat × Nat)) (scale : Nat → Nat → Num) (k : Nat) : Nat → Nat → List Nat → List Num × Nat × Nat
  | n, _, [] => ([], n, 0)
  | n, i, q :: t =>
    if q = 8 then
      let v : Num × Nat := match il[n]? with
        | some e => (decIeee 7 e.2, 0)
        | none => (.fin false 0 0, fIOVF)
      let (vs, n', fl) := mmaColumn il scale k (n + 1) (i + 1) t
      (v.1 :: vs, n', v.2 ||| fl)
    else
      let (vs, n', fl) := mmaColumn il scale k n (i + 1) t
      (((decE2m1 q).mul (scale i (k / 8))).1 :: vs, n', fl)

/-- Columns k on of a block-scaled operand. -/
def mmaColumns (il : List (Nat × Nat)) (scale : Nat → Nat → Num) : Nat → Nat → List (List Nat) → List (List Num) × Nat
  | _, _, [] => ([], 0)
  | n, k, col :: t =>
    let (vs, n', fl) := mmaColumn il scale k n 0 col
    let (cs, fl') := mmaColumns il scale n' (k + 1) t
    (vs :: cs, fl ||| fl')

/-- Rows of a table as columns, and columns as rows: n of them. -/
def turn {α : Type} (d : α) (n : Nat) (l : List (List α)) : List (List α) := (List.range n).map fun k => l.map fun r => r.getD k d

/-- A block-scaled operand's lines, each of L scalars (R378), and the conditions of its escapes. -/
def mmaScaled (c : Ctx) (scN so ilN nb len : Nat) (lines : List (List Nat)) : List (List Num) × Nat :=
  let e := ilEntries (c.arch.il.get 0 ilN)
  let (cols, fl) := mmaColumns (e.take (ilPop e)) (fun i b => decE3m5 (scCode c scN (so + i * nb + b))) 0 0 (turn 0 len lines)
  (turn (.fin false 0 0) lines.length cols, fl)

/-- The raw lines of A (R373): `len` scalars of each. -/
def mmaLinesA (c : Ctx) (f : MtxF) (d len : Nat) : List (List Nat) :=
  (List.range (mE d)).map fun i => (vElems c (fmtWidth f.fa) (32 * f.ta + f.a0 + i)).take len

/-- The raw lines of B (R373): for d = 1, lines 32 to 63 start in the middle of their row. -/
def mmaLinesB (c : Ctx) (f : MtxF) (d len : Nat) : List (List Nat) :=
  let w := fmtWidth f.fb
  (List.range (nE d)).map fun j =>
    if d = 1 then ((vElems c w (32 * f.tb + j % 32)).drop (if j < 32 then 0 else 2048 / w / 2)).take len
    else (vElems c w (32 * f.tb + f.b0 + j)).take len

/-- The terms of component k of a product through a table (R260). -/
def algTerms (t : AlgTab) (k : Nat) (x y : List Num) : List (Num × Bool) :=
  (t.ents.filter fun e => e.2.2.1 == k).map fun e =>
    let (p, bad) := (x.getD e.1 (.fin false 0 0)).mul (y.getD e.2.1 (.fin false 0 0))
    (if e.2.2.2 then p.neg else p, bad)

/-- The exact sum of terms: a NaN term, ∞ × 0 or opposite infinities make it NaN with INV (R256). -/
def mmaSum (l : List (Num × Bool)) : Num × Nat :=
  let (v, bad) := sumNum false (l.map (·.1))
  (v, flagIf (bad || l.any (·.2) || v.isNan) fINV)

/-- acc + T or acc - T rounded to FP32 (R256, R257), and its conditions. -/
def mmaAcc (f : MtxF) (acc : Nat) (t : Num) : Nat × Nat :=
  let (v, bad) := sumNum false [decIeee 23 acc, if f.acc = 2 then t.neg else t]
  let (b, fl) := encIeeeR 1 (f.sat == 1) .rne 0 v
  (b, fl ||| flagIf bad fINV)

/-- One component over the element pairs of the BF16 and E4M3 path (R257). -/
def mmaPlain (f : MtxF) (t : AlgTab) (k : Nat) : List (List Num × List Num) → Nat → Nat × Nat
  | [], acc => (acc, 0)
  | (x, y) :: l, acc =>
    let (s, f1) := mmaSum (algTerms t k x y)
    let (acc, f2) := mmaAcc f acc s
    let (acc, f3) := mmaPlain f t k l acc
    (acc, f1 ||| f2 ||| f3)

/-- One component over the blocks of the block-scaled path (R256): two roundings in each. -/
def mmaBlocks (f : MtxF) (t : AlgTab) (k : Nat) : List (List (List Num × List Num)) → Nat → Nat × Nat
  | [], acc => (acc, 0)
  | blk :: l, acc =>
    let (s, f1) := mmaSum (blk.flatMap fun p => algTerms t k p.1 p.2)
    let (tb, f2) := encIeeeR 1 (f.sat == 1) .rne 0 s
    let (acc, f3) := mmaAcc f acc (decIeee 23 tb)
    let (acc, f4) := mmaBlocks f t k l acc
    (acc, f1 ||| f2 ||| f3 ||| f4)

/-- An exact integer of a finite value. -/
def Num.toInt (v : Num) : Int := v.at 0

/-- One component of the integer path (R257): each addition wraps, or clamps with SAT. -/
def mmaInt (f : MtxF) (t : AlgTab) (k : Nat) : List (List Num × List Num) → Nat → Nat × Nat
  | [], acc => (acc, 0)
  | (x, y) :: l, acc =>
    let s : Int := ((algTerms t k x y).map fun p => p.1.toInt).foldl (· + ·) 0
    let v : Int := sext 32 acc + (if f.acc = 2 then -s else s)
    let out := v > 2 ^ 31 - 1 || v < -(2 ^ 31)
    let w := if f.sat = 1 && out then (if v < 0 then 2 ^ 31 else 2 ^ 31 - 1) else wrap 32 v
    let (acc, fl) := mmaInt f t k l w
    (acc, flagIf (f.sat == 1 && out) fSAT ||| fl)

/-- A list in runs of n. -/
def runs {α : Type} (n : Nat) (l : List α) : List (List α) := (List.range ((l.length + n - 1) / n)).map fun j => (l.drop (j * n)).take n

/-- Lines, conjugated where the bit is set (R263), as lists of elements. -/
def mmaElems (t : AlgTab) (cj : Nat) (lines : List (List Num)) : List (List (List Num)) :=
  lines.map fun l => (byD t.d l).map fun x => if cj = 1 then algConj t x else x

/-- The accumulator rows of an MMA that is not a no-op, and its conditions (R378). -/
def mmaRows (c : Ctx) (f : MtxF) : List Nat × Nat :=
  let t := algTab (c.tab.get 0 f.att)
  let d := t.d
  let len := mmaCount c f * stepE f.fa f.fb * d
  let block := f.fa = 3 ∧ f.fb = 3
  let (soa, sob, sca, scb, ila, ilb) := mmaExt f
  let nb := (len + 7) / 8
  let (la, fa) := if block then mmaScaled c sca soa ila nb len (mmaLinesA c f d len)
    else ((mmaLinesA c f d len).map fun l => l.map (decFmt f.fa), 0)
  let (lb, fb) := if block then mmaScaled c scb sob ilb nb len (mmaLinesB c f d len)
    else ((mmaLinesB c f d len).map fun l => l.map (decFmt f.fb), 0)
  let a := mmaElems t f.cja la
  let b := mmaElems t f.cjb lb
  let rows := a.mapIdx fun i x =>
    let old := vElems c 32 (32 * f.tc + i)
    b.mapIdx fun j y =>
      let ps := (List.zip x y).map fun p => if f.ord = 1 then (p.2, p.1) else p
      (List.range d).map fun k =>
        let acc := if f.acc = 0 then 0 else nth old (d * j + k)
        if block then mmaBlocks f t k (runs (8 / d) ps) acc
        else if f.fa ≥ 4 then mmaInt f t k ps acc
        else mmaPlain f t k ps acc
  let flat := rows.map fun r => r.flatten
  (flat.map fun r => packElems 32 (r.map (·.1)), fa ||| fb ||| orAll (flat.map fun r => orAll (r.map (·.2))))

/-- A tile register whose layout no MTX form reads: d > 1 and planar (R262). -/
def badTc (c : Ctx) (t : Nat) : Bool := let v := (c.tc.get 0 t).toNat
                                        bits v 23 22 != 0 && !v.testBit 21

/-- The shape rules of R374. -/
def mmaShapeBad (c : Ctx) (f : MtxF) (d : Nat) : Bool :=
  let nb := (mmaCount c f * stepE f.fa f.fb * d + 7) / 8
  let (soa, sob, _, _, _, _) := mmaExt f
  mmaCount c f > min 64 (128 / d) || f.a0 + mE d > 32 || f.b0 + min (nE d) 32 > 32
    || (f.fa == 3 && f.fb == 3 && (soa + mE d * nb > 256 || sob + nE d * nb > 256))

/-- MMA (R373 to R380). -/
def execMma (p : Pred) (f : MtxF) (s : State) : Host.Outcome State Fault Refusal :=
  let i := Instr.mma p f
  slotOp i s fun is c =>
    let g := mtxGen c.gen f
    let d := mmaD c f
    let l := linOf c 0 i
    let lat := latOf c i
    if [g.tc, g.ta, g.tb].any (badTc c) then slotFault s 0x11 is.va
    else if [g.tc, g.ta, g.tb].any fun t => 2 ^ bits (c.tc.get 0 t).toNat 23 22 != d then slotFault s 0x16 is.va
    else if mmaNoop c g then
      s.setCtx is.ck (c.stages is.slot lat ((livePlaces c (tileRows g.tc 0 (mE d))).map fun k => .lin k l))
    else if mmaShapeBad c g d then slotFault s 0x1A is.va
    else
      let (rows, fl) := mmaRows c g
      let wr := (rows.mapIdx fun k v => rowWr c l (32 * g.tc + k) (BitVec.ofNat 2048 v)).flatten
      let s := s.setCtx is.ck (c.stages is.slot lat (wr ++ astWrs (livePlaces c (tileRows g.tc 0 1)) fl))
      { s with iss := some { is with steps := mmaCount c g } }

/-- A form of whole tile registers: its layout check, then the rows it writes (R375, R381). -/
def tileOp (i : Instr) (f : MtxF) (useA : Bool) (s : State) (g : Ctx → Nat → Nat × List Wr) :
    Host.Outcome State Fault Refusal :=
  slotOp i s fun is c =>
    if badTc c f.tc || (useA && badTc c f.ta) then slotFault s 0x11 is.va
    else
      let l := linOf c 0 i
      let wr := (List.range 32).flatMap fun r => rowWr c l (32 * f.tc + r) (BitVec.ofNat 2048 (g c r).1)
      s.setCtx is.ck (c.stages is.slot (latOf c i) (wr ++ (g c 0).2))

/-- MZERO (R381). -/
def execMzero (p : Pred) (f : MtxF) (s : State) : Host.Outcome State Fault Refusal :=
  tileOp (.mzero p f) f false s fun _ _ => (0, [])

/-- MCPY: rows and the source's AST, as at issue; the AST goes from place to place, dead ones too (R205, R216, R381). -/
def execMcpy (p : Pred) (f : MtxF) (s : State) : Host.Outcome State Fault Refusal :=
  tileOp (.mcpy p f) f true s fun c r =>
    ((c.row (32 * f.ta + r)).toNat,
     [.astOr (astPlace c f.tc) (c.arch.ast.get 0 (astPlace c f.ta))])

/-- MTRN: square blocks of 32 × 32 scalars transposed (R381). -/
def execMtrn (p : Pred) (f : MtxF) (s : State) : Host.Outcome State Fault Refusal :=
  tileOp (.mtrn p f) f true s fun c r =>
    let w := fmtWidth f.fa
    let rows := (List.range 32).map fun k => (c.row (32 * f.ta + k)).toNat
    (packElems w ((List.range (2048 / w)).map fun e =>
      (rows.getD (e % 32) 0) / 2 ^ (w * (32 * (e / 32) + r)) % 2 ^ w), [])

/-- Values rounded by MRD in increasing element, SR drawing once for each (R250, R383): codes, conditions, seed. -/
def mrdRound (fmt : Nat) (clamp : Bool) (rm : Rm) : Nat → List Num → List Nat × Nat × Nat
  | seed, [] => ([], 0, seed)
  | seed, v :: t =>
    let seed := if rm = .sr then draw seed else seed
    let (b, f) := if fmt ≤ 1 then encIeeeR fmt clamp rm seed v else encFmt fmt rm seed v
    let (bs, fs, seed') := mrdRound fmt clamp rm seed t
    (b :: bs, f ||| fs, seed')

/-- An accumulator element scaled by two band scales, exact, and its condition (R383). -/
def mrdScale (ba bb a : Num) : Num × Nat :=
  let (b, bad) := ba.mul bb
  if b.isNan then (.nan, fINV)
  else
    let (v, bad') := a.mul b
    (v, flagIf (bad || bad') fINV)

/-- MRD (R382, R383). -/
def execMrd (p : Pred) (f : MtxF) (s : State) : Host.Outcome State Fault Refusal :=
  let i := Instr.mrd p f
  slotOp i s fun is c =>
    if badTc c f.tc || badTc c f.ta then slotFault s 0x11 is.va
    else
      let e := f.ext.getD 0
      let one : Num := .fin false 1 0
      let (ba, bb) := if f.ext.isSome then (bsVal c (bits e 4 3) (bits e 8 5), bsVal c (bits e 10 9) (bits e 14 11)) else (one, one)
      let src := (List.range (32 / fmtWidth f.fa)).flatMap fun t => vNums c f.fb (32 * f.ta + f.a0 + t)
      let vs := if f.fb = 1 then src.map (mrdScale ba bb) else src.map fun v => (v, 0)
      let (b, fl, seed) := mrdRound f.fa (f.sat == 1) (rmOf (bits e 2 0)) c.seed (vs.map (·.1))
      let row := 32 * f.tc + f.b0
      s.setCtx is.ck ((c.drew seed).stages is.slot (latOf c i)
        (rowWr c (linOf c 0 i) row (ofElems (fmtWidth f.fa) b)
          ++ astWrs (livePlaces c [row]) (fl ||| orAll (vs.map (·.2)))))

end Sys2Proof.Machine
end

