-- ==== Sys2Proof/Machine/Scl.lean ====
section
/-! DEFINITION. The SCL forms (R384 to R386): loads of scale-side registers from the own scratchpad, and moves. -/

namespace Sys2Proof.Machine

/-- A load of a scale-side register: n bytes of the own scratchpad with held stores over them, one row entry of the input
buffer, latency 4 (R230, R231, R384). -/
def sclLoad (i : Instr) (b : Nat) (o : Imm) (n align : Nat) (key : Nat) (s : State) (w : Nat → Nat → Wr) :
    Host.Outcome State Fault Refusal :=
  slotOp i s fun is c =>
    let va := sclEa c b o
    match ownLoc s c (is.ck / 2) va with
    | none => slotFault s 1 va
    | some loc =>
      if va % align ≠ 0 ∨ va % 256 + n > 256 then slotFault s 1 va
      else if c.rowLoads ≥ 128 then slotFault s 0x13 is.va
      else if c.recasts > 0 then
        let (v, t, ok) := match (c.ibuf.filter (·.isRow))[c.rowLoads]? with
          | some e => (e.val, e.tag, e.va == va)
          | none => (0, 0, false)
        s.setCtx is.ck ({ c with rowLoads := c.rowLoads + 1, strayLoad := c.strayLoad || !ok }.stages is.slot 4
          [w v va, .lin key (linOf c (BitVec.ofNat 32 t) i)])
      else
        let v := overlay (rdNat s loc n) (coverOf s c va n 0)
        let t := tagAt s loc
        let ent : InEnt := ⟨true, va, (is.va + 2 ^ 64 - c.entryVa) % 2 ^ 64 / 4, 0, v, t.toNat, true⟩
        s.setCtx is.ck ({ c with rowLoads := c.rowLoads + 1, ibuf := c.ibuf ++ [ent] }.stages is.slot 4
          [w v va, .lin key (linOf c t i)])

/-- SLD (R384). -/
def execSld (p : Pred) (d b : Nat) (o : Imm) (s : State) : Host.Outcome State Fault Refusal :=
  sclLoad (.sld p d b o) b o 256 256 (0x900 + d) s fun v _ => .sc d (BitVec.ofNat 2048 v)

/-- SLIL (R384). -/
def execSlil (p : Pred) (d b : Nat) (o : Imm) (s : State) : Host.Outcome State Fault Refusal :=
  sclLoad (.slil p d b o) b o 64 64 (0x910 + d) s fun v _ => .il d (BitVec.ofNat 512 v)

/-- SLBS (R384). -/
def execSlbs (p : Pred) (d b : Nat) (o : Imm) (s : State) : Host.Outcome State Fault Refusal :=
  sclLoad (.slbs p d b o) b o 32 32 (0x920 + d) s fun v _ => .bs d (BitVec.ofNat 256 v)

/-- ATLD: an illegal table leaves the register unchanged and raises bad-table as a fault reply does (R259, R384). -/
def execAtld (p : Pred) (d b : Nat) (o : Imm) (s : State) : Host.Outcome State Fault Refusal :=
  sclLoad (.atld p d b o) b o 48 16 (0x930 + d) s fun v va =>
    if atIllegal (BitVec.ofNat 384 v) then .badTab d va else .tab d (BitVec.ofNat 384 v)

/-- SMOV (R385). -/
def execSmov (p : Pred) (d k x : Nat) (s : State) : Host.Outcome State Fault Refusal :=
  let i := Instr.smov p d k x
  slotOp i s fun is c =>
    let w : Wr := if k = 0 then .sc d (c.sc.get 0 x) else if k = 1 then .il d (c.arch.il.get 0 x)
      else if k = 2 then .bs d (c.bs.get 0 x) else .tab d (c.tab.get 0 x)
    s.setCtx is.ck (c.stages is.slot (latOf c i) [w, .lin (0x900 + (if k = 0 then 0 else 16 * k) + d) (linOf c 0 i)])

end Sys2Proof.Machine
end

