-- ==== Sys2Proof/Machine/Sys.lean ====
section
/-! DEFINITION. System registers, tile control and status (R200, R201, R319 to R321). -/

namespace Sys2Proof.Machine

/-- MFS: a register of the own context or tile, and TSC, at latency 1; one of another class as a variable-latency load,
recorded in the input buffer (R319, R320). -/
def execMfs (p : Pred) (d r : Nat) (s : State) : Host.Outcome State Fault Refusal :=
  let i := Instr.mfs p d r
  slotOp i s fun is c =>
    let tile := is.ck / 2
    let cls := sysClass r
    if sysPriv r && !c.priv then slotFault s 0x0D is.va
    else if cls ≤ 1 then
      let v := if cls = 0 then readCtxReg s c tile r else readReg s 1 r tile
      s.setCtx is.ck (c.stages is.slot 1 [.x d (BitVec.ofNat 64 v), .lin (xKey d) (linOf c 0 i)])
    else
      loadOne s { isRow := false, addr := r, sub := 0, dst := if d = 0 then .none else .x d, size := 8, els := [], lat := 0,
                  known := some (readReg s cls r (sysUnit c tile cls), 0), instr := i }

/-- MTS: the context's own registers at latency 1; any other register, CONT_WAKE and SEAL_VERD as a held store (R319). -/
def execMts (p : Pred) (x r : Nat) (s : State) : Host.Outcome State Fault Refusal :=
  slotOp (.mts p x r) s fun is c =>
    let v := c.rx x
    if sysPrivWrite r && !c.priv then slotFault s 0x0D is.va
    else if sysReadOnly r then s
    else if sysClass r = 0 ∧ r ≠ 0x14 ∧ r ≠ 0x2C then
      let v := v &&& ctxRegMask r
      let w : Wr := if r = 0x10 then .fstSet v else if r = 0x11 then .seedSet v else .ctxReg r v
      let c := if r = 0x13 then { c with rtbSet := true } else c
      s.setCtx is.ck (c.stage is.slot 1 w)
    else hold s [⟨.mts r v.toNat, 0, 0⟩]

/-- A legal tile control value (R200). -/
def tcOk (v : Nat) : Bool :=
  bits v 63 24 == 0 && bits v 4 3 == 0 && bits v 20 10 ≤ 2048 / fmtWidth (bits v 2 0)
    && bits v 20 10 % 2 ^ bits v 23 22 == 0

/-- MVTC: bad-tc for an illegal value (R200, R321). -/
def execMvtc (p : Pred) (a n : Nat) (s : State) : Host.Outcome State Fault Refusal :=
  slotOp (.mvtc p a n) s fun is c =>
    if tcOk (c.rx a).toNat then s.setCtx is.ck (c.stage is.slot 1 (.tc n (c.rx a))) else slotFault s 0x11 is.va

/-- MFTC (R321). -/
def execMftc (p : Pred) (d n : Nat) (s : State) : Host.Outcome State Fault Refusal :=
  xOp (.mftc p d n) d s fun c => c.tc.get 0 n

/-- ACLR: one AST byte, or those of every tile register of TMASK (R321, R216). -/
def execAclr (p : Pred) (n : Nat) (s : State) : Host.Outcome State Fault Refusal :=
  slotOp (.aclr p n) s fun is c =>
    let ns := if n = 0x3FF then (List.range 48).filter (fun t => c.tmask.testBit t) else [n]
    s.setCtx is.ck (c.stages is.slot 1 (ns.map fun t => .astClr (astPlace c t)))

end Sys2Proof.Machine
end

