-- ==== Sys2Proof/Machine/Dispatch.lean ====
section
/-! DEFINITION. The one dispatch from instructions and events to their meanings. -/

namespace Sys2Proof.Machine

/-- The meaning of an instruction or an event. -/
def exec (i : Instr) (s : State) : Host.Outcome State Fault Refusal :=
  match i with
  | .nop bk dp lv => Sys2Proof.Machine.execNop bk dp lv s
  | .prep p n o => Sys2Proof.Machine.execPrep p n o s
  | .prepi p n m => Sys2Proof.Machine.execPrepi p n m s
  | .jmp p n => Sys2Proof.Machine.execJmp p n s
  | .br p n => Sys2Proof.Machine.execBr p n s
  | .brn p n => Sys2Proof.Machine.execBrn p n s
  | .call p n => Sys2Proof.Machine.execCall p n s
  | .ret p => Sys2Proof.Machine.execRet p s
  | .loop p l c o => Sys2Proof.Machine.execLoop p l c o s
  | .lstep p l b r st => Sys2Proof.Machine.execLstep p l b r st s
  | .lbrk p l => Sys2Proof.Machine.execLbrk p l s
  | .rot p n => Sys2Proof.Machine.execRot p n s
  | .ldep p n => Sys2Proof.Machine.execLdep p n s
  | .syncN p g => Sys2Proof.Machine.execSyncN p g s
  | .syncX p g => Sys2Proof.Machine.execSyncX p g s
  | .waitfeRow p r => Sys2Proof.Machine.execWaitfeRow p r s
  | .waitfeFlag p r => Sys2Proof.Machine.execWaitfeFlag p r s
  | .susp p => Sys2Proof.Machine.execSusp p s
  | .yield p => Sys2Proof.Machine.execYield p s
  | .exit p => Sys2Proof.Machine.execExit p s
  | .trap p c => Sys2Proof.Machine.execTrap p c s
  | .ifence p => Sys2Proof.Machine.execIfence p s
  | .eret p => Sys2Proof.Machine.execEret p s
  | .halt p => Sys2Proof.Machine.execHalt p s
  | .add p d a b => Sys2Proof.Machine.execAdd p d a b s
  | .sub p d a b => Sys2Proof.Machine.execSub p d a b s
  | .and p d a b => Sys2Proof.Machine.execAnd p d a b s
  | .or p d a b => Sys2Proof.Machine.execOr p d a b s
  | .xor p d a b => Sys2Proof.Machine.execXor p d a b s
  | .andn p d a b => Sys2Proof.Machine.execAndn p d a b s
  | .shl p d a b => Sys2Proof.Machine.execShl p d a b s
  | .shr p d a b => Sys2Proof.Machine.execShr p d a b s
  | .sra p d a b => Sys2Proof.Machine.execSra p d a b s
  | .rotl p d a b => Sys2Proof.Machine.execRotl p d a b s
  | .min p d a b => Sys2Proof.Machine.execMin p d a b s
  | .max p d a b => Sys2Proof.Machine.execMax p d a b s
  | .minu p d a b => Sys2Proof.Machine.execMinu p d a b s
  | .maxu p d a b => Sys2Proof.Machine.execMaxu p d a b s
  | .mul p d a b => Sys2Proof.Machine.execMul p d a b s
  | .mulhs p d a b => Sys2Proof.Machine.execMulhs p d a b s
  | .mulhz p d a b => Sys2Proof.Machine.execMulhz p d a b s
  | .div p d a b => Sys2Proof.Machine.execDiv p d a b s
  | .divu p d a b => Sys2Proof.Machine.execDivu p d a b s
  | .rem p d a b => Sys2Proof.Machine.execRem p d a b s
  | .remu p d a b => Sys2Proof.Machine.execRemu p d a b s
  | .addi p d a im => Sys2Proof.Machine.execAddi p d a im s
  | .clz p d a => Sys2Proof.Machine.execClz p d a s
  | .ctz p d a => Sys2Proof.Machine.execCtz p d a s
  | .popc p d a => Sys2Proof.Machine.execPopc p d a s
  | .sextB p d a => Sys2Proof.Machine.execSextB p d a s
  | .sextH p d a => Sys2Proof.Machine.execSextH p d a s
  | .sextW p d a => Sys2Proof.Machine.execSextW p d a s
  | .zextB p d a => Sys2Proof.Machine.execZextB p d a s
  | .zextH p d a => Sys2Proof.Machine.execZextH p d a s
  | .zextW p d a => Sys2Proof.Machine.execZextW p d a s
  | .movi p d im => Sys2Proof.Machine.execMovi p d im s
  | .movhi p d im => Sys2Proof.Machine.execMovhi p d im s
  | .lea p d a b sh => Sys2Proof.Machine.execLea p d a b sh s
  | .sel p d a b neg n => Sys2Proof.Machine.execSel p d a b neg n s
  | .cmp p n a b cc => Sys2Proof.Machine.execCmp p n a b cc s
  | .setc p n a => Sys2Proof.Machine.execSetc p n a s
  | .mfs p d r => Sys2Proof.Machine.execMfs p d r s
  | .mts p x r => Sys2Proof.Machine.execMts p x r s
  | .mvtc p a n => Sys2Proof.Machine.execMvtc p a n s
  | .mftc p d n => Sys2Proof.Machine.execMftc p d n s
  | .aclr p n => Sys2Proof.Machine.execAclr p n s
  | .cmpiEq p n a im => Sys2Proof.Machine.execCmpiEq p n a im s
  | .cmpiNe p n a im => Sys2Proof.Machine.execCmpiNe p n a im s
  | .cmpiLt p n a im => Sys2Proof.Machine.execCmpiLt p n a im s
  | .cmpiGe p n a im => Sys2Proof.Machine.execCmpiGe p n a im s
  | .cmpiLtu p n a im => Sys2Proof.Machine.execCmpiLtu p n a im s
  | .cmpiGeu p n a im => Sys2Proof.Machine.execCmpiGeu p n a im s
  | .shli p d a n => Sys2Proof.Machine.execShli p d a n s
  | .shri p d a n => Sys2Proof.Machine.execShri p d a n s
  | .srai p d a n => Sys2Proof.Machine.execSrai p d a n s
  | .vadd p f => Sys2Proof.Machine.execVadd p f s
  | .vsub p f => Sys2Proof.Machine.execVsub p f s
  | .vmul p f => Sys2Proof.Machine.execVmul p f s
  | .vfma p f => Sys2Proof.Machine.execVfma p f s
  | .vfms p f => Sys2Proof.Machine.execVfms p f s
  | .vfnm p f => Sys2Proof.Machine.execVfnm p f s
  | .vmac p f => Sys2Proof.Machine.execVmac p f s
  | .vneg p f => Sys2Proof.Machine.execVneg p f s
  | .vabs p f => Sys2Proof.Machine.execVabs p f s
  | .vmin p f => Sys2Proof.Machine.execVmin p f s
  | .vmax p f => Sys2Proof.Machine.execVmax p f s
  | .vrcp p f => Sys2Proof.Machine.execVrcp p f s
  | .vrsq p f => Sys2Proof.Machine.execVrsq p f s
  | .vexp2 p f => Sys2Proof.Machine.execVexp2 p f s
  | .vlog2 p f => Sys2Proof.Machine.execVlog2 p f s
  | .vsel p f => Sys2Proof.Machine.execVsel p f s
  | .vcmpEq p f => Sys2Proof.Machine.execVcmpEq p f s
  | .vcmpNe p f => Sys2Proof.Machine.execVcmpNe p f s
  | .vcmpLt p f => Sys2Proof.Machine.execVcmpLt p f s
  | .vcmpGe p f => Sys2Proof.Machine.execVcmpGe p f s
  | .vcmpLtu p f => Sys2Proof.Machine.execVcmpLtu p f s
  | .vcmpGeu p f => Sys2Proof.Machine.execVcmpGeu p f s
  | .vand p f => Sys2Proof.Machine.execVand p f s
  | .vor p f => Sys2Proof.Machine.execVor p f s
  | .vxor p f => Sys2Proof.Machine.execVxor p f s
  | .vnot p f => Sys2Proof.Machine.execVnot p f s
  | .vshl p f => Sys2Proof.Machine.execVshl p f s
  | .vshr p f => Sys2Proof.Machine.execVshr p f s
  | .vsra p f => Sys2Proof.Machine.execVsra p f s
  | .vcvt p f => Sys2Proof.Machine.execVcvt p f s
  | .vqnt p f => Sys2Proof.Machine.execVqnt p f s
  | .vdq p f => Sys2Proof.Machine.execVdq p f s
  | .vrsum p f => Sys2Proof.Machine.execVrsum p f s
  | .vrmax p f => Sys2Proof.Machine.execVrmax p f s
  | .vrmin p f => Sys2Proof.Machine.execVrmin p f s
  | .vbamax p f => Sys2Proof.Machine.execVbamax p f s
  | .vmov p f => Sys2Proof.Machine.execVmov p f s
  | .vbcst p f => Sys2Proof.Machine.execVbcst p f s
  | .vext p f => Sys2Proof.Machine.execVext p f s
  | .vins p f => Sys2Proof.Machine.execVins p f s
  | .vperm p f => Sys2Proof.Machine.execVperm p f s
  | .vrot p f => Sys2Proof.Machine.execVrot p f s
  | .viota p f => Sys2Proof.Machine.execViota p f s
  | .vpack p f => Sys2Proof.Machine.execVpack p f s
  | .vunpk p f => Sys2Proof.Machine.execVunpk p f s
  | .vcmpr p f => Sys2Proof.Machine.execVcmpr p f s
  | .vpart p f => Sys2Proof.Machine.execVpart p f s
  | .vamul p f => Sys2Proof.Machine.execVamul p f s
  | .vconj p f => Sys2Proof.Machine.execVconj p f s
  | .vnorm p f => Sys2Proof.Machine.execVnorm p f s
  | .mma p f => Sys2Proof.Machine.execMma p f s
  | .mzero p f => Sys2Proof.Machine.execMzero p f s
  | .mrd p f => Sys2Proof.Machine.execMrd p f s
  | .mtrn p f => Sys2Proof.Machine.execMtrn p f s
  | .mcpy p f => Sys2Proof.Machine.execMcpy p f s
  | .ld p f => Sys2Proof.Machine.execLd p f s
  | .st p f => Sys2Proof.Machine.execSt p f s
  | .tld p f => Sys2Proof.Machine.execTld p f s
  | .tst p f => Sys2Proof.Machine.execTst p f s
  | .tldm p f => Sys2Proof.Machine.execTldm p f s
  | .tstm p f => Sys2Proof.Machine.execTstm p f s
  | .vgath p f => Sys2Proof.Machine.execVgath p f s
  | .vscat p f => Sys2Proof.Machine.execVscat p f s
  | .ldsg p f => Sys2Proof.Machine.execLdsg p f s
  | .fence p f => Sys2Proof.Machine.execFence p f s
  | .fenceSc p f => Sys2Proof.Machine.execFenceSc p f s
  | .fenceAll p f => Sys2Proof.Machine.execFenceAll p f s
  | .pref p f => Sys2Proof.Machine.execPref p f s
  | .bankAdd p f => Sys2Proof.Machine.execBankAdd p f s
  | .bankFadd p f => Sys2Proof.Machine.execBankFadd p f s
  | .bankMin p f => Sys2Proof.Machine.execBankMin p f s
  | .bankMax p f => Sys2Proof.Machine.execBankMax p f s
  | .bankOr p f => Sys2Proof.Machine.execBankOr p f s
  | .bankAnd p f => Sys2Proof.Machine.execBankAnd p f s
  | .bankSwap p f => Sys2Proof.Machine.execBankSwap p f s
  | .sld p d b o => Sys2Proof.Machine.execSld p d b o s
  | .slil p d b o => Sys2Proof.Machine.execSlil p d b o s
  | .slbs p d b o => Sys2Proof.Machine.execSlbs p d b o s
  | .atld p d b o => Sys2Proof.Machine.execAtld p d b o s
  | .smov p d k x => Sys2Proof.Machine.execSmov p d k x s
  | .eftMovi d h im => Sys2Proof.Machine.execEftMovi d h im s
  | .eftAdd d a b => Sys2Proof.Machine.execEftAdd d a b s
  | .eftAddImm d a im => Sys2Proof.Machine.execEftAddImm d a im s
  | .eftSub d a b => Sys2Proof.Machine.execEftSub d a b s
  | .eftSubImm d a im => Sys2Proof.Machine.execEftSubImm d a im s
  | .eftAnd d a b => Sys2Proof.Machine.execEftAnd d a b s
  | .eftAndImm d a im => Sys2Proof.Machine.execEftAndImm d a im s
  | .eftOr d a b => Sys2Proof.Machine.execEftOr d a b s
  | .eftOrImm d a im => Sys2Proof.Machine.execEftOrImm d a im s
  | .eftXor d a b => Sys2Proof.Machine.execEftXor d a b s
  | .eftXorImm d a im => Sys2Proof.Machine.execEftXorImm d a im s
  | .eftShl d a b => Sys2Proof.Machine.execEftShl d a b s
  | .eftShlImm d a im => Sys2Proof.Machine.execEftShlImm d a im s
  | .eftShr d a b => Sys2Proof.Machine.execEftShr d a b s
  | .eftShrImm d a im => Sys2Proof.Machine.execEftShrImm d a im s
  | .eftMul d a b => Sys2Proof.Machine.execEftMul d a b s
  | .eftMulImm d a im => Sys2Proof.Machine.execEftMulImm d a im s
  | .eftMin d a b => Sys2Proof.Machine.execEftMin d a b s
  | .eftMinImm d a im => Sys2Proof.Machine.execEftMinImm d a im s
  | .eftMax d a b => Sys2Proof.Machine.execEftMax d a b s
  | .eftMaxImm d a im => Sys2Proof.Machine.execEftMaxImm d a im s
  | .eftCmp c a b => Sys2Proof.Machine.execEftCmp c a b s
  | .eftCmpImm c a im => Sys2Proof.Machine.execEftCmpImm c a im s
  | .eftBf o => Sys2Proof.Machine.execEftBf o s
  | .eftBfn o => Sys2Proof.Machine.execEftBfn o s
  | .eftJ o => Sys2Proof.Machine.execEftJ o s
  | .eftHrd d n => Sys2Proof.Machine.execEftHrd d n s
  | .eftHwr a n => Sys2Proof.Machine.execEftHwr a n s
  | .eftPld d a o => Sys2Proof.Machine.execEftPld d a o s
  | .eftPst x a o => Sys2Proof.Machine.execEftPst x a o s
  | .eftFld d a o => Sys2Proof.Machine.execEftFld d a o s
  | .eftFst x a o => Sys2Proof.Machine.execEftFst x a o s
  | .eftFvld d a o => Sys2Proof.Machine.execEftFvld d a o s
  | .eftFvst x a o => Sys2Proof.Machine.execEftFvst x a o s
  | .eftVadd d a b t h => Sys2Proof.Machine.execEftVadd d a b t h s
  | .eftVmax d a b t h => Sys2Proof.Machine.execEftVmax d a b t h s
  | .eftVmin d a b t h => Sys2Proof.Machine.execEftVmin d a b t h s
  | .eftVmul d a b t h => Sys2Proof.Machine.execEftVmul d a b t h s
  | .eftVcvt d a t h => Sys2Proof.Machine.execEftVcvt d a t h s
  | .eftFwd => Sys2Proof.Machine.execEftFwd s
  | .eftMcast a o => Sys2Proof.Machine.execEftMcast a o s
  | .eftDrop => Sys2Proof.Machine.execEftDrop s
  | .eftNack => Sys2Proof.Machine.execEftNack s
  | .eftEmit => Sys2Proof.Machine.execEftEmit s
  | .eftPark => Sys2Proof.Machine.execEftPark s
  | .eftDone => Sys2Proof.Machine.execEftDone s
  | .eftTrap c => Sys2Proof.Machine.execEftTrap c s
  | .lotteryDraw cp => Sys2Proof.Machine.execLotteryDraw cp s
  | .launch r => Sys2Proof.Machine.execLaunch r s
  | .admitImage r => Sys2Proof.Machine.execAdmit r s
  | .retire r => Sys2Proof.Machine.execRetire r s
  | .marker r => Sys2Proof.Machine.execMarker r s
  | .launchCompletion id => Sys2Proof.Machine.execLaunchCompletion id s
  | .linkReport die k => Sys2Proof.Machine.execLinkReport die k s
  | .packetInject die leaf k => Sys2Proof.Machine.execPacketInject die leaf k s
  | .jalcyDEndpointRewrite ep k => Sys2Proof.Machine.execJalcyDEndpointRewrite ep k s
  | .portSwitchRoute die fromX k => Sys2Proof.Machine.execPortSwitchRoute die fromX k s
  | .read die k => Sys2Proof.Machine.execRead die k s
  | .write die k => Sys2Proof.Machine.execWrite die k s
  | .readReply die k => Sys2Proof.Machine.execReadReply die k s
  | .writeAcknowledge die k => Sys2Proof.Machine.execWriteAcknowledge die k s
  | .bankOperation die k => Sys2Proof.Machine.execBankOperation die k s
  | .bankReply die k => Sys2Proof.Machine.execBankReply die k s
  | .contextWriteBack ck st => Sys2Proof.Machine.execContextWriteBack ck st s
  | .waitWriteBack ck => Sys2Proof.Machine.execWaitWriteBack ck s
  | .contWakeWrite part va => Sys2Proof.Machine.execContWakeWrite part va s
  | .barrierComplete part g => Sys2Proof.Machine.execBarrierComplete part g s
  | .riserCheck ck => Sys2Proof.Machine.execRiserCheck ck s
  | .contextExit ck => Sys2Proof.Machine.execContextExit ck s
  | .preemption ck => Sys2Proof.Machine.execPreemption ck s
  | .autotomy tile => Sys2Proof.Machine.execAutotomy tile s
  | .cardWindowEntry cl id => Sys2Proof.Machine.execCardWindowEntry cl id s
  | .cardDone cl id => Sys2Proof.Machine.execCardDone cl id s
  | .allReduce die op part => Sys2Proof.Machine.execAllReduce die op part s
  | .reduce die op part => Sys2Proof.Machine.execReduce die op part s
  | .broadcast die op part => Sys2Proof.Machine.execBroadcast die op part s
  | .allGather die op part => Sys2Proof.Machine.execAllGather die op part s
  | .reduceScatter die op part => Sys2Proof.Machine.execReduceScatter die op part s
  | .allToAll die op part => Sys2Proof.Machine.execAllToAll die op part s
  | .barrier die op part => Sys2Proof.Machine.execBarrier die op part s
  | .send die op part => Sys2Proof.Machine.execSend die op part s
  | .receive die op part => Sys2Proof.Machine.execReceive die op part s
  | .collectiveData die k => Sys2Proof.Machine.execCollectiveData die k s
  | .answer die k => Sys2Proof.Machine.execAnswer die k s
  | .nack die k => Sys2Proof.Machine.execNack die k s
  | .arm die core k => Sys2Proof.Machine.execArm die core k s
  | .eftPacketArrival die core k => Sys2Proof.Machine.execEftPacketArrival die core k s
  | .packageReset => Sys2Proof.Machine.execPackageReset s
  | .powerLoss => Sys2Proof.Machine.execPowerLoss s
  | .criticalTemperature die => Sys2Proof.Machine.execCriticalTemperature die s
  | .powerMeasurement mean => Sys2Proof.Machine.execPowerMeasurement mean s
  | .supplySagStepUp cl => Sys2Proof.Machine.execSupplySagStepUp cl s
  | .supplySagStepDown cl => Sys2Proof.Machine.execSupplySagStepDown cl s
  | .tscTick => Sys2Proof.Machine.execTscTick s
  | .refreshManagement stack row acts => Sys2Proof.Machine.execRefreshManagement stack row acts s
  | .hostRequest r => Sys2Proof.Machine.execHostRequest r s
  | .ideIntegrityFailure pf stream => Sys2Proof.Machine.execIdeIntegrityFailure pf stream s
  | .pcieLinkDown pf => Sys2Proof.Machine.execPcieLinkDown pf s
  | .pcieLinkUp pf => Sys2Proof.Machine.execPcieLinkUp pf s
  | .pfIdectlWrite pf v => Sys2Proof.Machine.execPfIdectlWrite pf v s
  | .pwrCapWrite w => Sys2Proof.Machine.execPwrCapWrite w s
  | .cqTailWrite vf q v => Sys2Proof.Machine.execCqTailWrite vf q v s
  | .cqCtlWrite vf q v => Sys2Proof.Machine.execCqCtlWrite vf q v s
  | .cpLseedWrite cp v => Sys2Proof.Machine.execCpLseedWrite cp v s
  | .vfPartWrite vf v => Sys2Proof.Machine.execVfPartWrite vf v s
  | .partClmapWrite p v => Sys2Proof.Machine.execPartClmapWrite p v s
  | .nrConsWrite p v => Sys2Proof.Machine.execNrConsWrite p v s
  | .hvNrConsWrite pf v => Sys2Proof.Machine.execHvNrConsWrite pf v s
  | .dataFlitSend ep vc body last => Sys2Proof.Machine.execDataFlitSend ep vc body last s
  | .dataFlitReceive ep f => Sys2Proof.Machine.execDataFlitReceive ep f s
  | .controlFlitReceive ep f => Sys2Proof.Machine.execControlFlitReceive ep f s
  | .oldKeyRetired ep f => Sys2Proof.Machine.execOldKeyRetired ep f s
  | .idleFlitReceive ep f => Sys2Proof.Machine.execIdleFlitReceive ep f s
  | .retryRequest ep f => Sys2Proof.Machine.execRetryRequest ep f s
  | .linkRetrain ep ok => Sys2Proof.Machine.execLinkRetrain ep ok s
  | .linkFailed ep => Sys2Proof.Machine.execLinkFailed ep s
  | .keyLimitWarning ep => Sys2Proof.Machine.execKeyLimitWarning ep s
  | .keyLimit ep => Sys2Proof.Machine.execKeyLimit ep s
  | .jlkKldWrite ep v => Sys2Proof.Machine.execJlkKldWrite ep v s
  | .txselWrite ep v => Sys2Proof.Machine.execTxselWrite ep v s
  | .retrainWrite ep v => Sys2Proof.Machine.execRetrainWrite ep v s
  | .linkEnableWrite ep v => Sys2Proof.Machine.execLinkEnableWrite ep v s
  | .switchTurn im => Sys2Proof.Machine.execSwitchTurn im s
  | .nocTurnWrite die leaf e v => Sys2Proof.Machine.execNocTurnWrite die leaf e v s
  | .nocWinminWrite die v => Sys2Proof.Machine.execNocWinminWrite die v s
  | .tlbWalk die part va => Sys2Proof.Machine.execTlbWalk die part va s
  | .zeroBeforeFirstAccess die part va ok => Sys2Proof.Machine.execZeroBeforeFirstAccess die part va ok s
  | .invProdWrite die v => Sys2Proof.Machine.execInvProdWrite die v s
  | .invKickWrite die v => Sys2Proof.Machine.execInvKickWrite die v s
  | .invalidatePage die => Sys2Proof.Machine.execInvalidatePage die s
  | .invalidatePartition die => Sys2Proof.Machine.execInvalidatePartition die s
  | .movePage die ok => Sys2Proof.Machine.execMovePage die ok s
  | .contextLoad tile slot => Sys2Proof.Machine.execContextLoad tile slot s
  | .flagReread part cr ck => Sys2Proof.Machine.execFlagReread part cr ck s
  | .waitDeadline part cr ck => Sys2Proof.Machine.execWaitDeadline part cr ck s
  | .preWrite p v => Sys2Proof.Machine.execPreWrite p v s
  | .holdWrite p v => Sys2Proof.Machine.execHoldWrite p v s
  | .pldWrite w => Sys2Proof.Machine.execPldWrite w s
  | .plcWrite p d v => Sys2Proof.Machine.execPlcWrite p d v s
  | .pltWrite p d c h v => Sys2Proof.Machine.execPltWrite p d c h v s
  | .slottabWrite tile v => Sys2Proof.Machine.execSlottabWrite tile v s
  | .cardLseedWrite cl v => Sys2Proof.Machine.execCardLseedWrite cl v s
  | .sfcWindowExpiry tile => Sys2Proof.Machine.execSfcWindowExpiry tile s
  | .verdictRemote ck => Sys2Proof.Machine.execVerdictRemote ck s
  | .verdictLocal ck => Sys2Proof.Machine.execVerdictLocal ck s
  | .retiredWrite tile v => Sys2Proof.Machine.execRetiredWrite tile v s
  | .finjCtlWrite cl v => Sys2Proof.Machine.execFinjCtlWrite cl v s
  | .collRtbWrite ck v => Sys2Proof.Machine.execCollRtbWrite ck v s
  | .bargCtlWrite p g v => Sys2Proof.Machine.execBargCtlWrite p g v s
  | .bargCluWrite p g v => Sys2Proof.Machine.execBargCluWrite p g v s
  | .cardDraw cl kind => Sys2Proof.Machine.execCardDraw cl kind s
  | .copy2d cl id => Sys2Proof.Machine.execCopy2d cl id s
  | .copyx cl id => Sys2Proof.Machine.execCopyx cl id s
  | .gather cl id => Sys2Proof.Machine.execGather cl id s
  | .scacc cl id => Sys2Proof.Machine.execScacc cl id s
  | .fill cl id => Sys2Proof.Machine.execFill cl id s
  | .copyxTimeout cl id => Sys2Proof.Machine.execCopyxTimeout cl id s
  | .ringPoll die ctx ring => Sys2Proof.Machine.execRingPoll die ctx ring s
  | .collectiveRetry die op im => Sys2Proof.Machine.execCollectiveRetry die op im s
  | .parkTimeout die unit im => Sys2Proof.Machine.execParkTimeout die unit im s
  | .collectiveTimeout die op => Sys2Proof.Machine.execCollectiveTimeout die op s
  | .eftRun die core => Sys2Proof.Machine.execEftRun die core s
  | .eftRetry die core im => Sys2Proof.Machine.execEftRetry die core im s
  | .eftSendLost die core im => Sys2Proof.Machine.execEftSendLost die core im s
  | .eftKernelEnable die core kern v => Sys2Proof.Machine.execEftKernelEnable die core kern v s
  | .eftKernelDisable die core kern v => Sys2Proof.Machine.execEftKernelDisable die core kern v s
  | .eftImemWrite die core w v => Sys2Proof.Machine.execEftImemWrite die core w v s
  | .eftFlowwinAccess die core w v => Sys2Proof.Machine.execEftFlowwinAccess die core w v s
  | .registerWrite key w priv => Sys2Proof.Machine.execRegisterWrite key w priv s
  | .jalcyLinkUp ep => Sys2Proof.Machine.execJalcyLinkUp ep s
  | .idleFlitSend ep => Sys2Proof.Machine.execIdleFlitSend ep s

end Sys2Proof.Machine
end

