-- ==== Sys2Proof/Machine/Issue.lean ====
section
/-! DEFINITION. The issue of bundles: fetch with the check of R120, the order of checks of R282, predication and
suppression (R212), the waits of R161 (R209, R326, R334, R342, R393), the digests of R226 and R227, the bundle's end, and
the cycle of a tile (R161, R380). -/

namespace Sys2Proof.Machine

/-! Fetch and decode -/

/-- A fault found before a slot runs: cause, slot, EVA, walk level. -/
structure Early where
  cause : Nat
  slot : Nat
  eva : Nat
  level : Nat := 255
  /-- The home die of an access's fault; none where the requester's die raised it (R135). -/
  die : Option Nat := none
  deriving DecidableEq, Repr

/-- A bundle fetched: its header, its slots with their words, and the VA after them. -/
structure Bundle where
  hdr : Header
  slots : List (Nat × Nat × Instr)
  next : Nat
  deriving DecidableEq, Repr

/-- Whether the word at a VA may issue: its 64-byte line lies in the code region of an image whose GEN is the context's (R120,
R265). -/
def codeBad (s : State) (c : Ctx) (va : Nat) : Option Nat :=
  let line := va / 64 * 64
  match (s.imageOf c.part va).filter fun im => im.base + im.codeOff ≤ line && line + 64 ≤ im.base + im.codeOff + im.codeLen with
  | none => some 0x1B
  | some im => if im.gen = c.gen then none else some 0x1C

/-- A word of the bundle at `bva` (R120). -/
def codeWord (s : State) (ck sl bva va : Nat) : State × Except Early Nat :=
  match codeBad s (s.ctx ck) va with
  | some b => (s, .error ⟨b, sl, bva, 255, none⟩)
  | none => match fetchWord s ck va with
    | (s, .error b) => (s, .error ⟨b.cause, sl, bva, b.level, some b.die⟩)
    | (s, .ok w) => (s, .ok w)

/-- n words of the bundle at `bva`, the first in the low bits. -/
def codeWords : Nat → State → Nat → Nat → Nat → Nat → State × Except Early Nat
  | 0, s, _, _, _, _ => (s, .ok 0)
  | n + 1, s, ck, sl, bva, va =>
    match codeWord s ck sl bva va with
    | (s, .error b) => (s, .error b)
    | (s, .ok w) => match codeWords n s ck sl bva (va + 4) with
      | (s, .error b) => (s, .error b)
      | (s, .ok v) => (s, .ok (w + 2 ^ 32 * v))

/-- The forms that stand only in an end bundle (R284, R293). -/
def endOnly (i : Instr) : Bool :=
  match i with
  | .syncN _ _ | .syncX _ _ | .waitfeRow _ _ | .waitfeFlag _ _ | .susp _ | .yield _ | .exit _ | .eret _ | .halt _ => true
  | _ => false

/-- The slot words of a bundle, in slot order, with the checks of each (R265, R282, R284). -/
def codeSlots : List Nat → State → Nat → Header → Nat → Nat → State × Except Early (List (Nat × Nat × Instr) × Nat)
  | [], s, _, _, _, va => (s, .ok ([], va))
  | sl :: rest, s, ck, h, bva, va =>
    let n := slotBytes sl
    match codeWords (n / 4) s ck sl bva va with
    | (s, .error b) => (s, .error b)
    | (s, .ok w) =>
      let ext := w.testBit (8 * n - 1)
      match (if ext then codeWords 1 s ck sl bva (va + n) else (s, .ok 0)) with
      | (s, .error b) => (s, .error b)
      | (s, .ok x) =>
        match decodeSlot (s.ctx ck).gen sl w (if ext then some x else none) with
        | .error e => (s, .error ⟨e.cause, sl, bva, 255, none⟩)
        | .ok i =>
          if endOnly i && !h.isEnd then (s, .error ⟨0x13, sl, bva, 255, none⟩)
          else match codeSlots rest s ck h bva (va + n + (if ext then 4 else 0)) with
            | (s, .error b) => (s, .error b)
            | (s, .ok (l, e)) => (s, .ok ((sl, w, i) :: l, e))

/-- The bundle at a context's pc. -/
def fetchBundle (s : State) (ck : Nat) : State × Except Early Bundle :=
  let c := s.ctx ck
  match codeWord s ck 0 c.pc c.pc with
  | (s, .error b) => (s, .error b)
  | (s, .ok w) =>
    match decodeHeader c.gen w with
    | .error e => (s, .error ⟨e.cause, 0, c.pc, 255, none⟩)
    | .ok h => match codeSlots ((List.range 7).filter fun k => h.pm.testBit k) s ck h c.pc (c.pc + 4) with
      | (s, .error b) => (s, .error b)
      | (s, .ok (l, e)) => (s, .ok ⟨h, l, e⟩)

/-! What executes, and what waits -/

/-- Whether the FO and LO masks suppress a slot (R212). -/
def suppressed (c : Ctx) (h : Header) (sl : Nat) : Bool :=
  let lv := if h.lv = 7 then c.arch.nloop - 1 else h.lv
  let on := lv < c.arch.nloop
  let lp := c.arch.loops.getD lv {}
  let first := !on || lp.iter == 0
  let last := !on || lp.iter + 1 == lp.count
  (h.fo.testBit sl && !first) || (h.lo.testBit sl && !last)

/-- Whether a slot executes (R212). -/
def slotRuns (c : Ctx) (h : Header) (sl : Nat) (i : Instr) : Bool := predTrue c (predField i) && !suppressed c h sl

/-- The bytes that a load reads, as VAs and lengths. -/
def loadSpans (c : Ctx) (i : Instr) : List (Nat × Nat) :=
  match i with
  | .ld _ f => [(memEa c f, 2 ^ f.size)]
  | .tld _ f => [(memEa c f, 256)]
  | .tldm _ f => [(memEa c f, 256 * mRows c f)]
  | .vgath _ f => (gathVas c f).map fun a => (a, (gathShape f.size).1)
  | .ldsg _ f => [(memEa c f, 8)]
  | .waitfeFlag _ r => [((c.rx r).toNat, 8)]
  | .sld _ _ b o => [(sclEa c b o, 256)]
  | .slil _ _ b o => [(sclEa c b o, 64)]
  | .slbs _ _ b o => [(sclEa c b o, 32)]
  | .atld _ _ b o => [(sclEa c b o, 48)]
  | _ => []

/-- Whether a form is a FENCE (R334, R335, R293). -/
def isFence (i : Instr) : Bool :=
  match i with
  | .fence _ _ | .fenceSc _ _ | .fenceAll _ _ => true
  | _ => false

/-- Whether a held access is a GO. -/
def Held.isGo (h : Held) : Bool :=
  match h.k with
  | .go _ _ => true
  | _ => false

/-- Whether a FENCE stands in a hold buffer behind another access (R334). -/
def fenceBehind : List Held → Bool → Bool
  | [], _ => false
  | h :: t, any => (h.isFence && any) || fenceBehind t (any || !h.isFence)

/-- Cards of a context that are outstanding, with the GO stores held or committed and not yet performed (R342). -/
def cardCount16 (s : State) (c : Ctx) : Nat :=
  ((cardsOf s c.part c.cr).filter fun k => k.st != .done).length + (c.out.filter Held.isGo).length + (c.held.filter Held.isGo).length

/-- The acquire that a slot makes at its issue: its scope and the vector that it reads. It is an acquire FENCE, or an acquire load
of the own scratchpad (R143, R192, R326). -/
def acqOf (s : State) (c : Ctx) (tile : Nat) (i : Instr) : Option (Nat × List Stamp) :=
  match i with
  | .fence _ f => if f.ord % 2 = 1 then some (scopeOf c f, []) else none
  | .fenceSc _ _ => some (3, [])
  | .fenceAll _ _ => some (4, [])
  | .ld _ f | .tld _ f | .tldm _ f =>
    if f.ord = 1 then (ownLoc s c tile (memEa c f)).map fun a => (scopeOf c f, relAt s a ((loadSpans c i).foldl (fun n p => n + p.2) 0))
    else none
  | _ => none

/-- Whether a slot that executes holds its bundle back, for another reason than an empty register: loads behind an
acquire, a FENCE, or a committed store of their location; FENCE and IFENCE; the card limit and the engine window (R188,
R326, R334, R342, R393). -/
def slotWaits (s : State) (c : Ctx) (tile : Nat) (i : Instr) : Bool :=
  let spans := loadSpans c i
  let mem := !spans.isEmpty &&
    (acqOpen c || spans.any fun p => storeOpen s c p.1 p.2)
  let fence := isFence i && (!c.out.isEmpty || !c.outst.isEmpty || c.fills.any fun f => !f.performed)
  let acq := match acqOf s c tile i with
    | some (scope, vec) => !acqReady s (srcTile tile) scope vec
    | none => false
  match i with
  | .ifence _ => acqOpen c || c.held.any Held.isAcqBank || fenceBehind c.held false || c.fills.any (fun f => !f.performed && (match f.dst with
      | .target _ => true
      | _ => false))
  | .st _ f =>
    (match vaClass s.capSpad (memEa c f) with
     | .eng _ _ _ _ o => if o = 32 then cardCount16 s c ≥ 16 else o < 32 && c.out.any Held.isGo
     | _ => false)
  | _ => mem || fence || acq

/-- The fault that a register carries: the fault reply of the fill that left it empty (R210). -/
def emptyFault (c : Ctx) (key : Nat) : Option Early :=
  c.fills.findSome? fun f => match f.bad with
    | some (cause, va, level, die) => if dstKey f.dst == some key then some ⟨cause, f.slot, va, level, some die⟩ else none
    | none => none

/-- The algebra-table register that a form reads (R259). -/
def tabOf (c : Ctx) (i : Instr) : Option Nat :=
  match i with
  | .mma _ f => some (mtxGen c.gen f).att
  | .vamul _ f | .vconj _ f | .vnorm _ f => some (f.c % 4)
  | .smov _ _ k x => if k = 3 then some x else none
  | _ => none

/-- The empty registers that a bundle's executing slots read with FE = 1 (R209). -/
def feKeys (c : Ctx) (b : Bundle) : List Nat :=
  b.slots.flatMap fun e =>
    if slotRuns c b.hdr e.1 e.2.2 then ((readsOf c e.2.2).filter fun p => p.2 && c.isEmpty p.1).map (·.1) else []

/-- What a bundle's executing slots meet in the registers that they read and name, in slot order: the first fault, and
whether one waits. The bundle does not wait for a register that a source with FE = 1 meets empty; after an ATLD of an illegal
table every reader of its register takes the fault (R209, R210, R384). -/
def regsMeet (c : Ctx) (b : Bundle) : Option Early × Bool :=
  let waitsOn := fun (k : Nat) => !(feKeys c b).contains k && (emptyFault c k).isNone
  b.slots.foldl (fun r e =>
    let (sl, _, i) := e
    if !slotRuns c b.hdr sl i then r
    else
      let srcs := (readsOf c i).filter fun p => c.isEmpty p.1
      let dsts := (writesOf c i).filter c.isEmpty
      let late := (srcs.map (·.1) ++ dsts).findSome? (emptyFault c)
      let fe := if srcs.any (·.2) then some ⟨0x0E, sl, c.pc, 255, none⟩ else none
      let tab := match tabOf c i with
        | some t => (c.badTab.reverse.find? (·.1 == t)).map fun p => ⟨0x16, 6, p.2, 255, none⟩
        | none => none
      let waits := (srcs.any fun p => waitsOn p.1) || dsts.any waitsOn
      (r.1 <|> late <|> tab <|> fe, r.2 || waits)) (none, false)

/-- Whether the matrix unit holds a context back before its next issue cycle (R380). -/
def matrixWaits (s : State) (ck ic : Nat) : Bool := (s.tile (ck / 2)).steps.any fun p => p.1 == ck % 2 && p.2.2 ≤ ic

/-! The issue of a bundle -/

/-- A block begins (R225 to R227, R304): what is recorded at its entry. A recast keeps the input buffer. -/
def beginBlock (c : Ctx) : Ctx :=
  if !c.fresh then c
  else
    let m := mix (BitVec.ofNat 32 c.pc)
    { c with fresh := false, entryVa := c.pc, entry := c.arch, lin := [], odig := m, ddig := m,
             ibuf := if c.recasts = 0 then [] else c.ibuf, rowLoads := 0, scaLoads := 0, strayLoad := false, badTab := [],
             depr := 0, rtbSet := false, held := [] }

/-- The context as its next bundle reads it: due results have landed, and then a block begins where one does (R206,
R225). -/
def atIssue (c : Ctx) : Ctx := beginBlock { landDue c (c.ic + 1) with ic := c.ic + 1 }

/-- The fold of one slot into the digests (R226, R227). -/
def foldSlot (c : Ctx) (sl w : Nat) (i : Instr) : Ctx :=
  let c' := { c with odig := mix (c.odig ^^^ kop sl w) }
  match storeLinOf c i with
  | some (d, b) => { c' with ddig := mix (c'.ddig ^^^ d.rotateLeft 3 ^^^ b.rotateLeft 17) }
  | none => c'

/-- Steps queued for the matrix unit. -/
def feedSteps (s : State) (ck n : Nat) : State :=
  if n = 0 then s
  else
    let t := s.tile (ck / 2)
    s.setTile (ck / 2) { t with steps := t.steps ++ [(ck % 2, n, (s.ctx ck).ic + 4 + n)] }

/-- The slots of a bundle run in slot order, up to the first that faults (R197, R213, R226). -/
def runSlots : List (Nat × Nat × Instr × Bool) → State → Host.Outcome State Fault Refusal
  | [], s => .next s
  | (sl, w, i, on) :: rest, s =>
    match s.iss with
    | none => .next s
    | some is =>
      let c := s.ctx is.ck
      let s := (s.setCtx is.ck (foldSlot c sl w i)).setIss { is with slot := sl }
      if on then
        match exec i s with
        | .next t => runSlots rest t
        | o => o
      else runSlots rest (s.setCtx is.ck (lineageOnly (s.ctx is.ck) sl i))

/-- A bundle's end: the results of latency 0, ROT and LDEP, the match of the loop sequencer, its matrix steps, the loads
posted, and what the context does next (R208, R225, R298, R301, R305, R174, R380). -/
def finishBundle (s : State) : State :=
  match s.iss with
  | none => s
  | some is =>
    let c := s.ctx is.ck
    let c := landDue c c.ic
    let c := if is.rot.isSome || is.ldep.isSome then c.setRot (is.rot.getD c.arch.rot) (is.ldep.getD c.arch.ldep) else c
    let level := if bodyEnd c is.va then some (c.arch.nloop - 1) else none
    let e : EndRec := { va := is.va, next := is.next, isEnd := is.hdr.isEnd, dp := is.hdr.dp, xfer := is.xfer, act := is.act, level := level }
    let c :=
      if is.hdr.isEnd || is.xfer != .fall || level.isSome then { c with phase := .ended e }
      else if is.hdr.dp && c.preempt && !c.priv then { (landAll c).restart with rb := true, phase := .leaving 8 }
      else { c with pc := is.next }
    let s := feedSteps { s.setCtx is.ck c with iss := none } is.ck is.steps
    is.sends.foldl State.post s

/-- A bundle whose waits are over issues (R161, R175). -/
def issueBundle (s : State) (ck : Nat) (b : Bundle) : Host.Outcome State Fault Refusal :=
  let before := beginBlock (s.ctx ck)
  let c := atIssue (s.ctx ck)
  let next := if b.hdr.isEnd then b.next + 16 else b.next
  let is : Issue := ⟨ck, before, c.pc, b.hdr, next, 0, .fall, .none, false, none, none, [], 0⟩
  let s := (s.setCtx ck c).setIss is
  let r := if b.slots.isEmpty then exec (.nop b.hdr.bk (flagIf b.hdr.dp 1) b.hdr.lv) s
           else runSlots (b.slots.map fun e => (e.1, e.2.1, e.2.2, slotRuns c b.hdr e.1 e.2.2)) s
  match r with
  | .next s => .next (finishBundle s)
  | o => o

/-- What a context can do in a cycle (R161). -/
inductive Look where
  | no
  | early (e : Early)
  | issue (b : Bundle)
  deriving DecidableEq, Repr

/-- The look of a context at its next bundle, after its fetch; a fetch that must wait for a link leaves it as it was (R34). -/
def look (s : State) (ck : Nat) : State × Look :=
  match s.ctx? ck with
  | none => (s, .no)
  | some c0 =>
    if c0.phase != .running || s.retiring (ck / 2) then (s, .no)
    else match fetchBundle s ck with
      | (t, .error e) => if t.stalled then (s, .no) else (t, .early e)
      | (t, .ok b) =>
        if t.stalled then (s, .no)
        else
        let s := t
        let c := atIssue (s.ctx ck)
        let (f, waits) := regsMeet c b
        if waits || matrixWaits s ck c.ic || b.slots.any fun e => slotRuns c b.hdr e.1 e.2.2 && slotWaits s c (ck / 2) e.2.2 then (s, .no)
        else match f with
          | some e => (s, .early e)
          | none => (s, .issue b)

/-- The presence mask of what a context issues. -/
def Look.pm (l : Look) : Option Nat :=
  match l with
  | .no => none
  | .early _ => some 0
  | .issue b => some b.hdr.pm

/-- A look acted on. -/
def act (s : State) (ck : Nat) (l : Look) : Host.Outcome State Fault Refusal :=
  match l with
  | .no => .next s
  | .early e => .next (takeFault s ck (beginBlock (s.ctx ck)) e.cause e.slot e.eva e.level (e.die.getD (ck / 256)) false)
  | .issue b => issueBundle s ck b

/-! The cycle of a tile -/

/-- The slot that is primary in this cycle; a written map takes effect at index 0, and until then the map that it replaces
stands in `slottab` (R161, R177). -/
def primaryOf (s : State) (t : Nat) : State × Nat :=
  let tl := s.tile t
  let s := if tl.cycle % 16 = 0 then s.setTile t { tl with slottab := none } else s
  let map := (s.tile t).slottab.getD (s.rn 1 0x400 t)
  (s, if map.testBit (tl.cycle % 16) then 1 else 0)

/-- A cycle of a wait: an arrival that has not been made, and the count of context cycles (R162, R307). -/
def waitCycle (s : State) (ck : Nat) : State :=
  let s := tryArrive s ck
  match s.ctx? ck with
  | none => s
  | some c => match c.phase with
    | .waiting k o g a n => s.setCtx ck { c with phase := .waiting k o g a (n + 1) }
    | _ => s

/-- One step fed by the matrix unit: to the context that SLOTTAB names where it has steps waiting, else to the other
(R380). -/
def feedOne (steps : List (Nat × Nat × Nat)) (p : Nat) : List (Nat × Nat × Nat) :=
  match (steps.find? (·.1 == p)) <|> steps.head? with
  | none => steps
  | some e => let k := steps.idxOf e
              if e.2.1 ≤ 1 then steps.eraseIdx k else steps.set k (e.1, e.2.1 - 1, e.2.2)

/-- The end of a tile's cycle. -/
def endCycle (s : State) (t p : Nat) : State :=
  let tl := s.tile t
  s.setTile t { tl with cycle := tl.cycle + 1, steps := feedOne tl.steps p }

/-- One cycle of a tile: the primary issues if it can, and the other beside it where their masks are disjoint, or alone
(R161). -/
def tileCycle (t : Nat) (s : State) : Host.Outcome State Fault Refusal :=
  let (s, p) := primaryOf s t
  let a := 2 * t + p
  let b := 2 * t + (1 - p)
  let s := waitCycle (waitCycle s a) b
  let (s, la) := look s a
  match act s a la with
  | .next s =>
    let (s, lb) := look s b
    let free := match la.pm, lb.pm with
      | some x, some y => x &&& y == 0
      | _, _ => true
    (match (if free then act s b lb else .next s) with
     | .next s => .next (endCycle s t p)
     | o => o)
  | o => o

end Sys2Proof.Machine
end

