-- ==== Sys2Proof/Machine/Moves.lean ====
section
/-! DEFINITION. The moves that the agents of the machine can make, one of which each step makes (log entry 2), and the placing
of one instruction where the next step runs it (log entry 4). -/

namespace Sys2Proof.Machine

/-! Moves of one agent -/

/-- The outcome of an act on a thing that is gone: what arrives late, or from outside and names nothing, has no effect (log
entry 3). -/
def orDrop (s : State) (o : Host.Outcome State Fault Refusal) : Host.Outcome State Fault Refusal :=
  match o with
  | .fault .notPossible => .next s
  | o => o

/-- An event taken from the list and performed. -/
def runEvent (k : Nat) (s : State) : Host.Outcome State Fault Refusal :=
  match s.events[k]? with
  | none => .next s
  | some i => let s := { s with events := s.events.eraseIdx k }
              orDrop s (exec i s)

/-- The word at the pc of a run (R81). -/
def runWord (s : State) (u : Nat) (r : Run) : Nat := s.imem u (256 * r.kern + r.pc)

/-- An eft core runs the next word of its kernel (R81, R87). -/
def eftStep (die core : Nat) (s : State) : Host.Outcome State Fault Refusal :=
  let u := die * 12 + core
  match (s.eft u).run with
  | none => .fault .notPossible
  | some r =>
    match decodeEft (runWord s u r) with
    | none => .next (eftTrap s u r 2 0 0)
    | some i =>
      match exec i { s with cur := .eft die core } with
      | .next t => .next { t with cur := .none }
      | o => o

/-- Whether the fills of a faulted block have all come, those of bank requests among them (R208, R214). -/
def faultReady (c : Ctx) : Bool :=
  loadsDone c && c.outst.all (fun o => o.dst.isNone) && c.out.all fun h => match h.k with
    | .bank _ _ _ _ _ => false
    | _ => true

/-- Whether a resident context has a riser check, a handler entry or a departure to make (R210, R214, R232, R155, R166,
R174). -/
def ctxReady (s : State) (ck : Nat) (c : Ctx) : Bool :=
  match c.phase with
  | .ended _ => loadsDone c && !s.retiring (ck / 2)
  | .faulting _ _ _ _ _ _ => faultReady c
  | .commit _ => !verdictDue c && !s.retiring (ck / 2)
  | .leaving st => drained c && (st != 8 || c.preempt) && ((st != 4 && st != 8) || cardsDone s c.part c.cr)
  | _ => false

/-- That move of a context. -/
def ctxMove (ck : Nat) (s : State) : Host.Outcome State Fault Refusal :=
  match s.ctx? ck with
  | none => .fault .notPossible
  | some c =>
    match c.phase with
    | .ended _ => execRiserCheck ck s
    | .faulting cause slot eva level die sealed =>
      if faultReady c then .next (enterFault s ck c cause slot eva level die sealed) else .fault .notPossible
    | .commit e => if verdictDue c then .fault .notPossible else .next (finishCommit s ck e)
    | .leaving st =>
      if st = 4 then execContextExit ck s else if st = 8 then execPreemption ck s else execContextWriteBack ck st s
    | _ => .fault .notPossible

/-- The fetch ahead of issue at a prepared target (R194, R296). -/
def fetchAhead (ck n : Nat) (s : State) : State :=
  match s.ctx? ck with
  | none => s
  | some c => if (c.sg n).v then (fetchLine s ck ((c.sg n).va / 64 * 64)).1 else s

/-- Prepared targets whose line a context does not hold. -/
def aheadOf (c : Ctx) : List Nat :=
  (List.range 12).filter fun n => (c.sg n).v && !c.isEmpty (sgKey n) && !c.lines.any fun p => p.1 == (c.sg n).va / 64 * 64

/-- A card that its engine processes, by its op (R339). -/
def cardMove (cl id : Nat) (s : State) : Host.Outcome State Fault Refusal :=
  match s.card? cl id with
  | none => .fault .notPossible
  | some k =>
    if k.op = 1 then execCopy2d cl id s else if k.op = 2 then execCopyx cl id s else if k.op = 3 then execGather cl id s
    else if k.op = 4 then execScacc cl id s else execFill cl id s

/-- The start of a run: of a packet of OPC 0x06, or of the arm packet that heads the queue (R84, R85). -/
def eftStart (die core : Nat) (s : State) : Host.Outcome State Fault Refusal :=
  match eftTake s (die * 12 + core) true, (s.eft (die * 12 + core)).waiting.head? with
  | some _, some k => execArm die core k s
  | _, _ => execEftRun die core s

/-- A move made. -/
def runMove (m : Move) (s : State) : Host.Outcome State Fault Refusal :=
  match m with
  | .event k => runEvent k s
  | .hop k => execSwitchTurn k s
  | .tile t => tileCycle t s
  | .eft d c => eftStep d c s
  | .tick => execTscTick s
  | .ctx ck => ctxMove ck s
  | .load t sl => execContextLoad t sl s
  | .waitBack ck => execWaitWriteBack ck s
  | .reread p cr ck => execFlagReread p cr ck s
  | .deadline p cr ck => execWaitDeadline p cr ck s
  | .draw cp => execLotteryDraw cp s
  | .cardDraw cl k => execCardDraw cl k s
  | .card cl id => cardMove cl id s
  | .poll d i r => execRingPoll d i r (sweepPast s d (64 * i + r))
  | .eftStart d c => eftStart d c s
  | .window t => execSfcWindowExpiry t s
  | .inval d => invMoveOf d s
  | .link ep => linkMove ep s
  | .fetchAhead ck n => .next (fetchAhead ck n s)
  | .copyxTimeout cl id => execCopyxTimeout cl id s
  | .eftRetry d c i => execEftRetry d c i s
  | .eftLost d c i => execEftSendLost d c i s
  | .parkTimeout d u i => execParkTimeout d u i s
  | .seqRetry d o i => execCollectiveRetry d o i s
  | .seqTimeout d o => execCollectiveTimeout d o s

/-- Whether a move can be put off: one of an agent, or of what is under way inside the package. -/
def canWait (s : State) (m : Move) : Bool :=
  match m with
  | .tick | .hop _ | .link _ | .window _ => false
  | .event k => match s.events[k]? with
    | some i => isInternal i
    | none => false
  | _ => true

/-- A move made, or put off as a whole where it must wait for a link between dies, an invalidation log or the writes before an acquire
(R34, R143, R192, R239, log entry 53). -/
def makeMove (m : Move) (s : State) : Host.Outcome State Fault Refusal :=
  match runMove m s with
  | .next t => .next (if !t.stalled then t else if canWait s m then s else { t with stalled := false })
  | o => o

/-! The moves that are possible -/

/-- Indexes of a list whose elements satisfy a test. -/
def idxWhere {α : Type} (l : List α) (p : α → Bool) : List Nat := (l.zipIdx.filter fun e => p e.1).map (·.2)

/-- Moves of tiles and their contexts. -/
def tileMoves (s : State) : List Move :=
  let sfc := s.regs.filterMap fun p => if p.1 / 65536 = 65536 + 0x402 then some (p.1 % 65536) else none
  let pend := (s.tiles.filter fun p => p.2.slottab.isSome || !p.2.steps.isEmpty).map (·.1)
  let cyc := (s.ctxs.map (fun (p : Nat × Ctx) => p.1 / 2) ++ sfc ++ pend).eraseDups
  cyc.map Move.tile
    ++ (s.ctxs.filter fun p => ctxReady s p.1 p.2).map (fun p => Move.ctx p.1)
    ++ s.ctxs.flatMap (fun p => (aheadOf p.2).map (Move.fetchAhead p.1))
    ++ (s.ctxs.filter fun p => canWaitBack s p.1).map (fun p => Move.waitBack p.1)
    ++ s.ctxs.flatMap (fun p => match p.2.phase with
        | .waiting kind _ _ arrived _ =>
          (if kind = 2 then [Move.reread p.2.part p.2.cr p.1] else [])
            ++ (if kind ≤ 2 && arrived && deadlineDue s (p.2.arch.waitDl.toNat / 2 ^ 16) then [Move.deadline p.2.part p.2.cr p.1] else [])
        | _ => [])
    ++ (sfc.filter (windowOver s)).map Move.window

/-- Moves of clusters: loads of contexts, waiters, cards (R154, R164, R167 to R170). -/
def clusterMoves (s : State) : List Move :=
  s.clusters.flatMap fun p =>
    let (cl, c) := p
    (if c.contq.isEmpty then [] else
      (List.range 8).flatMap fun t => ((List.range 2).filter fun sl => canLoad s (8 * cl + t) sl).map fun sl => Move.load (8 * cl + t) sl)
    ++ c.waiters.flatMap (fun w => (if w.kind = 2 then [Move.reread w.part w.cr 1024] else [])
        ++ (if deadlineDue s w.dl then [Move.deadline w.part w.cr 1024] else []))
    ++ ((List.range 3).filter (canDraw s cl)).map (Move.cardDraw cl)
    ++ c.cards.flatMap (fun k => match k.st with
        | .running _ => if k.acks = 0 then [Move.card cl k.id] else if copyxLate s k then [Move.copyxTimeout cl k.id] else []
        | _ => [])

/-- Moves of eft cores (R81 to R86). -/
def eftMoves (s : State) : List Move :=
  s.efts.flatMap fun p =>
    let (u, e) := p
    (if e.run.isSome then [Move.eft (u / 12) (u % 12)] else if eftCanTake s u then [Move.eftStart (u / 12) (u % 12)] else [])
    ++ (idxWhere e.outb (retryDue s)).map (Move.eftRetry (u / 12) (u % 12))
    ++ (idxWhere e.outb (sendLate s)).map (Move.eftLost (u / 12) (u % 12))
    ++ (idxWhere e.park fun x => parkLate s x && !e.waiting.any fun q => q.opc == 8 && sameFlow q x.pkt).map
        (Move.parkTimeout (u / 12) (u % 12))

/-- Moves of the collective sequencers (R59, R71, R72). -/
def seqMoves (s : State) : List Move :=
  s.seqrs.flatMap (fun p =>
    let (d, q) := p
    (q.sent.zipIdx.filter fun e => retryDue s e.1).map (fun e => Move.seqRetry d e.1.op e.2)
    ++ (idxWhere q.park (parkLate s)).map (Move.parkTimeout d 27)
    ++ (q.ops.filter (opLate s)).map (fun o => Move.seqTimeout d o.id))
  ++ (List.range 4).filterMap fun d => (nextRing s d).map fun p => Move.poll d (p / 64) (p % 64)

/-- The die whose tile, cluster, eft core or sequencer does what an event names. -/
def workDie (i : Instr) : Option Nat :=
  match i with
  | .cardWindowEntry cl _ | .cardDone cl _ | .cardDraw cl _ | .copy2d cl _ | .copyx cl _ | .gather cl _ | .scacc cl _ | .fill cl _
  | .copyxTimeout cl _ => some (cl / 16)
  | .allReduce d _ _ | .reduce d _ _ | .broadcast d _ _ | .allGather d _ _ | .reduceScatter d _ _ | .allToAll d _ _ | .barrier d _ _
  | .send d _ _ | .receive d _ _ | .collectiveData d _ | .answer d _ | .nack d _ | .arm d _ _ | .eftPacketArrival d _ _
  | .ringPoll d _ _ | .collectiveRetry d _ _ | .parkTimeout d _ _ | .collectiveTimeout d _ | .eftRun d _ | .eftRetry d _ _
  | .eftSendLost d _ _ => some d
  | .contextLoad t _ | .autotomy t | .sfcWindowExpiry t => some (t / 128)
  | _ => none

/-- The die of the agent that makes a move of its own; none for what only leads out what is under way: a context that leaves its
slot, the network, the links, the command processors and the counter. -/
def moveDie (s : State) (m : Move) : Option Nat :=
  match m with
  | .event k => (s.events[k]?).bind workDie
  | .tile t | .load t _ | .window t => some (t / 128)
  | .eft d _ | .poll d _ _ | .eftStart d _ | .inval d | .eftRetry d _ _ | .eftLost d _ _ | .parkTimeout d _ _ | .seqRetry d _ _
  | .seqTimeout d _ => some d
  | .waitBack ck | .fetchAhead ck _ => some (ck / 256)
  | .cardDraw cl _ | .card cl _ | .copyxTimeout cl _ => some (cl / 16)
  | .hop _ | .tick | .ctx _ | .reread _ _ _ | .deadline _ _ _ | .draw _ | .link _ => none

/-- Whether the agent of a move runs: in a group that holds no command processor nothing more does (R39). -/
def agentRuns (s : State) (m : Move) : Bool := (moveDie s m).all fun d => s.reach d 0 || s.reach d 2

/-- Every move that some agent can make; the timestamp counter can always advance. -/
def moves (s : State) : List Move :=
  ((List.range s.events.length).map Move.event
    ++ (idxWhere s.net fun _ => true).filterMap (fun k => if (hopMove s k).isSome then some (Move.hop k) else none)
    ++ tileMoves s ++ clusterMoves s ++ eftMoves s ++ seqMoves s
    ++ ((List.range 2).filter (canLottery s)).map Move.draw
    ++ ((List.range 4).filter fun d => (invNext s d).isSome).map Move.inval
    ++ ((List.range 16).filter (linkBusy s)).map Move.link
    ++ [Move.tick]).filter (agentRuns s)

/-- The move that a step makes: the settled one, else one of those possible (log entry 2). -/
def nextMove (s : State) : Move :=
  match s.turn with
  | some m => m
  | none =>
    let l := moves s
    l.getD (if l.length = 1 then 0 else Config.choose s.tick % l.length) .tick

/-! An instruction placed where the next step runs it (log entry 4) -/

/-- The VA at which `placeCode` puts a bundle: the start of die 0's pool. -/
def codeVa : Nat := 2 ^ 63 + 0x200000000

/-- A machine whose tile 0 holds, in slot 0, a context of partition 0 and decode generation `gen` at a bundle of n bytes
(value v) in an admitted image of the die pool; the tile has the next move. -/
def placeCode (s : State) (gen n v : Nat) : State :=
  let im : Image := { base := codeVa, size := 4096, codeOff := 0, codeLen := 4096, gen := gen, tmask := 2 ^ 48 - 1, live := 16,
                      entries := [0] }
  let c : Ctx := { pc := codeVa, gen := gen, tmask := 2 ^ 48 - 1 }
  let s := s.setN 4 0x1010 0 (2 ^ 25 + 511 * 2 ^ 16)
  let s := wrNat s (region 5 0) n v
  { s.setCtx 0 c with images := s.images.put [] 0 [im], turn := some (.tile 0) }

/-- A machine whose eft core 0 of die 0 runs kernel 0, at a word. -/
def placeKernel (s : State) (w : Nat) : State :=
  let s := s.setN 14 0x1000 0 w
  { setRun s 0 { kern := 0, pkt := {}, h := List.replicate 8 0, win := 0, e := List.replicate 16 0, v := List.replicate 8 0,
                 c := false, pc := 0, emits := 0 } with turn := some (.eft 0 0) }

/-- The bundle that holds one slot word alone, and ends its block; its extension word is zero where X = 1. -/
def soloBundle (sl w : Nat) : Nat := 2 ^ 8 + 2 ^ sl + 2 ^ 32 * w

/-- An instruction of nbits bits w placed (R265, R266, R78). -/
def placeWord (s : State) (nbits w : Nat) : State :=
  match decodeTableWord nbits w with
  | none => placeCode s 2 72 (soloBundle (if nbits ≤ 32 then 1 else 3) w)
  | some (.nop _ _ _) => placeCode s 2 72 w
  | some i =>
    if (encode i).isNone then s
    else if i.slot = 7 then placeKernel s w
    else
      let x := if (if slotBytes i.slot = 8 then bits w 63 63 else bits w 31 31) = 1 then some 0 else none
      let gen := if (okOf (decodeSlot 2 i.slot w x)).isSome then 2 else 1
      placeCode s gen 72 (soloBundle i.slot w)

end Sys2Proof.Machine
end

