-- ==== Sys2Proof/Machine/Step.lean ====
section
/-! DEFINITION. One step of the machine: one move of one agent. -/

namespace Sys2Proof.Machine

/-- One step: the next move is made or put off, and the model's counter advances (log entries 2, 5 and 53). -/
def step (s : State) : Host.Outcome State Fault Refusal :=
  makeMove (nextMove s) { s with turn := none, tick := s.tick + 1 }

/-- The state in which an instruction of nbits bits w stands where the next step runs it (log entry 4). -/
def State.withFetchWord (s : State) (nbits w : Nat) : State := placeWord s nbits w

end Sys2Proof.Machine
end

