-- ==== Sys2Proof/Safety.lean ====
section
/-! DEFINITION. The terms in which claims about the machine are stated: when a slot form issues, what the spec says that it
writes, and what stays. -/

namespace Sys2Proof.Machine

/-! States -/

/-- Keys rise in the memories and in the register file: what every run keeps (R178, R320). -/
structure State.Canon (s : State) : Prop where
  mem : Memory.wf s.mem
  regs : s.regs.Pairwise fun a b => a.1 < b.1

/-- One numbered register has a new value, every other register its old one, and nothing else has changed. -/
def RegOnly (s t : State) (cls num unit : Nat) (v : W64) : Prop :=
  t = { s with regs := t.regs } ∧ t.reg cls num unit = v
    ∧ ∀ c n u, rkey c n u ≠ rkey cls num unit → t.reg c n u = s.reg c n u

/-- Every byte of memory outside n bytes from a location reads as before. -/
def BytesKept (s t : State) (a n : Nat) : Prop := ∀ b, (b < a ∨ a + n ≤ b) → rdByte t b = rdByte s b

/-- Every byte of memory reads as before. -/
def AllBytesKept (s t : State) : Prop := ∀ b, rdByte t b = rdByte s b

/-! A slot form issues -/

/-- The form i issues in the bundle `is` of a resident context c: its predicate is true (R212) and the tile registers that it
names lie in the context's footprint (R203). -/
structure Issues (s : State) (is : Issue) (c : Ctx) (i : Instr) : Prop where
  iss : s.iss = some is
  ctx : s.ctx? is.ck = some c
  pred : predTrue c (predField i) = true
  foot : inFoot c i = true

/-- The state after results were given to the issuing context, each to land `lat` issue cycles on (R206); nothing else has
changed. -/
def staged (s : State) (is : Issue) (c : Ctx) (lat : Nat) (ws : List Wr) : State :=
  s.setCtx is.ck { c with pend := c.pend ++ ws.map fun w => ⟨c.ic + lat, is.slot, w⟩ }

/-- A synchronous fault of the slot that runs: the context is as before the bundle and waits for its fills; its cause, slot
and EVA are kept for its handler (R214, R215). -/
def faulted (s : State) (is : Issue) (cause eva : Nat) : State :=
  takeFault s is.ck is.before cause is.slot eva 255 (is.ck / 256) false

/-! SCA and ADR forms (R313 to R318) -/

/-- The destination register and the latency of a form that writes one x register (R313 to R317). -/
def scalarDest : Instr → Option (Nat × Nat)
  | .add _ d _ _ | .sub _ d _ _ | .and _ d _ _ | .or _ d _ _ | .xor _ d _ _ | .andn _ d _ _ | .shl _ d _ _ | .shr _ d _ _
  | .sra _ d _ _ | .rotl _ d _ _ | .min _ d _ _ | .max _ d _ _ | .minu _ d _ _ | .maxu _ d _ _ | .addi _ d _ _
  | .clz _ d _ | .ctz _ d _ | .popc _ d _ | .sextB _ d _ | .sextH _ d _ | .sextW _ d _ | .zextB _ d _ | .zextH _ d _
  | .zextW _ d _ | .movi _ d _ | .movhi _ d _ | .lea _ d _ _ _ | .sel _ d _ _ _ _ => some (d, 1)
  | .mul _ d _ _ | .mulhs _ d _ _ | .mulhz _ d _ _ => some (d, 3)
  | .div _ d _ _ | .divu _ d _ _ | .rem _ d _ _ | .remu _ d _ _ => some (d, 18)
  | _ => none

/-- The low n bits of a value as a signed number. -/
def lowS (n : Nat) (v : W64) : Int := (v.setWidth n).toInt

/-- An immediate as the signed number that its field, or its extension word, holds (R269). -/
def immZ (w : Nat) : Imm → Int
  | .short r => (BitVec.ofNat w r).toInt
  | .ext r => (BitVec.ofNat 32 r).toInt

/-- What R314 to R317 say of the value v that a form writes. -/
def scalarValue (c : Ctx) (v : W64) : Instr → Prop
  | .add _ _ a b => (v.toNat : Int) = ((c.rx a).toNat + (c.rx b).toNat : Int) % 2 ^ 64
  | .sub _ _ a b => (v.toNat : Int) = ((c.rx a).toNat - (c.rx b).toNat : Int) % 2 ^ 64
  | .and _ _ a b => ∀ k < 64, v.getLsbD k = ((c.rx a).getLsbD k && (c.rx b).getLsbD k)
  | .or _ _ a b => ∀ k < 64, v.getLsbD k = ((c.rx a).getLsbD k || (c.rx b).getLsbD k)
  | .xor _ _ a b => ∀ k < 64, v.getLsbD k = ((c.rx a).getLsbD k != (c.rx b).getLsbD k)
  | .andn _ _ a b => ∀ k < 64, v.getLsbD k = ((c.rx a).getLsbD k && !(c.rx b).getLsbD k)
  | .shl _ _ a b => v.toNat = (c.rx a).toNat * 2 ^ ((c.rx b).toNat % 64) % 2 ^ 64
  | .shr _ _ a b => v.toNat = (c.rx a).toNat / 2 ^ ((c.rx b).toNat % 64)
  | .sra _ _ a b => v.toInt = (c.rx a).toInt / 2 ^ ((c.rx b).toNat % 64)
  | .rotl _ _ a b => ∀ k < 64, v.getLsbD ((k + (c.rx b).toNat) % 64) = (c.rx a).getLsbD k
  | .min _ _ a b => v.toInt = min (c.rx a).toInt (c.rx b).toInt
  | .max _ _ a b => v.toInt = max (c.rx a).toInt (c.rx b).toInt
  | .minu _ _ a b => v.toNat = min (c.rx a).toNat (c.rx b).toNat
  | .maxu _ _ a b => v.toNat = max (c.rx a).toNat (c.rx b).toNat
  | .addi _ _ a i => (v.toNat : Int) = ((c.rx a).toNat + immZ 10 i) % 2 ^ 64
  | .clz _ _ a => if c.rx a = 0 then v = 64 else
      v.toNat < 64 ∧ (c.rx a).getLsbD (63 - v.toNat) = true ∧ ∀ k, 63 - v.toNat < k → (c.rx a).getLsbD k = false
  | .ctz _ _ a => if c.rx a = 0 then v = 64 else
      v.toNat < 64 ∧ (c.rx a).getLsbD v.toNat = true ∧ ∀ k < v.toNat, (c.rx a).getLsbD k = false
  | .popc _ _ a => v.toNat = (List.range 64).countP fun k => (c.rx a).getLsbD k
  | .sextB _ _ a => v.toInt = lowS 8 (c.rx a)
  | .sextH _ _ a => v.toInt = lowS 16 (c.rx a)
  | .sextW _ _ a => v.toInt = lowS 32 (c.rx a)
  | .zextB _ _ a => v.toNat = (c.rx a).toNat % 2 ^ 8
  | .zextH _ _ a => v.toNat = (c.rx a).toNat % 2 ^ 16
  | .zextW _ _ a => v.toNat = (c.rx a).toNat % 2 ^ 32
  | .mul _ _ a b => v.toNat = (c.rx a).toNat * (c.rx b).toNat % 2 ^ 64
  | .mulhs _ _ a b => v.toInt = (c.rx a).toInt * (c.rx b).toInt / 2 ^ 64
  | .mulhz _ _ a b => v.toNat = (c.rx a).toNat * (c.rx b).toNat / 2 ^ 64
  | .div _ _ a b => if c.rx b = 0 then v.toInt = -1
      else (v.toInt - (c.rx a).toInt.tdiv (c.rx b).toInt) % 2 ^ 64 = 0
  | .divu _ _ a b => if c.rx b = 0 then v.toNat = 2 ^ 64 - 1 else v.toNat = (c.rx a).toNat / (c.rx b).toNat
  | .rem _ _ a b => if c.rx b = 0 then v = c.rx a else v.toInt = (c.rx a).toInt.tmod (c.rx b).toInt
  | .remu _ _ a b => if c.rx b = 0 then v = c.rx a else v.toNat = (c.rx a).toNat % (c.rx b).toNat
  | .movi _ _ i => (v.toNat : Int) = immZ 10 i % 2 ^ 64
  | .movhi _ d i => v.toNat = i % 2 ^ 32 * 2 ^ 32 + (c.rx d).toNat % 2 ^ 32
  | .lea _ _ a b sh => v.toNat = ((c.rx a).toNat + (c.rx b).toNat * 2 ^ sh) % 2 ^ 64
  | .sel _ _ a b neg n => v = if ((c.sg n).c = true ↔ neg ≠ 1) then c.rx a else c.rx b
  | _ => False

/-- What a comparison asks for: 0 eq, 1 ne, 2 lt, 3 ge, 4 ltu, 5 geu (R318). -/
def compares (cc : Nat) (a b : W64) : Prop :=
  match cc with
  | 0 => a = b
  | 1 => a ≠ b
  | 2 => a.toInt < b.toInt
  | 3 => a.toInt ≥ b.toInt
  | 4 => a.toNat < b.toNat
  | _ => a.toNat ≥ b.toNat

/-- The steer register that a comparison writes, and when its condition becomes 1 (R318). -/
def condForm (c : Ctx) : Instr → Option (Nat × Prop)
  | .cmp _ n a b cc => some (n, compares cc (c.rx a) (c.rx b))
  | .setc _ n a => some (n, c.rx a ≠ 0)
  | .cmpiEq _ n a i => some (n, compares 0 (c.rx a) (BitVec.ofInt 64 (immZ 10 i)))
  | .cmpiNe _ n a i => some (n, compares 1 (c.rx a) (BitVec.ofInt 64 (immZ 10 i)))
  | .cmpiLt _ n a i => some (n, compares 2 (c.rx a) (BitVec.ofInt 64 (immZ 10 i)))
  | .cmpiGe _ n a i => some (n, compares 3 (c.rx a) (BitVec.ofInt 64 (immZ 10 i)))
  | .cmpiLtu _ n a i => some (n, compares 4 (c.rx a) (BitVec.ofInt 64 (immZ 10 i)))
  | .cmpiGeu _ n a i => some (n, compares 5 (c.rx a) (BitVec.ofInt 64 (immZ 10 i)))
  | _ => none

/-! CTL forms (R295 to R312) -/

/-- The innermost active loop level ends at the bundle that issues (R301, R303). -/
def atBodyEnd (c : Ctx) (is : Issue) : Prop := c.arch.nloop ≠ 0 ∧ (c.arch.loops.getD (c.arch.nloop - 1) {}).stop = is.va

/-- The state after the issue record took a transfer (R297 to R300). -/
def transfers (s : State) (is : Issue) (x : Xfer) : State := { s with iss := some { is with xfer := x, jumps := true } }

/-- The state after the issue record took an act, to follow the commit (R307). -/
def acts (s : State) (is : Issue) (a : Act) : State := { s with iss := some { is with act := a } }

/-- The target VA of PREP: the bundle's VA and four times the signed offset, modulo 2^64 (R296). -/
def prepVa (is : Issue) (o : Imm) : Nat := (((is.va : Int) + 4 * immZ 16 o) % 2 ^ 64).toNat / 4 * 4

/-- A stored place is a rotating one that a ROT and LDEP leave dead (R204). -/
def deadPlace (rot ldep place : Nat) : Prop :=
  1024 ≤ place ∧ place < 1536 ∧ ldep ≤ ((place - 1024) / 32 + 16 - rot) % 16

/-- The end VA of LOOP, exact (R8): the bundle's VA and four times the offset, unsigned in its field (R300). -/
def loopEnd (is : Issue) (o : Imm) : Int :=
  (is.va : Int) + 4 * (match o with
    | .short r => (r : Int)
    | .ext r => (BitVec.ofNat 32 r).toInt)

/-- The widths of the eight formats in bits (R268). -/
def formatBits (fmt : Nat) : Nat := [16, 32, 8, 4, 8, 16, 32, 32].getD fmt 32

/-- A value that MVTC accepts: reserved bits zero, COLS at most the elements that FMT holds in a row, and a multiple of the
dimension (R200). -/
def legalTc (v : W64) : Bool :=
  v >>> 24 = 0 && v.extractLsb' 3 2 = 0 && (v.extractLsb' 10 11).toNat ≤ 2048 / formatBits (v.extractLsb' 0 3).toNat
    && (v.extractLsb' 10 11).toNat % 2 ^ (v.extractLsb' 22 2).toNat = 0

/-! System registers (R319, R320) -/

/-- The registers that are reached in the privileged view only (R110, R320): EPC to EVA, the seal registers, and every
register outside the context class but CLKSTR_EVT and CLKSTR_CYC. -/
def privOnly (r : Nat) : Prop :=
  (0x20 ≤ r ∧ r ≤ 0x22) ∨ (0x28 ≤ r ∧ r ≤ 0x2C) ∨ (0x400 ≤ r ∧ r ≠ 0x806 ∧ r ≠ 0x807)

/-- SEAL_IN (R236, R242): the input entry that SEAL_IDX names, row loads from 0 and scalar loads from 128, as bit 54 V, bits 53:49 ROW,
bits 48:32 BOFS and bits 31:0 TAG; 0 where none is recorded. -/
def sealEntry (c : Ctx) : Nat :=
  let k := c.arch.sealIdx.toNat
  match (c.frozen.filter fun e => e.isRow == decide (k < 128))[k % 128]? with
  | some e => (2 ^ 5 + e.sub % 2 ^ 5) * 2 ^ 49 + e.bofs % 2 ^ 17 * 2 ^ 32 + e.tag % 2 ^ 32
  | none => 0

/-- Registers that no view writes (R319, R320): the identity registers and TSC, WAITST, the read-only seal registers, the AST bytes,
SEAL_RCCNT, the wake-queue and stretch counters, and the read-only die registers. -/
def neverWritten (r : Nat) : Prop :=
  r ≤ 5 ∨ r ∈ [8, 0x16, 0x28, 0x29, 0x2B, 0x406, 0x800, 0x801, 0x802, 0x806, 0x807, 0xC01, 0xC07, 0xC09, 0xC10, 0xC11, 0xC12, 0xC13]
    ∨ (0x40 ≤ r ∧ r < 0x70)

/-- What the registers of a context read as (R320): the unprivileged view of the identity registers is logical, the privileged
one physical (R12). -/
def ctxReg (s : State) (c : Ctx) (tile : Nat) : List (Nat × Nat) :=
  [(0, (if c.priv then tile else c.ltile) / 128), (1, (if c.priv then tile else c.ltile) / 8 % 16),
   (2, (if c.priv then tile else c.ltile) % 8), (3, s.ident.chip % 4096),
   (4, s.ident.part * 65536 + s.ident.stepping * 256 + s.ident.minor), (5, if s.ident.part = 0x9110 then 0x80000 else 0x100000),
   (8, s.tsc.toNat), (0x10, c.arch.fst.toNat), (0x11, c.arch.srseed.toNat), (0x12, c.arch.depcnt.toNat),
   (0x13, c.arch.collRtb.toNat), (0x14, 0), (0x15, c.arch.waitDl.toNat), (0x16, if c.timedOut then 1 else 0),
   (0x20, c.arch.epc.toNat), (0x21, c.arch.ecause.toNat), (0x22, c.arch.eva.toNat), (0x28, c.sealExp.toNat),
   (0x29, c.sealObs.toNat), (0x2A, c.arch.sealIdx.toNat), (0x2B, sealEntry c), (0x2C, 0)]

/-- The bits of a context register that an MTS writes (R7, R202, R214, R242, R309): the others are reserved and stay 0. -/
def ctxWritable : List (Nat × W64) :=
  [(0x10, 0x7F), (0x11, 0xFFFFFFFF), (0x12, 0xFFFFFFFFFFFFFFFF), (0x13, 0xFFFFFFFFFFFFFFFF), (0x15, 0xFFFFFFFFFFFF0000),
   (0x20, 0xFFFFFFFFFFFFFFFF), (0x21, 0x7FF), (0x22, 0xFFFFFFFFFFFFFFFF), (0x2A, 0xFF)]

/-- The result of an MTS to a context register, and that register as it reads once the result has landed. -/
def ctxRegOf (a : Arch) (r : Nat) : W64 :=
  if r = 0x10 then a.fst else if r = 0x11 then a.srseed else if r = 0x12 then a.depcnt else if r = 0x13 then a.collRtb
  else if r = 0x15 then a.waitDl else if r = 0x20 then a.epc else if r = 0x21 then a.ecause else if r = 0x22 then a.eva
  else a.sealIdx

/-! MEM and SCL forms (R322 to R336, R384) -/

/-- The newest byte that the held stores of the block leave at a location (R181, R230). -/
def heldAt (s : State) (c : Ctx) (loc : Nat) : Option Nat :=
  (c.held.flatMap (heldPieces s c)).reverse.findSome? fun h =>
    if h.1 ≤ loc ∧ loc < h.1 + h.2.1 then some (h.2.2 / 256 ^ (loc - h.1) % 256) else none

/-- v is the little-endian number that n bytes at a VA read as, byte by byte the newest held store of the block to the
location that the VA reaches, or the memory at loc (R4, R230, R324). -/
def Sees (s : State) (c : Ctx) (va loc n v : Nat) : Prop :=
  v < 256 ^ n ∧ ∀ k < n, v / 256 ^ k % 256 = (heldAt s c (locOf s c.part va false + k)).getD (rdByte s (loc + k)).toNat

/-- The latency of a load from the own scratchpad (R206): 6 below offset 0x80000, else 9. -/
def ownLatency (loc : Nat) : Nat := if loc % 2 ^ 20 < 0x80000 then 6 else 9

/-- The results of a post-increment (R322): the base register plus the offset, and its lineage. -/
def postIncrement (c : Ctx) (i : Instr) (f : MemF) : List Wr :=
  if f.pi = 1 ∧ f.base ≠ 0 then
    [.x f.base (c.rx f.base + memOff f), .lin (xKey f.base) (foldLin (kopOf i) (c.xLin f.base) (mixImm (memOff f)) 0 0)]
  else []

/-- Results due `lat` issue cycles on, from a slot. -/
def dueIn (c : Ctx) (is : Issue) (lat : Nat) (ws : List Wr) : List Pend := ws.map fun w => ⟨c.ic + lat, is.slot, w⟩

/-- The state after an acquire load of n bytes of the own scratchpad at loc (R143, R192): the effect of the acquire at its scope on
the issuing die; any other load has none. -/
def acquired (s : State) (is : Issue) (c : Ctx) (f : MemF) (loc n : Nat) : State :=
  if f.ord = 1 then acqDone s (srcTile (is.ck / 2)) (if c.gen = 1 then 3 else f.scope) (relAt s loc n) else s

/-- t is s after one exposed load of the slot that runs: its entry in the input buffer, its results and those of its
post-increment, and nothing else. -/
def Loaded (s t : State) (is : Issue) (c : Ctx) (ent : InEnt) (res : List Pend) : Prop :=
  t = s.setCtx is.ck
    { c with scaLoads := c.scaLoads + (if ent.isRow then 0 else 1), rowLoads := c.rowLoads + (if ent.isRow then 1 else 0),
             ibuf := c.ibuf ++ [ent], pend := c.pend ++ res }

/-- The accesses of a fill: VA, bytes, and the place of the bytes in what is loaded. -/
def reads (fl : Fill) : List (Nat × Nat × Nat) := fl.parts.map fun p => (p.va, p.len, p.off)

/-- What a load that begins a fill puts in flight. Each access of the fill has its READ request or its answer among the packets that
the slot sends, except one of the own scratchpad whose bytes are taken at issue; and the fill keeps the bytes that held stores of
the block cover (R47, R208, R230, R324). -/
def InFlight (s : State) (is : Issue) (c : Ctx) (l : List Instr) (fl : Fill) : Prop :=
  (∀ p ∈ fl.parts, p.got = none → ∃ k : Pkt, k.rid = p.rid ∧ k.who = is.ck ∧
    ((k.opc = 0 ∧ k.va = p.va ∧ k.want = p.len ∧ sendFrom is.ck k ∈ l) ∨
     (k.opc = 2 ∧ k.len = p.len ∧ Instr.readReply (is.ck / 256) k ∈ l))) ∧
  (∀ p ∈ fl.parts, ∀ v, p.got = some v → ∃ loc, ownLoc s c (is.ck / 2) p.va = some loc ∧ v < 256 ^ p.len ∧
    ∀ b < p.len, v / 256 ^ b % 256 = (rdByte s (loc + b)).toNat) ∧
  ∀ p ∈ fl.parts, ∀ b < p.len, (fl.cover.find? fun q => q.1 == p.off + b).map (·.2) = heldAt s c (locOf s c.part p.va false + b)

/-- The hold buffer has room for entries (R230: 64 in all). -/
def holdRoom (c : Ctx) (l : List Held) : Prop := ((c.held ++ l).map heldSize).sum ≤ 64

/-! Numbers (R243 to R252): exact values and exact results -/

/-- The value of a finite number. -/
def numRat : Num → ℚ
  | .fin s n e => (if s then -1 else 1) * n * (2 : ℚ) ^ e
  | _ => 0

/-- The sign bit of a finite number. -/
def numSign : Num → Bool
  | .fin s _ _ => s
  | _ => false

/-- The condition INV where something is invalid. -/
def invIf (b : Bool) : Nat := if b then 1 else 0

/-- x is the exact sum of the values of l (R351, R256): a NaN gives NaN, opposite infinities give NaN and INV; a zero sum is -0 where every
term has a minus sign, or, under RDN, where one has. -/
def IsSum (rdn : Bool) (l : List Num) (x : Num) (fl : Nat) : Prop :=
  if Num.nan ∈ l then x = .nan ∧ fl = 0
  else if Num.inf false ∈ l ∧ Num.inf true ∈ l then x = .nan ∧ fl = 1
  else if Num.inf false ∈ l then x = .inf false ∧ fl = 0
  else if Num.inf true ∈ l then x = .inf true ∧ fl = 0
  else fl = 0 ∧ ∃ s n e, x = .fin s n e ∧ numRat x = (l.map numRat).sum ∧
    (n = 0 → (s = true ↔ (l ≠ [] ∧ ∀ y ∈ l, numSign y = true) ∨ (rdn = true ∧ ∃ y ∈ l, numSign y = true)))

/-- x is the exact product of a and b (R353, R354): a NaN gives NaN, 0 × ∞ gives NaN and INV, and signs multiply. -/
def IsProduct (a b x : Num) (fl : Nat) : Prop :=
  match a, b with
  | .nan, _ => x = .nan ∧ fl = 0
  | _, .nan => x = .nan ∧ fl = 0
  | .inf s, .inf t => x = .inf (s != t) ∧ fl = 0
  | .inf s, .fin t n _ => if n = 0 then x = .nan ∧ fl = 1 else x = .inf (s != t) ∧ fl = 0
  | .fin s n _, .inf t => if n = 0 then x = .nan ∧ fl = 1 else x = .inf (s != t) ∧ fl = 0
  | .fin s _ _, .fin t _ _ => fl = 0 ∧ numRat x = numRat a * numRat b ∧ ∃ n e, x = .fin (s != t) n e

/-- The same number with its sign turned. -/
def negOf : Num → Num
  | .nan => .nan
  | .inf s => .inf (!s)
  | .fin s n e => .fin (!s) n e

/-- The sign of a term turned where asked. -/
def negIf (b : Bool) (x : Num) : Num := if b then negOf x else x

/-! VEC forms (R348 to R372) -/

/-- Element k of a row in elements of w bits (R243, R348). -/
def elemAt (w : Nat) (v : Row) (k : Nat) : Nat := v.toNat / 2 ^ (w * k) % 2 ^ w

/-- A pattern of w bits as a two's complement number. -/
def sgn (w v : Nat) : Int := if v < 2 ^ (w - 1) then v else (v : Int) - 2 ^ w

/-- The low w bits of an integer. -/
def lowOf (w : Nat) (z : Int) : Nat := (z % 2 ^ w).toNat

/-- Element k of the row that a field names, in the form's format. -/
def srcEl (c : Ctx) (f : VecF) (r k : Nat) : Nat := elemAt (formatBits f.fmt) (c.row r) k

/-- The value of that element. -/
def srcNum (c : Ctx) (f : VecF) (r k : Nat) : Num := decFmt f.fmt (srcEl c f r k)

/-- All ones in w bits where a relation holds (R356). -/
def onesIf (w : Nat) (p : Prop) [Decidable p] : Nat := if p then 2 ^ w - 1 else 0

/-- The 32 bits of SRSEED as an instruction finds them (R202). -/
def seedNow (c : Ctx) : Nat := c.arch.srseed.toNat % 2 ^ 32

/-- The AST bits of a set of conditions (R201): OVF, SAT, INV, IOVF and SUND. -/
def astBits (fl : Nat) : BitVec 8 :=
  BitVec.ofNat 8 (fl / 4 % 2 + 2 * (fl / 64 % 2) + 4 * (fl % 2) + 8 * (fl / 128 % 2) + 16 * (fl / 32 % 2))

/-- A row and its lineage: both, or neither for a dead row (R204, R220). -/
def rowResult (c : Ctx) (i : Instr) (d : Nat) (v : Row) : List Wr :=
  if (c.place d).2 then [.row (c.place d).1 v, .lin (c.place d).1 (linOf c 0 i)] else []

/-- The conditions of a VEC form (R351): to FST, and to the AST byte of the register written, unless the row is dead. -/
def vecConds (c : Ctx) (d fl : Nat) : List Wr :=
  .fstOr (BitVec.ofNat 64 (fl % 128)) :: (if (c.place d).2 then [.astOr ((c.place d).1 / 32) (astBits fl)] else [])

/-- The state after a VEC form that writes one row: its results are due at its latency, SRSEED is that after its draws, and nothing
else has changed. -/
def vecDone (s : State) (is : Issue) (c : Ctx) (i : Instr) (lat d : Nat) (v : Row) (fl seed : Nat) : State :=
  s.setCtx is.ck { c with
    arch := { c.arch with srseed := BitVec.ofNat 64 seed },
    pend := c.pend ++ dueIn c is lat (rowResult c i d v ++ vecConds c d fl) }

/-- The forms that work on bit patterns and integers: fields, latency, and element k of the result (R353, R356 to R358, R365, R367
to R370). -/
def vecPattern (c : Ctx) (i : Instr) : Option (VecF × Nat × (Nat → Nat)) :=
  let ints := fun (f : VecF) (lat : Nat) (g : Nat → Nat → Nat → Nat) =>
    if 4 ≤ f.fmt ∧ f.fmt ≤ 6 then
      some (f, lat, fun k => g (formatBits f.fmt) (srcEl c f f.a k) (srcEl c f f.b k)) else none
  let any := fun (f : VecF) (g : Nat → Nat → Nat → Nat) =>
    some (f, 2, fun k => g (formatBits f.fmt) (srcEl c f f.a k) (srcEl c f f.b k))
  let group := fun (f : VecF) (z : Nat → List Nat → Nat) =>
    if 4 ≤ f.fmt ∧ f.fmt ≤ 6 then
      some (f, 4, fun k => if k < 2048 / formatBits f.fmt / 2 ^ f.c then
        z (formatBits f.fmt) ((List.range (2 ^ f.c)).map fun j => srcEl c f f.a (k * 2 ^ f.c + j)) else 0)
    else none
  match i with
  | .vadd _ f => ints f 4 fun w a b => (a + b) % 2 ^ w
  | .vsub _ f => ints f 4 fun w a b => lowOf w ((a : Int) - b)
  | .vmul _ f => ints f 4 fun w a b => a * b % 2 ^ w
  | .vneg _ f => ints f 4 fun w a _ => lowOf w (-(a : Int))
  | .vabs _ f => ints f 4 fun w a _ => lowOf w |sgn w a|
  | .vmin _ f => ints f 4 fun w a b => lowOf w (min (sgn w a) (sgn w b))
  | .vmax _ f => ints f 4 fun w a b => lowOf w (max (sgn w a) (sgn w b))
  | .vcmpEq _ f => ints f 2 fun w a b => onesIf w (a = b)
  | .vcmpNe _ f => ints f 2 fun w a b => onesIf w (a ≠ b)
  | .vcmpLt _ f => ints f 2 fun w a b => onesIf w (sgn w a < sgn w b)
  | .vcmpGe _ f => ints f 2 fun w a b => onesIf w (sgn w b ≤ sgn w a)
  | .vcmpLtu _ f => ints f 2 fun w a b => onesIf w (a < b)
  | .vcmpGeu _ f => ints f 2 fun w a b => onesIf w (b ≤ a)
  | .vand _ f => any f fun _ a b => a &&& b
  | .vor _ f => any f fun _ a b => a ||| b
  | .vxor _ f => any f fun _ a b => a ^^^ b
  | .vnot _ f => any f fun w a _ => 2 ^ w - 1 - a
  | .vshl _ f => any f fun w a b => a * 2 ^ b % 2 ^ w
  | .vshr _ f => any f fun _ a b => a / 2 ^ b
  | .vsra _ f => any f fun w a b => lowOf w (sgn w a / 2 ^ b)
  | .vsel _ f => some (f, 2, fun k => if srcEl c f f.c k = 0 then srcEl c f f.b k else srcEl c f f.a k)
  | .vmov _ f => any f fun _ a _ => a
  | .vbcst _ f => some (f, 2, fun _ => match f.ext with
      | some e => e % 2 ^ formatBits f.fmt
      | none => if 1024 ≤ f.c then (c.rx (f.c - 1024)).toNat % 2 ^ formatBits f.fmt
                else srcEl c f f.a (f.c % (2048 / formatBits f.fmt)))
  | .vext _ f => some (f, 2, fun k =>
      let n := 2048 / formatBits f.fmt
      let j := k + f.c % n
      if j < n then srcEl c f f.a j else srcEl c f f.b (j - n))
  | .vrot _ f => some (f, 2, fun k => srcEl c f f.a ((k + f.c) % (2048 / formatBits f.fmt)))
  | .vperm _ f => some (f, 2, fun k =>
      let p := min (2048 / formatBits f.fmt) (2 ^ formatBits f.fmt)
      srcEl c f f.a (k - k % p + srcEl c f f.b k % p))
  | .vins _ f => some (f, 2, fun k => if k = f.c % (2048 / formatBits f.fmt) then (c.rx f.b).toNat % 2 ^ formatBits f.fmt
      else srcEl c f f.a k)
  | .viota _ f => some (f, 2, fun k => lowOf (formatBits f.fmt) ((c.rx f.a).toNat + k * sgn 11 (f.c % 2 ^ 11)))
  | .vpack _ f => some (f, 2, fun k =>
      let n := 2048 / formatBits f.fmt
      let src := if k < n / 2 then elemAt (2 * formatBits f.fmt) (c.row f.a) k
        else elemAt (2 * formatBits f.fmt) (c.row f.b) (k - n / 2)
      src % 2 ^ formatBits f.fmt)
  | .vunpk _ f => some (f, 2, fun k =>
      let h := formatBits f.fmt / 2
      let v := elemAt h (c.row f.a) (f.c % 2 * (2048 / formatBits f.fmt) + k)
      if f.c / 2 % 2 = 1 then lowOf (formatBits f.fmt) (sgn h v) else v)
  | .vcmpr _ f => some (f, 2, fun k =>
      (((List.range (2048 / formatBits f.fmt)).filter fun j => srcEl c f f.b j ≠ 0).map fun j => srcEl c f f.a j).getD k 0)
  | .vrsum _ f => group f fun w l => l.sum % 2 ^ w
  | .vrmax _ f => group f fun w l => lowOf w ((l.map (sgn w)).foldl max (-(2 ^ (w - 1))))
  | .vrmin _ f => group f fun w l => lowOf w ((l.map (sgn w)).foldl min (2 ^ (w - 1) - 1))
  | _ => none

/-- Whether a pattern of BF16 (fmt 0) or FP32 (fmt 1) is a NaN (R244). -/
def nanBits (fmt v : Nat) : Bool := if fmt = 0 then decide (0x7F80 < v % 2 ^ 15) else decide (0x7F800000 < v % 2 ^ 31)

/-- The canonical NaN (R244). -/
def nanCode (fmt : Nat) : Nat := if fmt = 0 then 0x7FC0 else 0x7FC00000

/-- The place of a pattern that is no NaN in the order in which -0 lies below +0 (R353). -/
def ordKey (w v : Nat) : Int := if v < 2 ^ (w - 1) then v else 2 ^ (w - 1) - 1 - (v : Int)

/-- The same in the numeric order, in which -0 and +0 are equal (R356). -/
def valKey (w v : Nat) : Int := if v < 2 ^ (w - 1) then v else 2 ^ (w - 1) - (v : Int)

/-- Element k of a floating-point form whose results are exact, as patterns (R353, R356, R365, R366, R372). -/
def vecExact (c : Ctx) (i : Instr) : Option (VecF × Nat × (Nat → Nat → Prop)) :=
  let two := fun (f : VecF) (g : Nat → Nat → Nat → Nat) =>
    if f.fmt ≤ 1 then some (f, 4, fun k (v : Nat) =>
      let a := srcEl c f f.a k
      let b := srcEl c f f.b k
      ((nanBits f.fmt a ∨ nanBits f.fmt b) → v = nanCode f.fmt) ∧
      (¬ nanBits f.fmt a → ¬ nanBits f.fmt b → v = g (formatBits f.fmt) a b))
    else none
  let one := fun (f : VecF) (g : Nat → Nat → Nat) =>
    if f.fmt ≤ 1 then some (f, 4, fun k (v : Nat) =>
      (nanBits f.fmt (srcEl c f f.a k) → v = nanCode f.fmt) ∧
      (¬ nanBits f.fmt (srcEl c f f.a k) → v = g (formatBits f.fmt) (srcEl c f f.a k)))
    else none
  let cmp := fun (f : VecF) (nan : Bool) (r : Int → Int → Prop) =>
    if f.fmt ≤ 1 then some (f, 2, fun k (v : Nat) =>
      let a := srcEl c f f.a k
      let b := srcEl c f f.b k
      let w := formatBits f.fmt
      let holds := if nanBits f.fmt a ∨ nanBits f.fmt b then nan = true else r (valKey w a) (valKey w b)
      (holds → v = 2 ^ w - 1) ∧ (¬ holds → v = 0))
    else none
  let group := fun (f : VecF) (g : Nat) (mag : Bool) (r : Int → Int → Prop) =>
    if f.fmt ≤ 1 then some (f, 4, fun k (v : Nat) =>
      let w := formatBits f.fmt
      let l := (List.range (2 ^ g)).map fun j =>
        let e := srcEl c f f.a (k * 2 ^ g + j)
        if mag = true then e % 2 ^ (w - 1) else e
      if k < 2048 / w / 2 ^ g then
        ((∃ e ∈ l, nanBits f.fmt e) → v = nanCode f.fmt) ∧
        ((∀ e ∈ l, ¬ nanBits f.fmt e) → v ∈ l ∧ ∀ e ∈ l, r (ordKey w e) (ordKey w v))
      else v = 0)
    else none
  match i with
  | .vneg _ f => one f fun w a => (a + 2 ^ (w - 1)) % 2 ^ w
  | .vabs _ f => one f fun w a => a % 2 ^ (w - 1)
  | .vmin _ f => two f fun w a b => if ordKey w b < ordKey w a then b else a
  | .vmax _ f => two f fun w a b => if ordKey w a < ordKey w b then b else a
  | .vcmpEq _ f => cmp f false (· = ·)
  | .vcmpNe _ f => cmp f true (· ≠ ·)
  | .vcmpLt _ f => cmp f false (· < ·)
  | .vcmpGe _ f => cmp f false (· ≥ ·)
  | .vrmax _ f => group f f.c false (· ≤ ·)
  | .vrmin _ f => group f f.c false (· ≥ ·)
  | .vbamax _ f => group f 3 true (· ≤ ·)
  | .vconj _ f => if f.fmt ≤ 1 then some (f, 4, fun k (v : Nat) =>
      let t := algTab (c.tab.get 0 (f.c % 4))
      let a := srcEl c f f.a k
      let w := formatBits f.fmt
      (nanBits f.fmt a → v = nanCode f.fmt) ∧
      (¬ nanBits f.fmt a → v = if t.mask.testBit (k % t.d) then (a + 2 ^ (w - 1)) % 2 ^ w else a))
    else none
  | _ => none

/-- The row v holds m exact results rounded to the form's format in increasing element, with one draw each under SR (R249, R250,
R350), and zero above them; P says what result k is and what it raises. -/
def RoundedRow (c : Ctx) (fmt : Nat) (rm : Rm) (m : Nat) (P : Nat → Num → Nat → Prop) (v : Row) (fl seed : Nat) : Prop :=
  ∃ xs : List (Num × Nat), xs.length = m ∧ (∀ k x e, xs[k]? = some (x, e) → P k x e) ∧
    seed = (roundList fmt rm (seedNow c) (xs.map (·.1))).2.2 ∧
    fl = (roundList fmt rm (seedNow c) (xs.map (·.1))).2.1 ||| (xs.map (·.2)).foldl (· ||| ·) 0 ∧
    ∀ k < 2048 / formatBits fmt, elemAt (formatBits fmt) v k = (roundList fmt rm (seedNow c) (xs.map (·.1))).1.getD k 0

/-- A product, turned where asked, and a third term: 0 × ∞ gives NaN and INV even beside a NaN (R354). -/
def IsFused (rdn negP negC : Bool) (a b x y : Num) (fl : Nat) : Prop :=
  ∃ p e, IsProduct a b p e ∧
    if e = 1 then y = .nan ∧ fl = 1 else IsSum rdn [negIf negP p, negIf negC x] y fl

/-- Result k of the arithmetic forms that round (R353, R354, R365): fields, how many results, and each. -/
def vecRounded (c : Ctx) (i : Instr) : Option (VecF × Nat × (Nat → Num → Nat → Prop)) :=
  let rdn := fun (f : VecF) => vRm f == .rdn
  let all := fun (f : VecF) (P : Nat → Num → Nat → Prop) => some (f, 2048 / formatBits f.fmt, P)
  match i with
  | .vadd _ f => all f fun k => IsSum (rdn f) [srcNum c f f.a k, srcNum c f f.b k]
  | .vsub _ f => all f fun k => IsSum (rdn f) [srcNum c f f.a k, negOf (srcNum c f f.b k)]
  | .vmul _ f => all f fun k => IsProduct (srcNum c f f.a k) (srcNum c f f.b k)
  | .vfma _ f => all f fun k => IsFused (rdn f) false false (srcNum c f f.a k) (srcNum c f f.b k) (srcNum c f f.c k)
  | .vfms _ f => all f fun k => IsFused (rdn f) false true (srcNum c f f.a k) (srcNum c f f.b k) (srcNum c f f.c k)
  | .vfnm _ f => all f fun k => IsFused (rdn f) true false (srcNum c f f.a k) (srcNum c f f.b k) (srcNum c f f.c k)
  | .vrsum _ f => some (f, 2048 / formatBits f.fmt / 2 ^ f.c, fun k =>
      IsSum (rdn f) ((List.range (2 ^ f.c)).map fun j => srcNum c f f.a (k * 2 ^ f.c + j)))
  | _ => none

/-- What R355 says of the value x of each function at a, before its rounding, and of its condition (1 INV, 2 DZ). VRCP and VRSQ have
at least 100 correct bits; VEXP2 and VLOG2 are exact at powers of two, and else lie between the chord of the function over the unit
interval or octave of their argument and a line through its lower end (log entry 9). -/
def vecFunction (a : Num) (x : Num) (fl : Nat) : Instr → Prop
  | .vrcp _ _ => match a with
    | .nan => x = .nan ∧ fl = 0
    | .inf s => fl = 0 ∧ ∃ e, x = .fin s 0 e
    | .fin s n _ => if n = 0 then x = .inf s ∧ fl = 2
      else fl = 0 ∧ numSign x = s ∧ (∃ m e, x = .fin s m e) ∧ |numRat x * numRat a - 1| ≤ 1 / 2 ^ 100
  | .vrsq _ _ => match a with
    | .nan => x = .nan ∧ fl = 0
    | .inf s => if s then x = .nan ∧ fl = 1 else fl = 0 ∧ ∃ e, x = .fin false 0 e
    | .fin s n _ => if n = 0 then x = .inf s ∧ fl = 2
      else if s then x = .nan ∧ fl = 1
      else fl = 0 ∧ (∃ m e, x = .fin false m e) ∧ |numRat x * numRat x * numRat a - 1| ≤ 1 / 2 ^ 100
  | .vexp2 _ _ => fl = 0 ∧ match a with
    | .nan => x = .nan
    | .inf s => if s then ∃ e, x = .fin false 0 e else x = .inf false
    | .fin _ _ _ => (∃ m e, x = .fin false m e ∧ m ≠ 0) ∧
        (∀ z : Int, numRat a = z → -300 ≤ z → z < 200 → numRat x = (2 : ℚ) ^ z) ∧
        (∀ k : Int, (k : ℚ) ≤ numRat a → numRat a < k + 1 → -300 ≤ k → k < 200 →
          (2 : ℚ) ^ k * (1 + 2 / 3 * (numRat a - k)) ≤ numRat x ∧ numRat x ≤ (2 : ℚ) ^ k * (1 + (numRat a - k))) ∧
        (200 ≤ numRat a → (2 : ℚ) ^ 200 ≤ numRat x) ∧ (numRat a < -300 → numRat x ≤ (2 : ℚ) ^ (-299 : Int))
  | .vlog2 _ _ => match a with
    | .nan => x = .nan ∧ fl = 0
    | .inf s => if s then x = .nan ∧ fl = 1 else x = .inf false ∧ fl = 0
    | .fin s n _ => if n = 0 then x = .inf true ∧ fl = 2
      else if s then x = .nan ∧ fl = 1
      else fl = 0 ∧ (∃ t m e, x = .fin t m e) ∧ (∀ z : Int, numRat a = (2 : ℚ) ^ z → numRat x = z) ∧
        ∀ k : Int, (2 : ℚ) ^ k ≤ numRat a → numRat a < 2 ^ (k + 1) →
          k + (numRat a / 2 ^ k - 1) ≤ numRat x ∧ numRat x ≤ k + 3 / 2 * (numRat a / 2 ^ k - 1)
  | _ => False

/-- Component κ of a product through a table (R260): the exact sum of the signed products of the entries that target it, and its
conditions. -/
def IsTableSum (t : AlgTab) (rdn : Bool) (comp : Nat) (x y : Nat → Num) (out : Num) (fl : Nat) : Prop :=
  let es := t.ents.filter fun e => e.2.2.1 = comp
  ∃ (ps : List (Num × Nat)) (e0 : Nat), ps.length = es.length ∧
    (∀ (k : Nat) (e : Nat × Nat × Nat × Bool) (p : Num × Nat), es[k]? = some e → ps[k]? = some p → ∃ q, IsProduct (x e.1) (y e.2.1) q p.2 ∧ p.1 = negIf e.2.2.2 q) ∧
    IsSum rdn (ps.map (·.1)) out e0 ∧ fl = (ps.map (·.2)).foldl (· ||| ·) e0

/-- The value that an inclusion list holds for a position: that of its first entry, below its population, with that position
(R198, R254, R364). -/
def listValue (il : BitVec 512) (pos : Nat) : Option Nat :=
  let es := (List.range 16).map fun k => il.toNat / 2 ^ (32 * k) % 2 ^ 32
  ((es.takeWhile fun e => e % 2 ^ 16 ≠ 0xFFFF).find? fun e => e % 2 ^ 16 = pos).map fun e => e / 2 ^ 16

/-! MTX forms (R373 to R383) -/

/-- A tile register whose TC has d > 1 and planar layout (R262). -/
def planar (c : Ctx) (t : Nat) : Prop := (c.tc.get 0 t).toNat / 2 ^ 22 % 4 ≠ 0 ∧ (c.tc.get 0 t).toNat / 2 ^ 21 % 2 = 0

/-- The format pairs of MMA (R257). -/
def mmaPair (f : MtxF) : Prop :=
  (f.fa = 3 ∧ f.fb = 3) ∨ (f.fa ∈ [0, 2] ∧ f.fb ∈ [0, 2]) ∨ (f.fa ∈ [4, 5] ∧ f.fb ∈ [4, 5])

/-- The fields as a decode generation reads them: VLX1 has no table, order or conjugation (R292). -/
def mmaFields (c : Ctx) (f : MtxF) : MtxF := if c.gen = 1 then { f with att := 0, ord := 0, cja := 0, cjb := 0 } else f

/-- K elements that one step consumes (R374). -/
def perStep (f : MtxF) : Nat :=
  if f.fa = 3 ∧ f.fb = 3 then 4 else if (f.fa = 2 ∧ f.fb = 2) ∨ (f.fa = 4 ∧ f.fb = 4) then 2 else 1

/-- Scalar k of line i of A, as a pattern (R373). -/
def aRaw (c : Ctx) (f : MtxF) (i k : Nat) : Nat := elemAt (formatBits f.fa) (c.row (32 * f.ta + f.a0 + i)) k

/-- Scalar k of line j of B, as a pattern (R373). -/
def bRaw (c : Ctx) (f : MtxF) (d j k : Nat) : Nat :=
  if d = 1 then elemAt (formatBits f.fb) (c.row (32 * f.tb + j % 32)) ((if j < 32 then 0 else 2048 / formatBits f.fb / 2) + k)
  else elemAt (formatBits f.fb) (c.row (32 * f.tb + f.b0 + j)) k

/-- The number of an escape among m lines: those of earlier scalars, and of the same scalar in earlier lines (R254). -/
def escapeNo (raw : Nat → Nat → Nat) (m i k : Nat) : Nat :=
  ((List.range k).map fun k' => ((List.range m).filter fun i' => raw i' k' = 8).length).sum
    + ((List.range i).filter fun i' => raw i' k = 8).length

/-- The values of an inclusion list in order, below its population (R198, R254). -/
def listValues (il : BitVec 512) : List Nat :=
  (((List.range 16).map fun k => il.toNat / 2 ^ (32 * k) % 2 ^ 32).takeWhile fun e => e % 2 ^ 16 ≠ 0xFFFF).map fun e => e / 2 ^ 16

/-- x is the value of a block-scaled scalar (R253, R254, R378): code times block scale, or for an escape the entry of its number,
and 0 beyond the list. -/
def IsScaled (c : Ctx) (raw : Nat → Nat → Nat) (m sc so nb il i k : Nat) (x : Num) : Prop :=
  if raw i k = 8 then
    x = (((listValues (c.arch.il.get 0 il))[escapeNo raw m i k]?).map (decFmt 0)).getD (.fin false 0 0)
  else IsProduct (decFmt 3 (raw i k)) (decE3m5 ((c.sc.get 0 sc).toNat / 2 ^ (8 * (so + i * nb + k / 8)) % 2 ^ 8)) x 0

/-- The escapes of m lines of len scalars pass their list (R254). -/
def pastList (c : Ctx) (raw : Nat → Nat → Nat) (m len il : Nat) : Prop :=
  (listValues (c.arch.il.get 0 il)).length < escapeNo raw m 0 len

/-- t is the exact sum of the terms of component `comp` over element pairs (R256, R260); a NaN raises INV. -/
def IsDot (tab : AlgTab) (comp : Nat) (pairs : List ((Nat → Num) × (Nat → Num))) (t : Num) (fl : Nat) : Prop :=
  let es := pairs.flatMap fun p => (tab.ents.filter fun e => e.2.2.1 = comp).map fun e => (p.1 e.1, p.2 e.2.1, e.2.2.2)
  ∃ (ps : List Num) (e0 : Nat), ps.length = es.length ∧
    (∀ (k : Nat) (e : Num × Num × Bool) (p : Num), es[k]? = some e → ps[k]? = some p →
      ∃ q cond, IsProduct e.1 e.2.1 q cond ∧ p = negIf e.2.2 q) ∧
    IsSum false ps t e0 ∧ fl = invIf (t == .nan)

/-- A value rounded to FP32 by an MMA: RNE, clamped where SAT is set (R256). -/
def mmaRound (sat : Bool) (x : Num) : Nat × Nat := encIeeeR 1 sat .rne 0 x

/-- An accumulator after a list of exact sums, each added or subtracted with one rounding, and the conditions (R256, R257). -/
def AccumulatesTo (sub sat : Bool) : List (Num → Nat → Prop) → Nat → Nat → Nat → Prop
  | [], acc, out, fl => out = acc ∧ fl = 0
  | P :: l, acc, out, fl => ∃ t e v e' fl', P t e ∧ IsSum false [decFmt 1 acc, negIf sub t] v e' ∧
      AccumulatesTo sub sat l (mmaRound sat v).1 out fl' ∧ fl = e ||| (mmaRound sat v).2 ||| e' ||| fl'

/-- The same over INT32, exact sums in order: each addition wraps, or clamps with SAT (R257). -/
def intAccumulate (sub sat : Bool) : List Int → Nat → Nat × Nat
  | [], acc => (acc, 0)
  | t :: l, acc =>
    let v : Int := sgn 32 acc + if sub then -t else t
    let out := 2 ^ 31 ≤ v ∨ v < -(2 ^ 31)
    let a := if sat = true ∧ out then (if v < 0 then 2 ^ 31 else 2 ^ 31 - 1) else lowOf 32 v
    let r := intAccumulate sub sat l a
    (r.1, (if sat = true ∧ out then 64 else 0) ||| r.2)

/-- Result component `comp` of output element (i, j) of an MMA and its conditions, from the values x of A and y of B (R256, R257,
R263, R378). -/
def MmaElement (c : Ctx) (f : MtxF) (t : AlgTab) (x y : Nat → Nat → Num) (i j comp out fl : Nat) : Prop :=
  let ke := (c.rx f.cnt).toNat * perStep f
  let conj := fun (cj : Nat) (v : Nat → Num) (k r : Nat) =>
    if r < t.d then negIf (cj = 1 ∧ t.mask.testBit r) (v (k * t.d + r)) else .fin false 0 0
  let pair := fun (k : Nat) =>
    let a := conj f.cja (x i) k
    let b := conj f.cjb (y j) k
    if f.ord = 1 then (b, a) else (a, b)
  let acc := if f.acc = 0 then 0 else elemAt 32 (c.row (32 * f.tc + i)) (t.d * j + comp)
  if f.fa = 3 ∧ f.fb = 3 then
    let g := 8 / t.d
    AccumulatesTo (f.acc = 2) (f.sat = 1) ((List.range ((ke + g - 1) / g)).map fun b v e =>
      ∃ u e0, IsDot t comp (((List.range ke).filter fun k => k / g = b).map pair) u e0 ∧
        v = decFmt 1 (mmaRound (f.sat = 1) u).1 ∧ e = e0 ||| (mmaRound (f.sat = 1) u).2) acc out fl
  else if 4 ≤ f.fa then
    let terms := fun (k : Nat) => ((t.ents.filter fun e => e.2.2.1 = comp).map fun e =>
      (if e.2.2.2 then -1 else 1) * numRat ((pair k).1 e.1) * numRat ((pair k).2 e.2.1)).sum
    ∃ ts : List Int, ts.map (fun z => (z : ℚ)) = (List.range ke).map terms ∧ (out, fl) = intAccumulate (f.acc = 2) (f.sat = 1) ts acc
  else AccumulatesTo (f.acc = 2) (f.sat = 1) ((List.range ke).map fun k => IsDot t comp [pair k]) acc out fl

/-! Kernel instructions of an eft core (R81 to R97) -/

/-- The core `core` of die d, unit u, is the agent that moves, and r is its run. -/
structure EftRuns (s : State) (d core u : Nat) (r : Run) : Prop where
  cur : s.cur = .eft d core
  unit : u = d * 12 + core
  run : (s.eft u).run = some r

/-- The state after an instruction that only changes its run. -/
def eftNext (s : State) (u : Nat) (r : Run) : State := s.setEft u { s.eft u with run := some r }

/-- A scalar register of a run: e0 is zero (R81). -/
def eReg (r : Run) (n : Nat) : Nat := if n = 0 then 0 else r.e.getD n 0 % 2 ^ 32

/-- A run after a scalar instruction: its destination written, unless it is e0, and the next word (R89). -/
def ePut (r : Run) (n v : Nat) : Run := { r with e := if n = 0 then r.e else r.e.set n v, pc := r.pc + 1 }

/-- The run after a scalar, compare, branch or header instruction (R89 to R91). -/
def eftScalar (r : Run) (i : Instr) : Option Run :=
  let imm := fun (k : Nat) => lowOf 32 (sgn 17 (k % 2 ^ 17))
  let cond := fun (cc a b : Nat) => match cc with
    | 0 => decide (a = b)
    | 1 => decide (a ≠ b)
    | 2 => decide (sgn 32 a < sgn 32 b)
    | 3 => decide (sgn 32 b ≤ sgn 32 a)
    | 4 => decide (a < b)
    | _ => decide (b ≤ a)
  let add := fun (a b : Nat) => (a + b) % 2 ^ 32
  let sub := fun (a b : Nat) => lowOf 32 ((a : Int) - b)
  let shl := fun (a b : Nat) => a * 2 ^ (b % 32) % 2 ^ 32
  let shr := fun (a b : Nat) => a / 2 ^ (b % 32)
  let mul := fun (a b : Nat) => a * b % 2 ^ 32
  let least := fun (a b : Nat) => lowOf 32 (min (sgn 32 a) (sgn 32 b))
  let most := fun (a b : Nat) => lowOf 32 (max (sgn 32 a) (sgn 32 b))
  let rr := fun (f : Nat → Nat → Nat) (d a b : Nat) => some (ePut r d (f (eReg r a) (eReg r b)))
  let ri := fun (f : Nat → Nat → Nat) (d a k : Nat) => some (ePut r d (f (eReg r a) (imm k)))
  match i with
  | .eftMovi d h k => some (ePut r d (if h = 0 then lowOf 32 (sgn 21 (k % 2 ^ 21)) else k % 2 ^ 16 * 2 ^ 16 + eReg r d % 2 ^ 16))
  | .eftAdd d a b => rr add d a b
  | .eftAddImm d a k => ri add d a k
  | .eftSub d a b => rr sub d a b
  | .eftSubImm d a k => ri sub d a k
  | .eftAnd d a b => rr (· &&& ·) d a b
  | .eftAndImm d a k => ri (· &&& ·) d a k
  | .eftOr d a b => rr (· ||| ·) d a b
  | .eftOrImm d a k => ri (· ||| ·) d a k
  | .eftXor d a b => rr (· ^^^ ·) d a b
  | .eftXorImm d a k => ri (· ^^^ ·) d a k
  | .eftShl d a b => rr shl d a b
  | .eftShlImm d a k => ri shl d a k
  | .eftShr d a b => rr shr d a b
  | .eftShrImm d a k => ri shr d a k
  | .eftMul d a b => rr mul d a b
  | .eftMulImm d a k => ri mul d a k
  | .eftMin d a b => rr least d a b
  | .eftMinImm d a k => ri least d a k
  | .eftMax d a b => rr most d a b
  | .eftMaxImm d a k => ri most d a k
  | .eftCmp cc a b => some { r with c := cond cc (eReg r a) (eReg r b), pc := r.pc + 1 }
  | .eftCmpImm cc a k => some { r with c := cond cc (eReg r a) (imm k), pc := r.pc + 1 }
  | .eftBf o => some { r with pc := if r.c then r.pc + o else r.pc + 1 }
  | .eftBfn o => some { r with pc := if r.c then r.pc + 1 else r.pc + o }
  | .eftJ o => some { r with pc := r.pc + o }
  | .eftHrd d n => some (ePut r d (r.h.getD n 0 % 2 ^ 32))
  | .eftHwr a n => some { r with h := r.h.set n (eReg r a), pc := r.pc + 1 }
  | _ => none

/-- The address of a memory form (R92). -/
def eAddr (r : Run) (a o : Nat) : Nat := (eReg r a + o) % 2 ^ 32

/-- The first flow word, and the bytes, of the slot range of a run's kernel (R78, R92). -/
def eRange (s : State) (u : Nat) (r : Run) : Nat × Nat :=
  let v := (s.reg 14 (3 * r.kern + 2) u).toNat
  (16 * (v % 2 ^ 10), (v / 2 ^ 16 % 2 ^ 10 - v % 2 ^ 10 + 1) * 64)

/-- A flow-state word (R78). -/
def eFlow (s : State) (u w : Nat) : Nat := s.rn 14 (0x4000 + w) u

/-- Lane k of a vector register, in lanes of w bits (R92, R93). -/
def lane (w v k : Nat) : Nat := v / 2 ^ (w * k) % 2 ^ w

/-- A run after a vector register was written. -/
def vPut (r : Run) (n v : Nat) : Run := { r with v := r.v.set n v, pc := r.pc + 1 }

/-- The answer that a core gives the sender of the packet of a run (R86, R415). -/
def eftReply (s : State) (u : Nat) (r : Run) (opc : Nat) : Instr :=
  .packetInject (u / 12) (eftLeaf u) (answerPkt s (u / 12) (srcEft u) (u % 12) r.pkt opc 0)

/-- The end of a run while no clearing of EN waits: the run is gone and counted (R78, R80). -/
def runEnded (s : State) (u : Nat) : State := (s.setEft u { s.eft u with run := none }).bump 14 0x31 u

/-- A packet sent by the run and held until it is answered (R75, R86). -/
def eftSent (s : State) (u : Nat) (r : Run) (k : Pkt) : State :=
  let p := { k with rid := s.nextRid }
  let v := (s.reg 14 (3 * r.kern) u).toNat
  { s with
    nextRid := s.nextRid + 1,
    efts := s.efts.put {} u { s.eft u with
      outb := (s.eft u).outb ++ [⟨p, r.kern, v / 2 ^ 24 % 2 ^ 5, v / 2 ^ 29 % 2 ^ 16, s.tsc.toNat, 0, 0, 0⟩] },
    events := s.events ++ [.packetInject (u / 12) (eftLeaf u) p] }

/-- The packet that a run sends to an onward destination, as a list of fields (R82): from the header words FLOW, LEN, OFS, OPC and
TAG; its own SRC and SCHIP; PART as it arrived; bytes 0 to LEN - 1 of the window. -/
def eftLeaves (s : State) (u : Nat) (r : Run) (chip die ep : Nat) (k : Pkt) : Prop :=
  let h := fun n => r.h.getD n 0
  k.cls = (if ep < 12 then 3 else 2) ∧ k.dchip = chip ∧ k.dep = ep ∧
  k.ddie = (if chip = s.ident.chip % 4096 then s.physDie die else die) ∧
  k.flow = h 2 / 2 ^ 20 % 2 ^ 12 + h 3 % 2 ^ 4 * 2 ^ 12 ∧ k.len = h 2 / 2 ^ 11 % 2 ^ 9 ∧ k.opc = h 6 / 2 ^ 24 % 2 ^ 8 ∧ k.tag = h 7 ∧
  k.va = chip * 2 ^ 52 + die * 2 ^ 50 + ep * 2 ^ 45 + s.ident.chip % 4096 * 2 ^ 32 + h 4 % 2 ^ 32 ∧
  k.part = r.pkt.part ∧ k.src = srcNo (u / 12) 4 (u % 12) ∧ k.schip = s.ident.chip % 4096 ∧ k.mark = false ∧ k.echo = false ∧
  k.payload = r.win % 256 ^ k.len

/-- The onward destination that a header word 5 or an MCAST entry names (R76, R95), and whether it names a core or the sequencer. -/
def onwardOf (w : Nat) : Nat × Nat × Nat := (w / 2 ^ 20 % 2 ^ 12, w / 2 ^ 18 % 2 ^ 2, w / 2 ^ 13 % 2 ^ 5)

/-- An endpoint that takes collective packets (R76). -/
def onwardOk (ep : Nat) : Prop := ep < 12 ∨ ep = 27

/-- TRAPACT of kernel k forwards a packet (R97): the bit is set, and the onward endpoint that the packet arrived with takes packets. -/
def Forwards (s : State) (u k : Nat) (p : Pkt) : Prop :=
  (s.reg 14 (3 * k) u).toNat / 2 ^ 17 % 2 = 1 ∧ onwardOk (onwardOf ((headWords p).getD 5 0)).2.2

/-- t is s after a packet of kernel k was handled as TRAPACT states (R80, R97): it is sent as it arrived and held, or dropped, and its
sender is acknowledged. -/
def TrapActs (s t : State) (u k : Nat) (p : Pkt) : Prop :=
  let r : Run := { kern := k, pkt := p, h := headWords p, win := p.payload, e := [], v := [], c := false, pc := 0, emits := 0 }
  let to_ := onwardOf ((headWords p).getD 5 0)
  (Forwards s u k p → ∃ q, eftLeaves s u r to_.1 to_.2.1 to_.2.2 q ∧ t = (eftSent s u r q).post (eftReply s u r 3)) ∧
  (¬ Forwards s u k p → t = s.post (eftReply s u r 3))

/-- t is s after parked packets were handled so in order; one that is to be forwarded while the output buffer of 64 is full stays
parked and is ready (R75; log entry 117). -/
def TrapActsOnAll (u k : Nat) : List Parked → State → State → Prop
  | [], s, t => t = s
  | x :: l, s, t => ∃ m, TrapActsOnAll u k l m t ∧
      (Forwards s u k x.pkt ∧ 64 ≤ (s.eft u).outb.length → m = s.setEft u { s.eft u with park := (s.eft u).park ++ [{ x with ready := true }] }) ∧
      (¬ (Forwards s u k x.pkt ∧ 64 ≤ (s.eft u).outb.length) → TrapActs s m u k x.pkt)

/-! Events -/

/-- The event i has one effect: a numbered register takes a value. -/
def Writes (i : Instr) (s : State) (cls num unit : Nat) (v : W64) : Prop :=
  ∃ t, exec i s = .next t ∧ RegOnly s t cls num unit v

/-- A number with its bits hi down to lo replaced. -/
def withBits (w hi lo v : Nat) : Nat := w - w / 2 ^ lo % 2 ^ (hi + 1 - lo) * 2 ^ lo + v % 2 ^ (hi + 1 - lo) * 2 ^ lo

/-- The group of a die holds package authority (R39): all of the ring, or after a split the group with logical die 0, where it has a
command processor. -/
def Authority (s : State) (die : Nat) : Prop :=
  (∀ f < 4, s.reach die f = true) ∨ (s.reach die (s.physDie 0) = true ∧ (s.reach die 0 = true ∨ s.reach die 2 = true))

/-- The way to a notification ring is shut (R25, R26): the link of its physical function is down, or a selective stream of it is
Insecure (any stream: log entry 54). -/
def WayShut (s : State) (ring : Nat) : Prop :=
  ∃ pf, s.ringPf ring = some pf ∧ (pf ∈ s.pfDown ∨ ∃ n, (pf, n, false) ∈ s.streams)

/-- A ring holds nothing back and has lost nothing that it has not reported. -/
def QuietRing (s : State) (ring : Nat) : Prop :=
  SMap.get 0 s.lost ring = 0 ∧ SMap.get 0 s.recGone ring = 0 ∧ ∀ x ∈ s.recHeld, x.1 ≠ ring

/-- Contexts of a partition are resident or queued (R159). -/
def holdsWork (s : State) (p : Nat) : Prop := ∃ l ∈ s.live, l.part = p ∧ l.st ≤ 1

/-- Registers that only keep the fields written (R7): class, number and the mask of the fields. -/
def plainRegs : List (Nat × Nat × Nat) :=
  [(1, 0x401, 0x7), (1, 0x403, 0xFF), (1, 0x404, 0xFFFFFFFFFFFFFFFF), (1, 0x407, 0xFD), (2, 0x805, 0x3FF), (3, 0xC00, 0x1F),
   (3, 0xC03, 0xFF), (3, 0xC04, 0x7FFFFFF000), (4, 0x1002, 0xFFFFFFFFFFFFFFFF), (4, 0x1004, 0x7FFFFFE001),
   (4, 0x1006, 0xFFFFFFFFFFFFFFFD), (4, 0x1007, 0xFFFFFFFFFFFFFFFF), (4, 0x1008, 0xFFFFFFFFFFFFFFFF),
   (4, 0x1009, 0xFFFFFFFFFFFFFFFF), (4, 0x1010, 0x3FF01FF), (4, 0x1011, 0x3FF01FF), (4, 0x1012, 0x3FF01FF),
   (4, 0x1013, 0x3FF01FF), (6, 1, 0xFF), (7, 0, 0xFFFFFFFFFFFFFFFF), (7, 4, 0x7000000000), (10, 0, 0xFFFF), (13, 5, 0xFF),
   (13, 0xFFF, 0xFF), (15, 0, 0xFFFFFFFFFFFFFFFF)]

/-! Command processors (R103 to R109) -/

/-- Register k of queue n of the package (R100): 0 CQ_BASE, 1 CQ_CTL, 2 CQ_TAIL, 3 CQ_HEAD; four queues to a function. -/
def queueReg (s : State) (n k : Nat) : Nat := (s.reg 6 (0x10 + 4 * (n % 4) + k) (n / 4)).toNat

/-- A queue is runnable (R103), and its host link is up (R26): EN, CQ_HEAD < CQ_TAIL, a bound function, a partition not
suspended, and no WAIT record that holds it. -/
abbrev IsRunnable (s : State) (n : Nat) : Prop :=
  queueReg s n 1 / 16 % 2 = 1 ∧ queueReg s n 3 < queueReg s n 2 ∧ (s.reg 6 0 (n / 4)).toNat / 32 % 2 = 1
    ∧ (s.reg 4 0x1001 ((s.reg 6 0 (n / 4)).toNat % 32)).toNat % 2 = 0 ∧ n / 1024 ∉ s.pfDown
    ∧ ∀ r ∈ (s.cp (n / 1024)).taken, r.queue = n → r.raw / 256 % 2 = 0

/-- The tickets of a queue at a draw (R104). -/
def tickets (s : State) (n : Nat) : Nat :=
  if IsRunnable s n then min (queueReg s n 1 / 256 % 256) ((s.reg 6 1 (n / 4)).toNat % 256) else 0

/-- The generator's step (R104). -/
def xorshift32 (x : BitVec 32) : BitVec 32 :=
  let a := x ^^^ (x <<< 13)
  let b := a ^^^ (a >>> 17)
  b ^^^ (b <<< 5)

/-- The winner of a draw among n contenders with tickets `tk` (R104): with tickets, the least whose running total exceeds
x mod T; without, the next runnable one after the last winner. -/
def Wins (n : Nat) (run : Nat → Prop) (tk : Nat → Nat) (x last w : Nat) : Prop :=
  let total := fun (m : Nat) => ((List.range m).map tk).sum
  if total n = 0 then run w ∧ w < n ∧ ∀ k < n, run k → (w + n - last % n - 1) % n ≤ (k + n - last % n - 1) % n
  else w < n ∧ x % total n < total (w + 1) ∧ ∀ k < w, total (k + 1) ≤ x % total n

/-- A record's turn (R103): it is the first taken record of its queue, and with WAIT every earlier one has completed. -/
def Turn (s : State) (r : LRec) : Prop :=
  (s.cp (r.queue / 1024)).taken.find? (·.queue == r.queue) = some r
    ∧ (r.raw / 256 % 2 = 1 → ∀ e ∈ (s.cp (r.queue / 1024)).open_, e.1 = r.queue → e.2 = r.head)

/-- The field of a record at bits hi to lo of doubleword k (R105). -/
def recField (r : LRec) (k hi lo : Nat) : Nat := r.raw / 2 ^ (64 * k + lo) % 2 ^ (hi + 1 - lo)

/-- The checks that every OPC makes (R105, R106). -/
def wellFormedRec (r : LRec) : Prop :=
  1 ≤ recField r 0 7 0 ∧ recField r 0 7 0 ≤ 4 ∧ recField r 0 15 9 = 0 ∧ recField r 0 63 40 = 0 ∧ recField r 6 63 32 = 0
    ∧ recField r 7 15 9 = 0 ∧ recField r 7 63 27 = 0 ∧ r.raw < 2 ^ 640 ∧ recField r 8 2 0 = 0 ∧ recField r 9 2 0 = 0

/-- The state after a record that has neither FLAG nor STATUS, and completes with status 1, left its command processor. -/
def leftCp (s : State) (r : LRec) : State := closeRec (untake s r) r.queue r.head

/-! Links (R27 to R42) -/

/-- e is an end of the link of endpoint ep: a Jalcy-D link toward (d + 1) mod 4 ends there at the endpoint toward (d + 3) mod 4;
of the link of a Jalcy-X port the package has one end (R27, R46). -/
def IsEnd (ep e : Nat) : Prop :=
  e = ep ∨ (ep % 4 = 0 ∧ e = (ep / 4 + 1) % 4 * 4 + 1) ∨ (ep % 4 = 1 ∧ e = (ep / 4 + 3) % 4 * 4)

/-- t is s with each end of a link changed by f, and nothing else changed. -/
def EndsBecome (s t : State) (ep : Nat) (f : Link → Link) : Prop :=
  t = { s with links := t.links } ∧ (∀ e, IsEnd ep e → t.link e = f (s.link e)) ∧ ∀ e, ¬ IsEnd ep e → t.link e = s.link e

/-- t is s with each end of a link in training, and JLK_RETRAINS of each one more; a failed Jalcy-D endpoint stays failed, and so does
its count (R32). -/
def Trains (s t : State) (ep : Nat) : Prop :=
  t = { s with links := t.links, regs := t.regs } ∧ ∀ e < 16,
    let trained := IsEnd ep e ∧ ((s.link e).st = 3 → 2 ≤ e % 4)
    (trained → t.link e = { s.link e with st := 1, retryFails := 0 } ∧ t.reg 11 4 e = s.reg 11 4 e + 1) ∧
    (¬ trained → t.link e = s.link e ∧ t.reg 11 4 e = s.reg 11 4 e)

/-- A link endpoint that enters the up state (R31, R32, R42): 64 credits to a channel, nothing to give back, and its held flits sent
again, with no credits in them. What it has accepted of packets that are not whole is kept outside the receive buffer, as its
channel plus 8, and a retry request still owed stays. -/
def enteredUp (now : Nat) (l : Link) : Link :=
  let held := l.replay.map fun h => { h with flit := { h.flit with hdr := withBits h.flit.hdr 31 18 0 } }
  { l with
    st := 2, credits := List.replicate 8 64, freed := List.replicate 8 0, retryFails := 0, retrainFails := 0,
    lastGood := now, body := l.body.map (fun b => (b.1 % 8 + 8, b.2)), replay := held, sent := held.map (·.flit) }

/-! The network (R45 to R54) -/

/-- Flits of a class in an output queue of a switch: a head flit and 32 bytes to each flit (R47, R48). -/
def flitsIn (s : State) (die stage num port cls : Nat) : Nat :=
  ((s.net.filter fun h => h.die == die && h.stage == stage && h.num == num && h.port == port && h.pkt.cls == cls).map fun h =>
    1 + (h.pkt.len + 31) / 32).sum

/-- t is s with a packet at the end of an output queue, its turn taken; the queue marks it, and NOC_MARKED counts it, where it
held more than NOC_MARKTHR flits of the class, or, with 31, where the packet fills it (R48, R54, R56; log entry 110). -/
def Joins (s t : State) (die stage num port : Nat) (k : Pkt) : Prop :=
  let n := flitsIn s die stage num port k.cls
  let thr := (s.reg 3 0xC00 die).toNat % 32
  let marks := k.mark = false ∧ (thr < n ∨ (thr = 31 ∧ n + 1 + (k.len + 31) / 32 = 32))
  n + 1 + (k.len + 31) / 32 ≤ 32 ∧ ∃ (r : State) (m : Bool),
    t = { r with net := s.net ++ [⟨die, stage, num, port, { k with turns := k.turns / 16, tlen := k.tlen - 1, mark := m }⟩] } ∧
    (m = true ↔ k.mark = true ∨ marks) ∧ (¬ marks → r = s) ∧ (marks → RegOnly s r 3 0xC01 die (s.reg 3 0xC01 die + 1))

/-- The output port that the next turn of a packet names at a switch: stage 0 a leaf, whose up turn, but for a packet to a spine core,
takes the middle switch of its pod whose up queue holds the fewest flits of the class, the lowest on a tie; 1 a middle switch, 2 a
spine (R45, R49). -/
def TurnsTo (s : State) (die stage num : Nat) (k : Pkt) (p : Nat) : Prop :=
  let t := k.turns % 16
  match stage with
  | 0 => if t < 4 then p = t else if k.cls = 3 ∧ k.dep < 8 then p = 4 + k.dep / 2
    else
      let up := fun (j : Nat) => flitsIn s die 1 (num / 4 * 4 + j) 4 k.cls
      4 ≤ p ∧ p < 8 ∧ ∀ j < 4, up (p - 4) ≤ up j ∧ (up (p - 4) = up j → p - 4 ≤ j)
  | 1 => p = if t < 4 then t else 4
  | _ => p = t % 4

/-- What becomes of a packet that is to enter a switch: it joins the queue of its next turn, or, without room there, waits. -/
def Enters (s : State) (o : Option State) (die stage num : Nat) (k : Pkt) : Prop :=
  ∃ p, TurnsTo s die stage num k p ∧
    let full := 32 < flitsIn s die stage num p k.cls + 1 + (k.len + 31) / 32
    (full → o = none) ∧ (¬ full → ∃ t, o = some t ∧ Joins s t die stage num p k)

/-- p is the port by which a die reaches another chip: the primary of NOC_XPORT, or the alternate where the primary is invalid or its
link has failed (R41, R74). -/
def PortTo (s : State) (die chip p : Nat) : Prop :=
  let v := (s.reg 13 (chip % 4096) die).toNat
  let usable := fun (q : Nat) => (s.link (q / 2 * 4 + 2 + q % 2)).st ≠ 3
  let primary := v / 8 % 2 = 1 ∧ usable (v % 8)
  (primary ∧ p = v % 8) ∨ (¬ primary ∧ v / 128 % 2 = 1 ∧ usable (v / 16 % 8) ∧ p = v / 16 % 8)

/-- The way of a packet to another die: the one that it took before, while that is open, else that of NOC_RING (R50, R51): 1 toward
(d + 1) mod 4, 2 toward (d + 3) mod 4, 3 none. -/
def wayTo (s : State) (d f way : Nat) : Nat :=
  if (way = 1 ∧ (wayOpen s d f).1 = true) ∨ (way = 2 ∧ (wayOpen s d f).2 = true) then way else ringDir s d f

/-- What becomes of a packet at the leaf of a die that is to route it (R41, R46, R48, R50, R51, R74, R76): it bounces with its cause,
or waits, or takes the turns of its table entry and enters the leaf. -/
def Injected (s : State) (die leaf : Nat) (k : Pkt) (o : Option State) : Prop :=
  let own := k.dchip = s.ident.chip % 4096
  let refused := k.cls = 3 ∧ 12 ≤ k.dep
  let stranded := ¬ own ∧ ∀ p, ¬ PortTo s die k.dchip p
  (refused → o = some (bounce s die k 1)) ∧ (¬ refused → stranded → o = some (bounce s die k 8)) ∧
  (¬ refused → ¬ stranded → ∃ f e w : Nat, ((own ∧ f = k.ddie) ∨ (¬ own ∧ ∃ p, PortTo s die k.dchip p ∧ f = p / 2)) ∧
    w = wayTo s die f k.way ∧
    (f ≠ die ∧ w ≠ 1 ∧ w ≠ 2 → o = if s.reach die f = true then none else some (bounce s die k 8)) ∧
    (((f = die ∧ (own ∧ e = (if k.cls = 3 then 32 + k.dep else k.dep) ∨ ¬ own ∧ e = 11)) ∨
        (f ≠ die ∧ (w = 1 ∧ e = 15 ∨ w = 2 ∧ e = 19)) ∨ (f ≠ die ∧ w ≠ 1 ∧ w ≠ 2))) ∧
    (f = die ∨ w = 1 ∨ w = 2 →
      let v := (s.reg 12 (leaf * 64 + e) die).toNat
      (v < 2 ^ 63 → o = some (bounce s die k 1)) ∧
      (2 ^ 63 ≤ v → Enters s o die 0 leaf { k with
        turns := v % 2 ^ 32, tlen := v / 2 ^ 32 % 16,
        way := if (¬ own ∨ k.ddie ≠ die) ∧ e = 15 then 1 else if (¬ own ∨ k.ddie ≠ die) ∧ e = 19 then 2 else 0 })))

/-- What a link does with a packet offered to it (R34, R36, R42, R47, R52): it waits, or all of its flits are sent in order under the
selected key, each held for replay. -/
def Offered (s : State) (ep : Nat) (k : Pkt) (o : Option State) : Prop :=
  let l := s.link ep
  let vc := k.cls % 4 * 2 + min k.hop 1
  let n := (wireOf k).length
  let key := keyAt l.tx l.txsel
  let takes := l.tail = none ∧ l.st = 2 ∧ (s.reg 11 0 ep).getLsbD 0 = true ∧ key.valid = true ∧ key.ctr < 2 ^ 40 ∧
    n ≤ l.credits.getD vc 0 ∧ l.replay.length + n ≤ 512
  (¬ takes → o = none) ∧
  (takes → key.ctr + n < 2 ^ 39 → ∃ (m : Link) (fs : List HeldFlit), o = some (s.setLink ep m) ∧ fs.length = n ∧
    m.replay = l.replay ++ fs ∧ m.sent = l.sent ++ fs.map (·.flit) ∧ m.nextSeq = (l.nextSeq + n) % 4096 ∧ m.tail = none ∧
    m.credits = l.credits.set vc (l.credits.getD vc 0 - n) ∧ keyAt m.tx l.txsel = { key with ctr := key.ctr + n } ∧
    m.pkts = l.pkts ++ [((l.nextSeq + n + 4095) % 4096, k)] ∧
    ∀ j f, fs[j]? = some f → f.seq % 4096 = (l.nextSeq + j) % 4096 ∧ f.flit = makeFlit key (key.ctr + j) f.flit.hdr ((wireOf k).getD j 0))

/-- The answer r to a request k of a requester of this chip: it is posted at the requester where the access did not enter the network, and
else injected at the leaf of the request's endpoint (R46, R53). -/
def Answers (s t : State) (die : Nat) (k r : Pkt) : Prop :=
  r.rid = k.rid ∧ r.who = k.who ∧ r.va = k.va ∧ r.part = k.part ∧ r.echo = k.mark ∧ r.q = k.q ∧ r.ddie = k.src / 2 ^ 14 ∧
  r.cls = 1 ∧
  t = { s with events := s.events ++ [
    if ownLeaf s k = false then .packetInject die (k.dep / 4) r else if r.opc = 2 then .readReply die r
    else if r.opc = 3 then .writeAcknowledge die r else .bankReply die r] }

/-- A write packet comes from outside a cluster: neither from its tiles nor from its engines (R241). -/
def FromOutside (s : State) (k : Pkt) (clu : Nat) : Prop :=
  let kind := k.src / 2 ^ 8 % 2 ^ 6
  ¬ (kind ≤ 1 ∧ k.src / 2 ^ 14 * 16 + (if kind = 0 then k.src % 2 ^ 8 / 8 else k.src % 2 ^ 8) = clu ∧ k.schip = s.ident.chip)

/-- What FINJ_CTL of a cluster does with such a packet for its exchange window (R241): it lets pass (0), discards (1) or inverts TAG
bit 0 (2); t is the state after. -/
def Injects (s t : State) (clu act : Nat) : Prop :=
  let r := (s.reg 2 0x804 clu).toNat
  let armed := r % 2 = 1 ∧ (r / 2 % 4 = 1 ∨ r / 2 % 4 = 2)
  let passed := (s.cl clu).finj
  (¬ armed → act = 0 ∧ t = s) ∧
  (armed → passed < r / 2 ^ 16 % 2 ^ 16 → act = 0 ∧ t = s.setCl clu { s.cl clu with finj := passed + 1 }) ∧
  (armed → r / 2 ^ 16 % 2 ^ 16 ≤ passed → act = r / 2 % 4 ∧ RegOnly s t 2 0x804 clu (BitVec.ofNat 64 (r - 1)))

/-- What a bank operation leaves of an old value and an operand of n bytes (R331): 0 add, 2 min, 3 max, 4 or, 5 and, 6 swap. -/
def bankValue (op n old v : Nat) : Nat :=
  match op with
  | 0 => (old + v) % 2 ^ (8 * n)
  | 2 => if sgn (8 * n) old ≤ sgn (8 * n) v then old else v
  | 3 => if sgn (8 * n) old ≤ sgn (8 * n) v then v else old
  | 4 => old ||| v
  | 5 => old &&& v
  | _ => v

/-! Translation (R128 to R144) -/

/-- The doubleword of device memory at a DPA. -/
def deviceWord (s : State) (dpa : Nat) : Nat := rdNat s (region 6 dpa) 8

/-- A directory entry that leads to the table at NEXT x 4096 (R129, R133): V = 1, LEAF = 0, zero fields zero, NEXT in populated memory. -/
def Leads (s : State) (table index next : Nat) : Prop :=
  let e := deviceWord s (table + 8 * index)
  e % 4 = 1 ∧ e / 4 % 2 ^ 10 = 0 ∧ e < 2 ^ 39 ∧ next = e / 4096 * 4096 ∧ next % 2 ^ 37 < 0x1800000000

/-- The root table of a partition (R128). -/
def rootOf (s : State) (part : Nat) : Nat := (s.reg 4 0x1004 part).toNat / 2 ^ 13 % 2 ^ 26 * 2 ^ 13

/-- The index of a VA in its table of a level, 4 to 1 (R133). -/
def indexAt (va lv : Nat) : Nat :=
  match lv with
  | 4 => if va < 2 ^ 57 then va / 2 ^ 48 else 512 + va / 2 ^ 60 % 4
  | 3 => va / 2 ^ 39 % 512
  | 2 => va / 2 ^ 30 % 512
  | _ => va / 2 ^ 21 % 512

/-- The walk of R133 reads a table after n directory entries that lead on. -/
def Reaches (s : State) (part va : Nat) : Nat → Nat → Prop
  | 0, t => t = rootOf s part
  | n + 1, t => ∃ u, Reaches s part va n u ∧ Leads s u (indexAt va (4 - n)) t

/-- The walk of R133 through the four directory levels of a partition ends at the 64 KiB leaf at a DPA. -/
def WalksTo (s : State) (part va leaf : Nat) : Prop :=
  ∃ t, Reaches s part va 4 t ∧ leaf = t + 128 * (va / 2 ^ 16 % 32)

/-- A well-formed large leaf of a level, 2 for 1 GiB and 1 for 2 MiB (R130, R131, R133): LEAF = V = 1, zero fields and Z zero, SIZE that
of the level; with HOST = 0 an offset in DPA[36:16] in populated memory. -/
def largeLeaf (lv e : Nat) : Prop :=
  e % 4 = 3 ∧ e / 2 ^ 4 % 2 = 0 ∧ e / 2 ^ 6 % 2 = 0 ∧ e / 2 ^ 16 % 2 ^ 4 = 0 ∧ e / 2 ^ 20 % 4 = lv ∧ e / 2 ^ 22 % 4 = 0 ∧
    (e / 2 ^ 7 % 2 = 0 → e < 2 ^ 45 ∧ e / 2 ^ 24 * 2 ^ 16 < 0x1800000000)

/-- A well-formed 64 KiB leaf of host memory at a DPA (R130, R133): LEAF = HOST = 1, zero fields, SIZE and Z zero, those of DW1 to DW15
too. -/
def hostLeaf (s : State) (dpa e : Nat) : Prop :=
  e / 2 % 2 = 1 ∧ e / 2 ^ 7 % 2 = 1 ∧ e / 2 ^ 4 % 2 = 0 ∧ e / 2 ^ 6 % 2 = 0 ∧ e / 2 ^ 16 % 2 ^ 8 = 0 ∧
    ∀ k < 15, deviceWord s (dpa + 8 * (k + 1)) / 2 % 2 ^ 23 = 0

/-- A well-formed 64 KiB leaf of device memory (R130): LEAF = 1, HOST = 0, V = 1, SIZE 0, zero fields zero, FRAME in populated memory. -/
def deviceLeaf (dw0 : Nat) : Prop :=
  dw0 % 4 = 3 ∧ dw0 / 2 ^ 6 % 4 = 0 ∧ dw0 / 2 ^ 16 % 2 ^ 8 = 0 ∧ dw0 < 2 ^ 47 ∧ dw0 / 2 ^ 24 * 2 ^ 16 % 2 ^ 37 < 0x1800000000

/-- Entry of a die's invalidation log that it applies next, at a DPA (R142): the log is enabled and not stopped, and an entry waits. -/
def NextInLog (s : State) (die at_ : Nat) : Prop :=
  let ctl := (s.reg 3 0xC05 die).toNat
  4 ≤ ctl % 32 ∧ ctl % 32 ≤ 16 ∧ ctl / 32 % 2 = 0 ∧ s.reg 3 0xC07 die ≠ s.reg 3 0xC06 die ∧
    at_ = (s.reg 3 0xC04 die).toNat / 4096 * 4096 + 16 * ((s.reg 3 0xC07 die).toNat % 2 ^ (ctl % 32))

/-- The bytes of a page by SIZE (R130). -/
def sizeBytes (size : Nat) : Nat := if size = 0 then 2 ^ 16 else if size = 1 then 2 ^ 21 else 2 ^ 30

/-- The page of a TLB entry is one of a page of a size. -/
def samePage (t : Tlb) (die part size va : Nat) : Prop :=
  t.die = die ∧ t.part = part ∧ t.size = size ∧ t.page = va / sizeBytes size

/-- The access counters of a 64 KiB page that lies in a page of a size. -/
def countsIn (x : Access) (die part size va : Nat) : Prop :=
  x.die = die ∧ x.part = part ∧ x.page * 2 ^ 16 / sizeBytes size = va / sizeBytes size

/-- A die's log has entries that wait, and INV_ERR keeps it from applying them (R144). -/
def LogStuck (s : State) (die : Nat) : Prop :=
  let ctl := (s.reg 3 0xC05 die).toNat
  4 ≤ ctl % 32 ∧ ctl % 32 ≤ 16 ∧ ctl / 32 % 2 = 1 ∧ s.reg 3 0xC07 die ≠ s.reg 3 0xC06 die

/-- A VA names an entry bundle of an admitted image of the partition: the header there has BK 10 or 11 (R229, R266). -/
def EntryIn (s : State) (part va : Nat) (im : Image) : Prop :=
  s.imageOf part va = some im ∧ ∃ h, decodeHeader im.gen (rdNat s (locOf s part va false) 4) = .ok h ∧ 2 ≤ h.bk

/-! The end of a block (R228 to R235) -/

/-- A successor word of a riser at a VA names t (R228): bits 31:8 hold a nonzero signed offset in words from the riser. -/
def Names (rva w t : Nat) : Prop := w / 256 ≠ 0 ∧ (t : Int) = ((rva : Int) + 4 * sgn 24 (w / 256)) % 2 ^ 64

/-- The block of a resident context has ended and can be checked: its loads are performed without a fault, no table was found illegal,
and no autotomy waits (R210, R232, R239, R384). -/
structure Checkable (s : State) (ck : Nat) (c : Ctx) (e : EndRec) : Prop where
  ctx : s.ctx? ck = some c
  keys : s.ctxs.Pairwise fun a b => a.1 < b.1
  phase : c.phase = .ended e
  loads : ∀ f ∈ c.fills, f.bad = none ∧ ∀ p ∈ f.parts, p.got.isSome = true
  tables : c.tableFault = none
  quiet : s.autoq = []

/-- A block with nothing counted and no pre-emption, in its first attempt. -/
structure PlainBlock (c : Ctx) : Prop where
  depr : c.depr = 0
  preempt : c.preempt = false
  recasts : c.recasts = 0

/-- The accesses that a block releases as it commits, behind those of earlier blocks: in program and slot order, a scatter as its
elements in increasing index (R230, R330). -/
def released (c : Ctx) : List Held :=
  c.out ++ c.held.flatMap fun h => match h.k with
    | .scat l => l.map fun e => { h with k := .store e.1 e.2.1 e.2.2 }
    | _ => [h]

/-- t is s with the block of a plain context committed, none of its accesses performed yet (R59, R232). -/
def Committed (s t : State) (ck : Nat) (c : Ctx) : Prop :=
  t = { s with ctxs := t.ctxs, live := t.live } ∧ (∀ k, k ≠ ck → t.ctx? k = s.ctx? k) ∧
  t.ctx? ck = some { c with held := [], out := released c, rb := false, recasts := 0, fresh := true, phase := .running, rtbSet := false } ∧
  (c.rtbSet = false → t.live = s.live) ∧
  (c.rtbSet = true → ∀ l, s.live? c.part c.cr = some l →
    t.live? c.part c.cr = some { l with rtbBad := false, rtb := c.rtbLast })

/-- t is s after the committed accesses l of a context, each performed in turn, up to the first that an order makes wait (R188, R230,
R232). -/
def Performs (ck : Nat) (t : State) : List Held → State → Prop
  | [], s => t = s
  | h :: l, s => ∃ c, s.ctx? ck = some c ∧ c.out = h :: l ∧ (mustWait s c h = true → t = s) ∧
      (mustWait s c h = false → Performs ck t l (perform (s.setCtx ck { c with out := l }) ck h))

/-- t is s after a context sent one request for n bytes at a VA, which waits at its cluster's leaf and then awaits its answer; memory is
as it was (R46, R55). -/
def Sends (s t : State) (ck : Nat) (c : Ctx) (o : Outst) (k : Pkt) : Prop :=
  t.events = s.events ++ [.packetInject (ck / 256) (ck / 16 % 16 / 2) k] ∧
  t.ctx? ck = some { c with outst := c.outst ++ [o] } ∧ t.mem = s.mem ∧ t.tags = s.tags ∧ t.nextRid = s.nextRid + 1 ∧
  o.rid = s.nextRid ∧ k.rid = s.nextRid ∧ k.who = ck ∧ k.va = o.va ∧ k.part = c.part ∧ k.want = o.len ∧ k.len = o.len

/-- The context goes on at a VA in a new block. -/
structure GoesOn (t : State) (ck : Nat) (c : Ctx) (pc : Nat) : Prop where
  ctx : t.ctx? ck = some c
  pc : c.pc = pc
  phase : c.phase = .running
  fresh : c.fresh = true
  ibuf : c.ibuf = []

/-! Packets at an eft core (R77 to R86) -/

/-- Kernel k of a core takes a packet (R77): it is enabled, FLO ≤ FLOW ≤ FHI, and the packet's PART is its own. -/
def TakesFlow (s : State) (u k : Nat) (p : Pkt) : Prop :=
  let c := (s.reg 14 (3 * k) u).toNat
  let f := (s.reg 14 (3 * k + 1) u).toNat
  c / 2 ^ 16 % 2 = 1 ∧ f % 2 ^ 16 ≤ p.flow ∧ p.flow ≤ f / 2 ^ 32 % 2 ^ 16 ∧ c / 2 ^ 24 % 2 ^ 5 = p.part

/-- The kernel that a packet matches. -/
def KernelOf (s : State) (u k : Nat) (p : Pkt) : Prop := k < 8 ∧ TakesFlow s u k p ∧ ∀ j < k, ¬ TakesFlow s u j p

/-- A packet that matches no kernel. -/
def NoKernel (s : State) (u : Nat) (p : Pkt) : Prop := ∀ k < 8, ¬ TakesFlow s u k p

/-- Word 0 of the slot of a matched packet, SLO + (FLOW - FLO) (R77, R83). -/
def slotWord (s : State) (u k : Nat) (p : Pkt) : Nat :=
  16 * ((s.reg 14 (3 * k + 2) u).toNat % 2 ^ 10 + (p.flow - (s.reg 14 (3 * k + 1) u).toNat % 2 ^ 16))

/-- A core answers the sender of a packet (R86, R415). -/
def coreAnswers (s : State) (u : Nat) (p : Pkt) (opc : Nat) : State :=
  s.post (.packetInject (u / 12) (eftLeaf u) (answerPkt s (u / 12) (srcEft u) (u % 12) p opc 0))

/-- An answer is that of a held packet (R415): FLOW, OFS, TAG and VA[63:45] agree. -/
def AnswerOf (x a : Pkt) : Prop :=
  x.flow = a.flow ∧ x.va % 2 ^ 32 = a.va % 2 ^ 32 ∧ x.tag = a.tag ∧ x.va / 2 ^ 45 % 2 ^ 19 = a.va / 2 ^ 45 % 2 ^ 19

/-- What a run of kernel k sees at its start (R81). -/
def RunStarts (s t : State) (u k : Nat) (p : Pkt) : Prop :=
  ∃ r, (t.eft u).run = some r ∧ r.kern = k ∧ r.pkt = p ∧ r.pc = 0 ∧ r.c = false ∧ r.emits = 0 ∧ r.h = headWords p ∧
    r.win = p.payload % 256 ^ p.len ∧
    eReg r 1 = 64 * (p.flow - (s.reg 14 (3 * k + 1) u).toNat % 2 ^ 16) % 2 ^ 32 ∧ eReg r 2 = p.len % 2 ^ 32 ∧ eReg r 3 = p.opc % 2 ^ 32 ∧
    (∀ n < 16, n = 0 ∨ 4 ≤ n → eReg r n = 0) ∧ ∀ n < 8, r.v.getD n 0 = 0

/-- The verification of kernel k, of the length in a value v for EFT_KCTL (R79). -/
def Verified (s : State) (u k v : Nat) : Prop :=
  let len := v % 2 ^ 9
  let word := fun (j : Nat) => s.rn 14 (0x1000 + (256 * k + j)) u
  let flow := fun (j : Nat) => (s.rn 14 (3 * j + 1) u % 2 ^ 16, s.rn 14 (3 * j + 1) u / 2 ^ 32 % 2 ^ 16)
  let slot := fun (j : Nat) => (s.rn 14 (3 * j + 2) u % 2 ^ 10, s.rn 14 (3 * j + 2) u / 2 ^ 16 % 2 ^ 10)
  1 ≤ len ∧ len ≤ 256 ∧
  (∀ j < len, ∃ i, decodeEft (word j) = some i ∧ ∀ o, i = .eftBf o ∨ i = .eftBfn o ∨ i = .eftJ o → j + o < len) ∧
  (∃ i, decodeEft (word (len - 1)) = some i ∧ (i ∈ [Instr.eftFwd, .eftDrop, .eftNack, .eftPark, .eftDone] ∨ (∃ a o, i = .eftMcast a o) ∨
    ∃ c, i = .eftTrap c)) ∧
  (flow k).1 ≤ (flow k).2 ∧ (slot k).1 ≤ (slot k).2 ∧ (flow k).2 - (flow k).1 ≤ (slot k).2 - (slot k).1 ∧
  ∀ j < 8, j ≠ k → s.rn 14 (3 * j) u / 2 ^ 16 % 2 = 1 →
    ((flow k).2 < (flow j).1 ∨ (flow j).2 < (flow k).1) ∧ ((slot k).2 < (slot j).1 ∨ (slot j).2 < (slot k).1)

/-- The instructions of a switch kernel (R88 to R97). -/
def kernelForm : Instr → Bool
  | .eftMovi _ _ _ | .eftAdd _ _ _ | .eftAddImm _ _ _ | .eftSub _ _ _ | .eftSubImm _ _ _ | .eftAnd _ _ _ | .eftAndImm _ _ _ |
    .eftOr _ _ _ | .eftOrImm _ _ _ | .eftXor _ _ _ | .eftXorImm _ _ _ | .eftShl _ _ _ | .eftShlImm _ _ _ | .eftShr _ _ _ |
    .eftShrImm _ _ _ | .eftMul _ _ _ | .eftMulImm _ _ _ | .eftMin _ _ _ | .eftMinImm _ _ _ | .eftMax _ _ _ | .eftMaxImm _ _ _ |
    .eftCmp _ _ _ | .eftCmpImm _ _ _ | .eftBf _ | .eftBfn _ | .eftJ _ | .eftHrd _ _ | .eftHwr _ _ | .eftPld _ _ _ |
    .eftPst _ _ _ | .eftFld _ _ _ | .eftFst _ _ _ | .eftFvld _ _ _ | .eftFvst _ _ _ | .eftVadd _ _ _ _ _ | .eftVmax _ _ _ _ _ |
    .eftVmin _ _ _ _ _ | .eftVmul _ _ _ _ _ | .eftVcvt _ _ _ _ | .eftFwd | .eftMcast _ _ | .eftDrop | .eftNack | .eftEmit |
    .eftPark | .eftDone | .eftTrap _ => true
  | _ => false

/-! Cycles of a tile (R161) -/

/-- A context that runs has fetched a bundle of one slot with no extension word: its header at the pc, the slot's words behind it, and
the instruction that they decode to (R265, R282); v is the state after the fetch. -/
structure Fetched (s : State) (ck : Nat) (v : State) (c : Ctx) (h : Header) (sl w : Nat) (i : Instr) : Prop where
  ctx : s.ctx? ck = some c
  runs : c.phase = .running
  calm : s.retiring (ck / 2) = false
  words : ∃ u w0, codeWord s ck 0 c.pc c.pc = (u, .ok w0) ∧ decodeHeader c.gen w0 = .ok h ∧
    codeWords (slotBytes sl / 4) u ck sl c.pc (c.pc + 4) = (v, .ok w)
  mask : h.pm = 2 ^ sl
  slot : sl < 7
  short : w.testBit (8 * slotBytes sl - 1) = false
  form : decodeSlot (v.ctx ck).gen sl w none = .ok i
  atEnd : endOnly i = true → h.isEnd = true
  open_ : v.stalled = false

/-- The bundle of that slot. -/
def oneSlot (c : Ctx) (h : Header) (sl w : Nat) (i : Instr) : Bundle := ⟨h, [(sl, w, i)], c.pc + 4 + slotBytes sl⟩

/-- Nothing keeps the bundle waiting, and its slot executes (R208, R209, R210, R212, R213, R380). -/
structure CanIssue (v : State) (ck : Nat) (c : Ctx) (h : Header) (sl w : Nat) (i : Instr) : Prop where
  pred : predTrue (atIssue (v.ctx ck)) (predField i) = true
  runs : suppressed (atIssue (v.ctx ck)) h sl = false
  full : regsMeet (atIssue (v.ctx ck)) (oneSlot c h sl w i) = (none, false)
  unit : matrixWaits v ck (atIssue (v.ctx ck)).ic = false
  order : slotWaits v (atIssue (v.ctx ck)) (ck / 2) i = false

/-- o is the outcome of the bundle: exec of its instruction in the issuing context, and the end of the bundle. -/
def RunsBundle (v : State) (ck : Nat) (c : Ctx) (h : Header) (sl w : Nat) (i : Instr) (o : Host.Outcome State Fault Refusal) : Prop :=
  let a := atIssue (v.ctx ck)
  let next := c.pc + 4 + slotBytes sl
  ∃ (x : State) (is : Issue), x = { v with ctxs := x.ctxs, iss := some is } ∧ x.ctx? ck = some (foldSlot a sl w i) ∧
    (∀ k, k ≠ ck → x.ctx? k = v.ctx? k) ∧ is.ck = ck ∧ is.va = a.pc ∧ is.hdr = h ∧ is.slot = sl ∧
    is.next = (if h.isEnd then next + 16 else next) ∧ is.before = beginBlock (v.ctx ck) ∧
    (∀ r, exec i x = .next r → o = .next (finishBundle r)) ∧ ((∀ r, exec i x ≠ .next r) → o = exec i x)

/-! Job cards (R167 to R171, R338 to R346) -/

/-- t is s after n rows of a card from row i on, in order, none of which faults (R193, R343). -/
def RowsDone (cl : Nat) (k : Card) : Nat → Nat → State → State → Prop
  | _, 0, s, t => t = s
  | i, n + 1, s, t => ∃ u, cardStep s cl k i = (u, none) ∧ RowsDone cl k (i + 1) n u t

/-- t is s after the entries l, of index and value, of an index stream were read from place i on, each index in range (R344). -/
def ReadsEntries (cl : Nat) (k : Card) : Nat → List (Nat × Nat) → State → State → Prop
  | _, [], s, t => t = s
  | i, e :: l, s, t => ∃ u b, vaRead (engReqs s cl k [(k.w 1 + 16 * i) % 2 ^ 64]) k.part ((k.w 1 + 16 * i) % 2 ^ 64) 16 (cl / 16) = (u, .ok b) ∧
      e.1 = leNat (b.take 8) ∧ e.1 < k.w 3 / 2 ^ 32 ∧ e.2 = leNat ((b.drop 8).take k.rb) ∧ ReadsEntries cl k (i + 1) l u t

/-- The values that a window of entries holds for an index, combined in stream order by the card's operation (R344). -/
def windowValue (k : Card) (es : List (Nat × Nat)) (j : Nat) : Nat :=
  match (es.filter fun e => e.1 = j).map (·.2) with
  | [] => 0
  | v :: l => l.foldl (bankOp (k.w 0 / 2 ^ 11 % 8) k.rb) v

/-- t is s after one bank operation for each of some indices of a window, in order (R344). -/
def Accumulates (cl : Nat) (k : Card) (es : List (Nat × Nat)) : List Nat → State → State → Prop
  | [], s, t => t = s
  | j :: l, s, t =>
    let va := (k.dst + k.rb * j) % 2 ^ 64
    ∃ u old, va % k.rb = 0 ∧
      bankFar (engReqs s cl k [va]) k.part va k.rb (k.w 0 / 2 ^ 11 % 8) (windowValue k es j) (cl / 16) = (u, .ok old) ∧ Accumulates cl k es l u t

/-- t is s after windows of an index stream from place i on: each read, then accumulated, an index in order of its first place
(R344). -/
def ScWindows (cl : Nat) (k : Card) : Nat → List (List (Nat × Nat)) → State → State → Prop
  | _, [], s, t => t = s
  | i, w :: l, s, t => ∃ u v, ReadsEntries cl k i w s u ∧ Accumulates cl k w (w.map (·.1)).eraseDups u v ∧
      ScWindows cl k (i + w.length) l v t

/-! Collectives (R57 to R76) -/

/-- A member entry is the home tile of a context on this chip (R63). -/
def IsOwnEntry (s : State) (l : Live) (m : Nat) : Prop :=
  m % 2 ^ 12 = s.ident.chip % 4096 ∧ m / 2 ^ 12 % 4 = l.g / 128 ∧ m / 2 ^ 14 % 16 = l.g / 8 % 16 ∧ m / 2 ^ 18 % 8 = l.g % 8

/-- A parameter block is ill-formed for a group's members (R64). -/
def IllFormed (s : State) (l : Live) (raw : Nat) (ms : List Nat) : Prop :=
  let dw := fun (k : Nat) => raw / 2 ^ (64 * k) % 2 ^ 64
  let op := raw % 2 ^ 8
  let redop := raw / 2 ^ 8 % 2 ^ 8
  let dtype := raw / 2 ^ 16 % 2 ^ 8
  dw 0 / 2 ^ 48 ≠ 0 ∨ dw 4 / 2 ^ 48 ≠ 0 ∨ dw 4 / 2 ^ 21 % 2 ^ 10 ≠ 0 ∨ dw 8 / 2 ^ 16 ≠ 0 ∨ raw / 2 ^ 576 ≠ 0 ∨
  8 < op ∨ 4 < redop ∨ 3 < raw / 2 ^ 24 % 2 ^ 8 ∨ 7 < dtype ∨
  dw 1 % 64 ≠ 0 ∨ dw 2 % 64 ≠ 0 ∨ dw 5 % 8 ≠ 0 ∨ dw 7 % 32 ≠ 0 ∨ 2 ^ 32 ≤ dw 3 ∨
  255 < raw / 2 ^ 32 % 2 ^ 16 ∨ ms = [] ∨ 4096 < ms.length ∨ (∃ m ∈ ms, m / 2 ^ 31 % 2 = 0) ∨ (∀ m ∈ ms, ¬ IsOwnEntry s l m) ∨
  ms.length ≤ dw 8 ∨ (op ∈ [0, 1, 4] ∧ dtype ∈ [2, 3, 7]) ∨ (3 ≤ redop ∧ dtype ≤ 3)

/-- A packet is of a block that its sequencer completed within COLL_PARKTO ticks (R76). -/
def CompletedLately (s : State) (die : Nat) (k : Pkt) : Prop :=
  ∃ r ∈ (s.seqr die).recent, r.1 = k.part * 2 ^ 16 + k.flow ∧ r.2.1 = k.tag ∧ s.tsc.toNat ≤ r.2.2 + (s.reg 4 0x1009 k.part).toNat

/-- An answer is that of a packet that a sequencer holds for a block: FLOW, OFS and TAG agree, and VA[63:45] names the core of the
block, or, of a packet for a member, the sequencer of that member (R415). -/
def SeqAnswerOf (x : Sent) (o : COp) (a : Pkt) : Prop :=
  let core := o.raw / 2 ^ 256 % 2 ^ 64
  let m := o.members.getD (x.pkt.who - 1) 0
  x.op = o.id ∧ x.pkt.flow = a.flow ∧ x.pkt.va % 2 ^ 32 = a.va % 2 ^ 32 ∧ x.pkt.tag = a.tag ∧
    a.va / 2 ^ 45 % 2 ^ 19 = if x.pkt.cls = 2 then m % 2 ^ 12 * 2 ^ 7 + m / 2 ^ 12 % 4 * 2 ^ 5 + 27
      else core % 2 ^ 12 * 2 ^ 7 + core / 2 ^ 12 % 4 * 2 ^ 5 + core / 2 ^ 14 % 16

/-- OP, ROOT and COUNT of a block (R62). -/
def blockOp (o : COp) : Nat := o.raw % 2 ^ 8
/-- ROOT. -/
def blockRoot (o : COp) : Nat := o.raw / 2 ^ 512 % 2 ^ 16
/-- The bytes of COUNT elements: what one member gives to another. -/
def partBytes (o : COp) : Nat := (o.raw / 2 ^ 192 % 2 ^ 64 * Machine.fmtWidth o.dtype + 7) / 8

/-- The ranks whose data a member of a ring or tree block needs (R62, R72): a reduce at its root, and every op that is not named
below, all others; a broadcast elsewhere, and a receive, the root; a send none. -/
def NeedsRank (o : COp) (r : Nat) : Prop :=
  if blockOp o = 7 then False else if blockOp o = 8 then r = blockRoot o
  else if blockOp o = 1 ∧ o.rank ≠ blockRoot o ∨ blockOp o = 2 ∧ o.rank = blockRoot o then False
  else if blockOp o = 2 then r = blockRoot o else r < o.n ∧ r ≠ o.rank

/-- The ranks to which a member of a ring or tree block sends: those that need its data (R62, R66). -/
def SendsRank (o : COp) (r : Nat) : Prop :=
  if blockOp o = 8 then False else if blockOp o = 7 then r = blockRoot o
  else if blockOp o = 1 ∧ o.rank = blockRoot o ∨ blockOp o = 2 ∧ o.rank ≠ blockRoot o then False
  else if blockOp o = 1 then r = blockRoot o else r < o.n ∧ r ≠ o.rank

/-- The offset at which the data of a rank arrives: its rank times the part, for a barrier its rank, and 0 where one member sends all
(R69; log entry 25). -/
def offsetOf (o : COp) (r : Nat) : Nat := if blockOp o ∈ [2, 7, 8] then 0 else if blockOp o = 6 then r else r * partBytes o

/-- The data of a rank has come whole: each byte of its part, or, of a barrier, its packet (R66, R72). -/
def HasCome (o : COp) (r : Nat) : Prop :=
  let p := offsetOf o r % 2 ^ 32
  if blockOp o = 6 then (p, 0) ∈ o.covered else ∀ b < partBytes o, ∃ c ∈ o.covered, c.1 ≤ p + b ∧ p + b < c.1 + c.2

/-- The contributions that a member's result combines (R65; of an op that combines nothing, log entry 119). -/
def Combined (o : COp) (n : Nat) : Prop :=
  let have_ := fun r => r = o.rank ∨ HasCome o r
  if blockOp o = 7 ∨ (blockOp o = 1 ∧ o.rank ≠ blockRoot o) then n = 0
  else if blockOp o = 8 then (HasCome o (blockRoot o) → n = 1) ∧ (¬ HasCome o (blockRoot o) → n = 0)
  else if blockOp o = 2 then (have_ (blockRoot o) → n = 1) ∧ (¬ have_ (blockRoot o) → n = 0)
  else ∃ l : List Nat, l.Nodup ∧ (∀ r, r ∈ l ↔ r < o.n ∧ have_ r) ∧ n = l.length

/-- The bytes l of a rank's part of a reduction are what was staged of it: no byte lacks, and no piece disagrees (R66, R67). -/
def Staged (o : COp) (r : Nat) (l : List Nat) : Prop :=
  l.length = partBytes o ∧ ∀ i < l.length,
    let p := r * partBytes o + i
    (∃ d ∈ o.data, d.1 ≤ p ∧ p < d.1 + d.2.length) ∧
      ∀ d ∈ o.data, d.1 ≤ p → p < d.1 + d.2.length → d.2.getD (p - d.1) 0 = l.getD i 0

/-- Two FP32 codes combined by a floating-point reduction (R68): 0 the sum, rounded once; 1 the minimum, 2 the maximum, with -0 below
+0; a NaN operand gives the canonical NaN. -/
def FloatCombines (redop a b r : Nat) : Prop :=
  let place := fun (c : Nat) => if c < 2 ^ 31 then (c : Int) else 2 ^ 31 - 1 - (c : Int)
  if redop = 0 then ∃ x fl, IsSum false [decFmt 1 a, decFmt 1 b] x fl ∧ r = (mmaRound false x).1
  else if decFmt 1 a = .nan ∨ decFmt 1 b = .nan then r = 0x7FC00000
  else (r = a ∨ r = b) ∧ if redop = 1 then place r ≤ place a ∧ place r ≤ place b else place a ≤ place r ∧ place b ≤ place r

/-- v is what a ring of n ranks makes of their values x for a chunk c after k combinations (R67). -/
def RingReduces (redop n : Nat) (x : Nat → Nat) (c : Nat) : Nat → Nat → Prop
  | 0, v => v = x ((c + 1) % n)
  | k + 1, v => ∃ u, RingReduces redop n x c k u ∧ FloatCombines redop u (x ((c + 2 + k) % n)) v

/-- v is what a binomial tree makes of the values x of 2^k ranks from a rank on, of those below n (R67). -/
def TreeReduces (redop n : Nat) (x : Nat → Nat) : Nat → Nat → Nat → Prop
  | 0, r, v => v = x r
  | k + 1, r, v => if r + 2 ^ k < n then ∃ p q, TreeReduces redop n x k r p ∧ TreeReduces redop n x k (r + 2 ^ k) q ∧ FloatCombines redop p q v
      else TreeReduces redop n x k r v

/-- A packet of a block to a rank awaits its answer (R71). -/
def Awaits (s : State) (die : Nat) (o : COp) (r : Nat) : Prop := ∃ x ∈ (s.seqr die).sent, x.op = o.id ∧ x.pkt.who = r + 1

/-- A ring or tree block has the data that it needs, and no packet of it awaits an answer (R72). -/
def BlockReady (s : State) (die : Nat) (o : COp) : Prop :=
  (∀ r, NeedsRank o r → HasCome o r) ∧ ∀ x ∈ (s.seqr die).sent, x.op ≠ o.id

/-- An in-network member is done: its contribution was sent and answered, and results cover its receive buffer (R409). -/
def NetDone (s : State) (die : Nat) (o : COp) : Prop :=
  o.alg = 3 ∧ o.armed = true ∧ (∀ x ∈ (s.seqr die).sent, x.op ≠ o.id) ∧
    ∀ b < partBytes o, ∃ c ∈ o.covered, c.1 ≤ b ∧ b < c.1 + c.2

end Sys2Proof.Machine
end

