-- ==== Sys2Proof/Certificates/Slice0/Obligations.lean ====
section
/-! DEFINITION. The statements about the machine that are given to the provers. -/

open Sys2Proof Sys2Proof.Machine

/-- Each SCA and ADR form that writes an x register gives it the value of its rule, at its latency. For every ALU,
unary, multiply and divide, immediate, LEA and SEL form that issues, exec answers a next state: the value that the
form's rule gives (stated by integers and bits, not by the model's own operations) is due for xD at latency 1, 3 for
MUL, MULHS and MULHZ and 18 for the divides, with xD's lineage beside it, and nothing else of the state has changed.
[stated: R314, R315] -/
def Obligations.ScalarFormsWriteTheirValue : Prop :=
  ∀ (s : State) (is : Issue) (c : Ctx) (i : Instr) (d lat : Nat),
    Issues s is c i → scalarDest i = some (d, lat) →
    ∃ v : W64, scalarValue c v i ∧ exec i s = .next (staged s is c lat [.x d v, .lin (xKey d) (linOf c 0 i)])

/-- Comparisons write a condition at latency 1, and leave the target. For CMP.cc, SETC and CMPI.cc that issue, exec answers
the state in which the condition of sgN is due one issue cycle on, 1 exactly where the comparison that cc names holds
between xA and xB (or the immediate sign-extended to 64 bits), for SETC where xA is not 0; and nothing else has
changed, no lineage among it: the target half of sgN stays. A word of the SCA or ADR slot with the opcode of CMP and 6
or 7 in F[2:0] decodes to illegal-bundle. [stated: R318] -/
def Obligations.CompareFormsWriteTheCondition : Prop :=
  (∀ (s : State) (is : Issue) (c : Ctx) (i : Instr) (n : Nat) (q : Prop),
    Issues s is c i → condForm c i = some (n, q) →
    ∃ b : Bool, (b = true ↔ q) ∧ exec i s = .next (staged s is c 1 [.cond n b])) ∧
  ∀ (gen slot w : Nat) (x : Option Nat), gen = 1 ∨ gen = 2 → slot = 1 ∨ slot = 2 → w < 2 ^ 32 → w / 2 ^ 20 % 2 ^ 6 = 9 → 6 ≤ w % 8 →
    decodeSlot gen slot w x = .error .illegalBundle

/-- MVTC checks and writes TCn, MFTC reads it, ACLR clears AST bytes, each at latency 1. MVTC of a legal value makes TCn
due at latency 1 with xA's value; an illegal value (a reserved bit set, VALID above the elements that the format
holds in a row, or VALID no multiple of the dimension) faults with cause bad-tc. MFTC makes xD due with TCn. ACLR
makes due the clearing of the AST byte of Tn, and for n = 0x3FF of every tile register of TMASK. Nothing else has
changed. (That ACLR clears a rotating register's byte at the place that ROT gives it is the model's choice: log entry
46.) [derived: R200, R321, R201, R204, R216] -/
def Obligations.TileControlForms : Prop :=
  ∀ (s : State) (is : Issue) (c : Ctx) (p : Pred) (a d n : Nat),
    (Issues s is c (.mvtc p a n) →
      exec (.mvtc p a n) s = .next (if legalTc (c.rx a) then staged s is c 1 [.tc n (c.rx a)] else faulted s is 0x11 is.va)) ∧
    (Issues s is c (.mftc p d n) →
      exec (.mftc p d n) s = .next (staged s is c 1 [.x d (c.tc.get 0 n), .lin (xKey d) (linOf c 0 (.mftc p d n))])) ∧
    (Issues s is c (.aclr p n) → n < 32 → exec (.aclr p n) s = .next (staged s is c 1 [.astClr n])) ∧
    (Issues s is c (.aclr p n) → 32 ≤ n → n < 48 →
      exec (.aclr p n) s = .next (staged s is c 1 [.astClr (32 + (n - 32 + c.arch.rot) % 16)])) ∧
    (Issues s is c (.aclr p 0x3FF) → ∃ l : List Nat,
      exec (.aclr p 0x3FF) s = .next (staged s is c 1 (l.map Wr.astClr)) ∧
      ∀ m, m ∈ l ↔ ∃ t < 48, c.tmask.testBit t = true ∧ m = if t < 32 then t else 32 + (t - 32 + c.arch.rot) % 16)

/-- PREP and PREPI write a steer target; branches, calls and returns record their transfer. PREP makes the target half
of sgN due with the VA of its bundle plus four times the signed offset, modulo 2^64, valid and direct. PREPI makes
it due with xM less its low two bits, valid exactly where they are 0, and indirect. (Where FINJ_STEER of the tile is
armed the VA that is written has its bit inverted, R400: steerVa.) Nothing else has changed, and PREP and PREPI of
other steer registers are not affected. LDSG, the third prepare form, has its own statement. Outside a body-end
bundle: JMP always, BR where the condition of sgN is 1, BRN where it is 0, records the transfer to the target of
sgN; with V = 0 it raises steer-invalid (0x0F) instead and the bundle has no effect. A BR or BRN that is not taken
records no transfer and reads no target. Nothing but the record of the bundle in progress changes, so the target
stays valid. Outside a body-end bundle: CALL of a valid target records the transfer that writes x1 at commit; RET
records the transfer to x1 as read at issue, and with x1[1:0] not 0 raises cause address with EVA = x1. Nothing but
the record of the bundle changes. What the commit writes to x1 is stated by CommittedTransfersReachTheirTarget.
[derived: R296, R297, R299] -/
def Obligations.TransferFormsRecordTheirTarget : Prop :=
  (∀ (s : State) (is : Issue) (c : Ctx) (p : Pred) (n m : Nat) (o : Imm),
    (Issues s is c (.prep p n o) →
      exec (.prep p n o) s = .next (staged s is c 1 [.target n (steerVa s (is.ck / 2) (prepVa is o)) true false])) ∧
    (Issues s is c (.prepi p n m) →
      exec (.prepi p n m) s = .next (staged s is c 1
        [.target n (steerVa s (is.ck / 2) (4 * ((c.rx m).toNat / 4))) (decide ((c.rx m).toNat % 4 = 0)) true]))) ∧
  (∀ (s : State) (is : Issue) (c : Ctx) (p : Pred) (n : Nat),
    let go : State := if (c.sg n).v then transfers s is (.steer (c.sg n).va (c.sg n).i false) else faulted s is 0x0F is.va
    let stay : State := transfers s is is.xfer
    ¬ atBodyEnd c is →
    (Issues s is c (.jmp p n) → exec (.jmp p n) s = .next go) ∧
    (Issues s is c (.br p n) → exec (.br p n) s = .next (if (c.sg n).c then go else stay)) ∧
    (Issues s is c (.brn p n) → exec (.brn p n) s = .next (if (c.sg n).c then stay else go))) ∧
  (∀ (s : State) (is : Issue) (c : Ctx) (p : Pred) (n : Nat), ¬ atBodyEnd c is →
    (Issues s is c (.call p n) → exec (.call p n) s =
      .next (if (c.sg n).v then transfers s is (.steer (c.sg n).va (c.sg n).i true) else faulted s is 0x0F is.va)) ∧
    (Issues s is c (.ret p) → exec (.ret p) s =
      .next (if (c.rx 1).toNat % 4 = 0 then transfers s is (.ret (c.rx 1).toNat) else faulted s is 1 (c.rx 1).toNat)))

/-- LOOP opens a level, strides bind, LOOPBRK leaves levels, and ROT and LDEP take effect after the bundle. Outside a
body-end bundle: LOOP l with l = NLOOP, an end (exact, not wrapped) at or after the next bundle and xC[31:0] not 0
opens the level: COUNT that value, ITER 0, START the VA of the next bundle, END the VA of its label, bindings kept,
and NLOOP becomes l + 1. With l not NLOOP, or an end before the start, it raises loop-state. With a zero count it
reads the header at END: where that bundle ends a block it transfers to the bundle after its riser, where it ends
none it raises loop-state, and where the fetch faults (or END is no VA) the fault of the fetch. LSTEP makes binding
b of level l the register and the signed stride, or empties it where the register is x0; it writes no x register and
names any level. LBRK l below NLOOP sets NLOOP to l and empties the four bindings of each level from l to NLOOP - 1;
otherwise it has no effect. A CTL slot that transfers, a LOOP or an ERET in a body-end bundle raises loop-state. ROT
n and LDEP n leave the context and note their value for the end of the bundle. The end of a bundle in a step
(finishBundle), of a bundle that neither ends a block nor completes a loop nor leaves at a pre-emption: first the
results of latency 0 land; then ROT and LDEP take the noted values (an un-noted one stays), every stored place that
becomes dead by that reads as zero and has lineage 0, every other place keeps its row and lineage, and the context
goes on at the next bundle. [derived: R300, R302, R303, R305, R205] -/
def Obligations.LoopFormsAndRotation : Prop :=
  (∀ (s : State) (is : Issue) (c : Ctx) (p : Pred) (l r : Nat) (o : Imm),
    Issues s is c (.loop p l r o) → ¬ atBodyEnd c is →
    let n := (c.rx r).toNat % 2 ^ 32
    let lp := c.arch.loops.getD l {}
    let stop := (loopEnd is o).toNat
    (l ≠ c.arch.nloop ∨ loopEnd is o < is.next → exec (.loop p l r o) s = .next (faulted s is 0x17 is.va)) ∧
    (l = c.arch.nloop → is.next ≤ loopEnd is o → n ≠ 0 → exec (.loop p l r o) s =
      .next (transfers (s.setCtx is.ck { c with arch := { c.arch with
        nloop := l + 1, loops := c.arch.loops.set l ⟨n, 0, is.next, stop, lp.binds⟩ } }) is is.xfer)) ∧
    (l = c.arch.nloop → is.next ≤ loopEnd is o → n = 0 →
      (2 ^ 64 ≤ stop → exec (.loop p l r o) s = .next (faulted s is 1 (stop % 2 ^ 64))) ∧
      (stop < 2 ^ 64 → ∀ s' e, afterRiser s is.ck c.gen stop = (s', e) → exec (.loop p l r o) s = .next (match e with
        | .ok (some t) => transfers s' is (.zeroLoop t)
        | .ok none => slotFault s' 0x17 is.va
        | .error b => slotFault s' b.cause stop b.level (some b.die))))) ∧
  (∀ (s : State) (is : Issue) (c : Ctx) (p : Pred) (l b r : Nat) (st : Imm),
    (Issues s is c (.lstep p l b r st) → exec (.lstep p l b r st) s = .next (s.setCtx is.ck { c with arch := { c.arch with
      loops := c.arch.loops.set l { c.arch.loops.getD l {} with
        binds := (c.arch.loops.getD l {}).binds.set b (if r = 0 then (0, 0) else (r, BitVec.ofInt 64 (immZ 10 st))) } } })) ∧
    (Issues s is c (.lbrk p l) → c.arch.nloop ≤ l → exec (.lbrk p l) s = .next s) ∧
    (Issues s is c (.lbrk p l) → l < c.arch.nloop → ∃ loops : List Loop,
      exec (.lbrk p l) s = .next (s.setCtx is.ck { c with arch := { c.arch with nloop := l, loops := loops } }) ∧
      loops.length = c.arch.loops.length ∧ ∀ k < loops.length,
        (¬ (l ≤ k ∧ k < c.arch.nloop) → loops[k]? = c.arch.loops[k]?) ∧
        (l ≤ k → k < c.arch.nloop →
          loops[k]? = c.arch.loops[k]?.map fun lp => { lp with binds := [(0, 0), (0, 0), (0, 0), (0, 0)] })) ∧
    (atBodyEnd c is → ∀ i ∈ [Instr.jmp p l, .br p l, .brn p l, .call p l, .ret p, .loop p l r st, .eret p],
      Issues s is c i → exec i s = .next (faulted s is 0x17 is.va))) ∧
  (∀ (s : State) (is : Issue) (c : Ctx) (p : Pred) (n : Nat),
    (Issues s is c (.rot p n) → exec (.rot p n) s = .next { s with iss := some { is with rot := some n } }) ∧
    (Issues s is c (.ldep p n) → exec (.ldep p n) s = .next { s with iss := some { is with ldep := some n } })) ∧
  (∀ (s : State) (is : Issue) (c : Ctx), s.iss = some is → s.ctx? is.ck = some c → is.hdr.isEnd = false → is.xfer = .fall →
    let d := landDue c c.ic
    let rot := is.rot.getD d.arch.rot
    let ldep := is.ldep.getD d.arch.ldep
    ¬ atBodyEnd d is → (is.hdr.dp = false ∨ d.preempt = false ∨ d.priv = true) →
    d.rows.Pairwise (fun a b => a.1 < b.1) → d.lin.Pairwise (fun a b => a.1 < b.1) →
    ∃ t : Ctx, (finishBundle s).ctx? is.ck = some t ∧
      t = { d with arch := { d.arch with rot := rot, ldep := ldep }, pc := is.next, rows := t.rows, lin := t.lin } ∧
      (∀ place, deadPlace rot ldep place → ¬ deadPlace d.arch.rot d.arch.ldep place → t.rows.get 0 place = 0 ∧ t.linAt place = 0) ∧
      (∀ place, ¬ (deadPlace rot ldep place ∧ ¬ deadPlace d.arch.rot d.arch.ldep place) →
        t.rows.get 0 place = d.rows.get 0 place ∧ t.linAt place = d.linAt place))

/-- Suspension points record the act that follows the commit; TRAP, IFENCE, NOP and the deprecated shifts. SYNC.n and SYNC.x of an
enabled barrier group (BARG_CTL.EN = 1) record the arrival and of a disabled one raise barrier-config (0x0C). WAITFE
of a live row records the wait for its place, and of a dead row no wait. SUSP and YIELD record themselves. EXIT and
HALT take x8[31:0] as the exit status, and HALT counts as a deprecated slot. ERET outside a body-end bundle records
the return in privileged mode and in user mode raises priv-access (0x0D). TRAP raises user-trap (0x18) with EVA the
code. IFENCE leaves the context without fetched lines and with V = 0 in all twelve steer targets, conditions and VAs
unchanged. A NOP, the bundle without slots, leaves the state as it is. For the VLX1 shifts by an immediate that issue,
exec answers the state in which xD is due at latency 1 with xA shifted left, right or right with sign fill by the low 6
bits of the count that the field or the extension word holds, and the context's count of deprecated slots has gone up
by one; the first such slot of the block leaves its bundle's VA. [derived: R307, R184, R308, R293, R124, R310, R266] -/
def Obligations.SuspensionPointsTrapsAndDeprecatedShifts : Prop :=
  (∀ (s : State) (is : Issue) (c : Ctx) (p : Pred) (g r : Nat),
    let en := (s.reg 4 (0x1020 + g) c.part).getLsbD 15
    let st : Ctx := { c with exitStatus := (c.rx 8).toNat % 2 ^ 32 }
    (Issues s is c (.syncN p g) → exec (.syncN p g) s = .next (if en then acts s is (.sync g false) else faulted s is 0x0C is.va)) ∧
    (Issues s is c (.syncX p g) → exec (.syncX p g) s = .next (if en then acts s is (.sync g true) else faulted s is 0x0C is.va)) ∧
    (Issues s is c (.waitfeRow p r) → exec (.waitfeRow p r) s =
      .next (acts s is (if (c.place r).2 then .waitRow (c.place r).1 else .none))) ∧
    (Issues s is c (.susp p) → exec (.susp p) s = .next (acts s is .susp)) ∧
    (Issues s is c (.yield p) → exec (.yield p) s = .next (acts s is .yield)) ∧
    (Issues s is c (.exit p) → exec (.exit p) s = .next (acts (s.setCtx is.ck st) is .exit)) ∧
    (Issues s is c (.halt p) → exec (.halt p) s = .next (acts (s.setCtx is.ck
      { st with depr := c.depr + 1, deprVa := if c.depr = 0 then is.va else c.deprVa }) is .exit)) ∧
    (Issues s is c (.eret p) → ¬ atBodyEnd c is → exec (.eret p) s =
      .next (if c.priv then { s with iss := some { is with act := .eret, jumps := true } } else faulted s is 0x0D is.va))) ∧
  (∀ (s : State) (is : Issue) (c : Ctx) (p : Pred) (code bk dp lv : Nat),
    (Issues s is c (.trap p code) → exec (.trap p code) s = .next (faulted s is 0x18 code)) ∧
    (Issues s is c (.ifence p) → c.steer.Pairwise (fun a b => a.1 < b.1) → ∃ c' : Ctx,
      exec (.ifence p) s = .next (s.setCtx is.ck c') ∧ c' = { c with lines := [], steer := c'.steer } ∧
      ∀ n, c'.sg n = if n < 12 then { c.sg n with v := false } else c.sg n) ∧
    (s.iss = some is → exec (.nop bk dp lv) s = .next s)) ∧
  (∀ (s : State) (is : Issue) (c : Ctx) (p : Pred) (d a : Nat) (o : Imm),
    let n := (match o with
      | .short r => r
      | .ext r => r) % 64
    let c' : Ctx := { c with depr := c.depr + 1, deprVa := if c.depr = 0 then is.va else c.deprVa }
    (Issues s is c (.shli p d a o) → ∃ v : W64, v.toNat = (c.rx a).toNat * 2 ^ n % 2 ^ 64 ∧
      exec (.shli p d a o) s = .next (staged s is c' 1 [.x d v, .lin (xKey d) (linOf c 0 (.shli p d a o))])) ∧
    (Issues s is c (.shri p d a o) → ∃ v : W64, v.toNat = (c.rx a).toNat / 2 ^ n ∧
      exec (.shri p d a o) s = .next (staged s is c' 1 [.x d v, .lin (xKey d) (linOf c 0 (.shri p d a o))])) ∧
    (Issues s is c (.srai p d a o) → ∃ v : W64, v.toInt = (c.rx a).toInt / 2 ^ n ∧
      exec (.srai p d a o) s = .next (staged s is c' 1 [.x d v, .lin (xKey d) (linOf c 0 (.srai p d a o))])))

/-- MFS reads own and tile registers at latency 1, and other classes as a variable-latency load. For an MFS that issues
in privileged mode, or of a register that user mode may reach: where the number names a register of the context
class, xD is due one issue cycle on with that register's value (the identity registers in the view of the mode, TSC,
FST and SRSEED, DEPCNT, COLL_RTB, WAIT_DL, WAITST, EPC, ECAUSE, EVA, the seal registers, of them SEAL_IN
the input entry that SEAL_IDX names; 0 for the write-only CONT_WAKE and SEAL_VERD; the AST byte of the stored place
that a named tile register reaches: log entry 46), and nothing else has changed. In privileged mode an MFS of a register of the tile class (0x400 to 0x7FF) that issues makes xD due one
issue cycle on with the value of the physical tile's register; nothing else has changed. For an MFS that issues, may
be made in its mode, and names a register of the cluster, die, partition or package class: in a first attempt of the
block with room in the input buffer, the access is recorded as a scalar load that is not yet done, xD (unless x0)
becomes empty, one fill is under way, whose lineage has every position absent, and when the bundle ends one reply is
posted that carries the register's value at issue (log entry 47) and tag 0. Memory and every other part of the context stay. [derived: R319, R320, R12, R216,
R177, R217, R238, R242, R236, R231] -/
def Obligations.RegistersAreReadByMfs : Prop :=
  (∀ (s : State) (is : Issue) (c : Ctx) (p : Pred) (d r : Nat),
    Issues s is c (.mfs p d r) → (privOnly r → c.priv = true) →
    (∀ v, (r, v) ∈ ctxReg s c (is.ck / 2) → exec (.mfs p d r) s =
      .next (staged s is c 1 [.x d (BitVec.ofNat 64 v), .lin (xKey d) (linOf c 0 (.mfs p d r))])) ∧
    (∀ n < 48, r = 0x40 + n → exec (.mfs p d r) s = .next (staged s is c 1
      [.x d ((c.arch.ast.get 0 (if n < 32 then n else 32 + (n - 32 + c.arch.rot) % 16)).setWidth 64),
       .lin (xKey d) (linOf c 0 (.mfs p d r))]))) ∧
  (∀ (s : State) (is : Issue) (c : Ctx) (p : Pred) (d r : Nat),
    Issues s is c (.mfs p d r) → c.priv = true → 0x400 ≤ r → r < 0x800 →
    exec (.mfs p d r) s = .next (staged s is c 1
      [.x d (s.reg 1 r (is.ck / 2)), .lin (xKey d) (linOf c 0 (.mfs p d r))])) ∧
  (∀ (s : State) (is : Issue) (c : Ctx) (p : Pred) (d r : Nat),
    Issues s is c (.mfs p d r) → (privOnly r → c.priv = true) → 0x800 ≤ r → c.recasts = 0 → c.scaLoads < 128 →
    ∃ (t : State) (ent : InEnt) (f : Fill) (k : Pkt),
      exec (.mfs p d r) s = .next t ∧ AllBytesKept s t ∧ t.regs = s.regs ∧
      t.iss = some { is with sends := is.sends ++ [.readReply (is.ck / 256) k] } ∧
      k.payload = readReg s (sysClass r) r (sysUnit c (is.ck / 2) (sysClass r)) ∧ k.tag = 0 ∧ k.rid = s.nextRid ∧
      k.who = is.ck ∧ f.k = kopOf (.mfs p d r) ∧ f.la = 0 ∧ f.lc = 0 ∧
      ent.isRow = false ∧ ent.va = r ∧ ent.done = false ∧
      f.dst = (if d = 0 then .none else .x d) ∧ f.parts.map (·.rid) = [s.nextRid] ∧
      t.ctx? is.ck = some { c with
        scaLoads := c.scaLoads + 1, ibuf := c.ibuf ++ [ent], fills := c.fills ++ [f],
        pend := c.pend ++ (if d = 0 then [] else [⟨c.ic, is.slot, .empty (xKey d)⟩]) })

/-- MTS lands in the own context at latency 1, is held as a store elsewhere, and is ignored by a read-only register. For
an MTS that issues and may be made in its mode: to FST, SRSEED, DEPCNT, COLL_RTB, WAIT_DL, EPC, ECAUSE, EVA or
SEAL_IDX one result is due one issue cycle on whose landing leaves that register with the bits of xS that its layout
names (reserved bits stay 0) and changes nothing else of the context; to a register outside the context and to
CONT_WAKE and SEAL_VERD one entry of the hold buffer is taken; a register that no view writes (the identity
registers and TSC, WAITST, SEAL_EXP, SEAL_OBS, SEAL_IN, the AST bytes, SEAL_RCCNT, the wake-queue and stretch
counters, the read-only die registers) ignores it. Memory and the numbered registers stay. [derived: R319, R320,
R304, R7, R202, R214, R242, R309] -/
def Obligations.MtsWritesOwnRegistersAndHoldsOthers : Prop :=
  ∀ (s : State) (is : Issue) (c : Ctx) (p : Pred) (x r : Nat),
    Issues s is c (.mts p x r) → (privOnly r ∨ r = 0x12 → c.priv = true) →
    (∀ m, (r, m) ∈ ctxWritable → ∃ w : Wr,
      exec (.mts p x r) s = .next (staged s is { c with rtbSet := c.rtbSet || r == 0x13 } 1 [w]) ∧
      ∀ a : Ctx, ctxRegOf (landWr a w).arch r = c.rx x &&& m ∧
        (∀ q ∈ ctxWritable, q.1 ≠ r → ctxRegOf (landWr a w).arch q.1 = ctxRegOf a.arch q.1) ∧
        landWr a w = { a with arch := { a.arch with
          fst := (landWr a w).arch.fst, srseed := (landWr a w).arch.srseed, depcnt := (landWr a w).arch.depcnt,
          collRtb := (landWr a w).arch.collRtb, waitDl := (landWr a w).arch.waitDl, epc := (landWr a w).arch.epc,
          ecause := (landWr a w).arch.ecause, eva := (landWr a w).arch.eva, sealIdx := (landWr a w).arch.sealIdx } }) ∧
    (neverWritten r → exec (.mts p x r) s = .next s) ∧
    ((r = 0x14 ∨ r = 0x2C ∨ 0x400 ≤ r) → ¬ neverWritten r → holdRoom c [⟨.mts r (c.rx x).toNat, 0, 0⟩] →
      exec (.mts p x r) s = .next (s.setCtx is.ck { c with held := c.held ++ [⟨.mts r (c.rx x).toNat, 0, 0⟩] }))

/-- In user mode ERET, MFS and MTS of a privileged register raise priv-access and do nothing else. In user mode, an MFS
of a register of the privileged view, an MTS of one or of DEPCNT, and an ERET outside a body-end bundle fault with
cause 0x0D: the context is as it was before the bundle and waits for its fills, and no register, memory byte or
other context has changed. [derived: R319, R110, R312, R215] -/
def Obligations.PrivilegedAccessesTrapInUserMode : Prop :=
  ∀ (s : State) (is : Issue) (c : Ctx) (p : Pred) (d r : Nat), c.priv = false →
    (Issues s is c (.mfs p d r) → privOnly r → exec (.mfs p d r) s = .next (faulted s is 0x0D is.va)) ∧
    (Issues s is c (.mts p d r) → (privOnly r ∨ r = 0x12) → exec (.mts p d r) s = .next (faulted s is 0x0D is.va)) ∧
    (Issues s is c (.eret p) → ¬ atBodyEnd c is → exec (.eret p) s = .next (faulted s is 0x0D is.va)) ∧
    (faulted s is 0x0D is.va).mem = s.mem ∧ (faulted s is 0x0D is.va).regs = s.regs ∧
    (faulted s is 0x0D is.va).iss = none ∧
    ∀ k, k ≠ is.ck → (faulted s is 0x0D is.va).ctx? k = s.ctx? k

/-- An access is checked at issue, and a refused one faults with its cause and does nothing else. For every VA and kind
of access the check at issue answers cause address where the VA has no class or is not aligned (a scalar to its
size, a doubleword to 8, a gather element and a bank operation to their size, a row to 64 bytes in a translated
range and 256 in tagged memory); in an engine window cause address for anything but a doubleword, bounds for another
tile or context, and address for a store past GO; elsewhere cause address for a bank operation outside plain cluster
memory, the drag view and the die pool, and bounds for the own scratchpad of a tile whose cluster the partition's
map leaves out; otherwise the access passes. For LD, ST, TLD, TST and each BANK form that issue, where the check of
its VA answers a cause, exec answers the synchronous fault of that cause with EVA the VA; a TLD or TST whose VA
passes and whose row has a later line of 64 bytes with no class faults with cause address and EVA that line. VGATH and VSCAT with a
base that is no multiple of the element size fault with cause address, and TLDM and TSTM whose rows pass the
register's end with bad-tc and EVA the VA of the bundle. The faulted state has the memory it had. [derived: R323,
R125, R180, R337, R127, R214, R330, R329] -/
def Obligations.AccessesAreCheckedAtIssue : Prop :=
  (∀ (s : State) (c : Ctx) (tile va : Nat) (k : MKind),
    let cls := vaClass s.capSpad va
    let unit := match k with
      | .scalar n => n
      | .elem n => n
      | .bank n => n
      | .dword _ => 8
      | .row => if cls.translated then 64 else 256
    (cls = .none ∨ va % unit ≠ 0 → memCheck s c tile va k = some 1) ∧
    (cls ≠ .none → va % unit = 0 →
      (∀ d cl t w o, cls = .eng d cl t w o →
        (∀ st, k = .dword st → memCheck s c tile va k =
          if d * 128 + cl * 8 + t ≠ c.ltile ∨ w ≠ 0 then some 3 else if st = true ∧ 32 < o then some 1 else none) ∧
        ((∀ st, k ≠ .dword st) → memCheck s c tile va k = some 1)) ∧
      ((∀ d cl t w o, cls ≠ .eng d cl t w o) →
        (∀ n, k = .bank n → memCheck s c tile va k = if bankable cls then none else some 1) ∧
        ((∀ n, k ≠ .bank n) → memCheck s c tile va k =
          if (ownLoc s c tile va).isSome ∧ s.inMap c.part (tile / 8) = false then some 3 else none)))) ∧
  (∀ (s : State) (is : Issue) (c : Ctx) (p : Pred) (f : MemF) (b : Nat),
    let tile := is.ck / 2
    let n := 2 ^ f.size
    let sk := fun (st : Bool) => if f.size = 3 then MKind.dword st else .scalar n
    (Issues s is c (.ld p f) → memCheck s c tile (memEa c f) (sk false) = some b →
      exec (.ld p f) s = .next (faulted s is b (memEa c f))) ∧
    (Issues s is c (.st p f) → memCheck s c tile (memEa c f) (sk true) = some b →
      exec (.st p f) s = .next (faulted s is b (memEa c f))) ∧
    (Issues s is c (.tld p f) → memCheck s c tile (memEa c f) .row = some b →
      exec (.tld p f) s = .next (faulted s is b (memEa c f))) ∧
    (Issues s is c (.tst p f) → memCheck s c tile (memEa c f) .row = some b →
      exec (.tst p f) s = .next (faulted s is b (memEa c f))) ∧
    (∀ i ∈ [Instr.bankAdd p f, .bankFadd p f, .bankMin p f, .bankMax p f, .bankOr p f, .bankAnd p f, .bankSwap p f],
      Issues s is c i → memCheck s c tile (memEa c f) (.bank n) = some b → exec i s = .next (faulted s is b (memEa c f))) ∧
    (∀ i ∈ [Instr.tld p f, .tst p f], Issues s is c i → memCheck s c tile (memEa c f) .row = none →
      (vaClass s.capSpad (memEa c f)).translated = true →
      let line := fun (k : Nat) => (memEa c f + 64 * k) % 2 ^ 64
      ∀ k, 0 < k → k < 4 → vaClass s.capSpad (line k) = .none → (∀ j, 0 < j → j < k → vaClass s.capSpad (line j) ≠ .none) →
        exec i s = .next (faulted s is 1 (line k))) ∧
    (∀ i ∈ [Instr.vgath p f, .vscat p f], Issues s is c i → (c.rx f.base).toNat % n ≠ 0 →
      exec i s = .next (faulted s is 1 (c.rx f.base).toNat)) ∧
    (∀ i ∈ [Instr.tldm p f, .tstm p f], Issues s is c i → 32 < f.data % 32 + mRows c f →
      exec i s = .next (faulted s is 0x11 is.va)) ∧
    (∀ cause eva, AllBytesKept s (faulted s is cause eva)))

/-- LD and TLD from the own scratchpad return the newest bytes at latency 6 or 9, and count as one load. In a first
attempt of a block with room in the input buffer, an LD or TLD that issues, passes its check and lies in the issuing
tile's own scratchpad answers a next state in which: xD (zero-extended; nothing for x0) or the row (nothing for a
dead one) is due at latency 6 below offset 0x80000 and 9 above, with the value that reads byte by byte as the newest
held store of the block or the memory, and the lineage that the line's tag gives (log entry 45); the entry of the
input buffer is recorded as done; a post-increment of the base is due at latency 1; an acquire has its effect on the
issuing die; and nothing else of the state has changed. [derived: R324, R206, R327, R328, R384, R230, R333, R322,
R192, R326] -/
def Obligations.OwnScratchpadLoadsAreExposed : Prop :=
  ∀ (s : State) (is : Issue) (c : Ctx) (p : Pred) (f : MemF) (loc : Nat),
    let ea := memEa c f
    let n := 2 ^ f.size
    let sub := (is.va + 2 ^ 64 - c.entryVa) % 2 ^ 64 / 4
    c.recasts = 0 → ownLoc s c (is.ck / 2) ea = some loc →
    (Issues s is c (.ld p f) → f.size < 4 → c.scaLoads < 128 →
      memCheck s c (is.ck / 2) ea (if f.size = 3 then .dword false else .scalar n) = none →
      ∃ (v : Nat) (t : State), Sees s c ea loc n v ∧ exec (.ld p f) s = .next t ∧
        Loaded (acquired s is c f loc n) t is c ⟨false, ea, sub, 0, v, (tagAt s loc).toNat, true⟩
          (dueIn c is (ownLatency loc) (if f.data = 0 then [] else
            [.x f.data (BitVec.ofNat 64 v), .lin (xKey f.data) (linOf c (tagAt s loc) (.ld p f))])
          ++ dueIn c is 1 (postIncrement c (.ld p f) f))) ∧
    (Issues s is c (.tld p f) → c.rowLoads < 128 → memCheck s c (is.ck / 2) ea .row = none →
      ∃ (v : Nat) (t : State), Sees s c ea loc 256 v ∧ exec (.tld p f) s = .next t ∧
        Loaded (acquired s is c f loc 256) t is c ⟨true, ea, sub, 0, v, (tagAt s loc).toNat, true⟩
          (dueIn c is (ownLatency loc) (if (c.place f.data).2 then
            [.row (c.place f.data).1 (BitVec.ofNat 2048 v), .lin (c.place f.data).1 (linOf c (tagAt s loc) (.tld p f))] else [])
          ++ dueIn c is 1 (postIncrement c (.tld p f) f)))

/-- Loads from beyond the own scratchpad, LDSG and the first read of a flag wait are variable-latency. In a first
attempt with room in the input buffer: an LD, TLD, TLDM or VGATH with a VA outside the own scratchpad, an LD of the
engine window, an LDSG of any memory, and a WAITFE of a flag that issue and pass their checks record one load that is
not done (TLDM one for each row), begin one fill into their destination (TLDM one for each row), make a live
destination empty, and leave memory as it was. The accesses of a fill are the bytes at the VA, line by line in a
translated range, and one for each element of a VGATH; each is put in flight as a READ request or as its answer, but
for a gathered element of the own scratchpad, whose bytes are taken at issue; and the fill keeps, byte by byte, the
newest held stores of the block. A load of the engine window is answered with the staged word, 0 for GO, CMPL or
ABRT, under the held stores to the window. WAITFE also records the flag wait for after the commit, and its fill is an
acquire at package scope. [derived: R206, R208, R230, R324, R329, R330, R333, R231, R308, R337, R125] -/
def Obligations.LoadsElsewhereEmptyTheirDestination : Prop :=
  ∀ (s : State) (is : Issue) (c : Ctx) (p : Pred) (f : MemF) (r : Nat), c.recasts = 0 →
    let ea := memEa c f
    let lines := fun (a n : Nat) => if (vaClass s.capSpad a).translated = true ∧ 64 < n then
      (List.range (n / 64)).map fun k => (a + 64 * k, 64, 64 * k) else [(a, n, 0)]
    let classed := fun (a : Nat) => (vaClass s.capSpad a).translated = true →
      ∀ k < 4, vaClass s.capSpad ((a + 64 * k) % 2 ^ 64) ≠ .none
    let tile := fun (r : Nat) => if (c.place r).2 then Dst.row (c.place r).1 else .none
    let begun := fun (t : State) (row : Bool) (a : Nat) (dst : Dst) (fl : Fill) (post : List Pend) (actn : Act) =>
      AllBytesKept s t ∧ fl.dst = dst ∧ fl.bad = none ∧
      (∃ l, t.iss = some { is with sends := is.sends ++ l, act := actn } ∧ InFlight s is c l fl) ∧
      ∃ ent : InEnt, ent.isRow = row ∧ ent.va = a ∧ ent.done = false ∧ t.ctx? is.ck = some { c with
        rowLoads := c.rowLoads + (if row then 1 else 0), scaLoads := c.scaLoads + (if row then 0 else 1),
        ibuf := c.ibuf ++ [ent], fills := c.fills ++ [fl],
        pend := c.pend ++ ((dstKey dst).toList.map fun k => ⟨c.ic, is.slot, .empty k⟩) ++ post }
    (∀ i : Instr, i = .ld p f → Issues s is c i → f.size < 4 → c.scaLoads < 128 → ownLoc s c (is.ck / 2) (memEa c f) = none →
      (∀ d cl t w o, vaClass s.capSpad (memEa c f) ≠ .eng d cl t w o) →
      memCheck s c (is.ck / 2) (memEa c f) (if f.size = 3 then .dword false else .scalar (2 ^ f.size)) = none →
      ∃ t fl, exec i s = .next t ∧ reads fl = lines ea (2 ^ f.size) ∧ fl.acq = (f.ord == 1) ∧
        begun t false ea (if f.data = 0 then .none else .x f.data) fl (dueIn c is 1 (postIncrement c i f)) is.act) ∧
    (∀ d cl t w o, vaClass s.capSpad ea = .eng d cl t w o → Issues s is c (.ld p f) → f.size = 3 → c.scaLoads < 128 →
      memCheck s c (is.ck / 2) ea (.dword false) = none →
      let word := if o < 32 then (c.q.getD (o / 8) 0).toNat else if o = 40 then c.cmpl else if o = 48 then c.abrt else 0
      ∃ t fl k, exec (.ld p f) s = .next t ∧ reads fl = [(ea, 8, 0)] ∧
        begun t false ea (if f.data = 0 then .none else .x f.data) fl (dueIn c is 1 (postIncrement c (.ld p f) f)) is.act ∧
        t.iss = some { is with sends := is.sends ++ [.readReply (is.ck / 256) k] } ∧ k.opc = 2 ∧
        ∀ b < 8, k.payload / 256 ^ b % 256 = (heldAt s c (locOf s c.part ea false + b)).getD (word / 256 ^ b % 256)) ∧
    (∀ i : Instr, i = .tld p f → Issues s is c i → c.rowLoads < 128 → ownLoc s c (is.ck / 2) ea = none →
      memCheck s c (is.ck / 2) ea .row = none → classed ea →
      ∃ t fl, exec i s = .next t ∧ reads fl = lines ea 256 ∧ fl.acq = (f.ord == 1) ∧
        begun t true ea (tile f.data) fl (dueIn c is 1 (postIncrement c i f)) is.act) ∧
    (∀ i : Instr, i = .tldm p f → Issues s is c i → f.data % 32 + mRows c f ≤ 32 → c.rowLoads + mRows c f ≤ 128 →
      let a := fun (k : Nat) => (ea + 256 * k) % 2 ^ 64
      (∀ k < mRows c f, memCheck s c (is.ck / 2) (a k) .row = none ∧ classed (a k)) →
      (∃ k < mRows c f, ownLoc s c (is.ck / 2) (a k) = none) →
      ∃ (t : State) (l : List Instr) (fls : List Fill) (ents : List InEnt), exec i s = .next t ∧ AllBytesKept s t ∧
        t.iss = some { is with sends := is.sends ++ l } ∧ fls.length = mRows c f ∧ ents.length = mRows c f ∧
        (∀ k fl, fls[k]? = some fl → fl.dst = tile (f.data + k) ∧ fl.bad = none ∧ fl.acq = (f.ord == 1) ∧
          reads fl = lines (a k) 256 ∧ InFlight s is c l fl) ∧
        (∀ (k : Nat) (ent : InEnt), ents[k]? = some ent → ent.isRow = true ∧ ent.va = a k ∧ ent.sub = k ∧ ent.done = false) ∧
        t.ctx? is.ck = some { c with
          rowLoads := c.rowLoads + mRows c f, ibuf := c.ibuf ++ ents, fills := c.fills ++ fls,
          pend := c.pend ++ ((List.range (mRows c f)).flatMap fun k =>
            (dstKey (tile (f.data + k))).toList.map fun q => ⟨c.ic, is.slot, .empty q⟩) ++ dueIn c is 1 (postIncrement c i f) }) ∧
    (∀ i : Instr, i = .vgath p f → Issues s is c i → f.size < 5 → c.rowLoads < 128 → (c.rx f.base).toNat % 2 ^ f.size = 0 →
      (∀ a ∈ gathVas c f, memCheck s c (is.ck / 2) a (.elem (2 ^ f.size)) = none) →
      (∃ a ∈ gathVas c f, ownLoc s c (is.ck / 2) a = none) →
      ∃ t fl, exec i s = .next t ∧ reads fl = (gathVas c f).mapIdx (fun k a => (a, 2 ^ f.size, 2 ^ f.size * k)) ∧
        begun t true (packElems 64 (gathVas c f)) (tile f.data) fl [] is.act) ∧
    (Issues s is c (.ldsg p f) → c.scaLoads < 128 → memCheck s c (is.ck / 2) ea (.scalar 8) = none →
      ∃ t fl, exec (.ldsg p f) s = .next t ∧ reads fl = [(ea, 8, 0)] ∧ begun t false ea (.target f.data) fl [] is.act) ∧
    (Issues s is c (.waitfeFlag p r) → c.scaLoads < 128 → memCheck s c (is.ck / 2) (c.rx r).toNat (.scalar 8) = none →
      ∃ t fl, exec (.waitfeFlag p r) s = .next t ∧ reads fl = [((c.rx r).toNat, 8, 0)] ∧ fl.acq = true ∧ fl.scope = 3 ∧
        begun t false (c.rx r).toNat .none fl [] (.waitFlag (c.rx r).toNat c.scaLoads))

/-- Row groups and gathers from the own scratchpad, and the loads and moves of the scale unit. In a first attempt of a
block with room for the loads: a TLDM that issues within its register, with every row in the own scratchpad, makes
row k + i due where it is live, at the latency of its part of the scratchpad, with the 256 bytes at ea + 256 i and
the lineage that the tag of its own line gives, records each row in order as one done row entry, and has its acquire
and its post-increment; nothing else has changed. A VGATH with an
aligned base and every element in the own scratchpad makes its row due at latency 10, element i the bytes at base +
idx_i e and the bytes beyond the last element 0. Each row counts as one load, and
nothing else of the state has changed. In a first attempt of a block with room for a row load, an SCL load that issues, is
aligned and lies in the own scratchpad within one line makes its register due at latency 4 with the bytes read (the
held stores of the block first) and the lineage that the line's tag gives, and records one done row entry. ATLD
makes the register due where the 48 bytes are a legal table, and otherwise notes the illegal table and leaves the
register. SMOV makes the destination of its kind (scale, inclusion list, band scale, algebra table) due at latency 2
with the source's value. A load that is misaligned or outside the own scratchpad faults with cause address.
[derived: R329, R330, R206, R220, R231, R384, R385, R259, R326] -/
def Obligations.GroupsGathersAndScaleLoads : Prop :=
  (∀ (s : State) (is : Issue) (c : Ctx) (p : Pred) (f : MemF), c.recasts = 0 →
    (Issues s is c (.tldm p f) → f.data % 32 + mRows c f ≤ 32 → c.rowLoads + mRows c f ≤ 128 →
      (∀ k < mRows c f, (ownLoc s c (is.ck / 2) ((memEa c f + 256 * k) % 2 ^ 64)).isSome ∧
        memCheck s c (is.ck / 2) ((memEa c f + 256 * k) % 2 ^ 64) .row = none) →
      let ea := fun (k : Nat) => (memEa c f + 256 * k) % 2 ^ 64
      let loc := fun (k : Nat) => (ownLoc s c (is.ck / 2) (ea k)).getD 0
      let sub := (is.va + 2 ^ 64 - c.entryVa) % 2 ^ 64 / 4
      let u := acquired s is c f (loc 0) (256 * mRows c f)
      ∃ vs : List Nat, vs.length = mRows c f ∧ (∀ k < mRows c f, Sees u c (ea k) (loc k) 256 (vs.getD k 0)) ∧
        exec (.tldm p f) s = .next (u.setCtx is.ck { c with
          rowLoads := c.rowLoads + mRows c f,
          ibuf := c.ibuf ++ (List.range (mRows c f)).map fun k =>
            ⟨true, ea k, sub, k, vs.getD k 0, (tagAt u (loc k)).toNat, true⟩,
          pend := c.pend ++ ((List.range (mRows c f)).flatMap fun k =>
              let (place, live) := c.place (f.data + k)
              dueIn c is (ownLatency (loc k)) (if live then
                [.row place (BitVec.ofNat 2048 (vs.getD k 0)), .lin place (linOf c (tagAt u (loc k)) (.tldm p f))] else []))
            ++ dueIn c is 1 (postIncrement c (.tldm p f) f) })) ∧
    (Issues s is c (.vgath p f) → f.size < 5 → c.rowLoads < 128 → (c.rx f.base).toNat % 2 ^ f.size = 0 →
      (∀ a ∈ gathVas c f, (ownLoc s c (is.ck / 2) a).isSome ∧ memCheck s c (is.ck / 2) a (.elem (2 ^ f.size)) = none) →
      ∃ (t : State) (v : Nat) (ent : InEnt),
        exec (.vgath p f) s = .next t ∧ ent.isRow = true ∧ ent.val = v ∧ v < 256 ^ (2 ^ f.size * (gathVas c f).length) ∧
        (∀ k a loc, (gathVas c f)[k]? = some a → ownLoc s c (is.ck / 2) a = some loc →
          Sees s c a loc (2 ^ f.size) (v / 256 ^ (2 ^ f.size * k) % 256 ^ 2 ^ f.size)) ∧
        Loaded s t is c ent (dueIn c is 10 (if (c.place f.data).2 then
          [.row (c.place f.data).1 (BitVec.ofNat 2048 v), .lin (c.place f.data).1 (linOf c 0 (.vgath p f))] else [])))) ∧
  (∀ (s : State) (is : Issue) (c : Ctx) (p : Pred) (d b k x : Nat) (o : Imm),
    let ea := sclEa c b o
    let sub := (is.va + 2 ^ 64 - c.entryVa) % 2 ^ 64 / 4
    let forms : List (Instr × Nat × Nat × Nat × (Nat → Wr)) :=
      [(.sld p d b o, 256, 256, 0x900 + d, fun v => .sc d (BitVec.ofNat 2048 v)),
       (.slil p d b o, 64, 64, 0x910 + d, fun v => .il d (BitVec.ofNat 512 v)),
       (.slbs p d b o, 32, 32, 0x920 + d, fun v => .bs d (BitVec.ofNat 256 v)),
       (.atld p d b o, 48, 16, 0x930 + d, fun v => if atIllegal (BitVec.ofNat 384 v) then .badTab d ea else .tab d (BitVec.ofNat 384 v))]
    (∀ e ∈ forms, Issues s is c e.1 →
      (∀ loc, ownLoc s c (is.ck / 2) ea = some loc → ea % e.2.2.1 = 0 → ea % 256 + e.2.1 ≤ 256 → c.recasts = 0 →
        c.rowLoads < 128 → ∃ (v : Nat) (t : State), Sees s c ea loc e.2.1 v ∧ exec e.1 s = .next t ∧
          Loaded s t is c ⟨true, ea, sub, 0, v, (tagAt s loc).toNat, true⟩
            (dueIn c is 4 [e.2.2.2.2 v, .lin e.2.2.2.1 (linOf c (tagAt s loc) e.1)])) ∧
      (ownLoc s c (is.ck / 2) ea = none ∨ ea % e.2.2.1 ≠ 0 ∨ 256 < ea % 256 + e.2.1 →
        exec e.1 s = .next (faulted s is 1 ea))) ∧
    (Issues s is c (.smov p d k x) → k < 4 → exec (.smov p d k x) s = .next (staged s is c 2
      [if k = 0 then .sc d (c.sc.get 0 x) else if k = 1 then .il d (c.arch.il.get 0 x)
         else if k = 2 then .bs d (c.bs.get 0 x) else .tab d (c.tab.get 0 x),
       .lin (if k = 0 then 0x900 + d else 0x900 + 16 * k + d) (linOf c 0 (.smov p d k x))])))

/-- ST, TST, TSTM and VSCAT capture their data and enter the hold buffer; no byte of memory changes. A store-type form
that issues, passes its checks and finds room in the hold buffer answers the state in which its accesses, with data
as read at issue, follow the held ones in order and a post-increment of the base is due at latency 1: ST the low
bytes of xS (in the engine window the staging write, or GO), TST the row with its lineage, TSTM R rows in order,
each with g of the rows stored, VSCAT its elements in increasing index as one access. Memory is read as before at
every address, and nothing else changes. [derived: R230, R324, R327, R328, R329, R330, R337] -/
def Obligations.StoresAreHeldUntilCommit : Prop :=
  ∀ (s : State) (is : Issue) (c : Ctx) (p : Pred) (f : MemF),
    let sc := if c.gen = 1 then 3 else f.scope
    let ea := memEa c f
    let classed := fun (va : Nat) => (vaClass s.capSpad va).translated = true →
      ∀ k < 4, vaClass s.capSpad ((va + 64 * k) % 2 ^ 64) ≠ .none
    let held := fun (l : List Held) (post : List Wr) =>
      s.setCtx is.ck { c with held := c.held ++ l, pend := c.pend ++ dueIn c is 1 post }
    (∀ l : List Held, Issues s is c (.st p f) →
      memCheck s c (is.ck / 2) ea (if f.size = 3 then .dword true else .scalar (2 ^ f.size)) = none →
      (∃ k, l = [⟨k, f.ord, sc⟩] ∧
        ((∀ d cl t w o, vaClass s.capSpad ea ≠ .eng d cl t w o) → k = .store ea (2 ^ f.size) ((c.rx f.data).toNat % 256 ^ 2 ^ f.size)) ∧
        (∀ d cl t w o, vaClass s.capSpad ea = .eng d cl t w o →
          k = if o = 32 then .go ea ((c.rx f.data).toNat % 256 ^ 2 ^ f.size) else .eng o ((c.rx f.data).toNat % 256 ^ 2 ^ f.size))) →
      holdRoom c l → exec (.st p f) s = .next (held l (postIncrement c (.st p f) f))) ∧
    (Issues s is c (.tst p f) → memCheck s c (is.ck / 2) ea .row = none → classed ea →
      let l : List Held := [⟨.row ea (c.row f.data).toNat (c.rowLin f.data), f.ord, sc⟩]
      holdRoom c l → exec (.tst p f) s = .next (held l (postIncrement c (.tst p f) f))) ∧
    (Issues s is c (.tstm p f) → f.data % 32 + mRows c f ≤ 32 →
      (∀ k < mRows c f, memCheck s c (is.ck / 2) ((ea + 256 * k) % 2 ^ 64) .row = none ∧ classed ((ea + 256 * k) % 2 ^ 64)) →
      let rows := (List.range (mRows c f)).map fun k => f.data + k
      let l : List Held := (List.range (mRows c f)).map fun k =>
        ⟨.row ((ea + 256 * k) % 2 ^ 64) (c.row (f.data + k)).toNat (gMix (rows.map c.rowLin)), f.ord, sc⟩
      holdRoom c l → exec (.tstm p f) s = .next (held l (postIncrement c (.tstm p f) f))) ∧
    (Issues s is c (.vscat p f) → (c.rx f.base).toNat % 2 ^ f.size = 0 →
      (∀ a ∈ gathVas c f, memCheck s c (is.ck / 2) a (.elem (2 ^ f.size)) = none) →
      ∃ els : List (Nat × Nat × Nat), els.map (·.1) = gathVas c f ∧
        (∀ k e, els[k]? = some e → e.2.1 = 2 ^ f.size ∧
          e.2.2 = (c.row f.data).toNat / 256 ^ (2 ^ f.size * k) % 256 ^ 2 ^ f.size) ∧
        (holdRoom c [⟨.scat els, f.ord, sc⟩] → exec (.vscat p f) s =
          .next (held [⟨.scat els, f.ord, sc⟩] (postIncrement c (.vscat p f) f)))) ∧
    (∀ l post, AllBytesKept s (held l post))

/-- Bank operations are held and empty their register; fences are held, and PREF does nothing. A BANK form that issues,
passes its check and finds room answers the state in which one request of its operation (add, fadd, min, max, or,
and, swap) with the low bytes of xS as operand follows the held accesses, and xS, unless it is x0, takes its lineage
and becomes empty; memory and everything else stay. A fence that issues adds one fence to the held accesses: FENCE
with its ORD and SCOPE, FENCE.SC with ORD 3 at package scope in the total order, the deprecated FENCE.ALL with ORD 3
at system scope and one deprecated slot counted. An acquire part at package or system scope applies the invalidation
logs of every die; below that, or without an acquire part, nothing else changes. PREF answers the state unchanged.
[derived: R331, R221, R334, R335, R293, R143, R336] -/
def Obligations.BankRequestsFencesAndPrefetch : Prop :=
  (∀ (s : State) (is : Issue) (c : Ctx) (p : Pred) (f : MemF),
    let n := 2 ^ f.size
    let ea := memEa c f
    ∀ e ∈ [(Instr.bankAdd p f, 0), (.bankFadd p f, 1), (.bankMin p f, 2), (.bankMax p f, 3), (.bankOr p f, 4), (.bankAnd p f, 5),
        (.bankSwap p f, 6)],
      Issues s is c e.1 → memCheck s c (is.ck / 2) ea (.bank n) = none →
      let h : Held := ⟨.bank e.2 ea n ((c.rx f.data).toNat % 256 ^ n) f.data, f.ord, if c.gen = 1 then 3 else f.scope⟩
      holdRoom c [h] → exec e.1 s = .next (s.setCtx is.ck { c with
        held := c.held ++ [h],
        pend := c.pend ++ dueIn c is 0 (if f.data = 0 then [] else
          [.lin (xKey f.data) (linOf c 0 e.1), .empty (xKey f.data)]) })) ∧
  (∀ (s : State) (is : Issue) (c : Ctx) (p : Pred) (f : MemF),
    let sc := if c.gen = 1 then 3 else f.scope
    let room := holdRoom c []
    let with_ := fun (c' : Ctx) (h : Held) => s.setCtx is.ck { c' with held := c'.held ++ [h] }
    let c' : Ctx := { c with depr := c.depr + 1, deprVa := if c.depr = 0 then is.va else c.deprVa }
    (Issues s is c (.fence p f) → room → exec (.fence p f) s = .next
      (if f.ord % 2 = 1 ∧ 3 ≤ sc then invAllDies (with_ c ⟨.fence false, f.ord, sc⟩) else with_ c ⟨.fence false, f.ord, sc⟩)) ∧
    (Issues s is c (.fenceSc p f) → room → exec (.fenceSc p f) s = .next (invAllDies (with_ c ⟨.fence true, 3, 3⟩))) ∧
    (Issues s is c (.fenceAll p f) → room → exec (.fenceAll p f) s = .next (invAllDies (with_ c' ⟨.fence false, 3, 4⟩))) ∧
    (Issues s is c (.pref p f) → exec (.pref p f) s = .next s))

/-- The integer, logic, shift, select and data-movement VEC forms write the elements that their rules give. For every
VEC form on an integer format, and every logic, shift, select, move, broadcast, rearranging and packing form, that
issues, exec answers the next state in which the destination row, element by element as the form's rule says, is due
at the form's latency (4 for the arithmetic and the reductions, 2 for the others) with its lineage; no flag is set,
SRSEED keeps its 32 bits, a dead row takes nothing, and nothing else has changed. [derived: R348, R353, R356, R357,
R358, R365, R367, R368, R369, R370, R351, R202] -/
def Obligations.VectorPatternForms : Prop :=
  ∀ (s : State) (is : Issue) (c : Ctx) (i : Instr) (f : VecF) (lat : Nat) (g : Nat → Nat),
    Issues s is c i → vecPattern c i = some (f, lat, g) →
    ∃ v : Row, (∀ k < 2048 / formatBits f.fmt, elemAt (formatBits f.fmt) v k = g k) ∧
      exec i s = .next (vecDone s is c i lat f.d v 0 (seedNow c))

/-- VNEG, VABS, VMIN, VMAX, VCMP, VRMAX, VRMIN, VBAMAX and VCONJ on BF16 and FP32 are exact. For these forms on BF16 and
FP32 that issue, exec answers the next state whose row holds, element by element: the sign turned or cleared, the
smaller or larger in the order with -0 below +0, all ones where the comparison holds (false with a NaN, but true for
ne), the extreme of each group, the largest magnitude of each block, or the components of the mask negated; the
canonical NaN wherever a NaN is read by an arithmetic form; +0 above the reduced elements. No flag is set and
nothing is drawn. [derived: R353, R356, R365, R366, R372, R244, R351] -/
def Obligations.ExactFloatVectorForms : Prop :=
  ∀ (s : State) (is : Issue) (c : Ctx) (i : Instr) (f : VecF) (lat : Nat) (P : Nat → Nat → Prop),
    Issues s is c i → vecExact c i = some (f, lat, P) →
    ∃ v : Row, (∀ k < 2048 / formatBits f.fmt, P k (elemAt (formatBits f.fmt) v k)) ∧
      exec i s = .next (vecDone s is c i lat f.d v 0 (seedNow c))

/-- VADD, VSUB, VMUL, the fused forms, VRSUM, the four functions and VMAC round one exact result per element. For the
arithmetic forms on BF16 and FP32 that issue, every element is the exact sum, product, fused result or group sum
(with the special values and INV that the rules state), rounded once under RM in increasing element; VRCP, VRSQ,
VEXP2 and VLOG2 take the special values and conditions of their table, and otherwise a value that agrees with the
function rounded once: to 100 bits for VRCP and VRSQ; exactly for powers of two for the last two, and for every other
argument between 2^k (1 + 2r/3) and 2^k (1 + r) for the exponent k + r, and between k + (m - 1) and k + 3(m - 1)/2
for the logarithm of m 2^k (the model's precision: log entry 9; signs of zero sums: log entry 42); VMAC is VFMA with
C := D and counts one deprecated slot. The row, the conditions to FST and AST are due at latency 4 (8 for the
functions), SRSEED is that after the draws, and nothing else has changed. [derived: R353, R354, R355, R365, R350,
R351, R293] -/
def Obligations.RoundedVectorForms : Prop :=
  ∀ (s : State) (is : Issue) (c : Ctx) (i : Instr),
    (∀ f m P, Issues s is c i → vecRounded c i = some (f, m, P) → f.fmt ≤ 1 →
      ∃ v fl seed, RoundedRow c f.fmt (vRm f) m P v fl seed ∧ exec i s = .next (vecDone s is c i 4 f.d v fl seed)) ∧
    (∀ p f, i ∈ [.vrcp p f, .vrsq p f, .vexp2 p f, .vlog2 p f] → Issues s is c i → f.fmt ≤ 1 →
      ∃ v fl seed,
        RoundedRow c f.fmt (vRm f) (2048 / formatBits f.fmt) (fun k x e => vecFunction (srcNum c f f.a k) x e i) v fl seed ∧
        exec i s = .next (vecDone s is c i 8 f.d v fl seed)) ∧
    (∀ p f, i = .vmac p f → Issues s is c i → f.fmt ≤ 1 →
      let c' : Ctx := { c with depr := c.depr + 1, deprVa := if c.depr = 0 then is.va else c.deprVa }
      ∃ v fl seed,
        RoundedRow c f.fmt (vRm f) (2048 / formatBits f.fmt)
          (fun k => IsFused (vRm f == .rdn) false false (srcNum c f f.a k) (srcNum c f f.b k) (srcNum c f f.d k)) v fl seed ∧
        exec i s = .next (vecDone s is c' i 4 f.d v fl seed))

/-- VCVT converts the elements that the widths select, and a narrowing keeps the other elements of B. VCVT with SEG
below the ratio of the widths that issues answers the next state whose row holds the converted elements in the
places that the table of widths gives, rounded in increasing element under RM to the destination format, and, when
it narrows, every other element of row B; its row and conditions are due at latency 4, SRSEED is that after the
draws, and nothing else has changed. [derived: R359, R349] -/
def Obligations.VectorConversions : Prop :=
  ∀ (s : State) (is : Issue) (c : Ctx) (p : Pred) (f : VecF),
    let sf := f.c % 8
    let seg := f.c / 8 % 8
    let ws := formatBits sf
    let wd := formatBits f.fmt
    let m := 2048 / max ws wd
    let src := if ws < wd then seg * m else 0
    let dst := if wd < ws then seg * m else 0
    Issues s is c (.vcvt p f) → seg * m + m ≤ 2048 / min ws wd →
    let r := roundList f.fmt (vRm f) (seedNow c) ((List.range m).map fun k => decFmt sf (elemAt ws (c.row f.a) (src + k)))
    ∃ v : Row, exec (.vcvt p f) s = .next (vecDone s is c (.vcvt p f) 4 f.d v r.2.1 r.2.2) ∧
      (∀ k < m, elemAt wd v (dst + k) = r.1.getD k 0) ∧
      (wd < ws → ∀ k < 2048 / wd, (k < dst ∨ dst + m ≤ k) → elemAt wd v k = srcEl c f f.b k)

/-- VAMUL and VNORM sum through their table, and VDQ expands one segment of codes. VAMUL on BF16 or FP32 that issues
writes, for each component of each element, the exact sum of the table's terms rounded once, with A the left factor;
VNORM writes component 0 of each element's product with its conjugate and +0 above; VDQ writes, for each nibble of
its segment, code value times block scale times band scale, or for an escape the value of the first list entry with
its position times the band scale, or +0 with INV where there is none, each rounded once; no product sets INV (log
entries 42 and 43). Row and conditions are due at latency 4, and nothing else has changed. [derived: R372, R264, R260, R364, R361, R254] -/
def Obligations.AlgebraForms : Prop :=
  ∀ (s : State) (is : Issue) (c : Ctx) (p : Pred) (f : VecF), f.fmt ≤ 1 →
    let n := 2048 / formatBits f.fmt
    let t := algTab (c.tab.get 0 (f.c % 4))
    let comp := fun (r q j : Nat) => if j < t.d then srcNum c f r (q * t.d + j) else Machine.Num.fin false 0 0
    let e := f.ext.getD 0
    let b := decFmt 0 ((c.bs.get 0 (e / 2 ^ 5 % 4)).toNat / 2 ^ (16 * (e / 2 ^ 7 % 16)) % 2 ^ 16)
    (Issues s is c (.vamul p f) → ∃ v fl seed,
      RoundedRow c f.fmt (vRm f) n
        (fun k => IsTableSum t (vRm f == .rdn) (k % t.d) (comp f.a (k / t.d)) (comp f.b (k / t.d))) v fl seed ∧
      exec (.vamul p f) s = .next (vecDone s is c (.vamul p f) 4 f.d v fl seed)) ∧
    (Issues s is c (.vnorm p f) → ∃ v fl seed,
      RoundedRow c f.fmt (vRm f) (n / t.d)
        (fun k => IsTableSum t (vRm f == .rdn) 0 (comp f.a k)
          (fun j => if j < t.d then negIf (t.mask.testBit j) (comp f.a k j) else Machine.Num.fin false 0 0)) v fl seed ∧
      exec (.vnorm p f) s = .next (vecDone s is c (.vnorm p f) 4 f.d v fl seed)) ∧
    (Issues s is c (.vdq p f) → ∃ v fl seed,
      RoundedRow c f.fmt (rmOf (e % 8)) n
        (fun k x cond =>
          let pos := e / 2 ^ 19 % 8 * n + k
          let q := elemAt 4 (c.row f.a) pos
          let code := (c.sc.get 0 (e / 2 ^ 11 % 8)).toNat / 2 ^ (8 * (e / 2 ^ 14 % 32 * 8 + k / 8)) % 2 ^ 8
          if q = 8 then
            match listValue (c.arch.il.get 0 (e / 2 ^ 3 % 4)) (pos * 64 + e / 2 ^ 22 % 64) with
            | some a => cond = 0 ∧ ∃ z, IsProduct (decFmt 0 a) b x z
            | none => x = Machine.Num.fin false 0 0 ∧ cond = 1
          else cond = 0 ∧ ∃ y z, IsProduct (decFmt 3 q) (decE3m5 code) y 0 ∧ IsProduct y b x z) v fl seed ∧
      exec (.vdq p f) s = .next (vecDone s is c (.vdq p f) 4 f.d v fl seed))

/-- VQNT writes its segment of codes and scale; VPART sorts indices into buckets. VQNT that issues runs the block
procedure over the blocks of its m source elements with the threshold, band scale and positions of its fields, and
answers the next state in which are due at latency 4: the row with the codes in the nibbles of the segment and those
of row B elsewhere, the m/8 codes of its scale register from SCO × 8 on, in outlier mode the entries that it writes
or moves in its list (none where no element escapes; over the list as read they give the list of the procedure),
their lineage, and the conditions; nothing else has changed. VPART that issues answers the next state in which rows D to D + 3 are
due at latency 4 with, from INT16 element 0 on, the increasing indices of the keys whose number of splitters not
above them is the bucket's, and 0xFFFF beyond, and row C with the four counts and 0 beyond, all five with one
lineage; no flag is set and nothing else has changed. [derived: R362, R361, R360, R386, R254, R371, R352] -/
def Obligations.QuantizationAndPartition : Prop :=
  (∀ (s : State) (is : Issue) (c : Ctx) (p : Pred) (f : VecF),
    let i := Instr.vqnt p f
    let e := f.ext.getD 0
    let src := f.c / 2 ^ 5 % 2
    let m := if src = 0 then 128 else 64
    let seg := e / 2 ^ 19 % 8
    let o := e % 2 == 1
    let th := decFmt 1 ((c.rx (f.c % 32)).toNat % 2 ^ 32)
    let b := decFmt 0 ((c.bs.get 0 (e / 2 ^ 5 % 4)).toNat / 2 ^ (16 * (e / 2 ^ 7 % 16)) % 2 ^ 16)
    let vs := (List.range m).map fun k => (decFmt src (elemAt (formatBits src) (c.row f.a) k), (seg * m + k) * 64 + e / 2 ^ 22 % 64)
    let r := qBlocks o th b ((List.range (m / 8)).map fun j => (vs.drop (8 * j)).take 8) (ilEntries (c.arch.il.get 0 (e / 2 ^ 3 % 4)))
    Issues s is c i → (seg + 1) * m ≤ 512 →
    let il := c.arch.il.get 0 (e / 2 ^ 3 % 4)
    ∃ (row : Row) (ents : List (Nat × Nat)),
      (∀ k < 16, ((ents.find? (·.1 == k)).map (·.2)).getD (il.toNat / 2 ^ (32 * k) % 2 ^ 32) = (ilPack r.2.2.1).toNat / 2 ^ (32 * k) % 2 ^ 32) ∧
      ents.Pairwise (fun a b => a.1 < b.1) ∧ (∀ x ∈ ents, x.1 < 16 ∧ x.2 < 2 ^ 32) ∧ ((∀ q ∈ r.1, q ≠ 8) → ents = []) ∧
      (∀ k < m, elemAt 4 row (seg * m + k) = r.1.getD k 0) ∧
      (∀ k < 512, (k < seg * m ∨ seg * m + m ≤ k) → elemAt 4 row k = elemAt 4 (c.row f.b) k) ∧
      exec i s = .next (s.setCtx is.ck { c with
        pend := c.pend ++ dueIn c is 4 (rowResult c i f.d row
          ++ [.scCodes (e / 2 ^ 11 % 8) (e / 2 ^ 14 % 32 * 8) r.2.1, .lin (0x900 + e / 2 ^ 11 % 8) (linOf c 0 i)]
          ++ (if o then [.ilEnts (e / 2 ^ 3 % 4) ents, .lin (0x910 + e / 2 ^ 3 % 4) (linOf c 0 i)] else [])
          ++ vecConds c f.d r.2.2.2) })) ∧
  (∀ (s : State) (is : Issue) (c : Ctx) (p : Pred) (f : VecF),
    let i := Instr.vpart p f
    let w := formatBits f.fmt
    let N := min (srcEl c f f.b 3) (min (2048 / w) 128)
    let bucket := fun (k : Nat) => ([0, 1, 2].filter fun j => sgn w (srcEl c f f.b j) ≤ sgn w (srcEl c f f.a k)).length
    let ks := fun (q : Nat) => (List.range N).filter fun k => bucket k = q
    Issues s is c i → f.fmt ≤ 7 →
    ∃ (rows : Nat → Row) (counts : Row),
      (∀ q < 4, ∀ k < 128, elemAt 16 (rows q) k = (ks q).getD k 0xFFFF) ∧
      (∀ k < 128, elemAt 16 counts k = if k < 4 then (ks k).length else 0) ∧
      exec i s = .next (staged s is c 4 (rowResult c i f.d (rows 0) ++ rowResult c i (f.d + 1) (rows 1) ++ rowResult c i (f.d + 2) (rows 2)
        ++ rowResult c i (f.d + 3) (rows 3) ++ rowResult c i f.c counts)))

/-- A quantized block takes the least scale that covers it and the nearest code of each value. A block with a band scale
that is not positive and finite takes zero codes, a zero scale and INV. For a finite block without outlier mode and
a positive finite band scale: an all-zero block takes scale 0 and codes 0; otherwise the scale is the least code
whose value times 6 b is not below the largest magnitude (1 with SUND when that is below the smallest, 255 when none
reaches it), and each code is one of the fifteen values, at the least distance from the element. In outlier mode the
elements are taken in order: one whose magnitude is at or above the threshold while the list holds fewer than 16
entries escapes, and enters the list at its position with v / b rounded to BF16; the others do not. An element that
escapes has the escape code 0b1000, and the scale and the codes of the others are those of the block without it, or 0
where all escape. A full list or a NaN threshold makes outlier mode act as without it. An insertion into an ordered
list that is not full keeps it ordered, holds the new entry and every entry of another position, and nothing else.
[derived: R255, R246, R247, R254] -/
def Obligations.QuantizedBlocksHoldTheNearestCodes : Prop :=
  ∀ (th b : Machine.Num) (l : List (Machine.Num × Nat)) (il : List (Nat × Nat)),
    (∀ o, (∀ n e, b = .fin false n e → n = 0) → qBlock o th b l il = (l.map fun _ => 0, 0, il, 1)) ∧
    ((∃ n e, b = .fin false n e ∧ n ≠ 0) → (∀ v ∈ l, ∃ s n e, v.1 = .fin s n e) →
      let r := qBlock false th b l il
      r.2.2.1 = il ∧ r.1.length = l.length ∧
      ((∀ v ∈ l, numRat v.1 = 0) → r.2.1 = 0 ∧ (∀ q ∈ r.1, q = 0) ∧ r.2.2.2 = 0) ∧
      (∀ a ∈ l, numRat a.1 ≠ 0 → (∀ v ∈ l, |numRat v.1| ≤ |numRat a.1|) →
        1 ≤ r.2.1 ∧ r.2.1 ≤ 255 ∧
        (|numRat a.1| < numRat (decE3m5 1) * 6 * numRat b → r.2.1 = 1 ∧ r.2.2.2.testBit 5 = true) ∧
        (numRat (decE3m5 1) * 6 * numRat b ≤ |numRat a.1| → r.2.2.2.testBit 5 = false) ∧
        (|numRat a.1| ≤ numRat (decE3m5 r.2.1) * 6 * numRat b ∨ r.2.1 = 255) ∧
        (∀ k, 1 ≤ k → k < r.2.1 → numRat (decE3m5 k) * 6 * numRat b < |numRat a.1|) ∧
        ∀ (k : Nat) (v : Machine.Num × Nat) (q : Nat), l[k]? = some v → r.1[k]? = some q → q < 16 ∧ q ≠ 8 ∧
          ∀ q' < 16, q' ≠ 8 → |numRat v.1 - numRat (decE2m1 q) * numRat (decE3m5 r.2.1) * numRat b|
            ≤ |numRat v.1 - numRat (decE2m1 q') * numRat (decE3m5 r.2.1) * numRat b|)) ∧
    ((∃ n e, b = .fin false n e ∧ n ≠ 0) →
      let r := qBlock true th b l il
      ∃ (esc : List Bool) (ils : List (List (Nat × Nat))), esc.length = l.length ∧ ils.length = l.length + 1 ∧
        ils.getD 0 [] = il ∧ r.2.2.1 = ils.getD l.length [] ∧
        (∀ (k : Nat) (v : Machine.Num × Nat), l[k]? = some v →
          (esc.getD k false = true ↔ v.1.abs.lt? th = some false ∧ ilPop (ils.getD k []) < 16) ∧
          (esc.getD k false = false → ils.getD (k + 1) [] = ils.getD k []) ∧
          (esc.getD k false = true → ∃ code, ils.getD (k + 1) [] = ilInsert (ils.getD k []) v.2 code ∧
            (∀ s n e, v.1 = .fin s n e → code = (encFmt 0 .rne 0 (numDiv v.1 b)).1))) ∧
        (let rest := qBlock false th b ((List.range l.length).filterMap fun k => if esc.getD k false then none else l[k]?) il
         r.2.1 = rest.2.1 ∧ r.1.length = l.length ∧ (∀ k < l.length, esc.getD k false = true → r.1.getD k 0 = 8) ∧
         ((List.range l.length).filterMap fun k => if esc.getD k false then none else r.1[k]?) = rest.1)) ∧
    ((th = .nan ∨ 16 ≤ ilPop il) → qBlock true th b l il = qBlock false th b l il) ∧
    (∀ pos v, il.length = 16 → ilPop il < 16 → pos < 0xFFFF → ((il.take (ilPop il)).map (·.1)).Pairwise (· < ·) →
      let il' := ilInsert il pos v
      il'.length = 16 ∧ ((il'.take (ilPop il')).map (·.1)).Pairwise (· < ·) ∧ (pos, v) ∈ il'.take (ilPop il') ∧
      (∀ e ∈ il.take (ilPop il), e.1 ≠ pos → e ∈ il'.take (ilPop il')) ∧
      ∀ e ∈ il'.take (ilPop il'), e = (pos, v) ∨ e ∈ il.take (ilPop il))

/-- Rounding to a format gives the nearest value or the directed one, and SR draws once for each element. For a finite
exact value and each of the formats BF16, FP32, E4M3, E2M1, INT8, INT16 and INT32: under RNE a finite result lies at
the least distance among the format's values, with an even code on a tie; RTZ gives the largest magnitude of its
sign not above; RUP the least value not below and RDN the greatest not above, the range limit where the format
saturates; INX is set exactly where the finite result differs. Over a list, each element draws once under SR in
order, and other modes leave the seed. RM codes 0 to 4 name RNE, RTZ, RUP, RDN and SR. [derived: R249, R250, R252] -/
def Obligations.RoundingIsToTheNearestOrDirected : Prop :=
  (∀ (fmt r : Nat) (neg : Bool) (n : Nat) (e : Int), fmt ≤ 6 →
    let x := Machine.Num.fin neg n e
    let val := fun (code : Nat) => numRat (decFmt fmt code)
    let finite := fun (code : Nat) => code < 2 ^ formatBits fmt ∧ (fmt = 3 → code ≠ 8) ∧ ∃ s m a, decFmt fmt code = .fin s m a
    let out := fun (rm : Rm) => (encFmt fmt rm r x).1
    (∀ rm, out rm < 2 ^ formatBits fmt) ∧
    (∀ rm, rm ≠ .sr → finite (out rm) → ((encFmt fmt rm r x).2.testBit 4 = true ↔ val (out rm) ≠ numRat x)) ∧
    (finite (out .rne) → ∀ k, finite k → |numRat x - val (out .rne)| < |numRat x - val k| ∨
      (|numRat x - val (out .rne)| = |numRat x - val k| ∧ (val k = val (out .rne) ∨ out .rne % 2 = 0))) ∧
    (finite (out .rtz) ∧ |val (out .rtz)| ≤ |numRat x| ∧ ∀ k, finite k → 0 ≤ val k * numRat x →
      |val k| ≤ |numRat x| → |val k| ≤ |val (out .rtz)|) ∧
    (finite (out .rup) → (numRat x ≤ val (out .rup) ∨ ∀ k, finite k → val k ≤ val (out .rup)) ∧
      ∀ k, finite k → numRat x ≤ val k → val (out .rup) ≤ val k) ∧
    (finite (out .rdn) → (val (out .rdn) ≤ numRat x ∨ ∀ k, finite k → val (out .rdn) ≤ val k) ∧
      ∀ k, finite k → val k ≤ numRat x → val k ≤ val (out .rdn))) ∧
  (∀ (fmt : Nat) (rm : Rm) (seed : Nat) (xs : List Machine.Num),
    let seedOf := fun (k : Nat) => if rm = .sr then draw^[k] seed else seed
    (roundList fmt rm seed xs).2.2 = seedOf xs.length ∧
    (roundList fmt rm seed xs).1 = xs.mapIdx (fun k x => (encFmt fmt rm (seedOf (k + 1)) x).1) ∧
    ∀ bit, (roundList fmt rm seed xs).2.1.testBit bit = true ↔
      ∃ k x, xs[k]? = some x ∧ (encFmt fmt rm (seedOf (k + 1)) x).2.testBit bit = true) ∧
  (List.range 5).map rmOf = [.rne, .rtz, .rup, .rdn, .sr] ∧
  ∀ seed : W32, draw seed.toNat =
    (let x := if seed = 0 then 1 else seed
     let x := x ^^^ (x <<< 13)
     let x := x ^^^ (x >>> 17)
     (x ^^^ (x <<< 5)).toNat)

/-- MMA makes its checks in order and accumulates each output component in the order of its path. MMA of a permitted
format pair that issues: a planar register raises bad-tc, then a dimension that differs from the table's bad-table;
a count or guard of 0 makes only the lineage of accumulator rows 0 to M_e - 1 due at latency 4; a shape beyond the
limits raises mtx-shape; otherwise each row 0 to M_e - 1 of Tc is due at latency 4 + n, scalar d j + κ holding the
sum over K of component κ of the products, block by block with two roundings for E2M1, pair by pair with one for
BF16 and E4M3, wrapping or clamping for integers, and the conditions (IOVF for an escape past its list) go to ASTc;
the bundle queues n matrix steps. The rest of the state stays. [derived: R373, R374, R375, R377, R378, R379, R380,
R256, R257, R263, R254] -/
def Obligations.MatrixProductChecksAndAccumulates : Prop :=
  ∀ (s : State) (is : Issue) (c : Ctx) (p : Pred) (f0 : MtxF),
    let i := Instr.mma p f0
    let f := mmaFields c f0
    let t := algTab (c.tab.get 0 f.att)
    let d := t.d
    let me := 32 / d
    let ne := 64 / d
    let n := (c.rx f.cnt).toNat
    let len := n * perStep f * d
    let nb := (len + 7) / 8
    let e := f.ext.getD 0
    let regs := [f.tc, f.ta, f.tb]
    let scaled := f.fa = 3 ∧ f.fb = 3
    let noop := n = 0 ∨ (f.grd ≠ 0 ∧ c.rx f.grd = 0)
    let badShape := min 64 (128 / d) < n ∨ 32 < f.a0 + me ∨ 32 < f.b0 + min ne 32 ∨
      (scaled ∧ (256 < e % 2 ^ 8 + me * nb ∨ 256 < e / 2 ^ 8 % 2 ^ 8 + ne * nb))
    Issues s is c i → mmaPair f →
    ((∃ r ∈ regs, planar c r) → exec i s = .next (faulted s is 0x11 is.va)) ∧
    ((∀ r ∈ regs, ¬ planar c r) →
      ((∃ r ∈ regs, 2 ^ ((c.tc.get 0 r).toNat / 2 ^ 22 % 4) ≠ d) → exec i s = .next (faulted s is 0x16 is.va)) ∧
      ((∀ r ∈ regs, 2 ^ ((c.tc.get 0 r).toNat / 2 ^ 22 % 4) = d) →
        (noop → exec i s = .next (staged s is c 4 (((List.range me).filter fun r => (c.place (32 * f.tc + r)).2).map fun r =>
          .lin (c.place (32 * f.tc + r)).1 (linOf c 0 i)))) ∧
        (¬ noop → badShape → exec i s = .next (faulted s is 0x1A is.va)) ∧
        (¬ noop → ¬ badShape → ∃ (rows : Nat → Row) (x y : Nat → Nat → Machine.Num) (F : Nat → Nat → Nat → Nat) (fl : Nat),
          exec i s = .next { staged s is c (4 + n) (((List.range me).flatMap fun r => rowResult c i (32 * f.tc + r) (rows r))
            ++ (if (c.place (32 * f.tc)).2 then [.astOr ((c.place (32 * f.tc)).1 / 32) (astBits fl)] else [])) with
            iss := some { is with steps := n } } ∧
          (∀ r < me, ∀ k < len, if scaled then IsScaled c (aRaw c f) me (e / 2 ^ 16 % 8) (e % 2 ^ 8) nb (e / 2 ^ 22 % 4) r k (x r k)
            else x r k = decFmt f.fa (aRaw c f r k)) ∧
          (∀ r < ne, ∀ k < len, if scaled then
            IsScaled c (bRaw c f d) ne (e / 2 ^ 19 % 8) (e / 2 ^ 8 % 2 ^ 8) nb (e / 2 ^ 24 % 4) r k (y r k)
            else y r k = decFmt f.fb (bRaw c f d r k)) ∧
          (∀ r < me, ∀ j < ne, ∀ k < d, MmaElement c f t x y r j k (elemAt 32 (rows r) (d * j + k)) (F r j k)) ∧
          ∀ bit, fl.testBit bit = true ↔ (∃ r < me, ∃ j < ne, ∃ k < d, (F r j k).testBit bit = true) ∨
            (bit = 7 ∧ scaled ∧ (pastList c (aRaw c f) me len (e / 2 ^ 22 % 4) ∨ pastList c (bRaw c f d) ne len (e / 2 ^ 24 % 4))))))

/-- MZERO, MCPY and MTRN write whole tile registers, MRD rounds accumulator rows into one row. A form that names a
planar register with d > 1 raises bad-tc. Otherwise MZERO makes rows 0 to 31 of Tc due at latency 2 as zero; MCPY
the rows of Ta at latency 2, and the source's AST byte, of a dead place too, joins the destination's; MTRN at latency 4 each 32-scalar segment transposed; MRD at
latency 6 one row with the accumulator's elements, scaled by the two band scales where they are named, rounded once
in increasing element under RM (clamped to the largest finite value where SAT is set), its conditions to the
destination's AST byte, and SRSEED after its draws. Every row written takes one lineage; nothing else changes.
[derived: R381, R382, R383, R375, R262, R258, R201] -/
def Obligations.TileRegisterFormsAndReadout : Prop :=
  ∀ (s : State) (is : Issue) (c : Ctx) (p : Pred) (f : MtxF),
    let tile := fun (i : Instr) (rows : Nat → Row) => (List.range 32).flatMap fun r => rowResult c i (32 * f.tc + r) (rows r)
    (Issues s is c (.mzero p f) → exec (.mzero p f) s = .next
      (open Classical in if planar c f.tc then faulted s is 0x11 is.va else staged s is c 2 (tile (.mzero p f) fun _ => 0))) ∧
    (∀ i ∈ [Instr.mcpy p f, .mtrn p f, .mrd p f], Issues s is c i → planar c f.tc ∨ planar c f.ta →
      exec i s = .next (faulted s is 0x11 is.va)) ∧
    (¬ planar c f.tc → ¬ planar c f.ta →
      (Issues s is c (.mcpy p f) → exec (.mcpy p f) s = .next (staged s is c 2 (tile (.mcpy p f) (fun r => c.row (32 * f.ta + r))
        ++ [.astOr ((c.place (32 * f.tc)).1 / 32) (c.arch.ast.get 0 ((c.place (32 * f.ta)).1 / 32))]))) ∧
      (Issues s is c (.mtrn p f) → ∃ rows : Nat → Row, exec (.mtrn p f) s = .next (staged s is c 4 (tile (.mtrn p f) rows)) ∧
        ∀ seg < 2048 / formatBits f.fa / 32, ∀ r < 32, ∀ k < 32,
          elemAt (formatBits f.fa) (rows r) (32 * seg + k) = elemAt (formatBits f.fa) (c.row (32 * f.ta + k)) (32 * seg + r)) ∧
      (Issues s is c (.mrd p f) → f.fa ∈ [0, 1, 2, 4, 5, 6] → f.fb ∈ [1, 6] →
        let e := f.ext.getD 0
        let band := fun (r k : Nat) => if f.ext.isSome then decFmt 0 ((c.bs.get 0 r).toNat / 2 ^ (16 * k) % 2 ^ 16) else Machine.Num.fin false 1 0
        let w := formatBits f.fa
        let rm := rmOf (e % 8)
        let seedOf := fun (k : Nat) => if rm = .sr then draw^[k] (seedNow c) else seedNow c
        let enc := fun (k : Nat) (x : Machine.Num) => if f.fa ≤ 1 then encIeeeR f.fa (f.sat == 1) rm (seedOf (k + 1)) x
          else encFmt f.fa rm (seedOf (k + 1)) x
        ∃ (row : Row) (x : Nat → Machine.Num) (fl : Nat) (F : Nat → Nat),
          (∀ k < 2048 / w,
            let a := decFmt f.fb (elemAt 32 (c.row (32 * f.ta + f.a0 + k / 64)) (k % 64))
            (f.fb = 6 → x k = a ∧ F k = 0) ∧
            (f.fb = 1 → ∃ b e0, IsProduct (band (e / 2 ^ 3 % 4) (e / 2 ^ 5 % 16)) (band (e / 2 ^ 9 % 4) (e / 2 ^ 11 % 16)) b e0 ∧
              if b = .nan then x k = .nan ∧ F k = 1 else IsProduct a b (x k) (F k)) ∧
            elemAt w row k = (enc k (x k)).1) ∧
          (∀ bit, fl.testBit bit = true ↔ ∃ k < 2048 / w, (enc k (x k)).2.testBit bit = true ∨ (F k).testBit bit = true) ∧
          exec (.mrd p f) s = .next (s.setCtx is.ck { c with
            arch := { c.arch with srseed := BitVec.ofNat 64 (seedOf (2048 / w)) },
            pend := c.pend ++ dueIn c is 6 (rowResult c (.mrd p f) (32 * f.tc + f.b0) row
              ++ (if (c.place (32 * f.tc + f.b0)).2 then [.astOr ((c.place (32 * f.tc + f.b0)).1 / 32) (astBits fl)] else [])) })))

/-- The scalar, compare, branch and header instructions of a kernel change their run as their rules say. For MOVI, ADD
to MAX with a register or a sign-extended 17-bit immediate, CMP.cc, BF, BFN, J, HRD and HWR, on a core whose run
moves, exec answers the next state in which only that run has changed: eD holds the result modulo 2^32 (e0 ignores
it), c the comparison, the header word the register, and the pc the next word or the branch's target. [derived: R89,
R90, R91] -/
def Obligations.ScalarKernelInstructions : Prop :=
  ∀ (s : State) (d core u : Nat) (r r' : Run) (i : Instr), EftRuns s d core u r → eftScalar r i = some r' →
    exec i s = .next (eftNext s u r')

/-- Kernel loads and stores reach the flow window, and kernel vectors compute by lane. With a = (eA + offset) modulo
2^32: PLD and PST with a 64-byte aligned a of at most 192 move 64 bytes between vD and the packet window; FLD and
FST with an aligned a below the size of the kernel's slot range move one flow word, FVLD and FVST 64 bytes of flow
state. The run goes on at the next word and nothing else changes. An address outside these bounds traps with cause
out-of-range (1), its address in the record. On INT32 lanes sums and products wrap and the extremes are signed. On
FP32 or BF16 lanes, where no lane has a NaN operand, ∞ - ∞ in VADD or 0 × ∞ in VMUL, each lane is the exact result
rounded to nearest even, or the smaller or larger with -0 below +0; otherwise the instruction traps with cause
fp-invalid (3) and writes nothing. VCVT converts by its kind: INT32 to FP32, FP32 to INT32 saturating, a half of
BF16 lanes to FP32, FP32 to a half of BF16 lanes with the other half kept; a NaN lane traps. [derived: R92, R97,
R93, R94] -/
def Obligations.KernelMemoryAndVectors : Prop :=
  (∀ (s : State) (d core u : Nat) (r : Run) (x a o : Nat), EftRuns s d core u r → u < 48 →
    let ad := eAddr r a o
    let base := (eRange s u r).1 + ad / 4
    let size := (eRange s u r).2
    let win := ad % 64 = 0 ∧ ad ≤ 192
    let low := ad % 4 = 0 ∧ ad < size
    let wide := ad % 64 = 0 ∧ ad < size
    (win → exec (.eftPld x a o) s = .next (eftNext s u (vPut r x (r.win / 256 ^ ad % 2 ^ 512)))) ∧
    (win → ∃ w, (∀ k < 256, w / 256 ^ k % 256 = if ad ≤ k ∧ k < ad + 64 then (r.v.getD x 0) / 256 ^ (k - ad) % 256 else r.win / 256 ^ k % 256) ∧
      exec (.eftPst x a o) s = .next (eftNext s u { r with win := w, pc := r.pc + 1 })) ∧
    (low → exec (.eftFld x a o) s = .next (eftNext s u (ePut r x (eFlow s u base % 2 ^ 32)))) ∧
    (low → exec (.eftFst x a o) s = .next (eftNext (s.setN 14 (0x4000 + base) u (eReg r x)) u { r with pc := r.pc + 1 })) ∧
    (wide → ∃ v, v < 2 ^ 512 ∧ (∀ k < 16, lane 32 v k = eFlow s u (base + k) % 2 ^ 32) ∧
      exec (.eftFvld x a o) s = .next (eftNext s u (vPut r x v))) ∧
    (wide → s.Canon → ∃ t, exec (.eftFvst x a o) s = .next t ∧ t = { eftNext s u { r with pc := r.pc + 1 } with regs := t.regs } ∧
      (∀ k < 16, eFlow t u (base + k) = lane 32 (r.v.getD x 0) k) ∧
      ∀ cls n un, (∀ k < 16, rkey cls n un ≠ rkey 14 (0x4000 + base + k) u) → t.reg cls n un = s.reg cls n un) ∧
    (¬ win → ∀ i ∈ [Instr.eftPld x a o, .eftPst x a o], exec i s = .next (eftTrap s u r 1 0 ad)) ∧
    (¬ low → ∀ i ∈ [Instr.eftFld x a o, .eftFst x a o], exec i s = .next (eftTrap s u r 1 0 ad)) ∧
    (¬ wide → ∀ i ∈ [Instr.eftFvld x a o, .eftFvst x a o, .eftMcast a o], exec i s = .next (eftTrap s u r 1 0 ad))) ∧
  (∀ (s : State) (d core u : Nat) (r : Run) (x a b t h : Nat), EftRuns s d core u r → t ≤ 2 →
    let fmt := if t = 1 then 1 else 0
    let w := if t = 2 then 16 else 32
    let A := fun k => lane w (r.v.getD a 0) k
    let B := fun k => lane w (r.v.getD b 0) k
    let num := fun (v : Nat) => decFmt fmt v
    let bad := fun (i : Instr) => t ≠ 0 ∧ ∃ k < 512 / w, num (A k) = .nan ∨ num (B k) = .nan ∨
      (i = .eftVadd x a b t h ∧ IsSum false [num (A k), num (B k)] .nan 1) ∨ (i = .eftVmul x a b t h ∧ IsProduct (num (A k)) (num (B k)) .nan 1)
    let out := fun (i : Instr) (P : Nat → Nat → Prop) =>
      (bad i → exec i s = .next (eftTrap s u r 3 0 0)) ∧
      (¬ bad i → ∃ v, v < 2 ^ 512 ∧ (∀ k < 512 / w, P k (lane w v k)) ∧ exec i s = .next (eftNext s u (vPut r x v)))
    let rounded := fun (P : Machine.Num → Nat → Prop) (v : Nat) => ∃ y, P y 0 ∧ v = (encIeeeR fmt false .rne 0 y).1
    out (.eftVadd x a b t h) (fun k v => if t = 0 then v = (A k + B k) % 2 ^ 32 else rounded (IsSum false [num (A k), num (B k)]) v) ∧
    out (.eftVmul x a b t h) (fun k v => if t = 0 then v = A k * B k % 2 ^ 32 else rounded (IsProduct (num (A k)) (num (B k))) v) ∧
    out (.eftVmin x a b t h) (fun k v => if t = 0 then v = lowOf 32 (min (sgn 32 (A k)) (sgn 32 (B k)))
      else v = if ordKey w (B k) < ordKey w (A k) then B k else A k) ∧
    out (.eftVmax x a b t h) (fun k v => if t = 0 then v = lowOf 32 (max (sgn 32 (A k)) (sgn 32 (B k)))
      else v = if ordKey w (A k) < ordKey w (B k) then B k else A k) ∧
    (h < 2 →
      let src := r.v.getD a 0
      let old := r.v.getD x 0
      let nanIn := fun (fm wd first n : Nat) => ∃ k < n, decFmt fm (lane wd src (first + k)) = .nan
      (∃ v, v < 2 ^ 512 ∧ (∀ k < 16, lane 32 v k = (encFmt 1 .rne 0 (decFmt 6 (lane 32 src k))).1) ∧
        exec (.eftVcvt x a 0 h) s = .next (eftNext s u (vPut r x v))) ∧
      (nanIn 1 32 0 16 → ∀ kind ∈ [1, 3], exec (.eftVcvt x a kind h) s = .next (eftTrap s u r 3 0 0)) ∧
      (nanIn 0 16 (16 * h) 16 → exec (.eftVcvt x a 2 h) s = .next (eftTrap s u r 3 0 0)) ∧
      (¬ nanIn 1 32 0 16 → ∃ v, v < 2 ^ 512 ∧ (∀ k < 16, lane 32 v k = (encFmt 6 .rne 0 (decFmt 1 (lane 32 src k))).1) ∧
        exec (.eftVcvt x a 1 h) s = .next (eftNext s u (vPut r x v))) ∧
      (¬ nanIn 0 16 (16 * h) 16 → ∃ v, v < 2 ^ 512 ∧
        (∀ k < 16, lane 32 v k = (encFmt 1 .rne 0 (decFmt 0 (lane 16 src (16 * h + k)))).1) ∧
        exec (.eftVcvt x a 2 h) s = .next (eftNext s u (vPut r x v))) ∧
      (¬ nanIn 1 32 0 16 → ∃ v, (∀ k < 32, lane 16 v k = if k / 16 = h then (encFmt 0 .rne 0 (decFmt 1 (lane 32 src (k % 16)))).1 else lane 16 old k) ∧
        exec (.eftVcvt x a 3 h) s = .next (eftNext s u (vPut r x v)))))

/-- FWD, MCAST, EMIT, DROP, DONE, NACK and PARK send, answer and end the run. While no clearing of EN waits: DROP and
DONE acknowledge the packet's sender and end the run, NACK answers a NACK, PARK places the packet as it arrived in a
free park entry, or acts as NACK. FWD sends the packet as it stands to its onward destination, holds it in the
output buffer, acknowledges the sender and ends the run; MCAST does so for each entry of its list in order; EMIT
sends a copy and the run goes on. An onward endpoint that is neither a core nor the sequencer, a malformed list or a
fifth EMIT traps illegal-operation (2), a LEN above 256 out-of-range (1), and nothing is sent (the order of the
checks: log entry 77). What leaves takes its fields from the header words and the core. [derived: R95, R96, R86, R82, R84, R85] -/
def Obligations.DispositionsEndTheRun : Prop :=
  ∀ (s : State) (d core u : Nat) (r : Run) (a o : Nat), EftRuns s d core u r → (s.eft u).stopping = [] →
    let h := fun n => r.h.getD n 0
    let to5 := onwardOf (h 5)
    let len := h 2 / 2 ^ 11 % 2 ^ 9
    let base := (eRange s u r).1 + eAddr r a o / 4
    let list := (List.range (eFlow s u base % 2 ^ 4)).map fun k => eFlow s u (base + 1 + k)
    let inRange := eAddr r a o % 64 = 0 ∧ eAddr r a o < (eRange s u r).2
    let listBad := list = [] ∨ ∃ w ∈ list, ¬ onwardOk (onwardOf w).2.2 ∨ w % 2 ^ 13 ≠ 0
    exec .eftDrop s = .next (runEnded (s.post (eftReply s u r 3)) u) ∧
    exec .eftDone s = .next (runEnded (s.post (eftReply s u r 3)) u) ∧
    exec .eftNack s = .next (runEnded (s.post (eftReply s u r 7)) u) ∧
    exec .eftPark s = .next (if (s.eft u).park.length < 16
      then runEnded (s.setEft u { s.eft u with park := (s.eft u).park ++ [⟨r.pkt, s.tsc.toNat, false⟩] }) u
      else runEnded (s.post (eftReply s u r 7)) u) ∧
    (¬ onwardOk to5.2.2 → exec .eftFwd s = .next (eftTrap s u r 2 0 0)) ∧
    (onwardOk to5.2.2 → 256 < len → exec .eftFwd s = .next (eftTrap s u r 1 0 0)) ∧
    (onwardOk to5.2.2 → len ≤ 256 → ∃ k, eftLeaves s u r to5.1 to5.2.1 to5.2.2 k ∧
      exec .eftFwd s = .next (runEnded ((eftSent s u r k).post (eftReply s u r 3)) u)) ∧
    (4 ≤ r.emits ∨ ¬ onwardOk to5.2.2 → exec .eftEmit s = .next (eftTrap s u r 2 0 0)) ∧
    (r.emits < 4 → onwardOk to5.2.2 → 256 < len → exec .eftEmit s = .next (eftTrap s u r 1 0 0)) ∧
    (r.emits < 4 → onwardOk to5.2.2 → len ≤ 256 → ∃ k, eftLeaves s u r to5.1 to5.2.1 to5.2.2 k ∧
      exec .eftEmit s = .next (eftNext (eftSent s u r k) u { r with emits := r.emits + 1, pc := r.pc + 1 })) ∧
    (inRange → listBad → exec (.eftMcast a o) s = .next (eftTrap s u r 2 0 0)) ∧
    (inRange → ¬ listBad → 256 < len → exec (.eftMcast a o) s = .next (eftTrap s u r 1 0 0)) ∧
    (inRange → ¬ listBad → len ≤ 256 → ∃ ks : List Pkt, ks.length = list.length ∧
      (∀ (n w : Nat) (k : Pkt), list[n]? = some w → ks[n]? = some k → eftLeaves s u r (onwardOf w).1 (onwardOf w).2.1 (onwardOf w).2.2 k) ∧
      exec (.eftMcast a o) s = .next (runEnded ((ks.foldl (fun t k => eftSent t u r k) s).post (eftReply s u r 3)) u))

/-- A trap of a kernel ends the run, counts in TRAPS, sets DIS at eight, answers the sender and writes its record. TRAP
code and every other trap of a run, while no clearing of EN waits: TRAPS has gone up by one (modulo 16: log entry 77)
and DIS is set where it reaches 8; the packet as it arrived is dropped, or under TRAPACT forwarded where its onward
endpoint takes packets, and its sender acknowledged; the trap record of the kernel's partition has the cause, the
pc, the kernel, TRAPS and whether DIS was set, DW1 of the packet's head flit, the code, the address and JOB; where
DIS was set, the parked packets of the kernel are handled as TRAPACT states in their order (log entry 117); the run
has ended and is counted; flow state and the instruction memory are unchanged, and nothing else has changed. TRAP
traps with cause user (4) and its code. Even where a clearing of EN waits, every disposition ends the run. [derived:
R97, R98, R95, R80, R75] -/
def Obligations.KernelTrapsAreCountedAndAnswered : Prop :=
  (∀ (s : State) (u : Nat) (r : Run) (cause code addr : Nat), s.Canon → u < 48 → r.kern < 8 → (s.eft u).stopping = [] →
    let t := eftTrap s u r cause code addr
    let v := (s.reg 14 (3 * r.kern) u).toNat
    let traps := v / 2 ^ 20 % 2 ^ 4 + 1
    let dis := 8 ≤ traps ∧ v / 2 ^ 19 % 2 = 0
    let w := withBits v 23 20 traps
    let w' := if dis then withBits w 19 19 1 else w
    (∃ s1 s2 : State, TrapActs (s.setN 14 (3 * r.kern) u w') s1 u r.kern r.pkt ∧
      (let s3 := emit s1 (v / 2 ^ 24 % 2 ^ 5) (srcNo (u / 12) 4 (u % 12)) 0x40
        (cause + r.pc % 256 * 2 ^ 8 + r.kern * 2 ^ 16 + v / 2 ^ 24 % 2 ^ 5 * 2 ^ 19 + traps % 16 * 2 ^ 24 + (if dis then 2 ^ 28 else 0))
        ((headOf r.pkt).getD 1 0) (code % 2 ^ 16 + addr % 2 ^ 32 * 2 ^ 16 + v / 2 ^ 29 % 2 ^ 16 * 2 ^ 48)
       let mine := fun (x : Parked) => matchKern s3 u x.pkt == some r.kern
       (dis → TrapActsOnAll u r.kern ((s3.eft u).park.filter mine)
          (s3.setEft u { s3.eft u with park := (s3.eft u).park.filter fun x => !mine x }) s2) ∧
       (¬ dis → s2 = s3)) ∧
      t = runEnded s2 u) ∧
    (t.eft u).run = none ∧ ∀ n, 0x1000 ≤ n → n < 0x8000 → t.reg 14 n u = s.reg 14 n u) ∧
  ∀ (s : State) (d core u : Nat) (r : Run) (code : Nat), EftRuns s d core u r →
    exec (.eftTrap code) s = .next (eftTrap s u r 4 code 0) ∧
    ∀ i ∈ [Instr.eftFwd, .eftDrop, .eftDone, .eftNack, .eftPark, .eftTrap code], ∃ t, exec i s = .next t ∧ (t.eft u).run = none

/-- A package reset keeps no state of the package. PACKAGE_RESET, POWER_LOSS and CRITICAL_TEMPERATURE of one of the four
dies complete in every state: every register, memory of the package, context, queue and table is as after
State.reset. What is not the package's stays: its fused identity, the bytes of the host's memory, which host links
are down (log entry 91), and the events that arrive from outside (model's choice, log entry 3); the model's own
counter goes on. [derived: R20] -/
def Obligations.PackageResetsKeepOnlyWhatIsOutside : Prop :=
  ∀ (s : State) (i : Instr), (i = .packageReset ∨ i = .powerLoss ∨ ∃ die < 4, i = .criticalTemperature die) →
    ∃ t, exec i s = .next t ∧
      t = { State.reset with
        ident := s.ident, tick := s.tick, mem := t.mem, pfDown := s.pfDown,
        events := s.events.filter fun e => !isInternal e } ∧
      (s.Canon → t.Canon ∧ ∀ a, rdByte t a = if region 7 0 ≤ a ∧ a < region 8 0 then rdByte s a else 0)

/-- The power cap, clock stretch, the timestamp counter and refresh management do what R15 to R22 say. For a state whose
register file is in canonical form. A supply sag raises the step count k of its cluster by one, to 8 at most, and
increments CLKSTR_EVT of the cluster where k was 0; a recovery lowers it by one, to 0 at least. A write of PWR_CAP
by an agent of a die whose group holds package authority leaves the smaller of the value and 2200, any other changes
nothing. A mean at the cap changes nothing, one below it ends the power stretch,
one above it changes only the power stretch (whose amount is free: log entry 10). A counter tick raises TSC by one
modulo 2^64, and it is the only change where no record is held back or to be reported lost and no cluster is
stretched. Activations of a row are counted; each time the count reaches the threshold of HBM_RMT, where 0 counts as
1, the row's count is cleared, the stack's alert is raised (and stays: log entry 103) and HBM_RFMCNT is incremented.
[derived: R15, R17, R20, R21, R22, R39] -/
def Obligations.PowerClockAndRefreshEvents : Prop :=
  ∀ (s : State), s.Canon →
    (∀ cl < 64, ∃ r, exec (.supplySagStepUp cl) s = .next (r.setCl cl { s.cl cl with k := min 8 ((s.cl cl).k + 1) }) ∧
      ((s.cl cl).k ≠ 0 → r = s) ∧ ((s.cl cl).k = 0 → RegOnly s r 2 0x806 cl (s.reg 2 0x806 cl + 1))) ∧
    (∀ cl < 64, exec (.supplySagStepDown cl) s = .next (s.setCl cl { s.cl cl with k := (s.cl cl).k - 1 })) ∧
    (∀ v, ∀ die < 4, (Authority s die → Writes (.pwrCapWrite ⟨v, die⟩) s 9 0 0 (BitVec.ofNat 64 (min (v % 2 ^ 64) 2200))) ∧
      (¬ Authority s die → exec (.pwrCapWrite ⟨v, die⟩) s = .next s)) ∧
    (∀ mean, ∃ k, exec (.powerMeasurement mean) s = .next { s with powerK := k } ∧
      (mean < (s.reg 9 0 0).toNat → k = 0) ∧ (mean = (s.reg 9 0 0).toNat → k = s.powerK)) ∧
    (∃ t, exec .tscTick s = .next t ∧ t.tsc = s.tsc + 1 ∧
      (s.recq = [] → (∀ r < 34, QuietRing s r) → (∀ p ∈ s.clusters, p.2.k = 0) → t = { s with tsc := s.tsc + 1 })) ∧
    (∀ stack row acts : Nat, stack < 8 →
      let thr := max 1 ((s.reg 10 0 stack).toNat % 2 ^ 16)
      let old := SMap.get 0 s.rowActs (row * 8 + stack)
      let need := max 1 (thr - old)
      (acts < need → exec (.refreshManagement stack row acts) s =
        .next { s with rowActs := SMap.put 0 s.rowActs (row * 8 + stack) (old + acts) }) ∧
      (need ≤ acts → ∃ r, RegOnly s r 10 1 stack (s.reg 10 1 stack + BitVec.ofNat 64 (1 + (acts - need) / thr)) ∧
        exec (.refreshManagement stack row acts) s = .next { r with
          alerts := if stack ∈ s.alerts then s.alerts else s.alerts ++ [stack],
          rowActs := SMap.put 0 s.rowActs (row * 8 + stack) ((acts - need) % thr) }))

/-- Writes of the place tables, of PART_CLMAP, HOLD and PRE take effect or are refused as R113, R159 and R173 say. For a
state whose register file is in canonical form. PART_CLMAP takes the value where no other partition holds a cluster
of it and the partition has no live context, and else PERR is set and it stays. PLD takes a permutation while no
context is resident or queued, from an agent of a die with package authority alone; a write it refuses sets PLERR of
every partition (log entry 15). PLC_d and PLT_d_c_h are refused, with PLERR set, while a context of the partition is
resident or queued; an idle partition's PLC_d takes a map whose clusters all lie in the partition, and refuses any
other; its PLT_d_c_h takes entries whose valid ones name clusters of the partition, where no two valid entries of
the table then name one tile, and refuses any other. HOLD is one bit of PART_RUN. PRE marks the resident contexts of the partition for pre-emption and nothing
else. [derived: R39, R113, R158, R159, R173] -/
def Obligations.PlaceAndPartitionRegisterWrites : Prop :=
  ∀ (s : State) (v : Nat), s.Canon →
    (∀ p < 32, (if (∃ q < 32, q ≠ p ∧ (s.reg 4 0x1000 q).toNat &&& v % 2 ^ 32 ≠ 0) ∨ (∃ l ∈ s.live, l.part = p ∧ l.st ≤ 3) then
        Writes (.partClmapWrite p v) s 4 0x1001 p (BitVec.ofNat 64 (withBits (s.rn 4 0x1001 p) 2 2 1))
      else Writes (.partClmapWrite p v) s 4 0x1000 p (BitVec.ofNat 64 (v % 2 ^ 32)))) ∧
    (∀ die < 4, (¬ Authority s die → exec (.pldWrite ⟨v, die⟩) s = .next s) ∧
      (Authority s die → (∀ p, ¬ holdsWork s p) → (∀ d < 4, ∃ l < 4, v / 4 ^ l % 4 = d) →
        Writes (.pldWrite ⟨v, die⟩) s 5 0x2000 0 (BitVec.ofNat 64 (v % 256))) ∧
      (Authority s die → ((∃ p, holdsWork s p) ∨ ∃ d < 4, ∀ l < 4, v / 4 ^ l % 4 ≠ d) → ∃ t, exec (.pldWrite ⟨v, die⟩) s = .next t ∧
        t = { s with regs := t.regs } ∧ (∀ p < 32, t.rn 4 0x1005 p = withBits (s.rn 4 0x1005 p) 2 2 1) ∧
        t.reg 5 0x2000 0 = s.reg 5 0x2000 0)) ∧
    (∀ p < 32, ∀ d < 4, ∀ c < 16, ∀ h < 2, holdsWork s p →
      Writes (.plcWrite p d v) s 4 0x1005 p (BitVec.ofNat 64 (withBits (s.rn 4 0x1005 p) 2 2 1)) ∧
      Writes (.pltWrite p d c h v) s 4 0x1005 p (BitVec.ofNat 64 (withBits (s.rn 4 0x1005 p) 2 2 1))) ∧
    (∀ p < 32, ∀ d < 4, ¬ holdsWork s p →
      let fits := ∀ k < 16, (s.reg 4 0x1000 p).getLsbD ((s.physDie d * 16 + v / 16 ^ k % 16) / 2) = true
      (fits → Writes (.plcWrite p d v) s 4 (0x1014 + d) p (BitVec.ofNat 64 v)) ∧
      (¬ fits → Writes (.plcWrite p d v) s 4 0x1005 p (BitVec.ofNat 64 (withBits (s.rn 4 0x1005 p) 2 2 1)))) ∧
    (∀ p < 32, ∀ d < 4, ∀ c < 16, ∀ h < 2, ¬ holdsWork s p →
      let n := 0x1100 + 32 * d + 2 * c + h
      let w := BitVec.ofNat 64 v &&& 0x83F783F783F783F7
      let u := s.setReg 4 n p w
      let fits := (∀ k < 4, 2 ^ 15 ≤ v / 2 ^ (16 * k) % 2 ^ 16 → (s.reg 4 0x1000 p).getLsbD (v / 2 ^ (16 * k) / 16 % 64 / 2) = true) ∧
        ∀ g < 512, ∀ g' < g, ∀ t, u.physTile p g = some t → u.physTile p g' ≠ some t
      (fits → Writes (.pltWrite p d c h v) s 4 n p w) ∧
      (¬ fits → Writes (.pltWrite p d c h v) s 4 0x1005 p (BitVec.ofNat 64 (withBits (s.rn 4 0x1005 p) 2 2 1)))) ∧
    (∀ p < 32, Writes (.holdWrite p v) s 4 0x1005 p (BitVec.ofNat 64 (withBits (s.rn 4 0x1005 p) 0 0 v))) ∧
    (∀ p < 32, exec (.preWrite p v) s = .next (if v % 2 = 0 then s else { s with ctxs := s.ctxs.map fun e =>
      (e.1, if e.2.part = p then { e.2 with preempt := true } else e.2) }))

/-- Writes of the slot table, lottery seeds, barrier groups, turn tables, invalidation counts and verdicts. For a state
in canonical form. SLOTTAB keeps 16 bits, and the map that it replaces serves until the next cycle of index 0.
CARD_LSEED reseeds the three arbiters, 0 as 1. AUTO_STAT takes RETIRED where no place-table entry names the tile or
where it is set (log entry 51). FINJ_CTL keeps its fields and restarts the count. BARG_CTL and BARG_CLU are ignored while ARRIVED
is nonzero; EN is kept with a COUNT from 1 to 1024 only. INV_PROD takes the value, and an overrun sets INV_ERR;
INV_KICK with a log that is stopped or applied changes nothing, and else ends with INV_DONE at INV_PROD. NOC_WINMIN
stays 0x40. A turn-table entry of more than 8 turns is ignored, as is one for a core of a spine that has not the turns
of R48 (log entry 63). COLL_RTB of a context is replaced, is polled from then on, and its ring table counts as
mapped. A verdict outside a seal fault, or the second, changes nothing; Remote takes one from SFC, not
below 0; Local adds one, to 255 at most, and where SFC then is AUTO_THR or more, which is not 0, queues the tile's
autotomy. (That SFC stays at 255, and that AUTO_THR is met from above too, are the model's choices: log entry 50.)
[derived: R48, R56, R57, R143, R144, R177, R195, R236, R238, R240, R241] -/
def Obligations.TileClusterAndDieRegisterWrites : Prop :=
  ∀ (s : State) (v : Nat), s.Canon →
    (∀ tile < 512, ∃ r, RegOnly s r 1 0x400 tile (BitVec.ofNat 64 (v % 2 ^ 16)) ∧ exec (.slottabWrite tile v) s = .next (r.setTile tile
      { s.tile tile with slottab := some ((s.tile tile).slottab.getD (s.rn 1 0x400 tile)) })) ∧
    (∀ cl < 64, ∃ r, RegOnly s r 2 0x803 cl (BitVec.ofNat 64 (v % 2 ^ 32)) ∧ exec (.cardLseedWrite cl v) s = .next (r.setCl cl
      { s.cl cl with gens := List.replicate 3 (if v % 2 ^ 32 = 0 then 1 else v % 2 ^ 32) })) ∧
    (∀ tile < 512, (∀ p < 32, ∀ g < 512, s.physTile p g ≠ some tile) ∨ v % 2 = 1 →
      Writes (.retiredWrite tile v) s 1 0x405 tile (BitVec.ofNat 64 (v % 2))) ∧
    (∀ tile < 512, (∃ p < 32, ∃ g < 512, s.physTile p g = some tile) → v % 2 = 0 → exec (.retiredWrite tile v) s = .next s) ∧
    (∀ cl < 64, ∃ r, RegOnly s r 2 0x804 cl (BitVec.ofNat 64 (v &&& 0xFFFF0007)) ∧
      exec (.finjCtlWrite cl v) s = .next (r.setCl cl { s.cl cl with finj := 0 })) ∧
    (∀ p < 32, ∀ g < 16, if s.rn 4 (0x1020 + g) p / 2 ^ 21 % 2 ^ 11 ≠ 0 then
        exec (.bargCtlWrite p g v) s = .next s ∧ exec (.bargCluWrite p g v) s = .next s
      else Writes (.bargCtlWrite p g v) s 4 (0x1020 + g) p (BitVec.ofNat 64 (s.rn 4 (0x1020 + g) p / 2 ^ 32 % 2 ^ 16 * 2 ^ 32
          + (if v / 2 ^ 15 % 2 = 1 ∧ 1 ≤ v % 2 ^ 11 ∧ v % 2 ^ 11 ≤ 1024 then 2 ^ 15 else 0) + v % 2 ^ 11)) ∧
        Writes (.bargCluWrite p g v) s 4 (0x1030 + g) p (BitVec.ofNat 64 v)) ∧
    (∀ die < 4, if (v + 2 ^ 64 - s.rn 3 0xC07 die) % 2 ^ 64 > 2 ^ (s.rn 3 0xC05 die % 32) then
        ∃ t, exec (.invProdWrite die v) s = .next t ∧ t = { s with regs := t.regs } ∧ t.reg 3 0xC06 die = BitVec.ofNat 64 v ∧
          t.rn 3 0xC05 die = withBits (s.rn 3 0xC05 die) 5 5 1
      else Writes (.invProdWrite die v) s 3 0xC06 die (BitVec.ofNat 64 v)) ∧
    (∀ die < 4, s.rn 3 0xC05 die / 32 % 2 = 1 ∨ s.reg 3 0xC07 die = s.reg 3 0xC06 die → exec (.invKickWrite die v) s = .next s) ∧
    (∀ die < 4, s.rn 3 0xC05 die / 32 % 2 = 0 → 4 ≤ s.rn 3 0xC05 die % 32 → s.rn 3 0xC05 die % 32 ≤ 16 →
      (s.reg 3 0xC06 die - s.reg 3 0xC07 die).toNat ≤ 2 ^ (s.rn 3 0xC05 die % 32) →
      ∃ t, exec (.invKickWrite die v) s = .next t ∧ t.reg 3 0xC07 die = s.reg 3 0xC06 die ∧ t.ctxs = s.ctxs ∧ t.tags = s.tags) ∧
    (∀ die < 4, Writes (.nocWinminWrite die v) s 3 0xC02 die 0x40) ∧
    (∀ die < 4, ∀ leaf < 8, ∀ e < 44, (v % 2 ^ 63 / 2 ^ 32 % 16 > 8 → exec (.nocTurnWrite die leaf e v) s = .next s) ∧
      (32 ≤ e → e < 40 → (v / 2 ^ 32 % 16 ≠ 3 ∨ v % 2 ^ 12 ≠ (2 + e % 2) * 2 ^ 8 + 0xFF) →
        exec (.nocTurnWrite die leaf e v) s = .next s) ∧
      (turnOk e (v % 2 ^ 64) = true → Writes (.nocTurnWrite die leaf e v) s 12 (leaf * 64 + e) die
        (BitVec.ofNat 64 v &&& 0x8000000FFFFFFFFF))) ∧
    (∀ ck c, s.ctx? ck = some c → ∃ l, exec (.collRtbWrite ck v) s =
        .next { s.setCtx ck { c with arch := { c.arch with collRtb := BitVec.ofNat 64 v } } with live := l } ∧
      (∀ e ∈ l, e.part = c.part → e.cr = c.cr → e.rtbBad = false ∧ e.rtb = v % 2 ^ 64) ∧ (s.live? c.part c.cr = none → l = s.live)) ∧
    (∀ ck i, (i = .verdictRemote ck ∨ i = .verdictLocal ck) → ∀ c, s.ctx? ck = some c → ∃ t, exec i s = .next t ∧
      (c.verdict = true ∨ (c.arch.ecause.toNat % 256 ≠ 0x14 ∧ c.arch.ecause.toNat % 256 ≠ 0x15) → t = s) ∧
      (c.verdict = false → (c.arch.ecause.toNat % 256 = 0x14 ∨ c.arch.ecause.toNat % 256 = 0x15) →
        t.ctx? ck = some { c with verdict := true } ∧
        (i = .verdictRemote ck → t.reg 1 0x402 (ck / 2) = BitVec.ofNat 64 (s.rn 1 0x402 (ck / 2) - 1)) ∧
        (i = .verdictLocal ck →
          let n := min 255 (s.rn 1 0x402 (ck / 2) + 1)
          let thr := s.rn 1 0x403 (ck / 2)
          t.reg 1 0x402 (ck / 2) = BitVec.ofNat 64 n ∧
          (thr ≠ 0 → thr ≤ n → (∀ a ∈ s.autoq, a.tile ≠ ck / 2) →
            ⟨s.tsc.toNat, ck / 2, n⟩ ∈ t.autoq ∧ t.autoq.length = s.autoq.length + 1 ∧ t.events = s.events ++ [.autotomy (ck / 2)]) ∧
          (thr = 0 ∨ n < thr → t.autoq = s.autoq ∧ t.events = s.events))))

/-- A notification record is stamped, written in its ring, held back, or counted lost. For a ring of a partition (0 to
31) or of a physical function (32, 33), a source below 2^16 and a register file and memory in canonical form. A
source that has given a record at this count of TSC, or waits with one, is held back. Otherwise, where the link of
the ring's physical function is down or a stream of it Insecure (log entry 54), or earlier records of the ring are
held and no lost ones are to be reported, and fewer than 4,096 records of the ring are held, the record is held
behind them. Otherwise, with nothing lost before: where LOGN is 4 to 15 and the producer count is less than 2^LOGN ahead
of the consumer count, the 32 bytes at NRB + 32 x (PROD mod 2^LOGN) of host memory hold the timestamp, the source
with type and fields, DW2 and DW3; PROD rises by one; every other byte stays. Where there is no room LOST is
incremented in its 32 bits and memory stays. [derived: R18, R25, R26, R114, R115, R116] -/
def Obligations.NotificationRecordsReachTheirRing : Prop :=
  ∀ (s : State) (ring src typ hi dw2 dw3 : Nat) (pc kc cc bc : Nat × Nat × Nat), s.Canon → ring < 34 → src < 2 ^ 16 →
    (bc, cc, pc, kc) = State.ringRegs ring → dw2 < 2 ^ 64 → dw3 < 2 ^ 64 → typ + hi * 2 ^ 8 < 2 ^ 48 →
    ∀ t, t = emit s ring src typ hi dw2 dw3 →
    let value := fun (u : State) (r : Nat × Nat × Nat) => u.rn r.1 r.2.1 r.2.2
    let logn := value s cc / 2 ^ 32 % 16
    let early := SMap.get 0 s.recAt src = s.tsc.toNat + 1 ∨ ∃ r ∈ s.recq, r.src = src
    let behind := ∃ x ∈ s.recHeld, x.1 = ring
    let room := 4 ≤ logn ∧ (value s pc + 2 ^ 64 - value s kc) % 2 ^ 64 < 2 ^ logn ∧ logn ≤ 15
    let a := region 7 (value s bc + 32 * (value s pc % 2 ^ logn))
    (early → t = { s with recq := s.recq ++ [⟨ring, src, typ + hi * 2 ^ 8, dw2, dw3⟩] }) ∧
    (¬ early → WayShut s ring ∨ (behind ∧ SMap.get 0 s.lost ring = 0) → (s.recHeld.filter fun x => x.1 == ring).length < 4096 →
      t = { s with recAt := t.recAt, recHeld := s.recHeld ++ [(ring, [s.tsc.toNat, src + (typ + hi * 2 ^ 8) * 2 ^ 16, dw2, dw3])] }) ∧
    (¬ early → ¬ WayShut s ring → ¬ behind → SMap.get 0 s.lost ring = 0 → room →
      rdNat t a 8 = s.tsc.toNat ∧ rdNat t (a + 8) 8 = src + typ * 2 ^ 16 + hi * 2 ^ 24 ∧ rdNat t (a + 16) 8 = dw2 ∧
      rdNat t (a + 24) 8 = dw3 ∧ BytesKept s t a 32 ∧ value t pc = (value s pc + 1) % 2 ^ 64 ∧
      t = { s with recAt := t.recAt, mem := t.mem, regs := t.regs, msix := t.msix }) ∧
    (¬ early → ¬ WayShut s ring → ¬ behind → SMap.get 0 s.lost ring = 0 → ¬ room →
      value t cc = withBits (value s cc) 31 0 (value s cc % 2 ^ 32 + 1) ∧
      t = { s with recAt := t.recAt, regs := t.regs, lost := SMap.put 0 s.lost ring 1 })

/-- Writes of the queue, function, seed and ring registers by the host. For a state whose register file is in canonical
form. CQ_TAIL takes a count from CQ_HEAD to CQ_HEAD + 2^LOGN; any other count sets ERR, clears EN, keeps CQ_TAIL
and, for a bound function, gives a queue-error record (DW2: log entry 68). CQ_CTL clears ERR by 1, keeps TICKETS and LOGN, and takes EN
= 1 only where ERR is clear, CQ_BASE is a multiple of 128 and LOGN is 1 to 12 (an ignored EN = 1 leaves EN: log
entry 30). VF_PART takes BOUND unless a function of the other PF is bound to the partition, which sets PERR and
nothing else. PF_IDECTL does not take REQ while no stream of the link is Secure. CP_LSEED reseeds its lottery, 0 as
1. A consumer count is taken, which is all where the ring holds nothing back or its way is shut; where only lost
records are to be reported, the way is open, the ring has room and its controller has given no record at this count
of TSC (log entry 27), a records-lost record with their count is written. [derived: R25, R102, R104, R111, R114, R115] -/
def Obligations.CommandQueueAndFunctionRegisterWrites : Prop :=
  ∀ (s : State) (v : Nat), s.Canon → v < 2 ^ 64 →
    (∀ vf < 512, ∀ q < 4,
      (s.rn 6 (0x13 + 4 * q) vf ≤ v → v ≤ s.rn 6 (0x13 + 4 * q) vf + 2 ^ (s.rn 6 (0x11 + 4 * q) vf % 16) →
        Writes (.cqTailWrite vf q v) s 6 (0x12 + 4 * q) vf (BitVec.ofNat 64 v)) ∧
      (v < s.rn 6 (0x13 + 4 * q) vf ∨ s.rn 6 (0x13 + 4 * q) vf + 2 ^ (s.rn 6 (0x11 + 4 * q) vf % 16) < v →
        ∃ r, RegOnly s r 6 (0x11 + 4 * q) vf (s.reg 6 (0x11 + 4 * q) vf &&& ~~~(0x10 : W64) ||| 0x10000) ∧
          ((s.reg 6 0 vf).getLsbD 5 = false → exec (.cqTailWrite vf q v) s = .next r) ∧
          ((s.reg 6 0 vf).getLsbD 5 = true → exec (.cqTailWrite vf q v) s =
            .next (emit r (s.rn 6 0 vf % 32) (srcNo (if vf < 256 then 0 else 2) 2 0) 2 0 (vf * 2 ^ 16 + q) v))) ∧
      (∀ err en : Nat, err = (if s.rn 6 (0x11 + 4 * q) vf / 2 ^ 16 % 2 = 1 ∧ v / 2 ^ 16 % 2 = 0 then 1 else 0) →
        en = (if v / 16 % 2 = 0 then 0 else if err = 0 ∧ s.rn 6 (0x10 + 4 * q) vf % 128 = 0 ∧ 1 ≤ v % 16 ∧ v % 16 ≤ 12 then 1
          else s.rn 6 (0x11 + 4 * q) vf / 16 % 2) →
        Writes (.cqCtlWrite vf q v) s 6 (0x11 + 4 * q) vf
          (BitVec.ofNat 64 (err * 2 ^ 16 + v / 2 ^ 8 % 2 ^ 8 * 2 ^ 8 + en * 16 + v % 16)))) ∧
    (∀ vf < 512, (if v / 32 % 2 = 1 ∧ ∃ w < 512, w / 256 ≠ vf / 256 ∧ s.rn 6 0 w % 64 = 32 + v % 32 then
        Writes (.vfPartWrite vf v) s 4 0x1001 (v % 32) (s.reg 4 0x1001 (v % 32) ||| 4)
      else Writes (.vfPartWrite vf v) s 6 0 vf (BitVec.ofNat 64 (v % 64)))) ∧
    (∀ pf < 2, (if v % 2 = 1 ∧ ∀ x ∈ s.streams, x.1 = pf → x.2.2 = false then exec (.pfIdectlWrite pf v) s = .next s
      else Writes (.pfIdectlWrite pf v) s 7 5 pf (BitVec.ofNat 64 (v % 2)))) ∧
    (∀ cp < 2, ∃ r, RegOnly s r 9 1 cp (BitVec.ofNat 64 (v % 2 ^ 32)) ∧ exec (.cpLseedWrite cp v) s =
      .next (r.setCp cp { s.cp cp with x := if v % 2 ^ 32 = 0 then 1 else v % 2 ^ 32 })) ∧
    (∀ p < 32, QuietRing s p ∨ WayShut s p → Writes (.nrConsWrite p v) s 8 1 p (BitVec.ofNat 64 v)) ∧
    (∀ pf < 2, QuietRing s (32 + pf) ∨ WayShut s (32 + pf) → Writes (.hvNrConsWrite pf v) s 7 3 pf (BitVec.ofNat 64 v)) ∧
    (∀ p < 32, ∀ n logn : Nat, SMap.get 0 s.lost p = n → SMap.get 0 s.recGone p = 0 → (∀ x ∈ s.recHeld, x.1 ≠ p) → ¬ WayShut s p →
      SMap.get 0 s.recAt (srcNo (2 * (s.pfOf p).getD 0) 3 0) ≠ s.tsc.toNat + 1 → n ≠ 0 → n < 2 ^ 64 → logn = s.rn 4 0x1003 p / 2 ^ 32 % 16 → 4 ≤ logn →
      (s.rn 8 0 p + 2 ^ 64 - v) % 2 ^ 64 < 2 ^ logn → logn ≤ 15 → ∃ t, exec (.nrConsWrite p v) s = .next t ∧ t.lost = SMap.put 0 s.lost p 0 ∧
        t.rn 8 1 p = v ∧ t.rn 8 0 p = (s.rn 8 0 p + 1) % 2 ^ 64 ∧
        rdNat t (region 7 (s.rn 4 0x1002 p + 32 * (s.rn 8 0 p % 2 ^ logn)) + 16) 8 = n)

/-- A host request at a BAR reads or writes the register that its offset names, or is refused as the map says. For a
request of at least one byte on a link that is up, and a register file in canonical form. With REQ of the PF set, a
request that is not bound to a Secure stream and is not at PF BAR0 completes with Unsupported Request, as does one
at a BAR that the function has not (model's choice, log entry 31), and nothing else changes. The DOE mailbox of a PF
makes a selective stream Secure or removes it (log entry 105). At a VF's BAR0, an
access that is not 8 bytes and aligned reads as zero, ignores the write, and counts in VF_BADACC; the queue
registers read as stored and CQ_BASE takes the value; NR_PROD of an unbound function reads as zero. At PF BAR0, an
offset that the map does not name reads as zero and ignores the write; a register of a VF, or one of a partition
that keeps what is written, is reached at its offset. [derived: R24, R25, R100, R101, R110, R111, R112] -/
def Obligations.HostRequestsAtTheBars : Prop :=
  ∀ (s : State) (f : Fn) (pf : Nat) (sec : Bool) (off size : Nat) (x : Nat), s.Canon → fnOk f = true → Fn.pfNo f = pf → pf ∉ s.pfDown →
    0 < size →
    (∀ d bar, (s.reg 7 5 pf).getLsbD 0 = true → sec = false → (f ≠ .pf pf ∨ bar ≠ 0) →
      exec (.hostRequest ⟨f, bar, off, size, d, sec⟩) s = .next { s with resp := some none }) ∧
    ((s.reg 7 5 pf).getLsbD 0 = false ∨ sec = true ∨ f = .pf pf →
      (∀ d bar, bar ≠ 0 → (bar ≠ 2 ∧ bar ≠ 6 ∨ f ≠ .pf pf) → (s.reg 7 5 pf).getLsbD 0 = false ∨ sec = true →
        exec (.hostRequest ⟨f, bar, off, size, d, sec⟩) s = .next { s with resp := some none }) ∧
      (∀ n < 8, f = .pf pf → (s.reg 7 5 pf).getLsbD 0 = false ∨ sec = true → ∃ l,
        exec (.hostRequest ⟨f, 6, n, size, some x, sec⟩) s = .next { s with streams := l } ∧
        ∀ y, y ∈ l ↔ (x % 2 = 1 ∧ y = (pf, n, true)) ∨ (y ∈ s.streams ∧ ¬ (y.1 = pf ∧ y.2.1 = n))) ∧
      (∀ v, f = .vf v → size ≠ 8 ∨ off % 8 ≠ 0 → ∃ r, RegOnly s r 6 2 v (s.reg 6 2 v + 1) ∧
        exec (.hostRequest ⟨f, 0, off, size, some x, sec⟩) s = .next r ∧
        exec (.hostRequest ⟨f, 0, off, size, none, sec⟩) s = .next { r with resp := some (some 0) }) ∧
      (∀ v, f = .vf v → size = 8 → ∀ q < 4, ∀ k < 4, off = 0x40 * q + 8 * k →
        exec (.hostRequest ⟨f, 0, off, size, none, sec⟩) s = .next { s with resp := some (some (s.rn 6 (0x10 + 4 * q + k) v)) }) ∧
      (∀ v, f = .vf v → size = 8 → ∀ q < 4, off = 0x40 * q →
        Writes (.hostRequest ⟨f, 0, off, size, some x, sec⟩) s 6 (0x10 + 4 * q) v (BitVec.ofNat 64 x)) ∧
      (∀ v, f = .vf v → size = 8 → off = 0x100 → (s.reg 6 0 v).getLsbD 5 = false →
        exec (.hostRequest ⟨f, 0, off, size, none, sec⟩) s = .next { s with resp := some (some 0) }) ∧
      (f = .pf pf → off < 0x400000 → size ≠ 8 ∨ off % 8 ≠ 0 →
        exec (.hostRequest ⟨f, 0, off, size, some x, sec⟩) s = .next s ∧
        exec (.hostRequest ⟨f, 0, off, size, none, sec⟩) s = .next { s with resp := some (some 0) }) ∧
      (∀ v < 512, f = .pf pf → size = 8 → ∀ k < 3, off = 0x10000 + 0x100 * v + 8 * k →
        exec (.hostRequest ⟨f, 0, off, size, none, sec⟩) s = .next { s with resp := some (some (s.rn 6 k v)) }) ∧
      (∀ p < 32, f = .pf pf → size = 8 → ∀ e ∈ plainRegs, e.1 = 4 → off = 0x40000 + 0x1000 * p + 8 * (e.2.1 - 0x1000) →
        Writes (.hostRequest ⟨f, 0, off, size, some x, sec⟩) s 4 e.2.1 p (BitVec.ofNat 64 x &&& BitVec.ofNat 64 e.2.2)))

/-- REGISTER_WRITE keeps the fields of a register or is refused, and the host links and IDE streams change state as they
are told. For a state whose register file is in canonical form. A privileged REGISTER_WRITE of a register without an
effect of its own leaves the written fields of it and 0 in its reserved bits; an unprivileged one of a privileged register changes
nothing; one of a package register, but for a lottery seed, by an agent of a die without package authority changes
nothing; and every REGISTER_WRITE of a class that the model numbers completes (log entry 90). An IDE integrity
failure leaves that stream Insecure and the others as they were. A host link that goes down is listed as down, and
gives the link event 4 to the hypervisor (R115); one that comes up is listed no more and, where no record was held
or discarded for it, does nothing but give the link event 5. [derived: R7, R25, R26, R39, R43, R110, R319] -/
def Obligations.RegisterWritesByKeyAndHostLinkEvents : Prop :=
  ∀ (s : State), s.Canon →
    (∀ e ∈ plainRegs, ∀ unit < 2 ^ 16, ∀ v, ∀ die < 4, Writes (.registerWrite (rkey e.1 e.2.1 unit) ⟨v, die⟩ true) s e.1 e.2.1 unit
      (BitVec.ofNat 64 v &&& BitVec.ofNat 64 e.2.2)) ∧
    (∀ cls num unit v die, die < 4 → 1 ≤ cls → cls ≤ 15 → num < 2 ^ 16 → unit < 2 ^ 16 →
      (cls ≠ 15 → (cls = 6 → num < 0x10) → (cls = 8 → num ≠ 1) → exec (.registerWrite (rkey cls num unit) ⟨v, die⟩ false) s = .next s) ∧
      (¬ Authority s die → cls = 5 ∨ (cls = 9 ∧ num ≠ 1) → exec (.registerWrite (rkey cls num unit) ⟨v, die⟩ true) s = .next s) ∧
      ∀ b, ∃ t, exec (.registerWrite (rkey cls num unit) ⟨v, die⟩ b) s = .next t) ∧
    (∀ pf < 2, ∀ n < 8, ∃ l, exec (.ideIntegrityFailure pf n) s = .next { s with streams := l } ∧
      ∀ x, x ∈ l ↔ x = (pf, n, false) ∨ (x ∈ s.streams ∧ ¬ (x.1 = pf ∧ x.2.1 = n))) ∧
    (∀ pf < 2, pf ∉ s.pfDown → exec (.pcieLinkDown pf) s =
      .next (emitHv { s with pfDown := s.pfDown ++ [pf] } (2 * pf) (srcNo (2 * pf) 6 4) 0x14 4 0 0)) ∧
    (∀ pf, pf ∈ s.pfDown → ∃ t u, exec (.pcieLinkUp pf) s = .next t ∧ t = emitHv u (2 * pf) (srcNo (2 * pf) 6 4) 0x14 5 0 0 ∧
      (∀ x, x ∈ u.pfDown ↔ x ∈ s.pfDown ∧ x ≠ pf) ∧
      ((∀ r < 34, QuietRing s r) → u = { s with pfDown := u.pfDown }))

/-- A lottery draw steps the generator and takes the record at CQ_HEAD of the winner that R104 names. For a command
processor all of whose taken records have WAIT, with a runnable queue of its 1024 (R103, and its host link up, R26),
and registers in canonical form: the generator takes one step of R104; the winner is the least queue whose running
total of the runnable queues' tickets, each the smaller of TICKETS and VF_TKMAX, exceeds x mod T, or with no tickets
the next runnable queue after the last winner; its CQ_HEAD rises by one, and the record that stood at CQ_BASE + 128
x (CQ_HEAD mod 2^LOGN) of host memory is taken and goes to be processed. Nothing else changes. Without a runnable
queue the event does not take place. [derived: R103, R104, R170] -/
def Obligations.LotteryDraws : Prop :=
  ∀ (s : State) (cp : Nat), s.Canon → cp < 2 → 0 < (s.cp cp).x → (s.cp cp).x < 2 ^ 32 → (∀ r ∈ (s.cp cp).taken, r.raw / 256 % 2 = 1) →
    ((∀ k < 1024, ¬ IsRunnable s (cp * 1024 + k)) → exec (.lotteryDraw cp) s = .fault .notPossible) ∧
    ((∃ k < 1024, IsRunnable s (cp * 1024 + k)) →
      ∃ (w : Nat) (r : State) (rec : LRec),
        let x := (xorshift32 (BitVec.ofNat 32 (s.cp cp).x)).toNat
        let n := cp * 1024 + w
        Wins 1024 (fun k => IsRunnable s (cp * 1024 + k)) (fun k => tickets s (cp * 1024 + k)) x (s.cp cp).last w ∧ IsRunnable s n ∧
        rec = ⟨n, queueReg s n 3, rdNat s (region 7 (queueReg s n 0 + 128 * (queueReg s n 3 % 2 ^ (queueReg s n 1 % 16)))) 128⟩ ∧
        RegOnly s r 6 (0x13 + 4 * (n % 4)) (n / 4) (BitVec.ofNat 64 (queueReg s n 3 + 1)) ∧
        exec (.lotteryDraw cp) s = .next ((r.setCp cp { s.cp cp with
          x := x, last := w, taken := (s.cp cp).taken ++ [rec], open_ := (s.cp cp).open_ ++ [(n, queueReg s n 3)] }).post (recEvent rec)))

/-- MARKER, RETIRE, ADMIT and LAUNCH wait their turn, refuse an ill-formed record with bad-record, and complete. For a
taken record of the event's OPC. A record whose turn R103 has not come is put back. In its turn, a record without
FLAG and STATUS: a well-formed MARKER leaves its command processor and nothing else changes; a well-formed RETIRE
with IMAGE aligned to 128 bytes also removes the images at IMAGE from the partition's table; every ill-formed
record, one with an unassigned OPC among them, and an ADMIT or RETIRE with IMAGE not aligned, leaves and gives the
launch-refused record with status 4; an ADMIT and a LAUNCH complete in every state, and a well-formed record of a
partition that does not lie wholly in the processor's group gives status 6. With STATUS in memory that the processor
can reach, a MARKER without FLAG leaves 1 there. (Status 6, and that PART_CLMAP says what lies in the group, are the
model's choice: log entry 67; so are the fields of the launch-refused record: log entry 68.)
[derived: R39, R103, R106, R109, R120] -/
def Obligations.RecordsAreCheckedAndCompleted : Prop :=
  ∀ (s : State) (r : LRec) (i : Instr), r ∈ (s.cp (r.queue / 1024)).taken →
    (i = .marker r ∧ recField r 0 7 0 = 4 ∨ i = .retire r ∧ recField r 0 7 0 = 3 ∨ i = .admitImage r ∧ recField r 0 7 0 = 2 ∨
      i = .launch r ∧ recField r 0 7 0 ≠ 2 ∧ recField r 0 7 0 ≠ 3 ∧ recField r 0 7 0 ≠ 4) →
    let part := (s.reg 6 0 (r.queue / 4)).toNat % 32
    let refused := fun (code : Nat) => closeRec (emit (untake s r) part (srcNo (2 * (r.queue / 1024)) 2 0) 1 code
      (r.queue / 4 * 2 ^ 16 + r.queue % 4) r.head) r.queue r.head
    let wholly := ∀ c < 64, s.inMap part c = true → s.reach (2 * (r.queue / 1024)) (c / 16) = true
    (¬ Turn s r → exec i s = .next (s.post i)) ∧
    (Turn s r → ∃ t, exec i s = .next t) ∧
    (Turn s r → recField r 8 63 0 = 0 → recField r 9 63 0 = 0 →
      (i = .marker r → wellFormedRec r → wholly → exec i s = .next (leftCp s r)) ∧
      (i = .retire r → wellFormedRec r → recField r 1 6 0 = 0 → wholly → exec i s = .next (leftCp
        { s with images := SMap.put [] s.images part ((SMap.get [] s.images part).filter fun im => im.base != recField r 1 63 0) } r)) ∧
      (¬ wellFormedRec r → exec i s = .next (refused 4)) ∧
      (i ≠ .marker r → recField r 1 6 0 ≠ 0 → exec i s = .next (refused 4)) ∧
      (¬ wholly → (i = .launch r → launchBad r = false) → (i ≠ .launch r → wellFormedRec r) →
        (i = .admitImage r ∨ i = .retire r → recField r 1 6 0 = 0) → exec i s = .next (refused 6))) ∧
    (∀ u a, Turn s r → i = .marker r → wellFormedRec r → wholly → recField r 8 63 0 = 0 → recField r 9 63 0 ≠ 0 → s.Canon →
      exchangeOf s part (recField r 9 63 0) = none →
      locateFar (untake s r) part (recField r 9 63 0) 8 true false true (2 * (r.queue / 1024)) = (u, .ok a) →
      ∃ t, exec i s = .next t ∧ rdNat t a 8 = 1 ∧ ∀ b, (b < a ∨ a + 8 ≤ b) → rdByte t b = rdByte u b)

/-- A LAUNCH of an admitted image creates a queued context for each tile; a launch whose contexts have all ended
completes. A LAUNCH in its turn whose record is well formed, whose partition lies wholly in the processor's group
and has every tile of the range placed in it, whose image is in the table with ENTRY and SSTRIDE in range, and with
FLT_VEC disabled or at an entry bundle of an image of the same generation, is placed where on each tile, with the
live contexts there, the stored registers of each and the new one come to 48 or fewer and the barrier group has two
members or fewer; a launch that is not gives status 3. One launch is noted with COUNT contexts left, the partition's
serial number rises by one, and each tile g from FIRST on has a queued context at CRB + 64 x (g - FIRST) with rank g
- FIRST, LINK, ARGS and the barrier group; every live context at another CR stays as it was, and every other is of
this launch. With FLT_VEC enabled at anything else it gives status 8. The completion of a launch with no context
left and neither FLAG nor STATUS removes the launch and its contexts, closes its record, and changes nothing else
unless its group was lost. An admission that succeeds adds one image at IMAGE to a table of fewer than 64 that it
overlaps none of, whose bytes it read once, header first, only where the certificate computed from them is the one
that the image holds. [derived: R106, R107, R108, R109, R119, R229, R266] -/
def Obligations.LaunchesCreateAndEndTheirContexts : Prop :=
  ∀ (s : State) (r : LRec) (im : Image) (part die : Nat), part = (s.reg 6 0 (r.queue / 4)).toNat % 32 → die = 2 * (r.queue / 1024) →
    let vec := (s.reg 4 0x1006 part).toNat
    let guarded := vec % 2 = 0 ∨ ∃ m, EntryIn s part (vec / 4 * 4) m ∧ m.gen = im.gen
    (r ∈ (s.cp (r.queue / 1024)).taken → Turn s r → recField r 0 7 0 = 1 → launchBad r = false →
      (∀ c < 64, s.inMap part c = true → s.reach die (c / 16) = true) →
      (SMap.get [] s.images part).find? (·.base == recField r 1 63 0) = some im → recField r 0 23 16 < im.entries.length →
      0x1200 + 0x2000 * popFoot im.tmask ≤ recField r 6 31 0 → ¬ guarded → recField r 8 63 0 = 0 → recField r 9 63 0 = 0 →
      exec (.launch r) s = .next (closeRec (emit (untake s r) part (srcNo die 2 0) 1 8
        (r.queue / 4 * 2 ^ 16 + r.queue % 4) r.head) r.queue r.head)) ∧
    (r ∈ (s.cp (r.queue / 1024)).taken → Turn s r → recField r 0 7 0 = 1 → launchBad r = false →
      (∀ c < 64, s.inMap part c = true → s.reach die (c / 16) = true) →
      (SMap.get [] s.images part).find? (·.base == recField r 1 63 0) = some im → recField r 0 23 16 < im.entries.length →
      0x1200 + 0x2000 * popFoot im.tmask ≤ recField r 6 31 0 → guarded →
      let count := recField r 7 25 16
      let cr := fun (k : Nat) => (recField r 4 63 0 + 64 * k) % 2 ^ 64
      let beside := fun (t : Nat) => s.live.filter fun l => decide (l.part = part ∧ l.st ≤ 3 ∧ s.physTile part l.g = some t)
      let fits := ∀ k < count, ∃ t, s.physTile part (recField r 7 8 0 + k) = some t ∧ s.inMap part (t / 8) = true ∧
        (∀ l ∈ beside t, l.foot + popFoot im.tmask ≤ 48) ∧
        (recField r 0 31 24 ≠ 0xFF → ((beside t).filter fun l => l.bgrp == recField r 0 31 24).length ≤ 1)
      (¬ fits → recField r 8 63 0 = 0 → recField r 9 63 0 = 0 → exec (.launch r) s = .next (closeRec (emit (untake s r) part (srcNo die 2 0) 1 3
        (r.queue / 4 * 2 ^ 16 + r.queue % 4) r.head) r.queue r.head)) ∧
      (fits → ∃ t, exec (.launch r) s = .next t ∧
        t.launches = s.launches ++ [⟨s.nextRid, r.queue, r.head, part, recField r 8 63 0, recField r 9 63 0, recField r 7 25 16, 0, 0, 0,
          false, false⟩] ∧
        t.serials = SMap.put 0 s.serials part (SMap.get 0 s.serials part + 1) ∧
        (∀ k < recField r 7 25 16, ∃ l ∈ t.live, l.part = part ∧ l.cr = (recField r 4 63 0 + 64 * k) % 2 ^ 64 ∧
          l.g = recField r 7 8 0 + k ∧ l.rank = k ∧ l.st = 0 ∧ l.first = true ∧ l.launch = s.nextRid ∧ l.link = recField r 3 63 0 ∧
          l.args = recField r 2 63 0 ∧ l.bgrp = recField r 0 31 24 ∧ (l.any = true ↔ recField r 7 26 26 = 1)) ∧
        (∀ l ∈ s.live, (l.part ≠ part ∨ ∀ k < count, l.cr ≠ cr k) → l ∈ t.live) ∧
        (∀ l ∈ t.live, l ∈ s.live ∨ (l.part = part ∧ l.launch = s.nextRid ∧ ∃ k < count, l.cr = cr k)) ∧ t.ctxs = s.ctxs)) ∧
    (∀ (id : Nat) (k : Launch), s.launches.find? (·.id == id) = some k → k.left = 0 → k.flag = 0 → k.status = 0 →
      (k.lost = false → exec (.launchCompletion id) s = .next { closeRec s k.queue k.head with
        launches := s.launches.filter (·.id != id), live := s.live.filter (·.launch != id) }) ∧
      ∃ t, exec (.launchCompletion id) s = .next t ∧ (∀ l ∈ t.launches, l.id ≠ id) ∧ ∀ l ∈ t.live, l.launch ≠ id) ∧
    (∀ va t, admitImage s part va die = (t, 1) → ∃ (u v : State) (hd rest : List Nat) (new : Image),
      (SMap.get [] s.images part).length < 64 ∧ new.base = va ∧
      (∀ o ∈ SMap.get [] s.images part, o.base + o.size ≤ va ∨ va + new.size ≤ o.base) ∧
      vaRead s part va 128 die = (u, .ok hd) ∧ vaRead u part (va + 128) (new.size - 128) die = (v, .ok rest) ∧
      certOf v new.gen (hd ++ rest) = some ((hd.drop 112).take 16) ∧
      t = { v with images := t.images } ∧
      t.images = SMap.put [] s.images part (SMap.get [] s.images part ++ [new]))

/-- Data, control and idle flits are sent, accepted, discarded and replayed as R28 to R31 say. For a link endpoint that
is up, with endpoints listed in rising order. A data flit on a channel with a credit, under a valid selected key
below its limit, with room to hold it and no packet begun before it, takes the next SEQ and the key's next count, is
held for replay and sent, and spends one credit. A flit in sequence whose header is well-formed and whose tag
verifies is accepted: the expected SEQ and the slot's count advance, the acknowledged flits are held no more, and
the credits are added; a packet's last flit frees the receive buffer and sends the packet on; an old-key-retired
flit clears the slot's valid bit. A duplicate changes nothing; a flit out of sequence, or one whose tag fails, which
JLK_TAGFAIL counts, is discarded with a retry request for the expected SEQ at once, and at the eighth further
request in a row the link trains at each of its ends. An idle flit that verifies has its acknowledgement and credits
taken; one that no valid slot can verify only tells whether to retry; any other is counted. A retry request sends
again every held flit from its SEQ on. An idle flit is sent under the idle count with the pending retry request, and
unencrypted while the selected slot is invalid. (That this is so though the other slot be valid, and which requests
are further ones, are the model's choices: log entries 107 and 108.) [derived: R28, R29, R30, R31, R32, R35, R42] -/
def Obligations.LinkFlitsAreSentAndAccepted : Prop :=
  ∀ (s : State) (ep : Nat) (l : Link), s.Canon → s.links.Pairwise (fun a b => a.1 < b.1) → ep < 16 → l = s.link ep → l.st = 2 →
    let field := fun (f : Flit) (hi lo : Nat) => f.hdr / 2 ^ lo % 2 ^ (hi + 1 - lo)
    let fails := if l.retry = some l.expect then l.retryFails + 1 else 0
    let asked := { l with retry := some l.expect, retryFails := fails }
    let refused := fun (i : Instr) (r : State) =>
      (fails < 8 → exec i s = .next (r.setLink ep (sendIdle asked))) ∧
      (8 ≤ fails → ∃ t, exec i s = .next t ∧ Trains (r.setLink ep asked) t ep)
    (∀ vc body last : Nat, vc < 8 → l.tail = none → l.txsel < 2 → l.tx.length = 2 → l.credits.length = 8 → s.rn 11 0 ep % 2 = 1 → (keyAt l.tx l.txsel).valid = true →
      (keyAt l.tx l.txsel).ctr + 1 < 2 ^ 39 → l.credits.getD vc 0 ≠ 0 → l.replay.length < 512 →
      ∃ f l', exec (.dataFlitSend ep vc body last) s = .next (s.setLink ep l') ∧ l'.nextSeq = (l.nextSeq + 1) % 4096 ∧
        keyAt l'.tx l.txsel = { keyAt l.tx l.txsel with ctr := (keyAt l.tx l.txsel).ctr + 1 } ∧
        l'.credits = l.credits.set vc (l.credits.getD vc 0 - 1) ∧ l'.replay = l.replay ++ [⟨l.nextSeq, f⟩] ∧ l'.sent = l.sent ++ [f] ∧
        f = makeFlit (keyAt l.tx l.txsel) (keyAt l.tx l.txsel).ctr f.hdr (body % 2 ^ 832) ∧
        (l.nextSeq < 4096 → l.expect < 4096 → field f 63 63 = l.txsel ∧ field f 62 60 = (if last = 0 then 0 else 1) ∧
          field f 59 48 = l.nextSeq ∧ field f 47 36 = (l.expect + 4095) % 4096 ∧ field f 35 32 = vc ∧ field f 17 0 = 0)) ∧
    (∀ f b i, (i = .dataFlitReceive ep f ∧ field f 62 60 ≤ 1 ∨ i = .controlFlitReceive ep f ∧ field f 62 60 = 2 ∧ b % 256 ≠ 2 ∨
        i = .oldKeyRetired ep f ∧ field f 62 60 = 2 ∧ b % 256 = 2) → l.rx.length = 2 → l.rolling = none → field f 59 48 = l.expect →
      field f 35 32 ≤ 7 → field f 17 0 = 0 → openFlit (keyAt l.rx (field f 63 63)) (keyAt l.rx (field f 63 63)).ctr f = some b →
      ∃ t, exec i s = .next t ∧ t = { s with links := t.links, events := t.events } ∧ (∀ e, e ≠ ep → t.link e = s.link e) ∧
        (t.link ep).expect = (l.expect + 1) % 4096 ∧
        (keyAt (t.link ep).rx (field f 63 63)).ctr = (keyAt l.rx (field f 63 63)).ctr + 1 ∧ (t.link ep).retry = none ∧
        (t.link ep).replay = l.replay.filter (fun h => !seqLe h.seq (field f 47 36)) ∧ (t.link ep).lastGood = s.tsc.toNat ∧
        (t.link ep).credits = (if field f 21 18 < 8 then
          l.credits.set (field f 21 18) (l.credits.getD (field f 21 18) 0 + field f 31 22) else l.credits) ∧
        (i = .oldKeyRetired ep f → (keyAt (t.link ep).rx (b / 256 % 2)).valid = false) ∧
        (field f 62 60 = 0 → (t.link ep).body = l.body ++ [(field f 35 32, b)]) ∧ (field f 62 60 ≠ 1 → t.events = s.events) ∧
        (field f 62 60 = 1 → l.freed.length = 8 → (∃ k, t.events = s.events ++
            [if ep % 4 < 2 then .jalcyDEndpointRewrite ep k else .portSwitchRoute (ep / 4) true k]) ∧
          (t.link ep).body = (l.body.filter fun q => q.1 % 8 != field f 35 32) ∧ (t.link ep).freed = l.freed.set (field f 35 32)
            (l.freed.getD (field f 35 32) 0 + (l.body.filter fun q => q.1 == field f 35 32).length + 1))) ∧
    (∀ f i, (i = .dataFlitReceive ep f ∧ field f 62 60 ≠ 2 ∧ field f 62 60 ≠ 3 ∨ i = .controlFlitReceive ep f ∧ field f 62 60 = 2 ∨
        i = .oldKeyRetired ep f ∧ field f 62 60 = 2) →
      (field f 59 48 ≠ l.expect → seqLe (field f 59 48) ((l.expect + 4095) % 4096) = true → exec i s = .next s) ∧
      (field f 59 48 ≠ l.expect → seqLe (field f 59 48) ((l.expect + 4095) % 4096) = false → refused i s) ∧
      (field f 59 48 = l.expect → 3 < field f 62 60 ∨ 7 < field f 35 32 ∨ field f 17 0 ≠ 0 → refused i s) ∧
      (field f 59 48 = l.expect → field f 62 60 ≤ 3 → field f 35 32 ≤ 7 → field f 17 0 = 0 →
        openFlit (keyAt l.rx (field f 63 63)) (keyAt l.rx (field f 63 63)).ctr f = none →
        ∃ r, RegOnly s r 11 3 ep (s.reg 11 3 ep + 1) ∧ refused i r)) ∧
    (∀ f b i, field f 62 60 = 3 → (b % 256 ≠ 1 ∧ i = .idleFlitReceive ep f ∨ b % 256 = 1 ∧ i = .retryRequest ep f) →
      let again := fun (held : List HeldFlit) =>
        if b % 256 = 1 then (held.filter fun h => seqLe (b / 256 % 4096) h.seq).map (·.flit) else []
      let becomes := fun (m : Link) => ∃ t, exec i s = .next t ∧ t = { s with links := t.links } ∧ t.link ep = m ∧
        ∀ e, e ≠ ep → t.link e = s.link e
      ((∀ k ∈ l.rx, k.valid = false) → f.body = b → becomes { l with sent := l.sent ++ again l.replay }) ∧
      (∀ k c, l.rolling = none → k = keyAt l.rx (field f 63 63) → c = k.idle + (field f 59 48 + 4096 - k.idle % 4096) % 4096 →
        openFlit k (2 ^ 63 + c) f = some b →
        let held := l.replay.filter fun h => !seqLe h.seq (field f 47 36)
        becomes { l with
          rx := l.rx.set (field f 63 63) { k with idle := c + 1 }, replay := held, lastGood := s.tsc.toNat,
          pkts := l.pkts.filter (fun p => !seqLe p.1 (field f 47 36)), sent := l.sent ++ again held,
          credits := (if field f 21 18 < 8 then
            l.credits.set (field f 21 18) (l.credits.getD (field f 21 18) 0 + field f 31 22) else l.credits) })) ∧
    (∀ f k, field f 62 60 = 3 → (∃ m ∈ l.rx, m.valid = true) → k = keyAt l.rx (field f 63 63) →
      openFlit k (2 ^ 63 + (k.idle + (field f 59 48 + 4096 - k.idle % 4096) % 4096)) f = none →
      Writes (.idleFlitReceive ep f) s 11 3 ep (s.reg 11 3 ep + 1)) ∧
    (∃ l' f, exec (.idleFlitSend ep) s = .next (s.setLink ep l') ∧ l'.sent = l.sent ++ [f] ∧ l'.nextSeq = l.nextSeq ∧
      l'.replay = l.replay ∧ l'.retry = l.retry ∧
      let body := match l.retry with
        | some q => 1 + q * 256
        | none => 0
      ((keyAt l.tx l.txsel).valid = true → f = makeFlit (keyAt l.tx l.txsel) (2 ^ 63 + (keyAt l.tx l.txsel).idle) f.hdr body) ∧
      ((keyAt l.tx l.txsel).valid = false → f.body = body ∧ f.tag = 0 ∧ f.hdr / 2 ^ 60 = 3))

/-- Links train, retrain and fail, and their keys are loaded, selected and limited as R32 to R38 say. For endpoints
listed in rising order and registers in canonical form. A link that is down comes up where it is enabled at each
end, and so does one whose retraining succeeds: at each end 64 credits on each channel, an empty receive buffer, and
the held flits sent again from the oldest; a retry request still owed stays. The third failed retraining in a row
fails the link, as do 10^6 ticks in the up state without a good flit, where a receive slot is valid or the other end
has failed; a failed link discards what it had received in part. A write of JLK_KLD keeps DIR and SLOT, and
sets KEYERR for a slot in use and else fills the slot from JLK_KDATA with its count at 0. TXSEL of a slot that is
not valid, or during a rollover, sets KEYERR; another valid slot is selected with its counts at 0, and
old-key-retired is sent under it once no flit is held under a valid old key. At 2^39 and 2^40 flits a key gives its
record once. RETRAIN is for enabled Jalcy-X ports. EN = 0 forces the link down at each end that has not failed. A
link report makes a failed endpoint re-inject, in order, the packets that the other end had not accepted whole; an
endpoint that has not noticed the failure fails first, and a second report changes nothing. (That an invalid slot
cannot be selected, and when the 10^6 ticks run, are the model's choices: log entries 61 and 124.) [derived: R32, R33, R35, R36, R37, R38, R41, R42] -/
def Obligations.LinkKeysTrainingAndFailure : Prop :=
  ∀ (s : State) (ep v : Nat) (l : Link), s.Canon → s.links.Pairwise (fun a b => a.1 < b.1) → ep < 16 → l = s.link ep →
    let whole := ∀ e, IsEnd ep e → (s.link e).st ≠ 3
    let owed := fun (a : Nat) => (l.pkts.filter fun p => !seqLe p.1 a).map (·.2) ++ (l.tail.map (·.2.2)).toList
    (l.st < 2 → whole → (∀ e, IsEnd ep e → (s.reg 11 0 e).getLsbD 0 = true) → ∃ t, exec (.jalcyLinkUp ep) s = .next t ∧
      EndsBecome s t ep (enteredUp s.tsc.toNat)) ∧
    (l.st = 1 → whole → ∃ t, exec (.linkRetrain ep true) s = .next t ∧ EndsBecome s t ep (enteredUp s.tsc.toNat)) ∧
    (l.st = 1 → whole → (∀ e, IsEnd ep e → (s.link e).retrainFails < 2) → ∃ t, exec (.linkRetrain ep false) s = .next t ∧
      EndsBecome { s with regs := t.regs } t ep (fun m => { m with retrainFails := m.retrainFails + 1 }) ∧
      ∀ e, IsEnd ep e → t.reg 11 4 e = s.reg 11 4 e + 1) ∧
    (l.st = 1 → whole → 2 ≤ l.retrainFails → ∃ t, exec (.linkRetrain ep false) s = .next t ∧ (t.link ep).st = 3) ∧
    (l.st ≠ 3 → 3 ≤ l.retrainFails ∨ (l.st = 2 ∧ l.lastGood + 10 ^ 6 ≤ s.tsc.toNat ∧
        ((∃ m ∈ l.rx, m.valid = true) ∨ ∃ e, IsEnd ep e ∧ e ≠ ep ∧ (s.link e).st = 3)) → ∃ t, exec (.linkFailed ep) s = .next t ∧
      (t.link ep).st = 3 ∧ (t.link ep).body = [] ∧ (t.link ep).failedAt = s.tsc.toNat ∧
      (ep % 4 < 2 → (t.link ep).reported = false ∧ (t.link ep).pkts = l.pkts ∧ (t.link ep).tail = l.tail) ∧
      (2 ≤ ep % 4 → (t.link ep).reported = true ∧ (t.link ep).pkts = [] ∧ (t.link ep).replay = [] ∧ (t.link ep).tail = none ∧
        (t.link ep).reinject = l.pkts.map (·.2) ++ (l.tail.map (·.2.2)).toList)) ∧
    (∀ n, n = (keyAt l.tx l.txsel).ctr →
      (2 ^ 39 ≤ n → l.warned = false → exec (.keyLimitWarning ep) s = .next (linkEvent (s.setLink ep { l with warned := true }) ep 2 l.txsel n)) ∧
      (2 ^ 40 ≤ n → l.limit = false → exec (.keyLimit ep) s = .next (linkEvent (s.setLink ep { l with limit := true }) ep 3 l.txsel n))) ∧
    (∃ r, RegOnly s r 11 2 ep (BitVec.ofNat 64 (v % 4)) ∧
      (v / 2 % 2 = 0 → (if l.txsel = v % 2 ∨ (∃ h ∈ l.replay, h.flit.hdr / 2 ^ 63 % 2 = v % 2) then
          exec (.jlkKldWrite ep v) s = .next (r.setLink ep { l with keyerr := true })
        else ∃ k : Key, exec (.jlkKldWrite ep v) s = .next (r.setLink ep { l with tx := l.tx.set (v % 2) k }) ∧ k.valid = true ∧
          k.ctr = 0 ∧ k.idle = 0 ∧ k.salt = (l.kdata.getD 4 0).toNat % 2 ^ 32 ∧
          ∀ j < 4, k.key / 2 ^ (64 * j) % 2 ^ 64 = (l.kdata.getD j 0).toNat)) ∧
      (v / 2 % 2 = 1 → (if (keyAt l.rx (v % 2)).valid = true then exec (.jlkKldWrite ep v) s = .next (r.setLink ep { l with keyerr := true })
        else ∃ k : Key, exec (.jlkKldWrite ep v) s = .next (r.setLink ep { l with
            rx := l.rx.set (v % 2) k, lastGood := if ∃ m ∈ l.rx, m.valid = true then l.lastGood else s.tsc.toNat }) ∧ k.valid = true ∧
          k.ctr = 0 ∧ k.idle = 0 ∧ k.salt = (l.kdata.getD 4 0).toNat % 2 ^ 32 ∧
          ∀ j < 4, k.key / 2 ^ (64 * j) % 2 ^ 64 = (l.kdata.getD j 0).toNat))) ∧
    ((keyAt l.tx (v % 2)).valid = false ∨ l.rolling ≠ none → exec (.txselWrite ep v) s = .next (s.setLink ep { l with keyerr := true })) ∧
    ((keyAt l.tx (v % 2)).valid = true → l.rolling = none →
      let held := ∃ h ∈ l.replay, h.flit.hdr / 2 ^ 63 % 2 = l.txsel
      let chosen := { l with
        txsel := v % 2, tx := l.tx.set (v % 2) { keyAt l.tx (v % 2) with ctr := 0, idle := 0 }, limit := false, warned := false }
      (v % 2 = l.txsel → exec (.txselWrite ep v) s = .next s) ∧
      (v % 2 ≠ l.txsel → (keyAt l.tx l.txsel).valid = false → exec (.txselWrite ep v) s = .next (s.setLink ep chosen)) ∧
      (v % 2 ≠ l.txsel → (keyAt l.tx l.txsel).valid = true → held →
        exec (.txselWrite ep v) s = .next (s.setLink ep { chosen with rolling := some (l.txsel, none) })) ∧
      (v % 2 ≠ l.txsel → (keyAt l.tx l.txsel).valid = true → ¬ held → l.st = 2 → (s.reg 11 0 ep).getLsbD 0 = true →
        l.replay.length < 512 → ∃ m f k, exec (.txselWrite ep v) s = .next (s.setLink ep m) ∧ k = { keyAt l.tx (v % 2) with ctr := 0, idle := 0 } ∧
          m.txsel = v % 2 ∧ m.rolling = some (l.txsel, some l.nextSeq) ∧ m.nextSeq = (l.nextSeq + 1) % 4096 ∧
          m.replay = l.replay ++ [⟨l.nextSeq, f⟩] ∧ m.sent = l.sent ++ [f] ∧ f = makeFlit k 0 f.hdr (2 + l.txsel * 256) ∧
          m.tx = l.tx.set (v % 2) { k with ctr := 1 })) ∧
    (v % 2 = 0 ∨ ep % 4 < 2 ∨ (s.reg 11 0 ep).getLsbD 0 = false → exec (.retrainWrite ep v) s = .next s) ∧
    (v % 2 = 1 → 2 ≤ ep % 4 → (s.reg 11 0 ep).getLsbD 0 = true → ∃ t, exec (.retrainWrite ep v) s = .next t ∧
      t.link ep = { l with st := 1, retryFails := 0, retrainFails := 0 } ∧ t.reg 11 4 ep = s.reg 11 4 ep + 1) ∧
    (∃ r t, RegOnly s r 11 0 ep (BitVec.ofNat 64 (v % 2)) ∧ exec (.linkEnableWrite ep v) s = .next t ∧ (v % 2 = 1 → t = r) ∧
      (v % 2 = 0 → EndsBecome r t ep fun m => if m.st = 3 then m else { m with st := 0, sent := [] })) ∧
    (∀ k : Pkt, k.opc = 9 → k.payload / 2 ^ 12 % 4 = ep / 4 → k.payload / 2 ^ 14 % 2 = ep % 4 →
      (l.st = 3 → l.reported = true → exec (.linkReport (ep / 4) k) s = .next s) ∧
      (l.st = 3 → l.reported = false → exec (.linkReport (ep / 4) k) s = .next (s.setLink ep { l with
        pkts := [], replay := [], tail := none, reported := true, reinject := owed (k.payload % 4096) })) ∧
      (l.st ≠ 3 → ∃ t, exec (.linkReport (ep / 4) k) s = .next t ∧ (t.link ep).st = 3 ∧ (t.link ep).reported = true ∧
        (t.link ep).reinject = owed (k.payload % 4096)))

/-- A packet is injected, turned at each switch and delivered as R45 to R51 say, or waits, or bounces. For registers in
canonical form and a packet injected at a leaf, where a request takes the next number of its requester, at a Jalcy-D
endpoint (which raises HOP, to 3 at most) or by the port switch: a request whose sender's window is full, or which
names a tile under autotomy, waits; one for its own cluster's port then reaches its home without the network. A
packet from another chip has its die translated, and a READ, WRITE or BANK its
DEP found again (the model's reading, log entry 111). The turn-table entry is the destination endpoint on the
packet's die, 32 + core for an eft packet, 11 where the die has the port of its chip, and 15 or 19 on its way toward
d + 1 or d + 3, the way that it took before while that is open. With V = 0 the packet bounces with cause address, as
does an eft packet for a core that does not exist; a die that cannot be reached, and a chip with no usable port,
bounce it with home-unreachable. It takes the entry's turns and joins the output queue of its first turn, or waits
for room. A packet at the head of a queue goes to the next switch by its next turn, or is delivered to the endpoint
or the spine core of the port, as the event of its OPC; to the port switch; or over a Jalcy-D link, whose failure
sends it along the chain that remains, after what that endpoint re-injects in order. (The model's choices: which tile
is under autotomy, the first of the queue, log entry 114; that a packet joins a queue of 32 flits whole, 62; that a
threshold of 31 marks the packet that fills the queue, 110; that an endpoint acts by OPC, 65; what a bounce does, 76.)
[derived: R38, R41, R45, R46, R48, R49, R50, R54, R55, R56, R74, R239] -/
def Obligations.PacketsAreRoutedThroughTheNetwork : Prop :=
  ∀ (s : State), s.Canon → s.links.Pairwise (fun a b => a.1 < b.1) →
    let own := fun (k : Pkt) => k.dchip = s.ident.chip % 4096
    let owes := fun (die : Nat) => (s.link (die * 4 + 2)).reinject ≠ [] ∨ (s.link (die * 4 + 3)).reinject ≠ []
    (∀ (die leaf u : Nat) (k k' : Pkt) (i : Instr) (r : State), die < 4 → u < 2 →
      (i = .packetInject die leaf k ∧ countReq s k = (r, k') ∧ leaf < 8 ∧ windowFull s k = false ∧ lookupHeld s k = false ∧
          ¬ (k.opc ∈ [0, 1, 4] ∧ ownLeaf s k = true) ∨
        i = .jalcyDEndpointRewrite (die * 4 + u) k ∧ r = s ∧ leaf = 3 + u ∧ k' = { k with hop := min 3 (k.hop + 1) } ∨
        i = .portSwitchRoute die true k ∧ own k ∧ r = s ∧ leaf = 2 ∧ k' = { k with
          dep := if k.cls = 0 ∧ k.opc ∈ [0, 1, 4] then (endpointOf s k.part k.va).2 else k.dep,
          ddie := if k.opc = 3 ∨ k.opc = 7 then k.ddie else s.physDie k.ddie } ∨
        (∃ b p, i = .portSwitchRoute die b k ∧ ¬ own k ∧ PortTo s die k.dchip p ∧ p / 2 ≠ die) ∧ ¬ owes die ∧ r = s ∧ leaf = 2 ∧ k' = k) →
      ∃ o, Injected r die leaf k' o ∧ exec i s = .next (o.getD (s.post i))) ∧
    (∀ (die leaf : Nat) (k k' : Pkt) (r : State), die < 4 → leaf < 8 → countReq s k = (r, k') → windowFull s k = false →
      lookupHeld s k = false → ownLeaf s k = true → let i := Instr.packetInject die leaf k
      (k.opc = 0 → exec i s = .next (r.post (.read die k'))) ∧ (k.opc = 1 → exec i s = .next (r.post (.write die k'))) ∧
      (k.opc = 4 → exec i s = .next (r.post (.bankOperation die k')))) ∧
    (∀ (k k' : Pkt) (r : State), countReq s k = (r, k') → let w := s.wins.get (64, 0, 0) (winKey k)
      (k.opc ∈ [0, 1, 4, 6, 8] → s.wins.Pairwise (fun a b => a.1 < b.1) → k' = { k with q := w.2.2 } ∧
        r = { s with wins := r.wins, efts := r.efts, seqrs := r.seqrs } ∧ r.wins.get (64, 0, 0) (winKey k) = (w.1, w.2.1, w.2.2 + 1)) ∧
      (k.opc ∉ [0, 1, 4, 6, 8] → k' = k ∧ r = s)) ∧
    (∀ (die leaf : Nat) (k : Pkt), die < 4 → leaf < 8 → windowFull s k = true ∨ lookupHeld s k = true →
      exec (.packetInject die leaf k) s = .next (s.post (.packetInject die leaf k))) ∧
    (∀ (die : Nat) (b : Bool) (k : Pkt), die < 4 → ¬ own k → let i := Instr.portSwitchRoute die b k
      (∃ t, exec i s = .next t) ∧ (owes die → exec i s = .next (s.post i)) ∧
      (¬ owes die → (∀ p, ¬ PortTo s die k.dchip p) → exec i s = .next (bounce s die k 8)) ∧
      (∀ p, ¬ owes die → PortTo s die k.dchip p → p / 2 = die →
        ∃ o, Offered s (p / 2 * 4 + 2 + p % 2) k o ∧ exec i s = .next (o.getD (s.post i)))) ∧
    (∀ (i : Nat) (h : Hop) (u : State), s.net[i]? = some h → u = { s with net := s.net.eraseIdx i } →
      let goes := fun (o : Option State) => exec (.switchTurn i) s = match o with
        | some t => .next t
        | none => .fault .notPossible
      let moves := fun (stage num : Nat) => ∃ o, Enters u o h.die stage num h.pkt ∧ goes o
      let here := own h.pkt ∧ h.pkt.ddie = h.die
      (h.stage = 0 → 4 ≤ h.port → moves 1 (h.num / 4 * 4 + (h.port - 4))) ∧
      (h.stage = 1 → 4 ≤ h.port → moves 2 (h.num % 4)) ∧
      (h.stage = 1 → h.port < 4 → moves 0 (h.num / 4 * 4 + h.port)) ∧
      (h.stage = 2 → h.port < 2 → moves 1 (4 * h.port + h.num)) ∧
      (h.stage = 2 → 2 ≤ h.port → goes (some (u.post (.eftPacketArrival h.die (2 * h.num + (h.port - 2)) h.pkt)))) ∧
      (∀ e, h.die < 4 → h.stage = 0 → h.port < 4 → e = h.num * 4 + h.port →
        (e = 15 ∨ e = 19 → ∀ ep l, ep = h.die * 4 + (if e = 15 then 0 else 1) → l = s.link ep →
          (here → h.pkt.opc = 9 → goes (some (u.post (.linkReport h.die h.pkt)))) ∧
          (¬ (here ∧ h.pkt.opc = 9) → (∀ x, IsEnd ep x → (s.link x).st ≠ 3) → ∃ o, Offered u ep h.pkt o ∧ goes o) ∧
          (¬ (here ∧ h.pkt.opc = 9) → (∃ x, IsEnd ep x ∧ (s.link x).st = 3) →
            (l.reported = false ∨ l.reinject ≠ [] → goes none) ∧
            (l.reported = true → l.reinject = [] → ∃ o, Injected u h.die (e / 4) { h.pkt with way := 0 } o ∧ goes o))) ∧
        (e = 11 → goes (some (u.post (if here ∧ h.pkt.cls = 3 ∧ 8 ≤ h.pkt.dep ∧ h.pkt.dep < 12 then .eftPacketArrival h.die h.pkt.dep h.pkt
          else .portSwitchRoute h.die false h.pkt)))) ∧
        (e ≠ 15 → e ≠ 19 → e ≠ 11 → goes (some
          (if e = 27 then (if h.pkt.opc = 6 then u.post (.collectiveData h.die h.pkt)
            else if h.pkt.opc = 3 then u.post (.answer h.die h.pkt) else if h.pkt.opc = 7 then u.post (.nack h.die h.pkt) else u)
          else if h.pkt.opc = 0 then u.post (.read h.die h.pkt) else if h.pkt.opc = 1 then u.post (.write h.die h.pkt)
          else if h.pkt.opc = 2 then u.post (.readReply h.die h.pkt) else if h.pkt.opc = 3 then u.post (.writeAcknowledge h.die h.pkt)
          else if h.pkt.opc = 4 then u.post (.bankOperation h.die h.pkt)
          else if h.pkt.opc = 5 then u.post (.bankReply h.die h.pkt) else u))))) ∧
    (∀ (ep : Nat) (l : Link) (p : Pkt) (rest : List Pkt), ep < 16 → s.turn = some (.link ep) → l = s.link ep → l.st = 3 → l.reported = true →
      l.reinject = p :: rest →
      let u := { s with turn := none, tick := s.tick + 1 }.setLink ep { l with reinject := rest }
      (ep % 4 < 2 → ∃ o, Injected u (ep / 4) (3 + ep % 4) { p with way := 0 } o ∧ ∀ t, o = some t → t.stalled = false → step s = .next t) ∧
      (2 ≤ ep % 4 → u.stalled = false → (∀ q, ¬ PortTo s (ep / 4) p.dchip q) → step s = .next u) ∧
      (∀ q, 2 ≤ ep % 4 → PortTo s (ep / 4) p.dchip q → q / 2 = ep / 4 → ∃ o, Offered u (q / 2 * 4 + 2 + q % 2) { p with way := 0 } o ∧
        ∀ t, o = some t → t.stalled = false → step s = .next t))

/-- Accesses are performed and answered at their home, and a reply completes its access at the requester. With memory and
registers in canonical form, let the home locate the access at a, with the walks and counts of locating,
counting it for the requester's die, and for none where that is on another chip; the owner of an HBM frame
answers, else the home. READ, behind the earlier loads of its context of a byte of it, answers with the little-endian
bytes and the line's tag, and changes nothing else. WRITE leaves the payload at a and every other byte as it
was, and answers; the line's tag becomes the packet's for a whole aligned row and 0 otherwise. One for an
exchange window from outside its cluster FINJ_CTL may discard, which is answered all the same, or store with TAG bit 0
inverted. One of more than a line of a translated range is performed line by line, each located on its own, up to its
first fault, which answers it. BANK_OPERATION, add, fadd, min, max, or, and, swap on plain cluster memory, the drag view
or a die pool, answers with the old value and leaves the new one; elsewhere it is answered with cause address, or
the fault of the walk, without effect. An access that cannot be located is answered with its cause and changes no
byte but what locating did; one of the home's own cluster to a tile under autotomy is put off. A read reply, for the one
part of a fill to an x register: without a fault the register, unless x0, holds the value, is full and
the fill is over; with a fault it stays empty and the fill keeps cause, VA and level. An acknowledgement removes its
access from those outstanding where no other of the context waits to be sent; a bank reply also fills its register with
the old value, or, faulted, leaves it and the context is to be written back faulted, after its transfer where its
commit waits for a verdict, or halted by a split. An acquire with earlier writes not performed
waits. Replies that name no access do not take place. (The model's choices: which tile is under autotomy, log entry 114,
and a reply's SRC, its die's HBM controller, 66.)
[derived: R4, R125, R134, R136, R140, R178, R180, R208, R210, R223, R239, R241] -/
def Obligations.HomesAnswerAndRepliesComplete : Prop :=
  (∀ (s : State) (die : Nat) (k : Pkt), s.Canon → die < 4 →
    let by_ := if k.schip = s.ident.chip then k.src / 2 ^ 14 else 4 + die
    let at_ := fun (v : State) (n : Nat) (wr : Bool) => locate v k.part k.va n wr false false by_
    let from_ := fun (a : Nat) => if a / 2 ^ 60 = 6 then a % 2 ^ 60 / 2 ^ 37 else die
    let held := ownLeaf s k = true ∧ lookupHeld s k = true
    (k.opc = 0 → loadBefore s k = true → exec (.read die k) s = .next (s.post (.read die k))) ∧
    (held → (k.opc = 0 → loadBefore s k = false → exec (.read die k) s = .next { s with stalled := true }) ∧
      (k.opc = 1 → exec (.write die k) s = .next { s with stalled := true }) ∧
      (k.opc = 4 → exec (.bankOperation die k) s = .next { s with stalled := true })) ∧
    (k.opc = 0 → loadBefore s k = false → ¬ held → ∀ u,
      (∀ a, at_ s k.want false = (u, .ok a) → ∃ t r, exec (.read die k) s = .next t ∧
        Answers u t (from_ a) k r ∧ r.opc = 2 ∧ r.cause = 0 ∧ r.payload = rdNat u a k.want ∧ r.tag = (tagAt u a).toNat) ∧
      (∀ b, at_ s k.want false = (u, .error b) → ∃ t r, exec (.read die k) s = .next t ∧
        Answers u t die k r ∧ r.opc = 2 ∧ r.cause = b.cause ∧ r.level = b.level)) ∧
    let oneLine := vaLine k.va ≠ 64 ∨ k.va % 64 + k.len ≤ 64
    (k.opc = 1 → ¬ held → oneLine → ∀ u,
      (∀ b, at_ s k.len true = (u, .error b) → ∃ t r, exec (.write die k) s = .next t ∧
        Answers u t die k r ∧ r.opc = 3 ∧ r.cause = b.cause) ∧
      (∀ a, at_ s k.len true = (u, .ok a) → ∃ v act w t r, exec (.write die k) s = .next t ∧
        Answers w t (from_ a) k r ∧ r.opc = 3 ∧ r.cause = 0 ∧
        (∀ c, exchangeOf s k.part k.va = some c → FromOutside s k c → Injects u v c act) ∧
        ((∀ c, exchangeOf s k.part k.va = some c → ¬ FromOutside s k c) → v = u ∧ act = 0) ∧
        (act = 1 → w = v) ∧
        (act ≠ 1 → BytesKept v w a k.len ∧ rdNat w a k.len = k.payload % 256 ^ k.len ∧
          w = { v with mem := w.mem, tags := w.tags, relVec := w.relVec } ∧
          (u.tags.Pairwise (fun x y => x.1 < y.1) → a < 6 * 2 ^ 60 → tagAt w a =
            (if k.len = 256 ∧ k.va % 256 = 0 then BitVec.ofNat 32 k.tag else 0) ^^^ (if act = 2 then 1 else 0))))) ∧
    (k.opc = 1 → ¬ held → ¬ oneLine → k.va + k.len ≤ 2 ^ 64 →
      let ps := pieces k.va k.len
      ∃ (vs : List State) (w t : State) (r : Pkt) (d : Nat), exec (.write die k) s = .next t ∧ Answers w t d k r ∧ r.opc = 3 ∧
        vs.head? = some s ∧ vs.length ≤ ps.length + 1 ∧
        (∀ (j : Nat) (v v' : State) (p : Nat × Nat), vs[j]? = some v → vs[j + 1]? = some v' → ps[j]? = some p →
          ∃ u a, locate v k.part p.1 p.2 true false false by_ = (u, .ok a) ∧ BytesKept u v' a p.2 ∧
            rdNat v' a p.2 = k.payload / 256 ^ (p.1 - k.va) % 256 ^ p.2 ∧
            v' = { u with mem := v'.mem, tags := v'.tags, relVec := v'.relVec }) ∧
        (vs.length = ps.length + 1 → vs.getLast? = some w ∧ r.cause = 0) ∧
        (vs.length ≤ ps.length → ∃ v p b, vs.getLast? = some v ∧ ps[vs.length - 1]? = some p ∧
          locate v k.part p.1 p.2 true false false by_ = (w, .error b) ∧ r.cause = b.cause)) ∧
    (k.opc = 4 → ¬ held → let i := Instr.bankOperation die k
      (bankable (vaClass s.capSpad k.va) = true → k.bop ≤ 6 → (k.bop = 1 → k.want = 4) → k.payload < 2 ^ (8 * k.want) → ∀ u,
        (∀ a, at_ s k.want true = (u, .ok a) → ∃ w t r, exec i s = .next t ∧
          Answers w t die k r ∧ r.opc = 5 ∧ r.cause = 0 ∧ r.payload = rdNat u a k.want ∧ BytesKept u w a k.want ∧
          (k.bop ≠ 1 → rdNat w a k.want = bankValue k.bop k.want (rdNat u a k.want) k.payload) ∧
          (k.bop = 1 → ∃ x fl, IsSum false [decFmt 1 (rdNat u a 4), decFmt 1 k.payload] x fl ∧ rdNat w a 4 = (mmaRound false x).1)) ∧
        (∀ b, at_ s k.want true = (u, .error b) → ∃ t r, exec i s = .next t ∧ Answers u t die k r ∧ r.opc = 5 ∧ r.cause = b.cause)) ∧
      (bankable (vaClass s.capSpad k.va) = false →
        ((vaClass s.capSpad k.va).translated = false → ∃ t r, exec i s = .next t ∧ Answers s t die k r ∧ r.opc = 5 ∧ r.cause = 1) ∧
        ((vaClass s.capSpad k.va).translated = true → ∀ u,
          (∀ a, at_ s k.want false = (u, .ok a) → ∃ t r, exec i s = .next t ∧ Answers u t die k r ∧ r.opc = 5 ∧ r.cause = 1) ∧
          (∀ b, at_ s k.want false = (u, .error b) → ∃ t r, exec i s = .next t ∧ Answers u t die k r ∧ r.opc = 5 ∧ r.cause = b.cause))))) ∧
  (∀ (s : State) (die : Nat) (k : Pkt) (c : Ctx), k.who < 0x10000 → s.ctx? k.who = some c →
    s.ctxs.Pairwise (fun a b => a.1 < b.1) →
    (∀ (f : Fill) (p : FPart) (d : Nat), c.fills = [f] → f.parts = [p] → p.got = none → p.rid = k.rid → p.off = 0 → p.len = f.size → f.size ≤ 8 →
      f.dst = .x d → f.cover = [] → f.acq = false → f.gather = false → f.bad = none → c.x.Pairwise (fun a b => a.1 < b.1) →
      (∀ n o g a q, c.phase ≠ .waiting n o g a q) →
      (k.cause = 0 → ∃ t c', exec (.readReply die k) s = .next t ∧ t.ctx? k.who = some c' ∧ c'.fills = [] ∧
        (d ≠ 0 → c'.rx d = BitVec.ofNat 64 (k.payload % 256 ^ f.size) ∧ c'.isEmpty (xKey d) = false) ∧
        (∀ e, e ≠ d → c'.rx e = c.rx e ∧ c'.isEmpty (xKey e) = c.isEmpty (xKey e)) ∧ c'.pend = c.pend ∧ c'.held = c.held ∧ c'.arch = c.arch) ∧
      (k.cause ≠ 0 → ∃ t c' g, exec (.readReply die k) s = .next t ∧ t.ctx? k.who = some c' ∧ c' = { c with fills := [g] } ∧
        g.bad = some (k.cause, k.va, k.level, k.src / 2 ^ 14))) ∧
    (∀ f ∈ c.fills, ∀ p ∈ f.parts, p.rid = k.rid → c.fills = [f] → p.got = none → f.acq = true → k.cause = 0 →
      acqReady s (srcTile (k.who / 2)) f.scope k.vec = false → exec (.readReply die k) s = .next (s.post (.readReply die k))) ∧
    (∀ o : Outst, c.outst.find? (fun p => p.rid == k.rid) = some o → o.acq = true → k.cause = 0 → acqReady s (srcTile (k.who / 2)) o.scope k.vec = false →
      exec (.bankReply die k) s = .next (s.post (.bankReply die k))) ∧
    (∀ (o : Outst) (d : Nat), c.outst.find? (fun p => p.rid == k.rid) = some o → o.dst = some d → c.out = [] → k.cause ≠ 0 →
      ∃ t c', exec (.bankReply die k) s = .next t ∧ t.ctx? k.who = some c' ∧ c'.x = c.x ∧ c'.empties = c.empties ∧
        c'.outst = (c.outst.filter fun p => p.rid != k.rid) ∧ c'.phase = match c.phase with
          | .commit e => .commit { e with lost := true }
          | .leaving 5 => .leaving 5
          | _ => .leaving 6) ∧
    (∀ o : Outst, o ∈ c.outst → o.rid = k.rid → c.out = [] → k.cause = 0 → c.phase = .running →
      (∃ t, exec (.writeAcknowledge die k) s = .next t ∧ t.ctx? k.who = some { c with outst := c.outst.filter fun p => p.rid != k.rid }) ∧
      (∀ d, c.outst.find? (fun p => p.rid == k.rid) = some o → o.dst = some d → o.acq = false → ∃ t, exec (.bankReply die k) s = .next t ∧
        t.ctx? k.who = some { (c.mkFull (xKey d)).wx d (BitVec.ofNat 64 k.payload) with
          outst := c.outst.filter fun p => p.rid != k.rid })) ∧
    ((∀ f ∈ c.fills, ∀ p ∈ f.parts, p.rid ≠ k.rid) → exec (.readReply die k) s = .fault .notPossible) ∧
    ((∀ o ∈ c.outst, o.rid ≠ k.rid) → exec (.writeAcknowledge die k) s = .fault .notPossible ∧
      exec (.bankReply die k) s = .fault .notPossible))

/-- A miss walks the four levels; the leaf enters the TLB, is zeroed first where Z is set, and a failing walk changes
only the counter. For a VA whose home is the die, not in its TLB, a state in canonical form, and ways to the tables
that are open or lost. With EN = 0 nothing changes, and a translated access faults not-mapped even on a hit. A walk
whose tables cannot all be reached faults home-unreachable; one that meets an entry with V = 0 not-mapped with its
level, and one that meets a malformed entry table-malformed: a directory entry with a nonzero zero field or a NEXT
in unpopulated memory, a leaf at level 4 or 3, or a leaf that is not well formed. Else the leaf, 1 GiB at level 2, 2
MiB at level 1, 64 KiB of host memory with its sub-frames, or 64 KiB of device memory with Z = 0, heads the die's
TLB as walked, no other entry of the page is left, the walk is counted, and memory stays. With Z = 1 and an owner
that can be reached the frame's 64 KiB are zeroed and Z is cleared first (the leaf lying outside the frame); where
the owner cannot complete it, only the count changes. [derived: R40, R128, R129, R130, R131, R133, R134, R138, R146]
-/
def Obligations.WalksFillTheTlb : Prop :=
  (∀ (s : State) (die part va : Nat) (wr ft : Bool), s.Canon → die < 4 → translatesAt s die va = true →
    (s.reg 4 0x1004 part).getLsbD 0 = false → ∃ b, translate s part va wr ft die = (s, .error b) ∧ b.cause = 2) ∧
  ∀ (s : State) (die part va : Nat), s.Canon → die < 4 → part < 32 → va < 2 ^ 64 → translatesAt s die va = true → tlbFind s die part va = none →
    let i := Instr.tlbWalk die part va
    let en := (s.reg 4 0x1004 part).getLsbD 0 = true
    let reached := fun (t : Nat) => s.reach die (t / 2 ^ 37) = true
    let counted := fun (r : State) => RegOnly s r 3 0xC09 die (s.reg 3 0xC09 die + 1)
    let fails := fun (cause lv : Nat) => Writes i s 3 0xC09 die (s.reg 3 0xC09 die + 1) ∧ ∀ wr ft, ∃ u b,
      translate s part va wr ft die = (u, .error b) ∧ b.cause = cause ∧ b.level = lv ∧ counted u
    let fills := fun (size e a : Nat) (subs : List Nat) => ∃ r l, counted r ∧
      exec i s = .next { r with tlb := ⟨die, part, va / sizeBytes size, size, e, region 6 a, subs⟩ :: l } ∧
      (∀ x ∈ l, x ∈ s.tlb ∧ ¬ samePage x die part size va) ∧
      ((s.tlb.filter fun x => x.die == die).length < 8192 → ∀ x ∈ s.tlb, ¬ samePage x die part size va → x ∈ l)
    (¬ en → exec i s = .next s) ∧
    (en → (∀ n t, n ≤ 4 → Reaches s part va n t → reached t → ringDir s die (t / 2 ^ 37) ≠ 3) →
      ((∃ n t, n ≤ 4 ∧ Reaches s part va n t ∧ ¬ reached t) → fails 8 255) ∧
      ((∀ n t, n ≤ 4 → Reaches s part va n t → reached t) →
        (∀ n t a e lv, n < 4 → Reaches s part va n t → lv = 4 - n → a = t + 8 * indexAt va lv → e = deviceWord s a →
          (e % 2 = 0 → fails 2 lv) ∧
          (e % 4 = 1 → (∀ next, ¬ Leads s t (indexAt va lv) next) → fails 7 lv) ∧
          (e % 4 = 3 → 3 ≤ lv ∨ ¬ largeLeaf lv e → fails 7 lv) ∧
          (lv ≤ 2 → largeLeaf lv e → fills lv e a [])) ∧
        ∀ a e, WalksTo s part va a → e = deviceWord s a →
          let frame := e / 2 ^ 24 * 2 ^ 16
          (e % 2 = 0 → e / 2 ^ 7 % 2 = 0 → fails 2 0) ∧
          (e % 2 = 1 ∨ e / 2 ^ 7 % 2 = 1 → ¬ deviceLeaf e → ¬ hostLeaf s a e → fails 7 0) ∧
          (hostLeaf s a e → fills 0 e a ((List.range 15).map fun k => deviceWord s (a + 8 * (k + 1)))) ∧
          (deviceLeaf e → e / 16 % 2 = 0 → fills 0 e a []) ∧
          (deviceLeaf e → e / 16 % 2 = 1 → reached frame → (a + 8 ≤ frame ∨ frame + 2 ^ 16 ≤ a) →
            ∀ j, (j = i ∨ j = .zeroBeforeFirstAccess die part va true) → ∃ t, exec j s = .next t ∧
              (∀ k < 2 ^ 16, rdByte t (region 6 frame + k) = 0) ∧ rdNat t (region 6 a) 8 = e - 16 ∧
              (∀ b, (b < region 6 a ∨ region 6 a + 8 ≤ b) → (b < region 6 frame ∨ region 6 frame + 2 ^ 16 ≤ b) → rdByte t b = rdByte s b) ∧
              t.tlb.head? = some ⟨die, part, va / 2 ^ 16, 0, e - 16, region 6 a, []⟩) ∧
          (deviceLeaf e → e / 16 % 2 = 1 → ¬ reached frame → fails 6 255) ∧
          (deviceLeaf e → e / 16 % 2 = 1 →
            Writes (.zeroBeforeFirstAccess die part va false) s 3 0xC09 die (s.reg 3 0xC09 die + 1))))

/-- An entry of an invalidation log removes what it names, moves its page, and has its RESULT and INV_DONE written. For
a state in canonical form and a die whose log has an entry that waits. A page entry removes the TLB entries of the
page of its SIZE and its counters, a partition entry the TLB entries of the partition, and no others; RESULT is 1. A
move entry of a page whose walk ends at a well-formed 64 KiB device leaf with a frame other than the new one, where
the leaf, the log entry and the two frames lie apart, the tables and both frames on dies that can be reached and the
new frame in populated memory, removes the page's TLB entries, copies the page, and rewrites FRAME and SEQ of DW0 and no other
field; RESULT is 1. A move whose copy does not complete or whose leaf is none of its kind leaves DW0 and the frames;
RESULT is 2. An entry with a nonzero zero field or an illegal KIND or SIZE has no effect; RESULT is 3. Each writes
RESULT in bits 7:0 of DW1, advances INV_DONE by one and changes no other byte. [derived: R40, R142, R143, R144] -/
def Obligations.InvalidationEntriesAreApplied : Prop :=
  ∀ (s : State) (die a dw0 dw1 part va kind size : Nat), s.Canon → die < 4 → NextInLog s die a → dw0 = deviceWord s a → dw1 = deviceWord s (a + 8) →
    part = dw0 % 32 → va = dw0 / 2 ^ 16 * 2 ^ 16 → kind = dw0 / 2 ^ 10 % 4 → size = dw0 / 2 ^ 8 % 4 →
    let done := fun (t : State) (res : Nat) => rdByte t (region 6 (a + 8)) = BitVec.ofNat 8 res ∧
      t.reg 3 0xC07 die = s.reg 3 0xC07 die + 1 ∧ t.ctxs = s.ctxs ∧ t.images = s.images
    let kept := fun (t : State) (b : Nat) => b ≠ region 6 (a + 8) → rdByte t b = rdByte s b
    let sound := dw0 / 2 ^ 12 % 16 = 0 ∧ dw0 / 2 ^ 5 % 8 = 0 ∧ size ≠ 3 ∧ kind ≠ 3
    let malformed := fun (t : State) => done t 3 ∧ (∀ b, kept t b) ∧ t.tlb = s.tlb ∧ t.access = s.access
    let moved := fun (t : State) => t.access = s.access ∧ ∀ e, e ∈ t.tlb ↔ e ∈ s.tlb ∧ ¬ samePage e die part 0 va
    let given := fun (i : Instr) (ok : Bool) =>
      i = .invalidatePage die ∧ kind = 0 ∨ i = .invalidatePartition die ∧ kind = 1 ∨ i = .movePage die ok ∧ kind = 2
    (s.turn = some (.inval die) → s.stalled = false → ¬ (sound ∧ dw1 / 2 ^ 8 % 2 ^ 16 = 0) → ∃ t, step s = .next t ∧ malformed t) ∧
    (sound →
      (∀ i ok, given i ok → dw1 / 2 ^ 8 % 2 ^ 16 ≠ 0 → ∃ t, exec i s = .next t ∧ malformed t) ∧
      (dw1 / 2 ^ 8 % 2 ^ 16 = 0 →
        (kind = 0 → ∃ t, exec (.invalidatePage die) s = .next t ∧ done t 1 ∧ (∀ b, kept t b) ∧
          (∀ e, e ∈ t.tlb ↔ e ∈ s.tlb ∧ ¬ samePage e die part size va) ∧
          ∀ x, x ∈ t.access ↔ x ∈ s.access ∧ ¬ countsIn x die part size va) ∧
        (kind = 1 → ∃ t, exec (.invalidatePartition die) s = .next t ∧ done t 1 ∧ (∀ b, kept t b) ∧ t.access = s.access ∧
          ∀ e, e ∈ t.tlb ↔ e ∈ s.tlb ∧ ¬ (e.die = die ∧ e.part = part)) ∧
        (kind = 2 → ∃ t, exec (.movePage die false) s = .next t ∧ done t 2 ∧ (∀ b, kept t b) ∧ moved t) ∧
        ∀ leaf lf src dst, kind = 2 → WalksTo s part va leaf → lf = deviceWord s leaf → src = lf / 2 ^ 24 * 2 ^ 16 →
          dst = dw1 / 2 ^ 24 % 2 ^ 23 * 2 ^ 16 →
          let near := s.reach die (src / 2 ^ 37) = true ∧ s.reach die (dst / 2 ^ 37) = true ∧
            ∀ n t, n ≤ 4 → Reaches s part va n t → s.reach die (t / 2 ^ 37) = true
          (¬ deviceLeaf lf ∨ ¬ near ∨ 0x1800000000 ≤ dst % 2 ^ 37 → ∃ t, exec (.movePage die true) s = .next t ∧ done t 2 ∧
            (∀ b, kept t b) ∧ moved t) ∧
          (deviceLeaf lf → near → dst % 2 ^ 37 < 0x1800000000 → src ≠ dst →
            (∀ f, f = src ∨ f = dst → (leaf + 8 ≤ f ∨ f + 2 ^ 16 ≤ leaf) ∧ (a + 16 ≤ f ∨ f + 2 ^ 16 ≤ a)) → (leaf + 8 ≤ a ∨ a + 16 ≤ leaf) →
            ∃ t, exec (.movePage die true) s = .next t ∧ done t 1 ∧ moved t ∧
              (∀ k < 2 ^ 16, rdByte t (region 6 dst + k) = rdByte s (region 6 src + k)) ∧
              rdNat t (region 6 leaf) 8 = withBits (withBits lf 46 24 (dw1 / 2 ^ 24)) 15 8 (lf / 2 ^ 8 + 1) ∧
              ∀ b, (b < region 6 dst ∨ region 6 dst + 2 ^ 16 ≤ b) → (b < region 6 leaf ∨ region 6 leaf + 8 ≤ b) → kept t b)))

/-- A block whose digests match its riser and whose successor the riser allows commits, and goes on at that successor.
For a plain block (no pre-emption, in its first attempt) that has ended at its end bundle and can be checked, with
the riser's two digests equal to the block's and its zero field zero: its held accesses are performed in program and
slot order, up to the first that an order makes wait, a BANK sent once; a direct transfer to a named successor goes
on there, and a CALL leaves the VA after the riser in x1; an indirect one does so with FLAGS bit 1 where the target
is an entry bundle, a return with bit 2, a fall through with bit 0 or a name, SUSP, YIELD and EXIT with bit 4, and
ERET in the handler with bit 4 goes on in user mode at EPC. An iteration that is not the loop's last goes on at the
body start where it is named or bit 3 is set, with ITER and ROT raised by one and the strides added to their
registers; the last one falls through and closes the level. Other x registers stay. Then the act: SYNC arrives, or
waits for its accesses and cards; WAITFE waits for its row or flag; SUSP, YIELD and EXIT leave the slot, in the
handler after ERET. A verdict acts before the transfer: where it retires the tile nothing follows. A store whose
fault comes at commit ends the context after its transfer. [derived: R188, R228, R229, R230, R232, R235, R298, R299,
R301, R307, R312, R319] -/
def Obligations.CommittedTransfersReachTheirTarget : Prop :=
  (∀ (s u : State) (ck v : Nat) (c : Ctx) (e : EndRec), s.Canon → Checkable s ck c e → PlainBlock c → c.strayLoad = false → e.isEnd = true →
    e.lost = false → c.x.Pairwise (fun a b => a.1 < b.1) → fetchWords 4 s ck (e.next - 16) = (u, .ok v) → v % 2 ^ 32 = c.odig.toNat →
    v / 2 ^ 32 % 2 ^ 32 = c.ddig.toNat → v / 2 ^ 96 % 2 ^ 8 = 0 →
    let flag := fun (k : Nat) => v / 2 ^ (64 + k) % 2 = 1
    let named := fun (t : Nat) => Names (e.next - 16) (v / 2 ^ 64 % 2 ^ 32) t ∨ Names (e.next - 16) (v / 2 ^ 96 % 2 ^ 32) t
    let ordinary := ∀ h ∈ released c, ∀ a, h.k ≠ .mts 0x2C a
    let ends := fun (x : State) (pc : Nat) (regs : Ctx → Prop) (acted : State → State → Ctx → Ctx → Prop) => ∃ b m w d d',
      Committed x b ck (x.ctx ck) ∧ Performs ck m (released c) b ∧ m.ctx? ck = some d ∧ exec (.riserCheck ck) s = .next w ∧ w.ctx? ck = some d' ∧
      regs d' ∧ d'.ibuf = [] ∧ d'.out = d.out ∧ d'.outst = d.outst ∧
      (d.phase = .running → d.preempt = false → d'.pc = pc ∧ d'.fresh = true ∧ acted m w d d') ∧
      (d.phase ≠ .running → d.phase = .leaving 6 ∧ w = { m with ctxs := w.ctxs } ∧ d'.phase = .leaving 6)
    let leaves := fun (st : Nat) (m w : State) (_ d' : Ctx) => w = { m with ctxs := w.ctxs } ∧
      (c.priv = false → d'.phase = .leaving st) ∧ (c.priv = true → d'.phase = .running ∧ d'.owed = e.act)
    let acted := fun (m w : State) (d d' : Ctx) => d'.priv = c.priv ∧ match e.act with
      | .none => w = { m with ctxs := w.ctxs } ∧ d'.phase = .running
      | .sync g x =>
        let n := m.rn 4 (0x1020 + g) c.part
        let obj := g * 16 + (if x = true then 256 else 0)
        let goes := d.out = [] ∧ d.outst = [] ∧ n / 2 ^ 21 % 2 ^ 11 < n % 2 ^ 11 ∧ (x = true → exchangeBusy m c = false)
        g < 16 → (goes → d'.phase = .waiting 1 obj (n / 2 ^ 32 % 2 ^ 16) true 0 ∧
            w.rn 4 (0x1020 + g) c.part = withBits n 31 21 (n / 2 ^ 21 + 1)) ∧
          (¬ goes → d'.phase = .waiting 1 obj 0 false 0 ∧ w = { m with ctxs := w.ctxs })
      | .waitRow p => w = { m with ctxs := w.ctxs } ∧ d'.phase = if d'.isEmpty p then .waiting 3 p 0 true 0 else .running
      | .waitFlag va k =>
        let n := (((c.ibuf.filter fun y => !y.isRow)[k]?).map (·.val)).getD 0
        w = { m with ctxs := w.ctxs } ∧ (n = 0 → d'.phase = .waiting 2 va 0 true 0) ∧ (n ≠ 0 → d'.phase = .running ∧ d'.timedOut = false)
      | .susp => leaves 3 m w d d'
      | .yield => leaves 0 m w d d'
      | .exit => leaves 4 m w d d'
      | .eret => d'.phase = .running
    let same := fun (link : Bool) (d' : Ctx) => ∀ r < 32, d'.rx r = if link = true ∧ r = 1 then BitVec.ofNat 64 e.next else c.rx r
    let reaches := fun (x : State) (t : Nat) (link : Bool) => ordinary →
      ends x t (same link) fun m w d d' => d'.arch = d.arch ∧ acted m w d d'
    let departs := e.act = .susp ∨ e.act = .yield ∨ e.act = .exit
    (e.level = none → e.act = .none →
      (∀ t link, e.xfer = .steer t false link → named t → reaches u t link) ∧
      (∀ t link w, e.xfer = .steer t true link → flag 1 → entryBundle u ck c.gen t = (w, .ok true) → reaches w t link) ∧
      (∀ t, e.xfer = .ret t → flag 2 → reaches u t false) ∧
      (∀ t, e.xfer = .zeroLoop t → named t → reaches u t false)) ∧
    (e.level = none → e.act ≠ .eret → e.xfer = .fall → (departs → flag 4) → (¬ departs → flag 0 ∨ named e.next) → reaches u e.next false) ∧
    (e.level = none → e.act = .eret → e.xfer = .fall → flag 4 → ordinary →
      ends u (c.arch.epc.toNat / 4 * 4) (same false) fun m w _ d' => w = { m with ctxs := w.ctxs } ∧ d'.priv = false ∧ d'.frozen = [] ∧
        d'.owed = .none ∧ d'.phase = match c.owed with
          | .susp => .leaving 3
          | .yield => .leaving 0
          | .exit => .leaving 4
          | _ => .running) ∧
    (∀ l lp, e.level = some l → e.act ≠ .eret → e.xfer = .fall → (departs → flag 4) → l < c.arch.loops.length → lp = c.arch.loops.getD l {} →
      c.pend = [] → c.empties = [] →
      (if lp.iter + 1 < lp.count then flag 3 ∨ named lp.start else flag 0 ∨ named e.next) → ordinary →
        ends u (if lp.iter + 1 < lp.count then lp.start else e.next)
          (fun d' => ∀ r < 32, d'.rx r = if r = 0 then 0 else c.rx r + ((lp.binds.filter fun b => b.1 == r).map (·.2)).sum)
          fun m w d d' => acted m w d d' ∧ d'.arch.rot = (c.arch.rot + 1) % 16 ∧ (d'.arch.loops.getD l {}).iter = lp.iter + 1 ∧
            d'.arch.nloop = if lp.iter + 1 < lp.count then c.arch.nloop else l) ∧
    (∀ a o n, released c = [⟨.mts 0x2C a, o, n⟩] → c.outst = [] → e.level = none → e.act = .eret → e.xfer = .fall → flag 4 →
      ∃ b, Committed u b ck (u.ctx ck) ∧ ∃ m, m = verdict (b.setCtx ck { b.ctx ck with out := [] }) ck (a % 4) ∧
        (m.retiring (ck / 2) = true → exec (.riserCheck ck) s = .next m))) ∧
  ∀ (s : State) (ck : Nat) (c : Ctx) (h : Held), s.ctx? ck = some c → s.ctxs.Pairwise (fun a b => a.1 < b.1) →
    let own := fun (va : Nat) => ∃ a, ownLoc s c (ck / 2) va = some a
    let t := perform s ck h
    (∀ va n v, h.k = .store va n v →
      (∀ w a, own va → locate s c.part va n true false false (ck / 256) = (w, .ok a) → s.Canon →
        t = { w with mem := t.mem, tags := t.tags, relVec := t.relVec, regs := t.regs } ∧ BytesKept w t a n ∧ rdNat t a n = v % 256 ^ n) ∧
      (¬ own va → ∃ k, Sends s t ck c ⟨s.nextRid, va, n, none, false, h.scope⟩ k ∧ k.opc = 1 ∧ k.payload = v ∧ k.tag = 0)) ∧
    (∀ va v g, h.k = .row va v g → (vaClass s.capSpad va).translated = false →
      (∀ w a, own va → locate s c.part va 256 true false false (ck / 256) = (w, .ok a) → s.Canon → s.tags.Pairwise (fun x y => x.1 < y.1) →
        t = { w with mem := t.mem, tags := t.tags, relVec := t.relVec, regs := t.regs } ∧ BytesKept w t a 256 ∧
        rdNat t a 256 = v % 256 ^ 256 ∧ tagAt t a = g) ∧
      (¬ own va → ∃ k, Sends s t ck c ⟨s.nextRid, va, 256, none, false, h.scope⟩ k ∧ k.opc = 1 ∧ k.payload = v ∧ k.tag = g.toNat)) ∧
    (∀ va v g, h.k = .row va v g → (vaClass s.capSpad va).translated = true → t = (List.range 4).foldl (fun x j =>
      perform x ck { h with k := .store (va + 64 * j) 64 (v / 2 ^ (512 * j) % 2 ^ 512) }) s) ∧
    (∀ op va n v d, h.k = .bank op va n v d → ∃ k, Sends s t ck c ⟨s.nextRid, va, n, some d, h.ord % 2 == 1, h.scope⟩ k ∧
      k.opc = 4 ∧ k.bop = op ∧ k.payload = v) ∧
    (∀ o v, h.k = .eng o v → t = s.setCtx ck { c with q := c.q.set (o / 8) (BitVec.ofNat 64 v) }) ∧
    (∀ va v, h.k = .go va v → s.clusters.Pairwise (fun a b => a.1 < b.1) → ∃ k : Card, k.st = .posted ∧ k.id = s.nextCard ∧ k.part = c.part ∧
      k.cr = c.cr ∧ k.serial = c.posted ∧ k.prio = c.prio ∧ k.queue = ck % 16 ∧ k.q = c.q ∧ k.guard = v ∧
      (t.cl (ck / 16)).cards = (s.cl (ck / 16)).cards ++ [k] ∧ t.ctx? ck = some { c with posted := c.posted + 1 } ∧
      t.events = s.events ++ [.cardWindowEntry (ck / 16) k.id] ∧ t.mem = s.mem) ∧
    (∀ b, h.k = .fence b → t = s) ∧
    (∀ v, h.k = .mts 0x14 v → t = s.post (.contWakeWrite c.part v))

/-- A block that fails its check is recast while RCN allows it and then is a seal fault; a fault enters the handler at
FLT_VEC. For a state in canonical form and a block that has ended and can be checked. With a digest that differs
from the riser's, or a load whose address changed in a recast: while fewer than RCN recasts were made, the entry
state is restored and the block runs again; else the seal fault is taken with cause 0x14: SEAL_EXP and SEAL_OBS hold
the riser's and the block's digests, the input buffer is frozen, and SFC rises by one, to 255 at most. Where SFC
then is AUTO_THR or more, which is not 0, the fault is not delivered: the tile's autotomy is queued. A transfer at a
bundle that is no end bundle is recast once where RCN is not 0. A fault reply of the block's first load is taken
with its cause, slot, VA and level. In the step of a context whose fault has met its fills, those of bank requests
too, with FLT_VEC enabled at an entry bundle of an admitted image and in user mode: EPC is the block's entry, ECAUSE
the cause with the slot, EVA the address, and the context runs in privileged mode at FLT_VEC; in privileged mode or
without a handler it leaves faulted, with a device fault record unless sealed. (That SFC stays at 255, and that
AUTO_THR is met from above too, are the model's choices: log entry 50.) [derived: R135, R208, R210, R214, R229, R232,
R233, R234, R235, R236, R238, R298] -/
def Obligations.FailedBlocksRecastOrEnterTheHandler : Prop :=
  ∀ (s : State) (ck : Nat) (c : Ctx) (e : EndRec), s.Canon →
    (Checkable s ck c e → e.isEnd = true → ∀ (u : State) (v : Nat), fetchWords 4 s ck (e.next - 16) = (u, .ok v) →
      c.strayLoad = true ∨ v % 2 ^ 32 ≠ c.odig.toNat ∨ v / 2 ^ 32 % 2 ^ 32 ≠ c.ddig.toNat →
      (c.recasts < (s.reg 1 0x401 (ck / 2)).toNat % 8 →
        exec (.riserCheck ck) s = .next (u.setCtx ck { c.restart with recasts := c.recasts + 1, phase := .running })) ∧
      ((s.reg 1 0x401 (ck / 2)).toNat % 8 ≤ c.recasts → s.reg 1 0x403 (ck / 2) = 0 → ∃ w c', exec (.riserCheck ck) s = .next w ∧
        w.ctx? ck = some c' ∧ c'.phase = .faulting 0x14 0 e.va 255 (ck / 256) true ∧
        c'.sealExp.toNat = v / 2 ^ 32 % 2 ^ 32 * 2 ^ 32 + v % 2 ^ 32 ∧ c'.sealObs.toNat = c.ddig.toNat * 2 ^ 32 + c.odig.toNat ∧
        c'.frozen = c.ibuf ∧ c'.pc = c.entryVa ∧ c'.held = [] ∧
        w.reg 1 0x402 (ck / 2) = BitVec.ofNat 64 (min 255 ((s.reg 1 0x402 (ck / 2)).toNat + 1))) ∧
      ((s.reg 1 0x401 (ck / 2)).toNat % 8 ≤ c.recasts → s.reg 1 0x403 (ck / 2) ≠ 0 →
        (s.reg 1 0x403 (ck / 2)).toNat ≤ min 255 ((s.reg 1 0x402 (ck / 2)).toNat + 1) → ∃ w c', exec (.riserCheck ck) s = .next w ∧
        w.autoq = [⟨s.tsc.toNat, ck / 2, min 255 ((s.reg 1 0x402 (ck / 2)).toNat + 1)⟩] ∧ .autotomy (ck / 2) ∈ w.events ∧
        w.ctx? ck = some c' ∧ c'.phase = .running ∧ c'.pc = c.entryVa ∧ c'.held = [])) ∧
    (Checkable s ck c e → e.isEnd = false → c.strayLoad = false → c.recasts = 0 → (s.reg 1 0x401 (ck / 2)).toNat % 8 ≠ 0 →
      exec (.riserCheck ck) s = .next (s.setCtx ck { c.restart with recasts := 1, phase := .running })) ∧
    (∀ f l cause va level die, s.ctx? ck = some c → c.phase = .ended e → s.autoq = [] → c.fills = f :: l →
      (∀ g ∈ c.fills, ∀ p ∈ g.parts, p.got.isSome = true) → f.bad = some (cause, va, level, die) →
      exec (.riserCheck ck) s = .next (takeFault s ck c cause f.slot va level die false)) ∧
    (∀ cause slot eva level die sealed, s.turn = some (.ctx ck) → s.stalled = false → s.ctx? ck = some c →
      s.ctxs.Pairwise (fun a b => a.1 < b.1) → c.phase = .faulting cause slot eva level die sealed →
      (∀ g ∈ c.fills, ∀ p ∈ g.parts, p.got.isSome = true) → (∀ o ∈ c.outst, o.dst = none) → (∀ h ∈ c.out, ∀ op va n v d, h.k ≠ .bank op va n v d) →
      let vec := (s.reg 4 0x1006 c.part).toNat
      let handled := vec % 2 = 1 ∧ ∃ im, EntryIn s c.part (vec / 4 * 4) im
      (handled → c.priv = false → ∃ t c', step s = .next t ∧ t.ctx? ck = some c' ∧ c'.priv = true ∧ c'.pc = vec / 4 * 4 ∧
        c'.phase = .running ∧ c'.fresh = true ∧ c'.fills = [] ∧ c'.x = c.x ∧ c'.rows = c.rows ∧
        c'.arch = { c.arch with epc := BitVec.ofNat 64 c.entryVa, ecause := BitVec.ofNat 64 (slot * 256 + cause),
                                eva := BitVec.ofNat 64 eva } ∧ t.mem = s.mem ∧ t.regs = s.regs) ∧
      (¬ handled ∨ c.priv = true → ∃ u, step s = .next (u.setCtx ck { c.dropFills with phase := .leaving 6 }) ∧
        u = (if sealed = true then { s with turn := none, tick := s.tick + 1 } else emit { s with turn := none, tick := s.tick + 1 } c.part
          (srcTile (ck / 2)) 0x10 (cause + die * 2 ^ 8) eva level)))

/-- A context load takes the words of its CR, and a context that leaves its slot frees it. An idle slot that can take a
CR does: a CR whose words break R151 ends faulted; else, without a save area to read, the slot holds a context with
pc, generation, ROT, LDEP, loop count and conditions from the CR's words, in user mode and running, or waiting on
where it was queued with a wait, and at its first load with x3 = LINK, x4 = the CR, x8 = ARGS, x9 = rank, and the rest but x2 zero. A drained context that suspends,
exits with all its cards done, is pre-empted, faults or yields leaves its slot free and every other resident context
as it was; a suspended, exited or faulted one is noted as such, and an exit counts in its launch. A wait is written
back only where R162 allows it: the context is then noted as waiting and stands in the wait list of its cluster. The
sequencers poll a loaded context at its COLL_RTB. A load or a write-back waits for the entries of an invalidation
log that INV_ERR has stopped. (That a context queued with a wait waits on is the model's choice: log entry 18.)
[derived: R59, R108, R143, R149, R150, R151, R154, R155, R162, R163, R166, R174] -/
def Obligations.ContextsAreLoadedAndWrittenBack : Prop :=
  ∀ (s : State), s.ctxs.Pairwise (fun a b => a.1 < b.1) →
    (∀ tile < 512, ∀ slot < 2, canLoad s tile slot = true → ∃ part cr, loadPick s tile slot = some (part, cr) ∧
      (∃ t, exec (.contextLoad tile slot) s = .next t) ∧
      ∀ (u v : State) (o : Nat) (l : List Nat) (w : Nat → Nat), acqRead8 (dropWaiter (unqueue s (tile / 8) part cr) part cr)
          part (cr + 8) (srcTile tile) 3 = (u, .ok o) →
        vaRead u part cr 64 (tile / 128) = (v, .ok l) → (∀ k, w k = leNat ((l.drop (8 * k)).take 8)) →
        ((∃ d < 4, LogStuck s d) → u.stalled = true) ∧
        (crBad ((List.range 8).map w) = true → exec (.contextLoad tile slot) s = .next (refuseCr v tile part cr (w 1) ⟨1, 255, tile / 128, cr⟩)) ∧
        (crBad ((List.range 8).map w) = false → w 1 / 2 ^ 33 % 2 = 0 → ∃ t c, exec (.contextLoad tile slot) s = .next t ∧
          t.ctx? (2 * tile + slot) = some c ∧ c.pc = w 0 ∧ c.cr = cr ∧ c.save = w 2 ∧ c.part = part ∧ c.gen = w 1 / 2 ^ 26 % 4 ∧
          c.arch.rot = w 3 / 2 ^ 12 % 2 ^ 4 ∧ c.arch.ldep = w 3 / 2 ^ 16 % 2 ^ 5 ∧ c.arch.nloop = w 3 / 2 ^ 21 % 2 ^ 3 ∧
          (∀ n < 12, (c.sg n).c = (w 3).testBit n) ∧ c.priv = false ∧ c.fresh = true ∧ c.rows = [] ∧
          (findWaiter s part cr = none → c.phase = .running) ∧
          (∀ clu w, findWaiter s part cr = some (clu, w) → c.phase = .waiting w.kind w.obj w.gen true 0) ∧
          (∀ lv, v.live? part cr = some lv → t.live? part cr = some { lv with st := 1, first := false, rtb := 0 }) ∧
          (∀ lv, v.live? part cr = some lv → lv.first = false → ∀ r, c.rx r = 0) ∧
          (∀ lv, v.live? part cr = some lv → lv.first = true → c.rx 3 = BitVec.ofNat 64 lv.link ∧ c.rx 4 = BitVec.ofNat 64 cr ∧
            c.rx 8 = BitVec.ofNat 64 lv.args ∧ c.rx 9 = BitVec.ofNat 64 lv.rank ∧ ∀ r, r ∉ [2, 3, 4, 8, 9] → c.rx r = 0))) ∧
    (∀ (ck st : Nat) (c : Ctx) (i : Instr), s.ctx? ck = some c → drained c = true →
      (i = .contextWriteBack ck st ∧ c.phase = .leaving st ∧ st ≠ 4 ∧ st ≠ 8 ∨
        i = .contextExit ck ∧ st = 4 ∧ c.phase = .leaving 4 ∧ cardsDone s c.part c.cr = true ∨
        i = .preemption ck ∧ st = 0 ∧ c.phase = .leaving 8 ∧ c.preempt = true ∧ cardsDone s c.part c.cr = true ∨
        i = .waitWriteBack ck ∧ st = 2 ∧ canWaitBack s ck = true) →
      ∃ t, exec i s = .next t ∧ t.ctx? ck = none ∧ (∀ k, k ≠ ck → t.ctx? k = s.ctx? k) ∧
        (LogStuck s (ck / 256) → t.stalled = true) ∧
        (∀ l, s.live? c.part c.cr = some l → st ≠ 0 → ∃ m, t.live? c.part c.cr = some m ∧ m.st = st) ∧
        (∀ l k, s.live? c.part c.cr = some l → s.launches.find? (·.id == l.launch) = some k → st = 4 → c.exitStatus = 0 →
          t.launches = s.launches.map fun m => if m.id = k.id then { k with left := k.left - 1, exits := k.exits + 1 } else m) ∧
        (∀ kind obj gen a n, c.phase = .waiting kind obj gen a n → s.clusters.Pairwise (fun x y => x.1 < y.1) →
          ⟨c.part, c.cr, kind, obj, gen, c.arch.waitDl.toNat / 2 ^ 16⟩ ∈ (t.cl (ck / 16)).waiters))

/-- Waits end at their flag, deadline, wake or barrier; a window passes, and a tile retires. For contexts listed in
rising order and registers in canonical form. A resident flag waiter whose flag, read with acquire, is nonzero goes
on in its slot with TO clear, and with a zero flag waits on; the read waits for an earlier acquire or FENCE of the
context and for its committed stores to the flag; at its deadline the waiter goes on with TO set. A waiter that met a
pre-emption at its DP bundle takes it in place of going on. CONT_WAKE of a CR that is not suspended does nothing. A barrier group whose arrivals have reached COUNT completes: ARRIVED is 0,
GEN has risen by one modulo 2^16, every resident context that waits in that generation goes on, and every other
resident context stays. Written-back waiters whose flag or deadline has come, and woken CRs, complete too. SFC
returns to 0 when the window has passed. The autotomy at the head of the queue, of a tile without resident contexts,
leaves the tile retired, named by no place-table entry and out of the queue; any other is put off. [derived: R164,
R165, R174, R175, R183, R184, R188, R238, R239, R240, R308, R309] -/
def Obligations.WaitsBarriersAndTileRetirement : Prop :=
  ∀ (s : State), s.Canon → s.ctxs.Pairwise (fun a b => a.1 < b.1) →
    let on := fun (c : Ctx) (timed : Bool) =>
      { c with phase := if c.preDue = true then .leaving 8 else .running, preDue := false, fresh := true, timedOut := timed }
    (∀ (ck : Nat) (c : Ctx) (va g n v : Nat) (a : Bool) (u : State), s.ctx? ck = some c → c.phase = .waiting 2 va g a n →
      let kept := acqOpen c = true ∨ storeOpen s c va 8 = true
      (kept → exec (.flagReread c.part c.cr ck) s = .next { s with stalled := true }) ∧
      (¬ kept → acqRead8 s c.part va (srcTile (ck / 2)) 3 = (u, .ok v) → exec (.flagReread c.part c.cr ck) s =
        .next (if v = 0 then u else u.setCtx ck (on c false)))) ∧
    (∀ (ck kind obj g n : Nat) (c : Ctx), s.ctx? ck = some c → c.phase = .waiting kind obj g true n → kind ≤ 2 →
      c.arch.waitDl.toNat / 2 ^ 16 ≠ 0 → c.arch.waitDl.toNat / 2 ^ 16 ≤ s.tsc.toNat / 2 ^ 16 → exec (.waitDeadline c.part c.cr ck) s =
        .next (s.setCtx ck (on c true))) ∧
    (∀ (part cr clu : Nat) (w : Waiter), s.ctx? 0x10000 = none → findWaiter s part cr = some (clu, w) →
      (w.kind = 2 → ∃ t, exec (.flagReread part cr 0x10000) s = .next t) ∧
      (w.dl ≠ 0 → w.dl ≤ s.tsc.toNat / 2 ^ 16 → ∃ t, exec (.waitDeadline part cr 0x10000) s = .next t ∧ t.ctxs = s.ctxs)) ∧
    (∀ part va, (∀ l, s.live? part va = some l → l.st ≠ 3) → exec (.contWakeWrite part va) s = .next s) ∧
    (∀ part va, ∃ t, exec (.contWakeWrite part va) s = .next t ∧ t.ctxs = s.ctxs) ∧
    (∀ part g v, part < 32 → g < 16 → v = s.rn 4 (0x1020 + g) part → 0 < v % 2 ^ 11 → v % 2 ^ 11 ≤ v / 2 ^ 21 % 2 ^ 11 →
      ∃ t, exec (.barrierComplete part g) s = .next t ∧
        t.rn 4 (0x1020 + g) part = withBits (withBits v 31 21 0) 47 32 (v / 2 ^ 32 + 1) ∧
        ∀ ck c, s.ctx? ck = some c → t.ctx? ck = some (match c.phase with
          | .waiting 1 obj gen true _ => if c.part = part ∧ obj / 16 % 16 = g ∧ gen = v / 2 ^ 32 % 2 ^ 16 then
              on c false else c
          | _ => c)) ∧
    (∀ tile, (s.reg 1 0x402 tile).toNat ≠ 0 → (s.reg 1 0x402 tile).toNat < (s.reg 1 0x403 tile).toNat →
      (s.tile tile).sfcAt + (s.reg 1 0x404 tile).toNat ≤ (s.tile tile).cycle → Writes (.sfcWindowExpiry tile) s 1 0x402 tile 0) ∧
    (∀ tile < 512, s.retiring tile = true → s.ctx? (2 * tile) = none → s.ctx? (2 * tile + 1) = none →
      (s.autoq.head?.map (·.tile) ≠ some tile → exec (.autotomy tile) s = .next (s.post (.autotomy tile))) ∧
      (s.autoq.head?.map (·.tile) = some tile → ∃ t, exec (.autotomy tile) s = .next t ∧ t.reg 1 0x405 tile = 1 ∧ t.retiring tile = false ∧
        (∀ p < 32, ∀ g < 512, t.physTile p g ≠ some tile) ∧
        ∀ p < 32, ∀ g < 512, s.physTile p g ≠ some tile → t.physTile p g = s.physTile p g))

/-- Job cards enter the window in GO order, are drawn by lottery, run their operation and complete in their context. For
a card of a cluster, with clusters and contexts listed in rising order. A posted card whose turn in GO order and
whose room in the window have come enters: an ill-formed one finishes with cause 0x19, another has edges to exactly
the earlier cards of its context in the window, not ill-formed, whose extents conflict with its own; else it is put
off. A draw of a kind with a free engine and a ready card steps that arbiter's generator and gives an engine to the
first ready card of the winning queue. A running card whose guard pair cannot be read finishes with that cause. COPY2D,
COPYX on this chip, GATHER and FILL make the rows that their guard pair counts in order, and finish at the first that
faults with the rows before it; a row within a line (64 bytes in a translated range, 256 else) leaves its bytes and
its tag (R224) there. SCACC reads 32 entries at a time, combines those of one index in stream order, makes one bank
operation for each index in order of its first place, and finishes with cause bounds at the place of an index out of
range, and at the place of one whose target faults with its fault, the entries before either applied. A COPYX to
another chip notes its count, then sends one packet for a line after another: those of a row, row after row, then that
of the flag; a line in no class of that chip's is not sent and ends it with cause address; each acknowledgement lets it
go on, a row counting with its last; a fault reply, or an acknowledgement that is overdue, ends it with the rows
counted. A finished card that is its context's next raises its flag if it did not abort, is counted in CMPL, an
aborted one in ABRT too, with its record, and leaves. (The model's choices: the VA of an index out of range is that of
its entry, log entry 48; what an engine counts as requests in its window, and that marks of those it answers itself
are free, log entry 112.) [derived: R55, R125, R167, R168, R170, R171, R193, R224, R338, R344, R345, R346] -/
def Obligations.JobCardsEnterRunAndComplete : Prop :=
  ∀ (s : State) (cl id : Nat) (k : Card), s.clusters.Pairwise (fun a b => a.1 < b.1) → s.ctxs.Pairwise (fun a b => a.1 < b.1) →
    s.card? cl id = some k →
    let meets := fun (a b c d : Nat) => a < b ∧ c < d ∧ a < d ∧ c < b
    let ends := fun (u : State) (cause va rows : Nat) => (u.setCard cl { k with st := .finished cause va, rows := rows }).post (.cardDone cl id)
    (k.st = .posted → ((∃ m ∈ (s.cl cl).cards, m.id < k.id ∧ m.st = .posted) ∨ 64 ≤ ((s.cl cl).cards.filter Card.inWindow).length) →
      exec (.cardWindowEntry cl id) s = .next (s.post (.cardWindowEntry cl id))) ∧
    (k.st = .posted → (∀ m ∈ (s.cl cl).cards, m.id < k.id → m.st ≠ .posted) → ((s.cl cl).cards.filter Card.inWindow).length < 64 →
      (k.ill = true → exec (.cardWindowEntry cl id) s = .next ((s.setCard cl { k with st := .finished 0x19 0 }).post (.cardDone cl id))) ∧
      (k.ill = false → ∃ l, exec (.cardWindowEntry cl id) s = .next (s.setCard cl { k with st := .windowed, edges := l }) ∧
        ∀ n, n ∈ l ↔ ∃ e ∈ (s.cl cl).cards, e.id = n ∧ e.part = k.part ∧ e.cr = k.cr ∧ e.id < k.id ∧ e.inWindow = true ∧ e.ill = false ∧
          (meets k.rlo k.rhi e.wlo e.whi ∨ meets k.wlo k.whi e.rlo e.rhi ∨ meets k.wlo k.whi e.wlo e.whi))) ∧
    (∀ kind x, kind < 3 → kind = k.kind → cardReady s cl k = true → (∃ e < (if kind = 0 then 2 else 1), ∀ m ∈ (s.cl cl).cards, m.kind = kind →
        m.st ≠ .running e) → (∀ m ∈ (s.cl cl).cards, m.queue < 16) → x = (s.cl cl).gens.getD kind 1 → 0 < x → x < 2 ^ 32 →
      let first := fun (q : Nat) => (s.cl cl).cards.find? fun m => m.kind == kind && m.queue == q && cardReady s cl m
      ∃ w m e, Wins 16 (fun q => first q ≠ none) (fun q => ((first q).map (·.prio)).getD 0) (xorshift32 (BitVec.ofNat 32 x)).toNat
          ((s.cl cl).last.getD kind 15) w ∧ first w = some m ∧ (∀ n ∈ (s.cl cl).cards, n.kind = kind → n.st ≠ .running e) ∧
        exec (.cardDraw cl kind) s = .next ((s.setCl cl { s.cl cl with
          gens := (s.cl cl).gens.set kind (xorshift32 (BitVec.ofNat 32 x)).toNat, last := (s.cl cl).last.set kind w }).setCard cl
            { m with st := .running e })) ∧
    (∀ (u : State) (e : Nat) (i : Instr), k.st = .running e →
      (i = .copy2d cl id ∧ k.op = 1 ∨ i = .copyx cl id ∧ k.op = 2 ∧ k.remote s = false ∨ i = .gather cl id ∧ k.op = 3 ∨
        i = .scacc cl id ∧ k.op = 4 ∨ i = .fill cl id ∧ k.op = 5) →
      (∃ t, exec i s = .next t) ∧
      (∀ bad, cardCount s cl k = (u, .error bad) → exec i s = .next (ends u bad.cause k.guard 0)) ∧
      ∀ n, cardCount s cl k = (u, .ok n) →
        (k.op ≠ 4 → (∀ x, RowsDone cl k 0 n u x → exec i s = .next (ends x 0 0 n)) ∧
          ∀ (m : Nat) (x y : State) (bad : Bad), m < n → RowsDone cl k 0 m u x → cardStep x cl k m = (y, some bad) →
            exec i s = .next (ends y bad.cause bad.va m)) ∧
        (k.op = 4 → ∀ (ws : List (List (Nat × Nat))) (x : State), ScWindows cl k 0 ws u x →
          (ws.flatten.length = n → (∀ w ∈ ws, 0 < w.length ∧ w.length ≤ 32) → (∀ w ∈ ws.dropLast, w.length = 32) → exec i s = .next (ends x 0 0 n)) ∧
          ∀ (w : List (Nat × Nat)) (y z v : State) (b : List Nat), (∀ w ∈ ws, w.length = 32) → w.length < 32 → 32 * ws.length + w.length < n →
            ReadsEntries cl k (32 * ws.length) w x y →
            let at_ := (k.w 1 + 16 * (32 * ws.length + w.length)) % 2 ^ 64
            vaRead (engReqs y cl k [at_]) k.part at_ 16 (cl / 16) = (z, .ok b) →
            k.w 3 / 2 ^ 32 ≤ leNat (b.take 8) → Accumulates cl k w (w.map (·.1)).eraseDups z v →
            exec i s = .next (ends v 3 at_ (32 * ws.length + w.length))) ∧
        (k.op = 4 → 0 < k.rb → ∀ (ws : List (List (Nat × Nat))) (w r : List (Nat × Nat)) (e : Nat × Nat) (x y z : State),
          ScWindows cl k 0 ws u x → (∀ w ∈ ws, w.length = 32) → (w ++ e :: r).length = min 32 (n - 32 * ws.length) →
          ReadsEntries cl k (32 * ws.length) (w ++ e :: r) x y → Accumulates cl k w (w.map (·.1)).eraseDups y z →
          let va := (k.dst + k.rb * e.1) % 2 ^ 64
          (va % k.rb ≠ 0 → exec i s = .next (ends z 1 va (32 * ws.length + w.length))) ∧
          ∀ v bad, va % k.rb = 0 → bankFar (engReqs z cl k [va]) k.part va k.rb (k.w 0 / 2 ^ 11 % 8) e.2 (cl / 16) = (v, .error bad) →
            exec i s = .next (ends v bad.cause bad.va (32 * ws.length + w.length)))) ∧
    (∀ (u v : State) (j : Nat) (b : List Nat), k.op ∈ [1, 2, 3, 5] → 0 < k.rb →
      let dst := (k.dst + 64 * (k.w 3 / 2 ^ 48 % 2 ^ 16) * j) % 2 ^ 64
      let src := (k.w 1 + 64 * (k.w 3 / 2 ^ 32 % 2 ^ 16) * j) % 2 ^ 64
      let reads := fun (w : State) (a : Nat) => vaRead (engReqs w cl k ((pieces a k.rb).map (·.1))) k.part a k.rb (cl / 16)
      let index := vaRead8 (engReqs u cl k [(k.w 1 + 8 * j) % 2 ^ 64]) k.part ((k.w 1 + 8 * j) % 2 ^ 64) (cl / 16)
      (∀ bad, (k.op ≤ 2 ∧ reads u src = (v, .error bad)) ∨ (k.op = 3 ∧ (index = (v, .error bad) ∨ ∃ y a, index = (y, .ok a) ∧ reads y a = (v, .error bad))) →
        cardStep u cl k j = (v, some bad)) ∧
      ∀ a : Nat, (k.op ≤ 2 ∧ a = src ∧ reads u src = (v, .ok b) ∨ (∃ y, k.op = 3 ∧ index = (y, .ok a) ∧ reads y a = (v, .ok b)) ∨
          k.op = 5 ∧ v = u ∧ b = (List.range k.rb).map fun i => k.w 1 / 256 ^ ((dst + i) % 8) % 256) → dst % vaLine dst + k.rb ≤ vaLine dst →
        (exchangeOf v k.part dst = none ∨ exchangeOf v k.part dst = some cl) → ∀ x,
        (∀ bad, vaWrite (engReqs v cl k [dst]) k.part dst b false (srcClu cl) = (x, some bad) → cardStep u cl k j = (x, some bad)) ∧
        (vaWrite (engReqs v cl k [dst]) k.part dst b false (srcClu cl) = (x, none) →
          let line := if k.rb ≠ 256 then 0 else if 3 ≤ k.op ∨ (vaClass v.capSpad a).tagged = false then cardTag k else srcTag v k.part a
          ((vaClass x.capSpad dst).tagged = false → cardStep u cl k j = (x, none)) ∧
          ∀ loc, (vaClass x.capSpad dst).tagged = true → sramLoc x k.part (vaClass x.capSpad dst) true = .ok loc → cardStep u cl k j = (setTag x loc line, none))) ∧
    (∀ (e : Nat) (u : State), k.st = .running e → k.op = 2 → k.remote s = true → k.acks = 0 →
      let aborts := fun (v : State) (m : Card) (cause va : Nat) => (v.setCard cl { m with st := .finished cause va, acks := 0 }).post (.cardDone cl id)
      let sends := fun (v : State) (m : Card) (p : Pkt) => if dieClass p.va = true then
        (v.setCard cl { m with acks := 1, sentAt := v.tsc.toNat }).post (.packetInject (cl / 16) (leafOf cl) p) else aborts v m 1 p.va
      let request := fun (v : State) (va : Nat) => ({
        cls := 0, ddie := homeDie v.capSpad va, dep := (endpointOf v k.part va).2, part := k.part,
        src := srcNo (cl / 16) 1 (cl % 16), dchip := k.w 2 / 2 ^ 48 % 2 ^ 12, va := va, rid := id, who := 0x10000 + 64 * e + cl, schip := v.ident.chip } : Pkt)
      (k.count = none →
        (∀ bad, cardCount s cl k = (u, .error bad) → exec (.copyx cl id) s = .next (aborts u k bad.cause k.guard)) ∧
        (∀ n, cardCount s cl k = (u, .ok n) → exec (.copyx cl id) s = .next (u.setCard cl { k with count := some n }))) ∧
      ∀ n, k.count = some n →
        (∀ p l, k.buf = p :: l → exec (.copyx cl id) s = .next (sends s k p)) ∧
        (k.buf = [] → k.rows < n → 0 < k.rb →
          let src := (k.w 1 + 64 * (k.w 3 / 2 ^ 32 % 2 ^ 16) * k.rows) % 2 ^ 64
          let dst := (k.dst + 64 * (k.w 3 / 2 ^ 48 % 2 ^ 16) * k.rows) % 2 ^ 64
          let row := vaRead (engReqs s cl k ((pieces src k.rb).map (·.1))) k.part src k.rb (cl / 16)
          (∀ bad, row = (u, .error bad) → exec (.copyx cl id) s = .next (aborts u k bad.cause bad.va)) ∧
          ∀ b, row = (u, .ok b) → dst + k.rb ≤ 2 ^ 64 → ∃ p l, exec (.copyx cl id) s = .next (sends u { k with buf := p :: l } p) ∧
            p.va = dst ∧ (∀ i q r, (p :: l)[i]? = some q → (p :: l)[i + 1]? = some r → r.va = q.va + q.len ∧ r.va % vaLine q.va = 0) ∧
            (∀ q, (p :: l).getLast? = some q → q.va + q.len = dst + k.rb) ∧
            ∀ q ∈ p :: l, 0 < q.len ∧ q.va % vaLine q.va + q.len ≤ vaLine q.va ∧ q = { request u q.va with
              opc := 1, len := q.len, payload := leNat ((b.drop (q.va - dst)).take q.len), row := q.len == 256,
              tag := if q.len ≠ 256 then 0 else if (vaClass u.capSpad src).tagged = true
                then (srcTag u k.part ((src + (q.va - dst)) % 2 ^ 64)).toNat else (cardTag k).toNat }) ∧
        (k.buf = [] → n ≤ k.rows → k.fofs ≠ 0 → k.flagged = false → exec (.copyx cl id) s = .next (sends (relTake s (srcClu cl)).1
          { k with flagged := true } { request (relTake s (srcClu cl)).1 k.flagVa with
            opc := 4, len := 8, payload := 1, bop := 0, want := 8, rel := true, vec := (relTake s (srcClu cl)).2.2 })) ∧
        (k.buf = [] → n ≤ k.rows → k.fofs = 0 ∨ k.flagged = true → exec (.copyx cl id) s = .next (aborts s k 0 0))) ∧
    (∀ (e d : Nat) (p : Pkt) (i : Instr), k.st = .running e → k.acks ≠ 0 → cl < 64 → p.who = 0x10000 + 64 * e + cl → p.rid = id →
      (i = .writeAcknowledge d p ∨ i = .bankReply d p) →
      let u := onReply s (engKey cl e) p.echo p.q
      let aborts := fun (v : State) (cause va : Nat) => (v.setCard cl { k with st := .finished cause va, acks := 0 }).post (.cardDone cl id)
      (k.op = 2 → k.remote s = true → exec (.copyx cl id) s = .fault .notPossible) ∧
      (p.cause = 0 → exec i s = .next (u.setCard cl
        { k with acks := 0, buf := k.buf.tail, rows := k.rows + (if k.buf.length = 1 then 1 else 0) })) ∧
      (p.cause ≠ 0 → exec i s = .next (aborts u p.cause p.va))) ∧
    (k.acks ≠ 0 → k.sentAt + (s.reg 4 0x1008 k.part).toNat ≤ s.tsc.toNat → exec (.copyxTimeout cl id) s =
      .next ((s.setCard cl { k with st := .finished 8 (match k.buf with | q :: _ => q.va | [] => k.flagVa), acks := 0 }).post (.cardDone cl id))) ∧
    (∀ (cause va ck : Nat) (c : Ctx) (u : State) (r : Option Bad), k.st = .finished cause va → (∀ m ∈ (s.cl cl).cards, m.id = id → m = k) →
      cardsOf s k.part k.cr = [k] → k.serial = c.cmpl → s.ctxs.find? (fun p => p.2.part == k.part && p.2.cr == k.cr) = some (ck, c) →
      (cause ≠ 0 ∨ k.fofs = 0 ∨ k.remote s = true → u = s ∧ r = none) →
      (cause = 0 → k.fofs ≠ 0 → k.remote s = false → k.scope < 3 → (∃ old, bankFar s k.part k.flagVa 8 0 1 (cl / 16) = (u, .ok old) ∧ r = none) ∨
        ∃ b, bankFar s k.part k.flagVa 8 0 1 (cl / 16) = (u, .error b) ∧ r = some b) →
      (cause = 0 → k.fofs ≠ 0 → k.remote s = false → 3 ≤ k.scope → relFlag s k.part k.flagVa (srcClu cl) false = (u, r)) →
      let cause' := match r with | some b => b.cause | none => cause
      let va' := match r with | some _ => k.flagVa | none => va
      ∃ v t, exec (.cardDone cl id) s = .next t ∧ (cause' = 0 → t = v) ∧
        (cause' ≠ 0 → t = emit v k.part (srcNo (cl / 16) 1 (cl % 16)) 0x13 (cause' + k.op * 2 ^ 8 + k.ctxno * 2 ^ 16) va'
          (k.rows % 2 ^ 32 + k.serial % 2 ^ 32 * 2 ^ 32)) ∧ v.mem = u.mem ∧ v.tags = u.tags ∧
        t.ctx? ck = some { c with cmpl := c.cmpl + 1, abrt := c.abrt + if cause' = 0 then 0 else 1 } ∧ cardsOf t k.part k.cr = [])

/-- A sequencer takes, parks or refuses collective packets, matches answers, retries, and times out. For a sequencer,
with sequencers in rising order. A data packet goes to the oldest armed block of its flow key and signature, and is
acknowledged and noted: for a reduction by ring or tree its bytes are kept to the end (log entry 115), else they are
written, within a line, at RECV + OFS, with the tag of R69 (of a line from another chip a free value: log entry 115)
and the injection of R241, and a line that the packets of a reduction cover takes its tag; an in-network member that
has all then completes ok, and a fault ends its block and NACKs the packet (log entry 89). One of no armed key is parked
where fewer than 32 are, else NACKed (one of a block completed within COLL_PARKTO ticks is acknowledged); where blocks
of its key are armed and none has its signature, the oldest completes with mismatch and the packet is NACKed with
REASON 1. An answer of a packet that is not held changes nothing; the oldest that it matches is released by an
acknowledgement (that of an arm packet lets the root's contribution follow), scheduled again after min(2^(n-1), 256) µs
by a NACK, and ends its block with mismatch by one of REASON 1. A due retry is sent again; a packet parked for more
than COLL_PARKTO ticks (log entry 116), here or at an eft core, is discarded and its sender NACKed; a block whose
timeout came runs if it lacks nothing, else completes with member-lost, the contributions combined and the ranks lacking
or unanswered (log entries 26, 119), a ring or tree reduction after elements of its receive buffer (log entry 102). A
completed block leaves with its held packets, those that wait to be sent among them, its key kept; STATUS holds the
record of R65, and FLAG is raised by one, a release; a fault of either is a record. (What cites a log entry is the
model's choice.) [derived: R64, R65, R69, R70, R71, R72, R76, R241, R409, R411, R415] -/
def Obligations.CollectivePacketsAnswersAndTimeouts : Prop :=
  ∀ (s : State) (die : Nat) (k : Pkt), die < 4 → s.seqrs.Pairwise (fun a b => a.1 < b.1) →
    let q := s.seqr die
    let keyed := fun (o : COp) => o.part = k.part ∧ o.flowKey = k.flow
    let isFor := fun (o : COp) => keyed o ∧ o.sig.toNat = k.tag
    let wait := fun (n : Nat) => 1000 * min (2 ^ n) 256
    let ofs := k.va % 2 ^ 32
    let data := leBytes k.len k.payload
    let kept := fun (x : State) (o : COp) => x.setSeqr die { x.seqr die with ops := (x.seqr die).ops.map fun p => if p.id = o.id then o else p }
    let goesOn := fun (t u : State) (o : COp) => (NetDone u die o → t = finishOp u die o 1 o.n []) ∧ (¬ NetDone u die o → t = u)
    (k.opc = 6 →
      let parks := (q.park.length < 32 → exec (.collectiveData die k) s =
          .next (s.setSeqr die { q with park := q.park ++ [⟨k, s.tsc.toNat, false⟩] })) ∧
        (32 ≤ q.park.length → exec (.collectiveData die k) s = .next (seqAnswer s die k 7 0))
      (∀ (l m : List COp) (o : COp), q.ops = l ++ o :: m → isFor o → (∀ p ∈ l, ¬ isFor p ∧ p.id ≠ o.id) → (∀ p ∈ m, p.id ≠ o.id) →
        let o' := { o with covered := o.covered ++ [(ofs, k.len)] }
        let va := (o.recvVa + ofs) % 2 ^ 64
        let sum := blockOp o ∈ [0, 1, 4]
        (sum → o.alg ≠ 3 → exec (.collectiveData die k) s =
          .next (kept (seqAnswer s die k 3 0) { o' with data := o.data ++ [(ofs, data)] })) ∧
        (¬ (sum ∧ o.alg ≠ 3) → 0 < k.len → va % vaLine va + k.len ≤ vaLine va →
          let tag := if k.len ≠ 256 then 0 else if sum then o.redTag else BitVec.ofNat 32 (k.ltag.getD (Config.farTag s.tick))
          let line := va / 256 * 256
          let whole := o.recvVa ≤ line ∧ line + 256 ≤ o.recvVa + partBytes o ∧
            ∀ b < 256, ∃ c ∈ o'.covered, c.1 ≤ line - o.recvVa + b ∧ line - o.recvVa + b < c.1 + c.2
          let ends := fun (x : State) (e : Bad) => exec (.collectiveData die k) s = .next (faultOp (seqAnswer x die k 7 0) die o e)
          let done := fun (y : State) (plain : Prop) => ∃ t z, exec (.collectiveData die k) s = .next t ∧ z = { y with tags := z.tags } ∧
            (¬ (sum ∧ plain ∧ whole) → z = y) ∧
            (sum ∧ plain ∧ whole → y.tags.Pairwise (fun a b => a.1 < b.1) → ∀ loc, loc < 6 * 2 ^ 60 →
              sramLoc y o.part (vaClass y.capSpad line) true = .ok loc → tagAt z loc = o.redTag) ∧
            goesOn t (kept (seqAnswer z die k 3 0) o') o'
          (exchangeOf s o.part va = none →
            (∀ x e, vaWrite s o.part va data false (srcSeq die) = (x, some e) → ends x e) ∧
            ∀ x, vaWrite s o.part va data false (srcSeq die) = (x, none) →
              (∀ b, sramLoc x o.part (vaClass x.capSpad va) true = .error b → done x True) ∧
              ∀ a, sramLoc x o.part (vaClass x.capSpad va) true = .ok a → done (setTag x a tag) True) ∧
          (∀ c, exchangeOf s o.part va = some c →
            (∀ u e, locateFar s o.part va k.len true false false die = (u, .error e) → ends u e) ∧
            ∀ u a, locateFar s o.part va k.len true false false die = (u, .ok a) → ∃ v act, Injects u v c act ∧ (act = 1 → done v False) ∧
              (act ≠ 1 → done (setTag (storeAt v a k.len (leNat data)) a (if act = 2 then tag ^^^ 1 else tag)) (act = 0))))) ∧
      (∀ (l m : List COp) (o : COp), q.ops = l ++ o :: m → keyed o → (∀ p ∈ l, ¬ keyed p) → (∀ p ∈ q.ops, keyed p → p.sig.toNat ≠ k.tag) →
        exec (.collectiveData die k) s = .next (finishOp (seqAnswer s die k 7 1) die o 3 0 [])) ∧
      ((∀ p ∈ q.ops, ¬ keyed p) →
        (CompletedLately s die k → exec (.collectiveData die k) s = .next (seqAnswer s die k 3 0)) ∧ (¬ CompletedLately s die k → parks))) ∧
    (k.opc ∈ [3, 7] →
      let i := if k.opc = 3 then Instr.answer die k else .nack die k
      let held := fun (x : Sent) (o : COp) => q.ops.find? (·.id == x.op) = some o ∧ SeqAnswerOf x o k
      ((∀ x ∈ q.sent, ∀ o, ¬ held x o) → exec i s = .next s) ∧
      ∀ (l m : List Sent) (x : Sent) (o : COp), q.sent = l ++ x :: m → held x o →
        (∀ y ∈ l, ∀ p, ¬ held y p) →
        let u := onReply s (srcSeq die) k.echo x.pkt.q
        let v := u.setSeqr die { q with sent := q.sent.filter fun y => y.pkt.rid != x.pkt.rid }
        (k.opc = 3 → x.pkt.opc ≠ 8 → ∃ t, exec i s = .next t ∧ goesOn t v o) ∧
        (k.opc = 3 → x.pkt.opc = 8 →
          (∀ y b, vaRead v o.part o.sendVa o.sendLen die = (y, .error b) → exec i s = .next (faultOp y die o b)) ∧
          ∀ y l, vaRead v o.part o.sendVa o.sendLen die = (y, .ok l) → l ≠ [] ∨ blockOp o = 6 → ∃ (t : State) (ps : List Pkt), exec i s = .next t ∧
            t.events = y.events ++ ps.map (.packetInject die 6) ∧ t.mem = y.mem ∧
            ps.length = (if blockOp o = 6 then 1 else (l.length + 255) / 256) ∧
            ∀ j p, ps[j]? = some p → p.opc = 6 ∧ p.cls = 3 ∧ p.flow = o.flowKey ∧ p.tag = o.sig.toNat ∧ p.va % 2 ^ 32 = 256 * j % 2 ^ 32 ∧
              p.len = min 256 (l.length - 256 * j) ∧ p.payload = leNat ((l.drop (256 * j)).take 256) ∧
              (p.len = 256 → p.ltag = some (srcTag y o.part ((o.sendVa + 256 * j) % 2 ^ 64)).toNat)) ∧
        (k.opc = 7 → k.reason = 1 → exec i s = .next (finishOp u die o 3 0 [])) ∧
        (k.opc = 7 → k.reason ≠ 1 → exec i s = .next (u.setSeqr die { q with sent := q.sent.map fun y =>
          if y.pkt.rid = x.pkt.rid then { x with tries := x.tries + 1, due := s.tsc.toNat + wait x.tries } else y }))) ∧
    (∀ (i : Nat) (x : Sent), q.sent[i]? = some x → x.due ≠ 0 → x.due ≤ s.tsc.toNat → exec (.collectiveRetry die x.op i) s =
      .next ((s.setSeqr die { q with sent := q.sent.set i { x with due := 0 } }).post (.packetInject die 6 x.pkt))) ∧
    (∀ (i : Nat) (x : Parked), x.ready = false → x.at_ + (s.reg 4 0x1009 x.pkt.part).toNat < s.tsc.toNat →
      (q.park[i]? = some x → exec (.parkTimeout die 27 i) s =
        .next (seqAnswer (s.setSeqr die { q with park := q.park.eraseIdx i }) die x.pkt 7 0)) ∧
      ∀ core u, core < 12 → u = die * 12 + core → (s.eft u).park[i]? = some x →
        (∀ p ∈ (s.eft u).waiting, p.opc = 8 → ¬ (p.flow = x.pkt.flow ∧ p.part = x.pkt.part)) → exec (.parkTimeout die core i) s =
          .next (coreAnswers (s.setEft u { s.eft u with park := (s.eft u).park.eraseIdx i }) u x.pkt 7)) ∧
    ∀ o : COp, q.ops.find? (·.id == o.id) = some o →
      (o.started + (if o.dw 6 = 0 then (s.reg 4 0x1008 o.part).toNat else o.dw 6) ≤ s.tsc.toNat →
        (o.alg ≠ 3 → BlockReady s die o → blockOp o ≤ 8 → exec (.collectiveTimeout die o.id) s = exec (opEvent die o) s) ∧
        (o.alg ≠ 3 → ¬ BlockReady s die o → ∃ (miss : List Nat) (comb : Nat), miss.Pairwise (· < ·) ∧ Combined o comb ∧
          (∀ r, r ∈ miss ↔ r < o.n ∧ ((NeedsRank o r ∧ ¬ HasCome o r) ∨ Awaits s die o r)) ∧
          exec (.collectiveTimeout die o.id) s = .next (finishOp (if blockOp o ∈ [0, 1, 4] then leftOver s die o else s) die o 2 comb miss)) ∧
        (o.alg = 3 → ∃ miss : List Nat, miss.Pairwise (· < ·) ∧ (∀ r, r ∈ miss ↔ r < o.n ∧ r ≠ o.rank) ∧
          exec (.collectiveTimeout die o.id) s = .next (finishOp s die o 2 0 miss))) ∧
      ∀ (code comb : Nat) (miss : List Nat), ∃ u y, u = { s with seqrs := u.seqrs, events := u.events } ∧ u.seqr die = { q with
          ops := q.ops.filter (·.id != o.id), sent := q.sent.filter (·.op != o.id),
          recent := q.recent ++ [(o.part * 2 ^ 16 + o.flowKey, o.sig.toNat, s.tsc.toNat)] } ∧ u.events.Sublist s.events ∧
        (∀ i ∈ s.events, i ∉ u.events → ∃ d l p, i = .packetInject d l p ∧ p.src = srcSeq die ∧ ∃ x ∈ q.sent, x.op = o.id ∧ x.pkt.rid = p.rid) ∧
        (∀ x ∈ q.sent, x.op = o.id → ∀ d l p, p.src = srcSeq die → p.opc ∈ [6, 8] → p.rid = x.pkt.rid → Instr.packetInject d l p ∉ u.events) ∧
        (o.dw 7 = 0 → y = u) ∧
        (∀ (b : List Nat) (x : State), o.dw 7 ≠ 0 → o.dw 7 % 32 = 0 → exchangeOf u o.part (o.dw 7) = none → b.length = 32 → (∀ v ∈ b, v < 256) →
          leNat (b.take 8) = (code + (if 12 < miss.length then 2 ^ 8 else 0) + comb % 2 ^ 32 * 2 ^ 32) % 2 ^ 64 →
          (∀ j < 12, leNat ((b.drop (8 + 2 * j)).take 2) = miss.getD j 0xFFFF % 2 ^ 16) →
          (vaWrite u o.part (o.dw 7) b false (srcSeq die) = (x, none) → y = { x with tags := y.tags }) ∧
          ∀ e, vaWrite u o.part (o.dw 7) b false (srcSeq die) = (x, some e) → y = emitFault x o.part (srcSeq die) e) ∧
        (o.dw 5 = 0 → finishOp s die o code comb miss = y) ∧
        ∀ x, o.dw 5 ≠ 0 → (relFlag y o.part (o.dw 5) (srcSeq die) false = (x, none) → finishOp s die o code comb miss = x) ∧
          ∀ e, relFlag y o.part (o.dw 5) (srcSeq die) false = (x, some e) → finishOp s die o code comb miss = emitFault x o.part (srcSeq die) e

/-- A sequencer polls the rings, expands blocks, and brings ring and tree operations to their results. For a polled
context. A ring that is not enabled, or whose PROD is CONS, is left. A descriptor with reserved bits, LOGN outside 1
to 12, BASE misaligned, PROD below CONS or more than 2^LOGN above it, or an unreadable block, clears EN and gives
the ring-disabled record of its reason, the first in that order (log entry 87); an unmapped table gives reason 6 and ends the polling. Otherwise CONS rises
by one with release and the block at its place is expanded: an ill-formed one (log entry 23) without STATUS and FLAG
does nothing and takes no number; of COUNT 0 it takes its number, the next that any sequencer has for it (log entry 82); any other is
armed, with the algorithm of R66 (log entry 84), its number and its start; it sends (in-network: the root the arm
packet, another its contribution), and takes the parked packets of its flow. A ring or tree block sends its part to
each rank that needs it in packets of at most 256 bytes, with its signature (of a send that of the receive: log entry 24)
and the place of the part, each held, and of a reduction keeps its own part (log entries 25, 115); a send buffer that
faults ends it. Its event waits while data that it needs, or an answer, has not come; else the send buffer is read again
(log entry 85), the block completes ok with the contributions combined (log entry 119), and its receive buffer takes,
line by line, a member's own part in broadcast (at the root: log entry 120), all-gather and all-to-all, and for
all-reduce, reduce at the root and reduce-scatter of integers the sum modulo 2^w, the signed minimum or maximum, the OR
or AND, and of FP32 or BF16 the sum, minimum or maximum in FP32 in the order of R67, of the ring from the rank after an
element's chunk on (which chunk is free outside a reduce-scatter: log entry 21), stored with one rounding. (What cites a
log entry is the model's choice.) [derived: R59, R60, R61, R62, R63, R64, R65, R66, R67, R68, R69, R72] -/
def Obligations.CollectivesArePolledExpandedAndRun : Prop :=
  (∀ (s u : State) (die i ring : Nat) (l : Live) (b : List Nat), s.live[i]? = some l → die < 4 → ring < 64 → l.st ≠ 4 → l.first = false → l.rtbBad = false →
    homeOf s l = die → l.rtb ≠ 0 →
    let desc := (l.rtb + 32 * ring) % 2 ^ 64
    let e := Instr.ringPoll die i ring
    let record := fun (v : State) (n why dw2 dw3 : Nat) => emit v l.part (srcSeq die) 0x16 (n + why * 2 ^ 8 + l.ctxno % 2 ^ 21 * 2 ^ 16) dw2 dw3
    let d := fun (k : Nat) => leNat ((b.drop (8 * k)).take 8)
    (∀ bad, vaRead s l.part desc 32 die = (u, .error bad) → exec e s = .next (record (u.setLive { l with rtbBad := true }) 0xFF 6 l.rtb 0)) ∧
    (vaRead s l.part desc 32 die = (u, .ok b) → d 1 < 2 ^ 64 →
      (d 1 / 2 ^ 16 % 2 = 0 → exec e s = .next u) ∧
      (∀ v bad, d 1 / 2 ^ 16 % 2 = 1 → acqRead8 u l.part (desc + 16) (srcSeq die) 3 = (v, .error bad) →
        exec e s = .next (record (v.setLive { l with rtbBad := true }) 0xFF 6 l.rtb 0)) ∧
      ∀ (v : State) (prod : Nat), d 1 / 2 ^ 16 % 2 = 1 → acqRead8 u l.part (desc + 16) (srcSeq die) 3 = (v, .ok prod) →
        let off := fun (w : State) => (vaWrite8 w l.part (desc + 8) (d 1 - 2 ^ 16) false (srcSeq die)).1
        let why := if d 1 / 2 ^ 17 ≠ 0 ∨ d 1 / 2 ^ 4 % 2 ^ 12 ≠ 0 then 1 else if d 1 % 16 = 0 ∨ 12 < d 1 % 16 then 2 else if d 0 % 128 ≠ 0 then 3
          else if prod < d 3 then 4 else if 2 ^ (d 1 % 16) < prod - d 3 then 5 else 0
        (why ≠ 0 → exec e s = .next (record (off v) ring why desc prod)) ∧
        (why = 0 → prod = d 3 → exec e s = .next v) ∧
        (∀ (x : State), why = 0 → prod ≠ d 3 →
          let va := (d 0 + 128 * (d 3 % 2 ^ (d 1 % 16))) % 2 ^ 64
          (∀ bad, vaRead v l.part va 128 die = (x, .error bad) → exec e s = .next (record (off x) ring 7 va prod)) ∧
          ∀ (blk : List Nat) (raw : Nat) (y w : State) (ms : List Nat), vaRead v l.part va 128 die = (x, .ok blk) → raw = leNat blk →
            y = (relWrite8 x l.part (desc + 24) (d 3 + 1) false (srcSeq die)).1 → groupOf y l.part (raw / 2 ^ 32 % 2 ^ 16) die = (w, ms) →
            y.seqrs = w.seqrs → y.ident = w.ident →
            let dw := fun (k : Nat) => raw / 2 ^ (64 * k) % 2 ^ 64
            let q := w.seqr die
            let key := (l.part * 2 ^ 21 + l.ctxno) * 256 + raw / 2 ^ 32 % 2 ^ 16
            ∃ num, (∀ f < 4, (w.seqr f).nums.get 0 key ≤ num) ∧ (∃ f < 4, (w.seqr f).nums.get 0 key = num) ∧
            let q' := { q with nextId := q.nextId + 1, nums := q.nums.put 0 key (num + 1) }
            (IllFormed w l raw ms → dw 5 = 0 → dw 7 = 0 → exec e s = .next w) ∧
            (¬ IllFormed w l raw ms → dw 3 = 0 → dw 5 = 0 → dw 7 = 0 → exec e s = .next (w.setSeqr die q')) ∧
            (¬ IllFormed w l raw ms → dw 3 ≠ 0 → w.seqrs.Pairwise (fun a b => a.1 < b.1) →
              let onCore := dw 4 / 2 ^ 31 % 2 = 1
              let algo := raw / 2 ^ 24 % 2 ^ 8
              ∃ o : COp, o.id = q.nextId ∧ o.raw = raw ∧ o.part = l.part ∧ o.cr = l.cr ∧ o.die = die ∧ o.members = ms ∧ o.n = ms.length ∧
                (∃ m, ms[o.rank]? = some m ∧ IsOwnEntry w l m) ∧ o.seqno = num ∧ o.started = w.tsc.toNat ∧ o.data = [] ∧ o.covered = [] ∧
                o.armed = false ∧
                (let pick := if algo ∈ [1, 2] then algo else if algo = 3 ∧ onCore ∨ onCore ∧ raw % 2 ^ 8 ≤ 1 then 3
                    else if partBytes o ≤ 2 ^ 16 then 2 else 1
                 o.alg = if pick = 3 ∧ 15 < ms.length then 2 else pick) ∧
                let x := w.setSeqr die { q' with ops := q.ops ++ [o] }
                exec e s = .next (unpark (if o.alg ≠ 3 then sendRing x die o else if o.rank = dw 8 then
                  seqSend x die o (corePkt x die o 8 0 (armList o) 0) else sendOwn x die o) die o))))) ∧
  (∀ (s : State) (die : Nat) (o : COp), s.seqrs.Pairwise (fun a b => a.1 < b.1) → die < 4 →
    let q := s.seqr die
    let own := fun (y : Parked) => y.pkt.part = o.part ∧ y.pkt.flow = o.flowKey
    ((∀ y ∈ q.park, ¬ own y) → unpark s die o = s.setSeqr die q) ∧
    (∀ a y b, q.park = a ++ y :: b → own y → (∀ z ∈ a ++ b, ¬ own z) → y.pkt.opc = 6 →
      exec (.collectiveData die y.pkt) (s.setSeqr die { q with park := a ++ b }) = .next (unpark s die o)) ∧
    (∀ v bad, vaRead s o.part o.sendVa o.sendLen die = (v, .error bad) → sendRing s die o = faultOp v die o bad) ∧
    ∀ v own, vaRead s o.part o.sendVa o.sendLen die = (v, .ok own) → o.sendVa + o.sendLen ≤ 2 ^ 64 → blockOp o ≤ 8 → o.rank < o.n → blockRoot o < o.n →
      (blockOp o = 4 → o.dtype ≠ 3) →
      let size := if blockOp o = 6 then 0 else partBytes o
      let from_ := fun (r : Nat) => if blockOp o = 4 ∨ blockOp o = 5 then r * partBytes o else 0
      ∃ l : List (Nat × Nat × Pkt), (sendRing s die o).mem = v.mem ∧
        (sendRing s die o).events = v.events ++ l.map (fun x => .packetInject die 6 x.2.2) ++ [opEvent die o] ∧
        ((sendRing s die o).seqr die).sent.map (fun x => (x.pkt, x.op, x.due)) = (v.seqr die).sent.map (fun x => (x.pkt, x.op, x.due)) ++
          l.map (fun x => (x.2.2, o.id, 0)) ∧
        (blockOp o ∈ [0, 1, 4] → ((sendRing s die o).seqr die).ops = (v.seqr die).ops.map fun p => if p.id = o.id then
          { o with data := [(offsetOf o o.rank, (own.drop (from_ o.rank)).take (partBytes o))] } else p) ∧
        (∀ r, SendsRank o r → (0 < size ∨ blockOp o = 6 → ∃ x ∈ l, x.1 = r) ∧ ∀ b < size, ∃ x ∈ l, x.1 = r ∧ x.2.1 ≤ b ∧ b < x.2.1 + x.2.2.len) ∧
        ∀ r j p, (r, j, p) ∈ l → SendsRank o r ∧ p.len ≤ 256 ∧ j + p.len ≤ size ∧ p.cls = 2 ∧ p.dep = 27 ∧ p.opc = 6 ∧ p.part = o.part ∧
          p.flow = o.flowKey ∧ p.tag = (o.sigOf (if blockOp o = 7 then 8 else blockOp o)).toNat ∧ p.who = r + 1 ∧ p.src = srcSeq die ∧
          p.dchip = o.members.getD r 0 % 2 ^ 12 ∧ p.va % 2 ^ 32 = (offsetOf o o.rank + j) % 2 ^ 32 ∧
          p.payload = leNat ((own.drop (from_ r + j)).take p.len) ∧ (p.len = 256 → p.ltag = some (srcTag v o.part (o.sendVa + from_ r + j)).toNat)) ∧
  (∀ (s : State) (die part va : Nat) (b : List Nat) (tag : Nat → W32) (x : State), va + b.length ≤ 2 ^ 64 →
    (0 < b.length → va % vaLine va + b.length ≤ vaLine va → exchangeOf s part va = none →
      (∀ e, vaWrite s part va b false (srcSeq die) = (x, some e) → seqWrite s die part va b tag = (x, some e)) ∧
      (vaWrite s part va b false (srcSeq die) = (x, none) →
        (∀ e, sramLoc x part (vaClass x.capSpad va) true = .error e → seqWrite s die part va b tag = (x, none)) ∧
        ∀ a, sramLoc x part (vaClass x.capSpad va) true = .ok a →
          seqWrite s die part va b tag = (setTag x a (if b.length = 256 then tag 0 else 0), none))) ∧
    ∀ a c, b = a ++ c → (va + a.length) % 256 = 0 ∨ ((va + a.length) % 64 = 0 ∧ ∀ z < a.length, vaLine (va + z) = 64) →
      (∀ e, seqWrite s die part va a tag = (x, some e) → seqWrite s die part va b tag = (x, some e)) ∧
      (seqWrite s die part va a tag = (x, none) →
        seqWrite s die part va b tag = seqWrite x die part (va + a.length) c fun i => tag (a.length + i))) ∧
  ∀ (s : State) (die id op : Nat) (i : Instr) (o : COp),
    s.seqrs.Pairwise (fun a b => a.1 < b.1) → (s.seqr die).ops.find? (·.id == id) = some o → o.alg ≠ 3 → blockOp o = op →
    (i = .allReduce die id o.part ∧ op = 0 ∨ i = .reduce die id o.part ∧ op = 1 ∨ i = .broadcast die id o.part ∧ op = 2 ∨ i = .allGather die id o.part ∧ op = 3 ∨
      i = .reduceScatter die id o.part ∧ op = 4 ∨ i = .allToAll die id o.part ∧ op = 5 ∨ i = .barrier die id o.part ∧ op = 6 ∨ i = .send die id o.part ∧ op = 7 ∨
      i = .receive die id o.part ∧ op = 8) →
    (∃ t, exec i s = .next t) ∧
    (¬ BlockReady s die o → exec i s = .next (s.post i)) ∧
    (BlockReady s die o →
      (∀ v bad, vaRead s o.part o.sendVa o.sendLen die = (v, .error bad) → exec i s = .next (faultOp v die o bad)) ∧
      ∀ v own, vaRead s o.part o.sendVa o.sendLen die = (v, .ok own) → ∃ comb, Combined o comb ∧
        let writes := fun (p : Nat) (b : List Nat) (tag : Nat → W32) => ∀ x,
          (seqWrite v die o.part ((o.recvVa + p) % 2 ^ 64) b tag = (x, none) → exec i s = .next (finishOp x die o 1 comb [])) ∧
          ∀ bad, seqWrite v die o.part ((o.recvVa + p) % 2 ^ 64) b tag = (x, some bad) → exec i s = .next (faultOp x die o bad)
        let w := Machine.fmtWidth o.dtype
        (op = 1 ∧ o.rank ≠ blockRoot o ∨ op ∈ [6, 7, 8] ∨ op = 2 ∧ o.rank ≠ blockRoot o → exec i s = .next (finishOp v die o 1 comb [])) ∧
        (op = 2 ∧ o.rank = blockRoot o ∨ op ∈ [3, 5] →
          let at_ := if op = 5 then o.rank * partBytes o else 0
          ∃ tag : Nat → W32, writes (offsetOf o o.rank) ((own.drop at_).take (partBytes o)) tag ∧
            ∀ z, tag z = if (o.sendVa + at_ + z) % 256 = 0 ∧ at_ + z + 256 ≤ o.sendLen then srcTag v o.part ((o.sendVa + at_ + z) % 2 ^ 64) else 0) ∧
        (op ∈ [0, 4] ∨ op = 1 ∧ o.rank = blockRoot o → o.dtype ≤ 1 → o.redop ≤ 2 → o.n ≤ 4096 → o.rank < o.n → ∀ P : Nat → List Nat,
          (∀ r < o.n, Staged o r (P r) ∧ ∀ z ∈ P r, z < 256) →
          let x := fun (j r : Nat) => leNat (((P r).drop (w / 8 * j)).take (w / 8)) * (if o.dtype = 0 then 2 ^ 16 else 1)
          ∃ b, b.length = o.count * (w / 8) ∧ (∀ z ∈ b, z < 256) ∧ (writes 0 b fun _ => o.redTag) ∧ ∀ j < o.count, ∃ v,
            (o.alg = 1 → ∃ c < o.n, (op = 4 → c = o.rank) ∧ RingReduces o.redop o.n (x j) c (o.n - 1) v) ∧
            (o.alg ≠ 1 → TreeReduces o.redop o.n (x j) 12 0 v) ∧
            leNat ((b.drop (w / 8 * j)).take (w / 8)) = (encFmt o.dtype .rne 0 (decFmt 1 v)).1) ∧
        (op ∈ [0, 4] ∨ op = 1 ∧ o.rank = blockRoot o → o.dtype ∈ [4, 5, 6] → o.n ≤ 4096 → o.rank < o.n → ∀ (P : Nat → List Nat) (b : List Nat),
          (∀ r < o.n, Staged o r (P r) ∧ ∀ z ∈ P r, z < 256) → b.length = o.count * (w / 8) → (∀ z ∈ b, z < 256) →
          let elem := fun (r j : Nat) => leNat (((P r).drop (w / 8 * j)).take (w / 8))
          let res := fun (j : Nat) => leNat ((b.drop (w / 8 * j)).take (w / 8))
          (o.redop = 0 → (∀ j < o.count, res j = ((List.range o.n).map fun r => elem r j).sum % 2 ^ w) → writes 0 b fun _ => o.redTag) ∧
          (o.redop ∈ [1, 2] → (∀ j < o.count, ∃ r < o.n, res j = elem r j ∧ ∀ z < o.n, if o.redop = 1
            then sgn w (res j) ≤ sgn w (elem z j) else sgn w (elem z j) ≤ sgn w (res j)) → writes 0 b fun _ => o.redTag) ∧
          (o.redop = 3 → (∀ j < o.count, ∀ k < w, (res j).testBit k = true ↔ ∃ r < o.n, (elem r j).testBit k = true) → writes 0 b fun _ => o.redTag) ∧
          (o.redop = 4 → (∀ j < o.count, ∀ k < w, (res j).testBit k = true ↔ ∀ r < o.n, (elem r j).testBit k = true) → writes 0 b fun _ => o.redTag)))

/-- Packets reach an eft core, are parked, armed and run; kernels are verified, enabled and disabled. At a core of a
die, for registers and cores in canonical form. A CLASS 3 packet of an OPC other than 3, 6, 7 and 8 is dropped and
counted; one of OPC 6 or 8 that no kernel takes is counted and NACKed; a matched one waits its turn. An answer of a
packet that the core does not hold changes nothing; an acknowledgement releases the oldest packet that it answers, and
a NACK of REASON 1 discards it, with what of it waits to be sent; any other schedules its retry after min(2^(n-1), 256)
µs. A core without a run and without a replay takes the packet that has waited longest: where no kernel takes it any
more it is counted and NACKed (log entry 79); of a kernel that DIS stops it is sent on or dropped as TRAPACT states,
and acknowledged, unless it is to be sent and 64 packets are held (log entry 117); of OPC 6 in a slot whose ARM is 0 it is parked, or NACKed where 16 are; with ARM
1 and room for 20 packets its run starts as R81 says. An arm packet sets ARM, makes the parked packets of its flow
ready, and runs. The oldest ready packet comes before those: it is treated so too, and leaves its entry, but stays
parked where ARM was cleared. A due retry is sent again, and a packet too long
unanswered is lost with a record. A write of EFT_KCTL that sets EN from 0 leaves EN 0 and LDERR 1 where the kernel
does not pass the checks of R79, and the other registers as they were; where it passes, EN is 1, TRAPS, DIS and
LDERR are 0, every word of the slot range is 0, and the other registers are as they were. A write that clears EN
while no run is in progress leaves EN 0; the kernel's parked packets are gone, and each has been NACKed; during a
run it waits (as kernel + 8 × value: log entry 80). A write of an instruction word, or of a flow word, of an enabled kernel is ignored, and any other
leaves its word there; a read of a flow word of an enabled kernel gives 0, any other the word. (What cites a log entry
is the model's choice.) [derived: R70, R71, R75, R77, R80, R81, R83, R84, R85, R86, R78, R79] -/
def Obligations.KernelsReceiveParkRunAndLoad : Prop :=
  (∀ (s : State) (die core u : Nat) (p : Pkt), s.Canon → s.efts.Pairwise (fun a b => a.1 < b.1) → die < 4 → core < 12 → u = die * 12 + core →
    let e := s.eft u
    let kctl := fun (k : Nat) => (s.reg 14 (3 * k) u).toNat
    let arm := fun (k : Nat) (q : Pkt) => eFlow s u (slotWord s u k q) / 2 ^ 31 % 2
    let room := e.outb.length + 20 ≤ 64
    let makes := fun (i : Instr) (P : State → Eft → Prop) => ∃ t, exec i s = .next t ∧ P t (t.eft u) ∧ ∀ w, w ≠ u → t.eft w = s.eft w
    let without := fun (t : State) (x : Sent) => ∀ i, i ∈ t.events ↔ i ∈ s.events ∧
      ¬ ∃ d l k, i = .packetInject d l k ∧ isReq k = true ∧ k.src = srcEft u ∧ k.rid = x.pkt.rid
    (p.cls = 3 →
      (p.opc ∉ [3, 6, 7, 8] → Writes (.eftPacketArrival die core p) s 14 0x30 u (s.reg 14 0x30 u + 1)) ∧
      (p.opc ∈ [6, 8] → NoKernel s u p → ∃ r, RegOnly s r 14 0x30 u (s.reg 14 0x30 u + 1) ∧
        exec (.eftPacketArrival die core p) s = .next (coreAnswers r u p 7)) ∧
      (p.opc ∈ [6, 8] → ∀ k, KernelOf s u k p →
        exec (.eftPacketArrival die core p) s = .next (s.setEft u { e with waiting := e.waiting ++ [p] })) ∧
      (p.opc ∈ [3, 7] → (∀ x ∈ e.outb, ¬ AnswerOf x.pkt p) → exec (.eftPacketArrival die core p) s = .next s) ∧
      ∀ (l m : List Sent) (x : Sent), e.outb = l ++ x :: m → (∀ y ∈ l, ¬ AnswerOf y.pkt p) → AnswerOf x.pkt p →
        (p.opc = 3 ∨ p.opc = 7 ∧ p.reason = 1 → makes (.eftPacketArrival die core p) fun t f =>
          f = { e with outb := e.outb.filter fun y => y.pkt.rid != x.pkt.rid } ∧ without t x) ∧
        (p.opc = 7 → p.reason ≠ 1 → makes (.eftPacketArrival die core p) fun _ f =>
          f = { e with outb := e.outb.map fun y => if y.pkt.rid = x.pkt.rid
            then { x with tries := x.tries + 1, due := s.tsc.toNat + 1000 * min (2 ^ x.tries) 256 } else y })) ∧
    (e.run = none → (∀ x ∈ e.park, x.ready = false) → ∀ rest : List Pkt, e.waiting = p :: rest →
      let i := if p.opc = 8 then Instr.arm die core p else .eftRun die core
      let s' := s.setEft u { e with waiting := rest }
      (NoKernel s u p → ∃ r, RegOnly s' r 14 0x30 u (s.reg 14 0x30 u + 1) ∧ exec i s = .next (coreAnswers r u p 7)) ∧
      ∀ k, KernelOf s u k p →
      (kctl k / 2 ^ 19 % 2 = 1 →
        (¬ (Forwards s u k p ∧ 64 ≤ e.outb.length) → ∃ t, exec i s = .next t ∧ TrapActs s' t u k p) ∧
        (Forwards s u k p → 64 ≤ e.outb.length → exec i s = .fault .notPossible)) ∧
      (kctl k / 2 ^ 19 % 2 = 0 →
        (p.opc ≠ 8 → arm k p = 0 → e.park.length < 16 → makes i fun t f =>
          f = { e with waiting := rest, park := e.park ++ [⟨p, s.tsc.toNat, false⟩] } ∧ t = { s with efts := t.efts }) ∧
        (p.opc ≠ 8 → arm k p = 0 → 16 ≤ e.park.length → exec i s = .next (coreAnswers s' u p 7)) ∧
        (p.opc ≠ 8 → arm k p = 1 → room → makes i fun t f =>
          f = { e with waiting := rest, run := f.run } ∧ RunStarts s t u k p ∧ t = { s with efts := t.efts }) ∧
        (p.opc = 8 → room → makes i fun t f =>
          f = { e with waiting := rest, run := f.run, park := e.park.map fun y =>
            if y.pkt.flow = p.flow ∧ y.pkt.part = p.part then { y with ready := true } else y } ∧ RunStarts s t u k p ∧
          t = { s with efts := t.efts, regs := t.regs } ∧ eFlow t u (slotWord s u k p) = eFlow s u (slotWord s u k p) % 2 ^ 31 + 2 ^ 31 ∧
          ∀ c n w, rkey c n w ≠ rkey 14 (0x4000 + slotWord s u k p) u → t.reg c n w = s.reg c n w) ∧
        (p.opc = 8 ∨ arm k p = 1 → ¬ room → exec i s = .fault .notPossible))) ∧
    (e.run = none → ∀ (x : Parked), e.park.find? (·.ready) = some x →
      let s' := s.setEft u { e with park := e.park.eraseP (·.ready) }
      (NoKernel s u x.pkt → ∃ r, RegOnly s' r 14 0x30 u (s.reg 14 0x30 u + 1) ∧ exec (.eftRun die core) s = .next (coreAnswers r u x.pkt 7)) ∧
      ∀ k, KernelOf s u k x.pkt →
      (kctl k / 2 ^ 19 % 2 = 1 →
        (¬ (Forwards s u k x.pkt ∧ 64 ≤ e.outb.length) → ∃ t, exec (.eftRun die core) s = .next t ∧ TrapActs s' t u k x.pkt) ∧
        (Forwards s u k x.pkt → 64 ≤ e.outb.length → exec (.eftRun die core) s = .fault .notPossible)) ∧
      (kctl k / 2 ^ 19 % 2 = 0 → arm k x.pkt = 1 → room → makes (.eftRun die core) fun t f =>
        f = { e with park := e.park.eraseP (·.ready), run := f.run } ∧ RunStarts s t u k x.pkt ∧ t = { s with efts := t.efts }) ∧
      (kctl k / 2 ^ 19 % 2 = 0 → arm k x.pkt = 1 → ¬ room → exec (.eftRun die core) s = .fault .notPossible) ∧
      (kctl k / 2 ^ 19 % 2 = 0 → arm k x.pkt = 0 → exec (.eftRun die core) s = .next (s.setEft u { e with park := e.park.map fun y =>
        if y.pkt.flow = x.pkt.flow ∧ y.pkt.part = x.pkt.part then { y with ready := false } else y }))) ∧
    ∀ (j : Nat) (x : Sent), e.outb[j]? = some x →
      (x.due ≠ 0 → x.due ≤ s.tsc.toNat → exec (.eftRetry die core j) s =
        .next ((s.setEft u { e with outb := e.outb.set j { x with due := 0 } }).post (.packetInject die (eftLeaf u) x.pkt))) ∧
      (x.at_ + (s.reg 4 0x1008 x.part).toNat ≤ s.tsc.toNat → ∃ t r, r = { t with events := r.events } ∧ without r x ∧
        t = s.setEft u { e with outb := e.outb.filter fun y => y.pkt.rid != x.pkt.rid } ∧ exec (.eftSendLost die core j) s =
        .next (emit r x.part (srcEft u) 0x40
          (5 + 0xFF * 2 ^ 8 + x.kern * 2 ^ 16 + x.part * 2 ^ 19 + kctl x.kern / 2 ^ 20 % 2 ^ 4 * 2 ^ 24) ((headOf x.pkt).getD 1 0)
          (x.job % 2 ^ 16 * 2 ^ 48)))) ∧
  (∀ (s : State) (die core u k v : Nat), s.Canon → s.efts.Pairwise (fun a b => a.1 < b.1) → die < 4 → core < 12 → u = die * 12 + core →
    let e := s.eft u
    let kctl := fun (t : State) (j : Nat) => (t.reg 14 (3 * j) u).toNat
    let slo := (s.reg 14 (3 * k + 2) u).toNat % 2 ^ 10
    let shi := (s.reg 14 (3 * k + 2) u).toNat / 2 ^ 16 % 2 ^ 10
    let given := fun (w : Nat) => w % 2 ^ 9 = v % 2 ^ 9 ∧ w / 2 ^ 9 % 2 ^ 7 = 0 ∧ w / 2 ^ 17 % 2 = v / 2 ^ 17 % 2 ∧ w / 2 ^ 24 = v / 2 ^ 24 % 2 ^ 21
    (k < 8 → v / 2 ^ 16 % 2 = 1 → kctl s k / 2 ^ 16 % 2 = 0 → ∃ t, exec (.eftKernelEnable die core k v) s = .next t ∧
      t = { s with regs := t.regs } ∧ given (kctl t k) ∧
      (Verified s u k v → kctl t k / 2 ^ 16 % 2 ^ 8 = 1 + 2 * (v / 2 ^ 17 % 2) ∧ (∀ w, 16 * slo ≤ w → w < 16 * (shi + 1) → eFlow t u w = 0) ∧
        ∀ c n w, (∀ m, 16 * slo ≤ m → m < 16 * (shi + 1) → rkey c n w ≠ rkey 14 (0x4000 + m) u) → rkey c n w ≠ rkey 14 (3 * k) u →
          t.reg c n w = s.reg c n w) ∧
      (¬ Verified s u k v → kctl t k / 2 ^ 16 % 2 = 0 ∧ kctl t k / 2 ^ 18 % 2 = 1 ∧ kctl t k / 2 ^ 19 % 2 ^ 5 = kctl s k / 2 ^ 19 % 2 ^ 5 ∧
        ∀ c n w, rkey c n w ≠ rkey 14 (3 * k) u → t.reg c n w = s.reg c n w)) ∧
    (k < 8 → v / 2 ^ 16 % 2 = 0 → kctl s k / 2 ^ 16 % 2 = 1 →
      (∀ r, e.run = some r → exec (.eftKernelDisable die core k v) s = .next (s.setEft u { e with stopping := e.stopping ++ [k + 8 * v] })) ∧
      (e.run = none → ∃ t l, exec (.eftKernelDisable die core k v) s = .next t ∧ t.events = s.events ++ l ∧ given (kctl t k) ∧
        kctl t k / 2 ^ 16 % 2 = 0 ∧ kctl t k / 2 ^ 18 % 2 ^ 6 = kctl s k / 2 ^ 18 % 2 ^ 6 ∧
        (∀ x, x ∈ (t.eft u).park ↔ x ∈ e.park ∧ ¬ KernelOf s u k x.pkt) ∧
        (∀ x ∈ e.park, KernelOf s u k x.pkt → ∀ i ∈ (coreAnswers { s with events := [] } u x.pkt 7).events, i ∈ l) ∧
        ∀ c n w, rkey c n w ≠ rkey 14 (3 * k) u → t.reg c n w = s.reg c n w)) ∧
    (∀ w < 2048, let i := Instr.eftImemWrite die core w v
      (kctl s (w / 256) / 2 ^ 16 % 2 = 1 → exec i s = .next s) ∧
      (kctl s (w / 256) / 2 ^ 16 % 2 = 0 → Writes i s 14 (0x1000 + w) u (BitVec.ofNat 64 (v % 2 ^ 32)))) ∧
    ∀ w < 16384,
      let taken := ∃ j < 8, kctl s j / 2 ^ 16 % 2 = 1 ∧ (s.reg 14 (3 * j + 2) u).toNat % 2 ^ 10 ≤ w / 16 ∧
        w / 16 ≤ (s.reg 14 (3 * j + 2) u).toNat / 2 ^ 16 % 2 ^ 10
      (taken → exec (.eftFlowwinAccess die core w none) s = .next { s with resp := some (some 0) } ∧
        exec (.eftFlowwinAccess die core w (some v)) s = .next s) ∧
      (¬ taken → exec (.eftFlowwinAccess die core w none) s = .next { s with resp := some (some (eFlow s u w)) } ∧
        Writes (.eftFlowwinAccess die core w (some v)) s 14 (0x4000 + w) u (BitVec.ofNat 64 (v % 2 ^ 32))))

/-- A form whose predicate is false leaves lineage only; one outside the footprint faults; none runs outside a bundle.
For every slot form of an issuing bundle: where its predicate is false, exec answers a next state in which only the
issuing context's pending results have grown, and each of the new ones is a lineage; where it is true and the form
names a tile register outside the context's footprint, it raises footprint with EVA the bundle's VA. Without an
issuing bundle it does not run, nor does a kernel instruction without a run. [derived: R203, R212, R213, R221] -/
def Obligations.UnexecutedAndStrayFormsKeepTheirRegisters : Prop :=
  ∀ (s : State) (i : Instr), i.slot < 7 →
    (∀ (is : Issue) (c : Ctx), s.iss = some is → s.ctx? is.ck = some c →
      (predTrue c (predField i) = false → ∃ l : List Pend, (∀ p ∈ l, ∃ k b, p.wr = .lin k b ∨ p.wr = .linOnly k b) ∧
        exec i s = .next (s.setCtx is.ck { c with pend := c.pend ++ l })) ∧
      (predTrue c (predField i) = true → inFoot c i = false → exec i s = .next (faulted s is 0x10 is.va))) ∧
    (s.iss = none → exec i s = .fault .noBundle) ∧
    ∀ (w : Nat) (j : Instr), s.cur = .none → decodeEft w = some j → exec j s = .fault .noRun

/-- Decoding the encoding of a well-formed instruction gives it back, for every slot form, NOP and kernel instruction.
Under each decode generation, for every instruction that is well formed under it. A slot form has an encoding: a
word that fits its slot's size, whose bit X is 1 just where an extension word of 32 bits follows, and which the
decoder of its slot reads as that instruction with every operand as it was; a form of the SCA slot, other than those
that stand there alone, is read so in the ADR slot too. A kernel instruction has a word, which the decoder of the eft
cores reads as that instruction; NOP has a header, which the decoder of headers reads so. [derived: R87, R88, R265,
R266, R267, R269, R270, R292] -/
def Obligations.EncodedInstructionsDecodeToThemselves : Prop :=
  ∀ (gen : Nat) (i : Instr), gen = 1 ∨ gen = 2 → i.wf gen = true →
    (i.slot < 7 → ∃ w x, encode i = some (w, x) ∧ w < 2 ^ (8 * slotBytes i.slot) ∧ (2 ^ (8 * slotBytes i.slot - 1) ≤ w ↔ x.isSome) ∧
      (∀ e, x = some e → e < 2 ^ 32) ∧ decodeSlot gen i.slot w x = .ok i ∧
      (i.slot = 1 → w / 2 ^ 20 % 2 ^ 6 < 0xB ∨ 0xF < w / 2 ^ 20 % 2 ^ 6 → decodeSlot gen 2 w x = .ok i)) ∧
    ((∃ bk dp lv, i = .nop bk dp lv) → ∃ w, encode i = some (w, none) ∧ w < 2 ^ 32 ∧ decodeNop w = some i) ∧
    (kernelForm i = true → ∃ w, encode i = some (w, none) ∧ w < 2 ^ 32 ∧ decodeEft w = some i) ∧
    (7 ≤ i.slot → kernelForm i = false → (∀ bk dp lv, i ≠ .nop bk dp lv) → encode i = none)

/-- Words written out from the tables decode to the instructions that they stand for. The bundle that the encoding
chapter writes out: its header 0x0000_00A6, ADDI x9, x9, -1 under sg2, ADD x10, x10, x11 and LD.d x12, [x2+16]; PREP
of sg3 by 12 words, BR sg3, RET and EXIT; CMP.lt sg3, x8, x9 in its 20 bits; MZERO of tile register 8; SLD to
destination 5; a VADD with an extension word; the kernel words CMP.eq e3, 8, VMAX.f32 v0, v0, v1, FWD and DONE; and
words that are none: an unassigned opcode, an illegal predicate, a header with bit 27 set, one with a first flag for
an absent slot. [derived: R87, R88, R94, R266, R267, R284, R285, R286, R288, R289] -/
def Obligations.WrittenWordsDecodeToTheirInstructions : Prop :=
  decodeHeader 2 0x000000A6 = .ok ⟨0x26, true, 0, 0, 0, 0⟩ ∧ decodeHeader 2 0x070010A6 = .ok ⟨0x26, true, 0, 4, 0, 7⟩ ∧
    decodeHeader 2 0x08000001 = .error .illegalBundle ∧ decodeHeader 2 0x00000801 = .error .illegalBundle ∧
    decodeSlot 2 1 0x0834A7FF none = .ok (.addi (.isTrue 2) 9 9 (.short 0x3FF)) ∧
    decodeSlot 2 2 0x7C152960 none = .ok (.add .always 10 10 11) ∧
    decodeSlot 2 5 0x7C100100C6000010 none = .ok (.ld .always ⟨0, 0, 0, 2, 12, 3, 0, 16, none⟩) ∧
    decodeSlot 2 0 0x7C13000C none = .ok (.prep .always 3 (.short 12)) ∧ decodeSlot 2 0 0x7C430000 none = .ok (.br .always 3) ∧
    decodeSlot 2 0 0x7C700000 none = .ok (.ret .always) ∧ decodeSlot 2 0 0x7D200000 none = .ok (.exit .always) ∧
    decodeSlot 2 1 0x7C91A122 none = .ok (.cmp .always 3 8 9 2) ∧
    decodeSlot 2 4 0x7C40001000000000 none = .ok (.mzero .always ⟨0, 0, 0, 0, 0, 0, 0, 0, 8, 0, 0, 0, 0, 0, 0, none⟩) ∧
    decodeSlot 2 6 0x7C5580A0 none = .ok (.sld .always 5 12 (.short 160)) ∧
    decodeSlot 2 3 0xFC12010210032800 (some 1) = .ok (.vadd .always ⟨1, 0, 0, 129, 64, 101, 0, some 1⟩) ∧
    decodeSlot 2 1 0x7C000000 none = .error .illegalInstruction ∧ decodeSlot 2 0 0x30430000 none = .error .illegalBundle ∧
    decodeEft 0x300E0008 = some (.eftCmpImm 0 3 8) ∧ decodeEft 0x84005000 = some (.eftVmax 0 0 1 1 0) ∧
    decodeEft 0xC0000000 = some .eftFwd ∧ decodeEft 0xD8000000 = some .eftDone ∧ decodeEft 0 = none

/-- A step whose move is settled runs the event, the kernel word at the pc, or the bundle at the pc. A step raises the
model's counter and makes one move (model's choice, log entries 2 and 5), or puts it off where it must wait for a link
between dies or for what an acquire needs (log entry 53). A move of an event runs it, taken from its list; one that does
not apply is dropped (log entry 3). A move of an eft core runs the instruction that the word at its run's pc decodes to; a
word that is none traps with cause 2 (the model's choice: log entry 81). In a cycle of a tile where the header at a context's pc names one slot, the slot's words decode
to an instruction that executes, and nothing that it reads is empty or keeps it waiting, its bundle is exec of that
instruction in the issuing context, followed by the end of the bundle. Of two resident contexts the one that SLOTTAB
names goes first; the other issues in the same cycle where its slot is another one, where the first waits, and alone
where it alone is resident; the end of the cycle follows. [derived: R81, R87, R120, R161, R177, R210, R265, R282] -/
def Obligations.AStepRunsTheDecodedInstruction : Prop :=
  ∀ (s : State), s.stalled = false →
    let s0 := { s with turn := none, tick := s.tick + 1 }
    (∀ (k : Nat) (i : Instr), s.turn = some (.event k) → s.events[k]? = some i →
      let u := { s0 with events := s.events.eraseIdx k }
      (exec i u = .fault .notPossible → step s = .next u) ∧
      (∀ t, exec i u = .next t → (t.stalled = false → step s = .next t) ∧
        (t.stalled = true → step s = .next (if isInternal i = true then s0 else { t with stalled := false }))) ∧
      (exec i u ≠ .fault .notPossible → (∀ t, exec i u ≠ .next t) → step s = exec i u)) ∧
    (∀ (d c : Nat) (r : Run), s.turn = some (.eft d c) → (s.eft (d * 12 + c)).run = some r →
      let w := s.rn 14 (0x1000 + (256 * r.kern + r.pc)) (d * 12 + c)
      let u := { s0 with cur := .eft d c }
      let made := fun (t : State) => (t.stalled = false → step s = .next t) ∧ (t.stalled = true → step s = .next s0)
      (∀ i, decodeEft w = some i → (∀ t, exec i u = .next t → made { t with cur := .none }) ∧
        ((∀ t, exec i u ≠ .next t) → step s = exec i u)) ∧
      (decodeEft w = none → made (eftTrap s0 (d * 12 + c) r 2 0 0))) ∧
    ∀ (t p : Nat), s.turn = some (.tile t) → (s.tile t).cycle % 16 ≠ 0 → (s.tile t).slottab = none →
      p = (if (s.rn 1 0x400 t).testBit ((s.tile t).cycle % 16) then 1 else 0) →
      let ck := 2 * t + p
      let cd := 2 * t + (1 - p)
      let ends := fun (o : Host.Outcome State Fault Refusal) =>
        (∀ r, o = .next r → r.stalled = false → step s = .next (endCycle r t p)) ∧
        (∀ r, o = .next r → r.stalled = true → step s = .next s0) ∧ ((∀ r, o ≠ .next r) → step s = o)
      (∀ (v : State) (c : Ctx) (h : Header) (sl w : Nat) (i : Instr), Fetched s0 ck v c h sl w i → CanIssue v ck c h sl w i →
        ∃ o, RunsBundle v ck c h sl w i o ∧
          (s.ctx? cd = none → (∀ r, o = .next r → r.ctx? cd = none) → ends o) ∧
          ∀ (d : Ctx) (r v' : State) (c' : Ctx) (h' : Header) (sl' w' : Nat) (i' : Instr), s.ctx? cd = some d → d.phase = .running →
            o = .next r → Fetched r cd v' c' h' sl' w' i' → CanIssue v' cd c' h' sl' w' i' →
            (sl = sl' → ends (.next v')) ∧ (sl ≠ sl' → ∃ o', RunsBundle v' cd c' h' sl' w' i' o' ∧ ends o')) ∧
      (∀ (v v' : State) (c c' d : Ctx) (h h' : Header) (sl w sl' w' : Nat) (i i' : Instr) (e : Option Early), Fetched s0 ck v c h sl w i →
        regsMeet (atIssue (v.ctx ck)) (oneSlot c h sl w i) = (e, true) → s.ctx? cd = some d → d.phase = .running →
        Fetched v cd v' c' h' sl' w' i' → CanIssue v' cd c' h' sl' w' i' → ∃ o, RunsBundle v' cd c' h' sl' w' i' o ∧ ends o) ∧
      ∀ (v : State) (c : Ctx) (h : Header) (sl w : Nat) (i : Instr), s.ctx? ck = none → Fetched s0 cd v c h sl w i →
        CanIssue v cd c h sl w i → ∃ o, RunsBundle v cd c h sl w i o ∧ ends o

/-- After reset every register has the reset value of its table, memory is empty, and nothing is resident or under way.
At State.reset: SLOTTAB, RNDSEED and the other tile registers of a reset other than zero; the cluster, die and
partition registers, COLL_TODEF 100 ms and COLL_PARKTO 1 ms, PLC the identity; PLD 0xE4; VF_TKMAX 255 and CQ_CTL
0x1000; PWR_CAP, CP_LSEED; HBM_RMT and link EN; every other register is 0, as are all bytes of memory (the model's
choice: log entries 1 and 6). The state is in canonical form; no context, launch, image, packet, record, TLB entry,
line tag or event is there, no link is down, links, cores, sequencers and clusters are as never used, nothing is put
off, and the timestamp counter is 0. [derived: R13, R20, R73, R74, R78, R113] -/
def Obligations.ResetLeavesTheValuesOfTheSpec : Prop :=
  State.reset.Canon ∧ (∀ a, rdByte State.reset a = 0) ∧ State.reset.tsc = 0 ∧ State.reset.ctxs = [] ∧ State.reset.live = [] ∧
    State.reset.launches = [] ∧ State.reset.images = [] ∧ State.reset.net = [] ∧ State.reset.tlb = [] ∧ State.reset.events = [] ∧
    State.reset.recq = [] ∧ State.reset.recHeld = [] ∧ State.reset.lost = [] ∧ State.reset.autoq = [] ∧ State.reset.pfDown = [] ∧
    State.reset.streams = [] ∧ State.reset.tags = [] ∧ State.reset.alerts = [] ∧ State.reset.stalled = false ∧ State.reset.turn = none ∧
    (∀ ep, State.reset.link ep = {}) ∧ (∀ u, State.reset.eft u = {}) ∧ (∀ d, State.reset.seqr d = {}) ∧ (∀ c, State.reset.cl c = {}) ∧
    ∀ cls num unit, num < 2 ^ 16 → unit < 2 ^ 16 → (State.reset.reg cls num unit).toNat =
      match cls, num with
      | 1, 0x400 => 0xAAAA | 1, 0x401 => 2 | 1, 0x403 => 4 | 1, 0x404 => 0xA0EEBB00
      | 2, 0x803 => 1 | 2, 0x805 => 0x2BC
      | 3, 0xC00 => 0x18 | 3, 0xC02 => 0x40 | 3, 0xC03 => 0x40
      | 4, 0x1008 => 0x5F5E100 | 4, 0x1009 => 0xF4240
      | 4, 0x1014 => 0xFEDCBA9876543210 | 4, 0x1015 => 0xFEDCBA9876543210 | 4, 0x1016 => 0xFEDCBA9876543210
      | 4, 0x1017 => 0xFEDCBA9876543210
      | 5, 0x2000 => 0xE4
      | 6, 1 => 0xFF | 6, 0x11 => 0x1000 | 6, 0x15 => 0x1000 | 6, 0x19 => 0x1000 | 6, 0x1D => 0x1000
      | 9, 0 => 2200 | 9, 1 => 1 | 10, 0 => 0x1000 | 11, 0 => 1
      | _, _ => 0

/-- Every step keeps memory and the register file in canonical form. From every state whose memory lists rising
addresses and no byte equal to what an unlisted address reads as, and whose register file lists rising keys,
whatever else it holds, a step that answers a next state gives one of that form: so equal memories are equal data,
and every byte and register keeps the meaning that reads and writes of it give it. [derived: R178, R320] -/
def Obligations.EveryStepKeepsTheCanonicalForm : Prop :=
  ∀ (s t : State), s.Canon → step s = .next t → t.Canon
end

