-- ==== Sys2Proof/Laws/SMap.lean ====
section
/-! SUPPORT. Laws of the sparse maps: what a key reads as after a change, and that every change keeps the canonical form. -/

namespace Sys2Proof.Machine

/-- Keys rise. -/
def SMap.Rises {β : Type} (m : SMap β) : Prop := m.Pairwise fun a b => a.1 < b.1

theorem SMap.Wf.rises {β : Type} {d : β} {m : SMap β} (h : SMap.Wf d m) : m.Rises := h.1

theorem SMap.rises_nil {β : Type} : SMap.Rises ([] : SMap β) := List.Pairwise.nil

theorem SMap.wf_nil {β : Type} (d : β) : SMap.Wf d [] := ⟨List.Pairwise.nil, by simp⟩

@[simp] theorem SMap.get_nil {β : Type} (d : β) (i : Nat) : SMap.get d [] i = d := rfl

@[simp] theorem SMap.get_ins_same {β : Type} (d : β) (m : SMap β) (i : Nat) (v : β) : (m.ins i v).get d i = v := by
  induction m with
  | nil => simp [SMap.ins, SMap.get]
  | cons p t ih =>
    obtain ⟨k, w⟩ := p
    simp only [SMap.ins]
    split
    · simp [SMap.get]
    · split
      · simp [SMap.get]
      · rename_i h1 h2
        simp [SMap.get, h1, h2, ih]

theorem SMap.get_ins_other {β : Type} (d : β) (m : SMap β) {i j : Nat} (v : β) (h : j ≠ i) :
    (m.ins i v).get d j = m.get d j := by
  induction m with
  | nil => simp [SMap.ins, SMap.get, h]
  | cons p t ih =>
    obtain ⟨k, w⟩ := p
    simp only [SMap.ins]
    split
    · rename_i h1; subst h1; simp [SMap.get, h]
    · split
      · rename_i h1 h2
        simp only [SMap.get, h, if_false]
        by_cases hj : j < i
        · have : ¬ j = k := by omega
          have : j < k := by omega
          simp [*]
        · simp [hj]
      · simp [SMap.get, ih]

/-- A key below every listed one reads as the default. -/
theorem SMap.get_below {β : Type} (d : β) (m : SMap β) (i : Nat) (h : ∀ p ∈ m, i < p.1) : m.get d i = d := by
  cases m with
  | nil => rfl
  | cons p t =>
    obtain ⟨k, w⟩ := p
    have hk : i < k := h _ List.mem_cons_self
    have : ¬ i = k := by omega
    simp [SMap.get, this, hk]

theorem SMap.mem_ins {β : Type} {m : SMap β} {i : Nat} {v : β} {p : Nat × β} (h : p ∈ m.ins i v) : p = (i, v) ∨ p ∈ m := by
  induction m with
  | nil => simpa [SMap.ins] using h
  | cons q t ih =>
    obtain ⟨k, w⟩ := q
    simp only [SMap.ins] at h
    split at h
    · rcases List.mem_cons.1 h with h | h
      · exact .inl h
      · exact .inr (List.mem_cons_of_mem _ h)
    · split at h
      · rcases List.mem_cons.1 h with h | h
        · exact .inl h
        · exact .inr h
      · rcases List.mem_cons.1 h with h | h
        · exact .inr (h ▸ List.mem_cons_self)
        · rcases ih h with h | h
          · exact .inl h
          · exact .inr (List.mem_cons_of_mem _ h)

theorem SMap.mem_del {β : Type} {m : SMap β} {i : Nat} {p : Nat × β} (h : p ∈ m.del i) : p ∈ m := by
  induction m with
  | nil => exact h
  | cons q t ih =>
    obtain ⟨k, w⟩ := q
    simp only [SMap.del] at h
    split at h
    · exact List.mem_cons_of_mem _ h
    · split at h
      · exact h
      · rcases List.mem_cons.1 h with h | h
        · exact h ▸ List.mem_cons_self
        · exact List.mem_cons_of_mem _ (ih h)

theorem SMap.Rises.ins {β : Type} {m : SMap β} (h : m.Rises) (i : Nat) (v : β) : (m.ins i v).Rises := by
  induction m with
  | nil => exact List.pairwise_singleton _ _
  | cons p t ih =>
    obtain ⟨k, w⟩ := p
    obtain ⟨h1, h2⟩ := List.pairwise_cons.1 h
    simp only [SMap.ins]
    split
    · rename_i he; subst he; exact List.pairwise_cons.2 ⟨h1, h2⟩
    · split
      · rename_i hlt
        refine List.pairwise_cons.2 ⟨fun q hq => ?_, h⟩
        rcases List.mem_cons.1 hq with hq | hq
        · exact hq ▸ hlt
        · exact Nat.lt_trans hlt (h1 q hq)
      · rename_i hne hlt
        refine List.pairwise_cons.2 ⟨fun q hq => ?_, ih h2⟩
        rcases SMap.mem_ins hq with hq | hq
        · subst hq; show k < i; omega
        · exact h1 q hq

theorem SMap.Rises.del {β : Type} {m : SMap β} (h : m.Rises) (i : Nat) : (m.del i).Rises := by
  induction m with
  | nil => exact h
  | cons p t ih =>
    obtain ⟨k, w⟩ := p
    obtain ⟨h1, h2⟩ := List.pairwise_cons.1 h
    simp only [SMap.del]
    split
    · exact h2
    · split
      · exact h
      · exact List.pairwise_cons.2 ⟨fun q hq => h1 q (SMap.mem_del hq), ih h2⟩

theorem SMap.get_del_same {β : Type} (d : β) {m : SMap β} (h : m.Rises) (i : Nat) : (m.del i).get d i = d := by
  induction m with
  | nil => rfl
  | cons p t ih =>
    obtain ⟨k, w⟩ := p
    obtain ⟨h1, h2⟩ := List.pairwise_cons.1 h
    simp only [SMap.del]
    split
    · rename_i he; subst he; exact SMap.get_below d t _ fun q hq => h1 q hq
    · split
      · rename_i hne hlt; simp [SMap.get, hne, hlt]
      · rename_i hne hlt; simp [SMap.get, hne, hlt, ih h2]

theorem SMap.get_del_other {β : Type} (d : β) {m : SMap β} (h : m.Rises) {i j : Nat} (hij : j ≠ i) :
    (m.del i).get d j = m.get d j := by
  induction m with
  | nil => rfl
  | cons p t ih =>
    obtain ⟨k, w⟩ := p
    obtain ⟨h1, h2⟩ := List.pairwise_cons.1 h
    simp only [SMap.del]
    split
    · rename_i he; subst he
      by_cases hj : j < i
      · rw [SMap.get_below d t j fun q hq => Nat.lt_trans hj (h1 q hq)]
        simp [SMap.get, hij, hj]
      · simp [SMap.get, hij, hj]
    · split
      · rfl
      · simp [SMap.get, ih h2]

theorem SMap.Rises.put {β : Type} [DecidableEq β] {d : β} {m : SMap β} (h : m.Rises) (i : Nat) (v : β) :
    (m.put d i v).Rises := by
  unfold SMap.put
  split
  · exact h.del i
  · exact h.ins i v

theorem SMap.get_put_same {β : Type} [DecidableEq β] (d : β) {m : SMap β} (h : m.Rises) (i : Nat) (v : β) :
    (m.put d i v).get d i = v := by
  unfold SMap.put
  split
  · rename_i he; rw [he]; exact SMap.get_del_same d h i
  · exact SMap.get_ins_same d m i v

theorem SMap.get_put_other {β : Type} [DecidableEq β] (d : β) {m : SMap β} (h : m.Rises) {i j : Nat} (v : β) (hij : j ≠ i) :
    (m.put d i v).get d j = m.get d j := by
  unfold SMap.put
  split
  · exact SMap.get_del_other d h hij
  · exact SMap.get_ins_other d m v hij

/-- Setting one key keeps the canonical form. -/
theorem SMap.Wf.put {β : Type} [DecidableEq β] {d : β} {m : SMap β} (h : SMap.Wf d m) (i : Nat) (v : β) :
    SMap.Wf d (m.put d i v) := by
  refine ⟨SMap.Rises.put h.1 i v, fun p hp => ?_⟩
  unfold SMap.put at hp
  split at hp
  · exact h.2 p (SMap.mem_del hp)
  · rename_i hne
    rcases SMap.mem_ins hp with hp | hp
    · subst hp; exact hne
    · exact h.2 p hp

/-- Dropping entries keeps the canonical form. -/
theorem SMap.Wf.filter {β : Type} {d : β} {m : SMap β} (h : SMap.Wf d m) (q : Nat × β → Bool) : SMap.Wf d (m.filter q) :=
  ⟨h.1.filter q, fun p hp => h.2 p (List.mem_of_mem_filter hp)⟩

theorem SMap.get_eq_of_mem {β : Type} (d : β) {m : SMap β} (h : m.Rises) {p : Nat × β} (hp : p ∈ m) : m.get d p.1 = p.2 := by
  induction m with
  | nil => cases hp
  | cons q t ih =>
    obtain ⟨k, w⟩ := q
    obtain ⟨h1, h2⟩ := List.pairwise_cons.1 h
    rcases List.mem_cons.1 hp with hp | hp
    · subst hp; simp [SMap.get]
    · have hk : k < p.1 := h1 p hp
      have h3 : ¬ p.1 = k := by omega
      have h4 : ¬ p.1 < k := by omega
      simp [SMap.get, h3, h4, ih h2 hp]

theorem SMap.get_filter {β : Type} (d : β) {m : SMap β} (h : m.Rises) (q : Nat → Bool) (i : Nat) :
    SMap.get d (m.filter fun c => q c.1) i = if q i then m.get d i else d := by
  induction m with
  | nil => simp [SMap.get]
  | cons p t ih =>
    obtain ⟨k, w⟩ := p
    obtain ⟨h1, h2⟩ := List.pairwise_cons.1 h
    have ih := ih h2
    by_cases hq : q k
    · simp only [List.filter_cons, hq, if_true, SMap.get, ih]
      by_cases e : i = k
      · subst e; simp [hq]
      · by_cases l : i < k <;> simp [e, l]
    · simp only [List.filter_cons, hq, Bool.false_eq_true, if_false, ih, SMap.get]
      by_cases e : i = k
      · subst e; simp [hq]
      · by_cases l : i < k
        · rw [SMap.get_below d t i fun r hr => Nat.lt_trans l (h1 r hr)]; simp [e, l]
        · simp [e, l]

end Sys2Proof.Machine
end

