-- ==== Sys2Proof/Laws/State.lean ====
section
/-! SUPPORT. What each named update of the state leaves of each field: one lemma for each, so that no proof unfolds an update. -/

namespace Sys2Proof.Machine

theorem State.regsOnly_ident (s : State) (r : SMap W64) : (State.ident { s with regs := r }) = s.ident := rfl
theorem State.regsOnly_tick (s : State) (r : SMap W64) : (State.tick { s with regs := r }) = s.tick := rfl
theorem State.regsOnly_turn (s : State) (r : SMap W64) : (State.turn { s with regs := r }) = s.turn := rfl
theorem State.regsOnly_tsc (s : State) (r : SMap W64) : (State.tsc { s with regs := r }) = s.tsc := rfl
theorem State.regsOnly_mem (s : State) (r : SMap W64) : (State.mem { s with regs := r }) = s.mem := rfl
theorem State.regsOnly_tags (s : State) (r : SMap W64) : (State.tags { s with regs := r }) = s.tags := rfl
theorem State.regsOnly_relVec (s : State) (r : SMap W64) : (State.relVec { s with regs := r }) = s.relVec := rfl
theorem State.regsOnly_ctxs (s : State) (r : SMap W64) : (State.ctxs { s with regs := r }) = s.ctxs := rfl
theorem State.regsOnly_iss (s : State) (r : SMap W64) : (State.iss { s with regs := r }) = s.iss := rfl
theorem State.regsOnly_tiles (s : State) (r : SMap W64) : (State.tiles { s with regs := r }) = s.tiles := rfl
theorem State.regsOnly_clusters (s : State) (r : SMap W64) : (State.clusters { s with regs := r }) = s.clusters := rfl
theorem State.regsOnly_live (s : State) (r : SMap W64) : (State.live { s with regs := r }) = s.live := rfl
theorem State.regsOnly_launches (s : State) (r : SMap W64) : (State.launches { s with regs := r }) = s.launches := rfl
theorem State.regsOnly_images (s : State) (r : SMap W64) : (State.images { s with regs := r }) = s.images := rfl
theorem State.regsOnly_serials (s : State) (r : SMap W64) : (State.serials { s with regs := r }) = s.serials := rfl
theorem State.regsOnly_cps (s : State) (r : SMap W64) : (State.cps { s with regs := r }) = s.cps := rfl
theorem State.regsOnly_links (s : State) (r : SMap W64) : (State.links { s with regs := r }) = s.links := rfl
theorem State.regsOnly_net (s : State) (r : SMap W64) : (State.net { s with regs := r }) = s.net := rfl
theorem State.regsOnly_efts (s : State) (r : SMap W64) : (State.efts { s with regs := r }) = s.efts := rfl
theorem State.regsOnly_cur (s : State) (r : SMap W64) : (State.cur { s with regs := r }) = s.cur := rfl
theorem State.regsOnly_seqrs (s : State) (r : SMap W64) : (State.seqrs { s with regs := r }) = s.seqrs := rfl
theorem State.regsOnly_tlb (s : State) (r : SMap W64) : (State.tlb { s with regs := r }) = s.tlb := rfl
theorem State.regsOnly_access (s : State) (r : SMap W64) : (State.access { s with regs := r }) = s.access := rfl
theorem State.regsOnly_barX (s : State) (r : SMap W64) : (State.barX { s with regs := r }) = s.barX := rfl
theorem State.regsOnly_pfDown (s : State) (r : SMap W64) : (State.pfDown { s with regs := r }) = s.pfDown := rfl
theorem State.regsOnly_streams (s : State) (r : SMap W64) : (State.streams { s with regs := r }) = s.streams := rfl
theorem State.regsOnly_recq (s : State) (r : SMap W64) : (State.recq { s with regs := r }) = s.recq := rfl
theorem State.regsOnly_recAt (s : State) (r : SMap W64) : (State.recAt { s with regs := r }) = s.recAt := rfl
theorem State.regsOnly_recHeld (s : State) (r : SMap W64) : (State.recHeld { s with regs := r }) = s.recHeld := rfl
theorem State.regsOnly_recGone (s : State) (r : SMap W64) : (State.recGone { s with regs := r }) = s.recGone := rfl
theorem State.regsOnly_lost (s : State) (r : SMap W64) : (State.lost { s with regs := r }) = s.lost := rfl
theorem State.regsOnly_msix (s : State) (r : SMap W64) : (State.msix { s with regs := r }) = s.msix := rfl
theorem State.regsOnly_powerK (s : State) (r : SMap W64) : (State.powerK { s with regs := r }) = s.powerK := rfl
theorem State.regsOnly_alerts (s : State) (r : SMap W64) : (State.alerts { s with regs := r }) = s.alerts := rfl
theorem State.regsOnly_rowActs (s : State) (r : SMap W64) : (State.rowActs { s with regs := r }) = s.rowActs := rfl
theorem State.regsOnly_resp (s : State) (r : SMap W64) : (State.resp { s with regs := r }) = s.resp := rfl
theorem State.regsOnly_events (s : State) (r : SMap W64) : (State.events { s with regs := r }) = s.events := rfl
theorem State.regsOnly_nextRid (s : State) (r : SMap W64) : (State.nextRid { s with regs := r }) = s.nextRid := rfl
theorem State.regsOnly_wins (s : State) (r : SMap W64) : (State.wins { s with regs := r }) = s.wins := rfl
theorem State.regsOnly_nextCard (s : State) (r : SMap W64) : (State.nextCard { s with regs := r }) = s.nextCard := rfl
theorem State.regsOnly_stalled (s : State) (r : SMap W64) : (State.stalled { s with regs := r }) = s.stalled := rfl
theorem State.regsOnly_autoq (s : State) (r : SMap W64) : (State.autoq { s with regs := r }) = s.autoq := rfl

@[simp] theorem State.setReg_ident (s : State) (c n u : Nat) (v : W64) : (s.setReg c n u v).ident = s.ident := State.regsOnly_ident s _
@[simp] theorem State.setReg_tick (s : State) (c n u : Nat) (v : W64) : (s.setReg c n u v).tick = s.tick := State.regsOnly_tick s _
@[simp] theorem State.setReg_turn (s : State) (c n u : Nat) (v : W64) : (s.setReg c n u v).turn = s.turn := State.regsOnly_turn s _
@[simp] theorem State.setReg_tsc (s : State) (c n u : Nat) (v : W64) : (s.setReg c n u v).tsc = s.tsc := State.regsOnly_tsc s _
@[simp] theorem State.setReg_mem (s : State) (c n u : Nat) (v : W64) : (s.setReg c n u v).mem = s.mem := State.regsOnly_mem s _
@[simp] theorem State.setReg_tags (s : State) (c n u : Nat) (v : W64) : (s.setReg c n u v).tags = s.tags := State.regsOnly_tags s _
@[simp] theorem State.setReg_relVec (s : State) (c n u : Nat) (v : W64) : (s.setReg c n u v).relVec = s.relVec := State.regsOnly_relVec s _
@[simp] theorem State.setReg_ctxs (s : State) (c n u : Nat) (v : W64) : (s.setReg c n u v).ctxs = s.ctxs := State.regsOnly_ctxs s _
@[simp] theorem State.setReg_iss (s : State) (c n u : Nat) (v : W64) : (s.setReg c n u v).iss = s.iss := State.regsOnly_iss s _
@[simp] theorem State.setReg_tiles (s : State) (c n u : Nat) (v : W64) : (s.setReg c n u v).tiles = s.tiles := State.regsOnly_tiles s _
@[simp] theorem State.setReg_clusters (s : State) (c n u : Nat) (v : W64) : (s.setReg c n u v).clusters = s.clusters := State.regsOnly_clusters s _
@[simp] theorem State.setReg_live (s : State) (c n u : Nat) (v : W64) : (s.setReg c n u v).live = s.live := State.regsOnly_live s _
@[simp] theorem State.setReg_launches (s : State) (c n u : Nat) (v : W64) : (s.setReg c n u v).launches = s.launches := State.regsOnly_launches s _
@[simp] theorem State.setReg_images (s : State) (c n u : Nat) (v : W64) : (s.setReg c n u v).images = s.images := State.regsOnly_images s _
@[simp] theorem State.setReg_serials (s : State) (c n u : Nat) (v : W64) : (s.setReg c n u v).serials = s.serials := State.regsOnly_serials s _
@[simp] theorem State.setReg_cps (s : State) (c n u : Nat) (v : W64) : (s.setReg c n u v).cps = s.cps := State.regsOnly_cps s _
@[simp] theorem State.setReg_links (s : State) (c n u : Nat) (v : W64) : (s.setReg c n u v).links = s.links := State.regsOnly_links s _
@[simp] theorem State.setReg_net (s : State) (c n u : Nat) (v : W64) : (s.setReg c n u v).net = s.net := State.regsOnly_net s _
@[simp] theorem State.setReg_efts (s : State) (c n u : Nat) (v : W64) : (s.setReg c n u v).efts = s.efts := State.regsOnly_efts s _
@[simp] theorem State.setReg_cur (s : State) (c n u : Nat) (v : W64) : (s.setReg c n u v).cur = s.cur := State.regsOnly_cur s _
@[simp] theorem State.setReg_seqrs (s : State) (c n u : Nat) (v : W64) : (s.setReg c n u v).seqrs = s.seqrs := State.regsOnly_seqrs s _
@[simp] theorem State.setReg_tlb (s : State) (c n u : Nat) (v : W64) : (s.setReg c n u v).tlb = s.tlb := State.regsOnly_tlb s _
@[simp] theorem State.setReg_access (s : State) (c n u : Nat) (v : W64) : (s.setReg c n u v).access = s.access := State.regsOnly_access s _
@[simp] theorem State.setReg_barX (s : State) (c n u : Nat) (v : W64) : (s.setReg c n u v).barX = s.barX := State.regsOnly_barX s _
@[simp] theorem State.setReg_pfDown (s : State) (c n u : Nat) (v : W64) : (s.setReg c n u v).pfDown = s.pfDown := State.regsOnly_pfDown s _
@[simp] theorem State.setReg_streams (s : State) (c n u : Nat) (v : W64) : (s.setReg c n u v).streams = s.streams := State.regsOnly_streams s _
@[simp] theorem State.setReg_recq (s : State) (c n u : Nat) (v : W64) : (s.setReg c n u v).recq = s.recq := State.regsOnly_recq s _
@[simp] theorem State.setReg_recAt (s : State) (c n u : Nat) (v : W64) : (s.setReg c n u v).recAt = s.recAt := State.regsOnly_recAt s _
@[simp] theorem State.setReg_recHeld (s : State) (c n u : Nat) (v : W64) : (s.setReg c n u v).recHeld = s.recHeld := State.regsOnly_recHeld s _
@[simp] theorem State.setReg_recGone (s : State) (c n u : Nat) (v : W64) : (s.setReg c n u v).recGone = s.recGone := State.regsOnly_recGone s _
@[simp] theorem State.setReg_lost (s : State) (c n u : Nat) (v : W64) : (s.setReg c n u v).lost = s.lost := State.regsOnly_lost s _
@[simp] theorem State.setReg_msix (s : State) (c n u : Nat) (v : W64) : (s.setReg c n u v).msix = s.msix := State.regsOnly_msix s _
@[simp] theorem State.setReg_powerK (s : State) (c n u : Nat) (v : W64) : (s.setReg c n u v).powerK = s.powerK := State.regsOnly_powerK s _
@[simp] theorem State.setReg_alerts (s : State) (c n u : Nat) (v : W64) : (s.setReg c n u v).alerts = s.alerts := State.regsOnly_alerts s _
@[simp] theorem State.setReg_rowActs (s : State) (c n u : Nat) (v : W64) : (s.setReg c n u v).rowActs = s.rowActs := State.regsOnly_rowActs s _
@[simp] theorem State.setReg_resp (s : State) (c n u : Nat) (v : W64) : (s.setReg c n u v).resp = s.resp := State.regsOnly_resp s _
@[simp] theorem State.setReg_events (s : State) (c n u : Nat) (v : W64) : (s.setReg c n u v).events = s.events := State.regsOnly_events s _
@[simp] theorem State.setReg_nextRid (s : State) (c n u : Nat) (v : W64) : (s.setReg c n u v).nextRid = s.nextRid := State.regsOnly_nextRid s _
@[simp] theorem State.setReg_wins (s : State) (c n u : Nat) (v : W64) : (s.setReg c n u v).wins = s.wins := State.regsOnly_wins s _
@[simp] theorem State.setReg_nextCard (s : State) (c n u : Nat) (v : W64) : (s.setReg c n u v).nextCard = s.nextCard := State.regsOnly_nextCard s _
@[simp] theorem State.setReg_stalled (s : State) (c n u : Nat) (v : W64) : (s.setReg c n u v).stalled = s.stalled := State.regsOnly_stalled s _
@[simp] theorem State.setReg_autoq (s : State) (c n u : Nat) (v : W64) : (s.setReg c n u v).autoq = s.autoq := State.regsOnly_autoq s _

@[simp] theorem State.setN_ident (s : State) (c n u v : Nat) : (s.setN c n u v).ident = s.ident := State.regsOnly_ident s _
@[simp] theorem State.setN_tick (s : State) (c n u v : Nat) : (s.setN c n u v).tick = s.tick := State.regsOnly_tick s _
@[simp] theorem State.setN_turn (s : State) (c n u v : Nat) : (s.setN c n u v).turn = s.turn := State.regsOnly_turn s _
@[simp] theorem State.setN_tsc (s : State) (c n u v : Nat) : (s.setN c n u v).tsc = s.tsc := State.regsOnly_tsc s _
@[simp] theorem State.setN_mem (s : State) (c n u v : Nat) : (s.setN c n u v).mem = s.mem := State.regsOnly_mem s _
@[simp] theorem State.setN_tags (s : State) (c n u v : Nat) : (s.setN c n u v).tags = s.tags := State.regsOnly_tags s _
@[simp] theorem State.setN_relVec (s : State) (c n u v : Nat) : (s.setN c n u v).relVec = s.relVec := State.regsOnly_relVec s _
@[simp] theorem State.setN_ctxs (s : State) (c n u v : Nat) : (s.setN c n u v).ctxs = s.ctxs := State.regsOnly_ctxs s _
@[simp] theorem State.setN_iss (s : State) (c n u v : Nat) : (s.setN c n u v).iss = s.iss := State.regsOnly_iss s _
@[simp] theorem State.setN_tiles (s : State) (c n u v : Nat) : (s.setN c n u v).tiles = s.tiles := State.regsOnly_tiles s _
@[simp] theorem State.setN_clusters (s : State) (c n u v : Nat) : (s.setN c n u v).clusters = s.clusters := State.regsOnly_clusters s _
@[simp] theorem State.setN_live (s : State) (c n u v : Nat) : (s.setN c n u v).live = s.live := State.regsOnly_live s _
@[simp] theorem State.setN_launches (s : State) (c n u v : Nat) : (s.setN c n u v).launches = s.launches := State.regsOnly_launches s _
@[simp] theorem State.setN_images (s : State) (c n u v : Nat) : (s.setN c n u v).images = s.images := State.regsOnly_images s _
@[simp] theorem State.setN_serials (s : State) (c n u v : Nat) : (s.setN c n u v).serials = s.serials := State.regsOnly_serials s _
@[simp] theorem State.setN_cps (s : State) (c n u v : Nat) : (s.setN c n u v).cps = s.cps := State.regsOnly_cps s _
@[simp] theorem State.setN_links (s : State) (c n u v : Nat) : (s.setN c n u v).links = s.links := State.regsOnly_links s _
@[simp] theorem State.setN_net (s : State) (c n u v : Nat) : (s.setN c n u v).net = s.net := State.regsOnly_net s _
@[simp] theorem State.setN_efts (s : State) (c n u v : Nat) : (s.setN c n u v).efts = s.efts := State.regsOnly_efts s _
@[simp] theorem State.setN_cur (s : State) (c n u v : Nat) : (s.setN c n u v).cur = s.cur := State.regsOnly_cur s _
@[simp] theorem State.setN_seqrs (s : State) (c n u v : Nat) : (s.setN c n u v).seqrs = s.seqrs := State.regsOnly_seqrs s _
@[simp] theorem State.setN_tlb (s : State) (c n u v : Nat) : (s.setN c n u v).tlb = s.tlb := State.regsOnly_tlb s _
@[simp] theorem State.setN_access (s : State) (c n u v : Nat) : (s.setN c n u v).access = s.access := State.regsOnly_access s _
@[simp] theorem State.setN_barX (s : State) (c n u v : Nat) : (s.setN c n u v).barX = s.barX := State.regsOnly_barX s _
@[simp] theorem State.setN_pfDown (s : State) (c n u v : Nat) : (s.setN c n u v).pfDown = s.pfDown := State.regsOnly_pfDown s _
@[simp] theorem State.setN_streams (s : State) (c n u v : Nat) : (s.setN c n u v).streams = s.streams := State.regsOnly_streams s _
@[simp] theorem State.setN_recq (s : State) (c n u v : Nat) : (s.setN c n u v).recq = s.recq := State.regsOnly_recq s _
@[simp] theorem State.setN_recAt (s : State) (c n u v : Nat) : (s.setN c n u v).recAt = s.recAt := State.regsOnly_recAt s _
@[simp] theorem State.setN_recHeld (s : State) (c n u v : Nat) : (s.setN c n u v).recHeld = s.recHeld := State.regsOnly_recHeld s _
@[simp] theorem State.setN_recGone (s : State) (c n u v : Nat) : (s.setN c n u v).recGone = s.recGone := State.regsOnly_recGone s _
@[simp] theorem State.setN_lost (s : State) (c n u v : Nat) : (s.setN c n u v).lost = s.lost := State.regsOnly_lost s _
@[simp] theorem State.setN_msix (s : State) (c n u v : Nat) : (s.setN c n u v).msix = s.msix := State.regsOnly_msix s _
@[simp] theorem State.setN_powerK (s : State) (c n u v : Nat) : (s.setN c n u v).powerK = s.powerK := State.regsOnly_powerK s _
@[simp] theorem State.setN_alerts (s : State) (c n u v : Nat) : (s.setN c n u v).alerts = s.alerts := State.regsOnly_alerts s _
@[simp] theorem State.setN_rowActs (s : State) (c n u v : Nat) : (s.setN c n u v).rowActs = s.rowActs := State.regsOnly_rowActs s _
@[simp] theorem State.setN_resp (s : State) (c n u v : Nat) : (s.setN c n u v).resp = s.resp := State.regsOnly_resp s _
@[simp] theorem State.setN_events (s : State) (c n u v : Nat) : (s.setN c n u v).events = s.events := State.regsOnly_events s _
@[simp] theorem State.setN_nextRid (s : State) (c n u v : Nat) : (s.setN c n u v).nextRid = s.nextRid := State.regsOnly_nextRid s _
@[simp] theorem State.setN_wins (s : State) (c n u v : Nat) : (s.setN c n u v).wins = s.wins := State.regsOnly_wins s _
@[simp] theorem State.setN_nextCard (s : State) (c n u v : Nat) : (s.setN c n u v).nextCard = s.nextCard := State.regsOnly_nextCard s _
@[simp] theorem State.setN_stalled (s : State) (c n u v : Nat) : (s.setN c n u v).stalled = s.stalled := State.regsOnly_stalled s _
@[simp] theorem State.setN_autoq (s : State) (c n u v : Nat) : (s.setN c n u v).autoq = s.autoq := State.regsOnly_autoq s _

@[simp] theorem State.bump_ident (s : State) (c n u : Nat) : (s.bump c n u).ident = s.ident := State.regsOnly_ident s _
@[simp] theorem State.bump_tick (s : State) (c n u : Nat) : (s.bump c n u).tick = s.tick := State.regsOnly_tick s _
@[simp] theorem State.bump_turn (s : State) (c n u : Nat) : (s.bump c n u).turn = s.turn := State.regsOnly_turn s _
@[simp] theorem State.bump_tsc (s : State) (c n u : Nat) : (s.bump c n u).tsc = s.tsc := State.regsOnly_tsc s _
@[simp] theorem State.bump_mem (s : State) (c n u : Nat) : (s.bump c n u).mem = s.mem := State.regsOnly_mem s _
@[simp] theorem State.bump_tags (s : State) (c n u : Nat) : (s.bump c n u).tags = s.tags := State.regsOnly_tags s _
@[simp] theorem State.bump_relVec (s : State) (c n u : Nat) : (s.bump c n u).relVec = s.relVec := State.regsOnly_relVec s _
@[simp] theorem State.bump_ctxs (s : State) (c n u : Nat) : (s.bump c n u).ctxs = s.ctxs := State.regsOnly_ctxs s _
@[simp] theorem State.bump_iss (s : State) (c n u : Nat) : (s.bump c n u).iss = s.iss := State.regsOnly_iss s _
@[simp] theorem State.bump_tiles (s : State) (c n u : Nat) : (s.bump c n u).tiles = s.tiles := State.regsOnly_tiles s _
@[simp] theorem State.bump_clusters (s : State) (c n u : Nat) : (s.bump c n u).clusters = s.clusters := State.regsOnly_clusters s _
@[simp] theorem State.bump_live (s : State) (c n u : Nat) : (s.bump c n u).live = s.live := State.regsOnly_live s _
@[simp] theorem State.bump_launches (s : State) (c n u : Nat) : (s.bump c n u).launches = s.launches := State.regsOnly_launches s _
@[simp] theorem State.bump_images (s : State) (c n u : Nat) : (s.bump c n u).images = s.images := State.regsOnly_images s _
@[simp] theorem State.bump_serials (s : State) (c n u : Nat) : (s.bump c n u).serials = s.serials := State.regsOnly_serials s _
@[simp] theorem State.bump_cps (s : State) (c n u : Nat) : (s.bump c n u).cps = s.cps := State.regsOnly_cps s _
@[simp] theorem State.bump_links (s : State) (c n u : Nat) : (s.bump c n u).links = s.links := State.regsOnly_links s _
@[simp] theorem State.bump_net (s : State) (c n u : Nat) : (s.bump c n u).net = s.net := State.regsOnly_net s _
@[simp] theorem State.bump_efts (s : State) (c n u : Nat) : (s.bump c n u).efts = s.efts := State.regsOnly_efts s _
@[simp] theorem State.bump_cur (s : State) (c n u : Nat) : (s.bump c n u).cur = s.cur := State.regsOnly_cur s _
@[simp] theorem State.bump_seqrs (s : State) (c n u : Nat) : (s.bump c n u).seqrs = s.seqrs := State.regsOnly_seqrs s _
@[simp] theorem State.bump_tlb (s : State) (c n u : Nat) : (s.bump c n u).tlb = s.tlb := State.regsOnly_tlb s _
@[simp] theorem State.bump_access (s : State) (c n u : Nat) : (s.bump c n u).access = s.access := State.regsOnly_access s _
@[simp] theorem State.bump_barX (s : State) (c n u : Nat) : (s.bump c n u).barX = s.barX := State.regsOnly_barX s _
@[simp] theorem State.bump_pfDown (s : State) (c n u : Nat) : (s.bump c n u).pfDown = s.pfDown := State.regsOnly_pfDown s _
@[simp] theorem State.bump_streams (s : State) (c n u : Nat) : (s.bump c n u).streams = s.streams := State.regsOnly_streams s _
@[simp] theorem State.bump_recq (s : State) (c n u : Nat) : (s.bump c n u).recq = s.recq := State.regsOnly_recq s _
@[simp] theorem State.bump_recAt (s : State) (c n u : Nat) : (s.bump c n u).recAt = s.recAt := State.regsOnly_recAt s _
@[simp] theorem State.bump_recHeld (s : State) (c n u : Nat) : (s.bump c n u).recHeld = s.recHeld := State.regsOnly_recHeld s _
@[simp] theorem State.bump_recGone (s : State) (c n u : Nat) : (s.bump c n u).recGone = s.recGone := State.regsOnly_recGone s _
@[simp] theorem State.bump_lost (s : State) (c n u : Nat) : (s.bump c n u).lost = s.lost := State.regsOnly_lost s _
@[simp] theorem State.bump_msix (s : State) (c n u : Nat) : (s.bump c n u).msix = s.msix := State.regsOnly_msix s _
@[simp] theorem State.bump_powerK (s : State) (c n u : Nat) : (s.bump c n u).powerK = s.powerK := State.regsOnly_powerK s _
@[simp] theorem State.bump_alerts (s : State) (c n u : Nat) : (s.bump c n u).alerts = s.alerts := State.regsOnly_alerts s _
@[simp] theorem State.bump_rowActs (s : State) (c n u : Nat) : (s.bump c n u).rowActs = s.rowActs := State.regsOnly_rowActs s _
@[simp] theorem State.bump_resp (s : State) (c n u : Nat) : (s.bump c n u).resp = s.resp := State.regsOnly_resp s _
@[simp] theorem State.bump_events (s : State) (c n u : Nat) : (s.bump c n u).events = s.events := State.regsOnly_events s _
@[simp] theorem State.bump_nextRid (s : State) (c n u : Nat) : (s.bump c n u).nextRid = s.nextRid := State.regsOnly_nextRid s _
@[simp] theorem State.bump_wins (s : State) (c n u : Nat) : (s.bump c n u).wins = s.wins := State.regsOnly_wins s _
@[simp] theorem State.bump_nextCard (s : State) (c n u : Nat) : (s.bump c n u).nextCard = s.nextCard := State.regsOnly_nextCard s _
@[simp] theorem State.bump_stalled (s : State) (c n u : Nat) : (s.bump c n u).stalled = s.stalled := State.regsOnly_stalled s _
@[simp] theorem State.bump_autoq (s : State) (c n u : Nat) : (s.bump c n u).autoq = s.autoq := State.regsOnly_autoq s _

@[simp] theorem State.setTile_ident (s : State) (t : Nat) (v : Tile) : (s.setTile t v).ident = s.ident := rfl
@[simp] theorem State.setTile_tick (s : State) (t : Nat) (v : Tile) : (s.setTile t v).tick = s.tick := rfl
@[simp] theorem State.setTile_turn (s : State) (t : Nat) (v : Tile) : (s.setTile t v).turn = s.turn := rfl
@[simp] theorem State.setTile_tsc (s : State) (t : Nat) (v : Tile) : (s.setTile t v).tsc = s.tsc := rfl
@[simp] theorem State.setTile_regs (s : State) (t : Nat) (v : Tile) : (s.setTile t v).regs = s.regs := rfl
@[simp] theorem State.setTile_mem (s : State) (t : Nat) (v : Tile) : (s.setTile t v).mem = s.mem := rfl
@[simp] theorem State.setTile_tags (s : State) (t : Nat) (v : Tile) : (s.setTile t v).tags = s.tags := rfl
@[simp] theorem State.setTile_relVec (s : State) (t : Nat) (v : Tile) : (s.setTile t v).relVec = s.relVec := rfl
@[simp] theorem State.setTile_ctxs (s : State) (t : Nat) (v : Tile) : (s.setTile t v).ctxs = s.ctxs := rfl
@[simp] theorem State.setTile_iss (s : State) (t : Nat) (v : Tile) : (s.setTile t v).iss = s.iss := rfl
@[simp] theorem State.setTile_clusters (s : State) (t : Nat) (v : Tile) : (s.setTile t v).clusters = s.clusters := rfl
@[simp] theorem State.setTile_live (s : State) (t : Nat) (v : Tile) : (s.setTile t v).live = s.live := rfl
@[simp] theorem State.setTile_launches (s : State) (t : Nat) (v : Tile) : (s.setTile t v).launches = s.launches := rfl
@[simp] theorem State.setTile_images (s : State) (t : Nat) (v : Tile) : (s.setTile t v).images = s.images := rfl
@[simp] theorem State.setTile_serials (s : State) (t : Nat) (v : Tile) : (s.setTile t v).serials = s.serials := rfl
@[simp] theorem State.setTile_cps (s : State) (t : Nat) (v : Tile) : (s.setTile t v).cps = s.cps := rfl
@[simp] theorem State.setTile_links (s : State) (t : Nat) (v : Tile) : (s.setTile t v).links = s.links := rfl
@[simp] theorem State.setTile_net (s : State) (t : Nat) (v : Tile) : (s.setTile t v).net = s.net := rfl
@[simp] theorem State.setTile_efts (s : State) (t : Nat) (v : Tile) : (s.setTile t v).efts = s.efts := rfl
@[simp] theorem State.setTile_cur (s : State) (t : Nat) (v : Tile) : (s.setTile t v).cur = s.cur := rfl
@[simp] theorem State.setTile_seqrs (s : State) (t : Nat) (v : Tile) : (s.setTile t v).seqrs = s.seqrs := rfl
@[simp] theorem State.setTile_tlb (s : State) (t : Nat) (v : Tile) : (s.setTile t v).tlb = s.tlb := rfl
@[simp] theorem State.setTile_access (s : State) (t : Nat) (v : Tile) : (s.setTile t v).access = s.access := rfl
@[simp] theorem State.setTile_barX (s : State) (t : Nat) (v : Tile) : (s.setTile t v).barX = s.barX := rfl
@[simp] theorem State.setTile_pfDown (s : State) (t : Nat) (v : Tile) : (s.setTile t v).pfDown = s.pfDown := rfl
@[simp] theorem State.setTile_streams (s : State) (t : Nat) (v : Tile) : (s.setTile t v).streams = s.streams := rfl
@[simp] theorem State.setTile_recq (s : State) (t : Nat) (v : Tile) : (s.setTile t v).recq = s.recq := rfl
@[simp] theorem State.setTile_recAt (s : State) (t : Nat) (v : Tile) : (s.setTile t v).recAt = s.recAt := rfl
@[simp] theorem State.setTile_recHeld (s : State) (t : Nat) (v : Tile) : (s.setTile t v).recHeld = s.recHeld := rfl
@[simp] theorem State.setTile_recGone (s : State) (t : Nat) (v : Tile) : (s.setTile t v).recGone = s.recGone := rfl
@[simp] theorem State.setTile_lost (s : State) (t : Nat) (v : Tile) : (s.setTile t v).lost = s.lost := rfl
@[simp] theorem State.setTile_msix (s : State) (t : Nat) (v : Tile) : (s.setTile t v).msix = s.msix := rfl
@[simp] theorem State.setTile_powerK (s : State) (t : Nat) (v : Tile) : (s.setTile t v).powerK = s.powerK := rfl
@[simp] theorem State.setTile_alerts (s : State) (t : Nat) (v : Tile) : (s.setTile t v).alerts = s.alerts := rfl
@[simp] theorem State.setTile_rowActs (s : State) (t : Nat) (v : Tile) : (s.setTile t v).rowActs = s.rowActs := rfl
@[simp] theorem State.setTile_resp (s : State) (t : Nat) (v : Tile) : (s.setTile t v).resp = s.resp := rfl
@[simp] theorem State.setTile_events (s : State) (t : Nat) (v : Tile) : (s.setTile t v).events = s.events := rfl
@[simp] theorem State.setTile_nextRid (s : State) (t : Nat) (v : Tile) : (s.setTile t v).nextRid = s.nextRid := rfl
@[simp] theorem State.setTile_wins (s : State) (t : Nat) (v : Tile) : (s.setTile t v).wins = s.wins := rfl
@[simp] theorem State.setTile_nextCard (s : State) (t : Nat) (v : Tile) : (s.setTile t v).nextCard = s.nextCard := rfl
@[simp] theorem State.setTile_stalled (s : State) (t : Nat) (v : Tile) : (s.setTile t v).stalled = s.stalled := rfl
@[simp] theorem State.setTile_autoq (s : State) (t : Nat) (v : Tile) : (s.setTile t v).autoq = s.autoq := rfl

@[simp] theorem State.setCl_ident (s : State) (c : Nat) (v : Cluster) : (s.setCl c v).ident = s.ident := rfl
@[simp] theorem State.setCl_tick (s : State) (c : Nat) (v : Cluster) : (s.setCl c v).tick = s.tick := rfl
@[simp] theorem State.setCl_turn (s : State) (c : Nat) (v : Cluster) : (s.setCl c v).turn = s.turn := rfl
@[simp] theorem State.setCl_tsc (s : State) (c : Nat) (v : Cluster) : (s.setCl c v).tsc = s.tsc := rfl
@[simp] theorem State.setCl_regs (s : State) (c : Nat) (v : Cluster) : (s.setCl c v).regs = s.regs := rfl
@[simp] theorem State.setCl_mem (s : State) (c : Nat) (v : Cluster) : (s.setCl c v).mem = s.mem := rfl
@[simp] theorem State.setCl_tags (s : State) (c : Nat) (v : Cluster) : (s.setCl c v).tags = s.tags := rfl
@[simp] theorem State.setCl_relVec (s : State) (c : Nat) (v : Cluster) : (s.setCl c v).relVec = s.relVec := rfl
@[simp] theorem State.setCl_ctxs (s : State) (c : Nat) (v : Cluster) : (s.setCl c v).ctxs = s.ctxs := rfl
@[simp] theorem State.setCl_iss (s : State) (c : Nat) (v : Cluster) : (s.setCl c v).iss = s.iss := rfl
@[simp] theorem State.setCl_tiles (s : State) (c : Nat) (v : Cluster) : (s.setCl c v).tiles = s.tiles := rfl
@[simp] theorem State.setCl_live (s : State) (c : Nat) (v : Cluster) : (s.setCl c v).live = s.live := rfl
@[simp] theorem State.setCl_launches (s : State) (c : Nat) (v : Cluster) : (s.setCl c v).launches = s.launches := rfl
@[simp] theorem State.setCl_images (s : State) (c : Nat) (v : Cluster) : (s.setCl c v).images = s.images := rfl
@[simp] theorem State.setCl_serials (s : State) (c : Nat) (v : Cluster) : (s.setCl c v).serials = s.serials := rfl
@[simp] theorem State.setCl_cps (s : State) (c : Nat) (v : Cluster) : (s.setCl c v).cps = s.cps := rfl
@[simp] theorem State.setCl_links (s : State) (c : Nat) (v : Cluster) : (s.setCl c v).links = s.links := rfl
@[simp] theorem State.setCl_net (s : State) (c : Nat) (v : Cluster) : (s.setCl c v).net = s.net := rfl
@[simp] theorem State.setCl_efts (s : State) (c : Nat) (v : Cluster) : (s.setCl c v).efts = s.efts := rfl
@[simp] theorem State.setCl_cur (s : State) (c : Nat) (v : Cluster) : (s.setCl c v).cur = s.cur := rfl
@[simp] theorem State.setCl_seqrs (s : State) (c : Nat) (v : Cluster) : (s.setCl c v).seqrs = s.seqrs := rfl
@[simp] theorem State.setCl_tlb (s : State) (c : Nat) (v : Cluster) : (s.setCl c v).tlb = s.tlb := rfl
@[simp] theorem State.setCl_access (s : State) (c : Nat) (v : Cluster) : (s.setCl c v).access = s.access := rfl
@[simp] theorem State.setCl_barX (s : State) (c : Nat) (v : Cluster) : (s.setCl c v).barX = s.barX := rfl
@[simp] theorem State.setCl_pfDown (s : State) (c : Nat) (v : Cluster) : (s.setCl c v).pfDown = s.pfDown := rfl
@[simp] theorem State.setCl_streams (s : State) (c : Nat) (v : Cluster) : (s.setCl c v).streams = s.streams := rfl
@[simp] theorem State.setCl_recq (s : State) (c : Nat) (v : Cluster) : (s.setCl c v).recq = s.recq := rfl
@[simp] theorem State.setCl_recAt (s : State) (c : Nat) (v : Cluster) : (s.setCl c v).recAt = s.recAt := rfl
@[simp] theorem State.setCl_recHeld (s : State) (c : Nat) (v : Cluster) : (s.setCl c v).recHeld = s.recHeld := rfl
@[simp] theorem State.setCl_recGone (s : State) (c : Nat) (v : Cluster) : (s.setCl c v).recGone = s.recGone := rfl
@[simp] theorem State.setCl_lost (s : State) (c : Nat) (v : Cluster) : (s.setCl c v).lost = s.lost := rfl
@[simp] theorem State.setCl_msix (s : State) (c : Nat) (v : Cluster) : (s.setCl c v).msix = s.msix := rfl
@[simp] theorem State.setCl_powerK (s : State) (c : Nat) (v : Cluster) : (s.setCl c v).powerK = s.powerK := rfl
@[simp] theorem State.setCl_alerts (s : State) (c : Nat) (v : Cluster) : (s.setCl c v).alerts = s.alerts := rfl
@[simp] theorem State.setCl_rowActs (s : State) (c : Nat) (v : Cluster) : (s.setCl c v).rowActs = s.rowActs := rfl
@[simp] theorem State.setCl_resp (s : State) (c : Nat) (v : Cluster) : (s.setCl c v).resp = s.resp := rfl
@[simp] theorem State.setCl_events (s : State) (c : Nat) (v : Cluster) : (s.setCl c v).events = s.events := rfl
@[simp] theorem State.setCl_nextRid (s : State) (c : Nat) (v : Cluster) : (s.setCl c v).nextRid = s.nextRid := rfl
@[simp] theorem State.setCl_wins (s : State) (c : Nat) (v : Cluster) : (s.setCl c v).wins = s.wins := rfl
@[simp] theorem State.setCl_nextCard (s : State) (c : Nat) (v : Cluster) : (s.setCl c v).nextCard = s.nextCard := rfl
@[simp] theorem State.setCl_stalled (s : State) (c : Nat) (v : Cluster) : (s.setCl c v).stalled = s.stalled := rfl
@[simp] theorem State.setCl_autoq (s : State) (c : Nat) (v : Cluster) : (s.setCl c v).autoq = s.autoq := rfl

@[simp] theorem State.setLink_ident (s : State) (e : Nat) (v : Link) : (s.setLink e v).ident = s.ident := rfl
@[simp] theorem State.setLink_tick (s : State) (e : Nat) (v : Link) : (s.setLink e v).tick = s.tick := rfl
@[simp] theorem State.setLink_turn (s : State) (e : Nat) (v : Link) : (s.setLink e v).turn = s.turn := rfl
@[simp] theorem State.setLink_tsc (s : State) (e : Nat) (v : Link) : (s.setLink e v).tsc = s.tsc := rfl
@[simp] theorem State.setLink_regs (s : State) (e : Nat) (v : Link) : (s.setLink e v).regs = s.regs := rfl
@[simp] theorem State.setLink_mem (s : State) (e : Nat) (v : Link) : (s.setLink e v).mem = s.mem := rfl
@[simp] theorem State.setLink_tags (s : State) (e : Nat) (v : Link) : (s.setLink e v).tags = s.tags := rfl
@[simp] theorem State.setLink_relVec (s : State) (e : Nat) (v : Link) : (s.setLink e v).relVec = s.relVec := rfl
@[simp] theorem State.setLink_ctxs (s : State) (e : Nat) (v : Link) : (s.setLink e v).ctxs = s.ctxs := rfl
@[simp] theorem State.setLink_iss (s : State) (e : Nat) (v : Link) : (s.setLink e v).iss = s.iss := rfl
@[simp] theorem State.setLink_tiles (s : State) (e : Nat) (v : Link) : (s.setLink e v).tiles = s.tiles := rfl
@[simp] theorem State.setLink_clusters (s : State) (e : Nat) (v : Link) : (s.setLink e v).clusters = s.clusters := rfl
@[simp] theorem State.setLink_live (s : State) (e : Nat) (v : Link) : (s.setLink e v).live = s.live := rfl
@[simp] theorem State.setLink_launches (s : State) (e : Nat) (v : Link) : (s.setLink e v).launches = s.launches := rfl
@[simp] theorem State.setLink_images (s : State) (e : Nat) (v : Link) : (s.setLink e v).images = s.images := rfl
@[simp] theorem State.setLink_serials (s : State) (e : Nat) (v : Link) : (s.setLink e v).serials = s.serials := rfl
@[simp] theorem State.setLink_cps (s : State) (e : Nat) (v : Link) : (s.setLink e v).cps = s.cps := rfl
@[simp] theorem State.setLink_net (s : State) (e : Nat) (v : Link) : (s.setLink e v).net = s.net := rfl
@[simp] theorem State.setLink_efts (s : State) (e : Nat) (v : Link) : (s.setLink e v).efts = s.efts := rfl
@[simp] theorem State.setLink_cur (s : State) (e : Nat) (v : Link) : (s.setLink e v).cur = s.cur := rfl
@[simp] theorem State.setLink_seqrs (s : State) (e : Nat) (v : Link) : (s.setLink e v).seqrs = s.seqrs := rfl
@[simp] theorem State.setLink_tlb (s : State) (e : Nat) (v : Link) : (s.setLink e v).tlb = s.tlb := rfl
@[simp] theorem State.setLink_access (s : State) (e : Nat) (v : Link) : (s.setLink e v).access = s.access := rfl
@[simp] theorem State.setLink_barX (s : State) (e : Nat) (v : Link) : (s.setLink e v).barX = s.barX := rfl
@[simp] theorem State.setLink_pfDown (s : State) (e : Nat) (v : Link) : (s.setLink e v).pfDown = s.pfDown := rfl
@[simp] theorem State.setLink_streams (s : State) (e : Nat) (v : Link) : (s.setLink e v).streams = s.streams := rfl
@[simp] theorem State.setLink_recq (s : State) (e : Nat) (v : Link) : (s.setLink e v).recq = s.recq := rfl
@[simp] theorem State.setLink_recAt (s : State) (e : Nat) (v : Link) : (s.setLink e v).recAt = s.recAt := rfl
@[simp] theorem State.setLink_recHeld (s : State) (e : Nat) (v : Link) : (s.setLink e v).recHeld = s.recHeld := rfl
@[simp] theorem State.setLink_recGone (s : State) (e : Nat) (v : Link) : (s.setLink e v).recGone = s.recGone := rfl
@[simp] theorem State.setLink_lost (s : State) (e : Nat) (v : Link) : (s.setLink e v).lost = s.lost := rfl
@[simp] theorem State.setLink_msix (s : State) (e : Nat) (v : Link) : (s.setLink e v).msix = s.msix := rfl
@[simp] theorem State.setLink_powerK (s : State) (e : Nat) (v : Link) : (s.setLink e v).powerK = s.powerK := rfl
@[simp] theorem State.setLink_alerts (s : State) (e : Nat) (v : Link) : (s.setLink e v).alerts = s.alerts := rfl
@[simp] theorem State.setLink_rowActs (s : State) (e : Nat) (v : Link) : (s.setLink e v).rowActs = s.rowActs := rfl
@[simp] theorem State.setLink_resp (s : State) (e : Nat) (v : Link) : (s.setLink e v).resp = s.resp := rfl
@[simp] theorem State.setLink_events (s : State) (e : Nat) (v : Link) : (s.setLink e v).events = s.events := rfl
@[simp] theorem State.setLink_nextRid (s : State) (e : Nat) (v : Link) : (s.setLink e v).nextRid = s.nextRid := rfl
@[simp] theorem State.setLink_wins (s : State) (e : Nat) (v : Link) : (s.setLink e v).wins = s.wins := rfl
@[simp] theorem State.setLink_nextCard (s : State) (e : Nat) (v : Link) : (s.setLink e v).nextCard = s.nextCard := rfl
@[simp] theorem State.setLink_stalled (s : State) (e : Nat) (v : Link) : (s.setLink e v).stalled = s.stalled := rfl
@[simp] theorem State.setLink_autoq (s : State) (e : Nat) (v : Link) : (s.setLink e v).autoq = s.autoq := rfl

@[simp] theorem State.setEft_ident (s : State) (e : Nat) (v : Eft) : (s.setEft e v).ident = s.ident := rfl
@[simp] theorem State.setEft_tick (s : State) (e : Nat) (v : Eft) : (s.setEft e v).tick = s.tick := rfl
@[simp] theorem State.setEft_turn (s : State) (e : Nat) (v : Eft) : (s.setEft e v).turn = s.turn := rfl
@[simp] theorem State.setEft_tsc (s : State) (e : Nat) (v : Eft) : (s.setEft e v).tsc = s.tsc := rfl
@[simp] theorem State.setEft_regs (s : State) (e : Nat) (v : Eft) : (s.setEft e v).regs = s.regs := rfl
@[simp] theorem State.setEft_mem (s : State) (e : Nat) (v : Eft) : (s.setEft e v).mem = s.mem := rfl
@[simp] theorem State.setEft_tags (s : State) (e : Nat) (v : Eft) : (s.setEft e v).tags = s.tags := rfl
@[simp] theorem State.setEft_relVec (s : State) (e : Nat) (v : Eft) : (s.setEft e v).relVec = s.relVec := rfl
@[simp] theorem State.setEft_ctxs (s : State) (e : Nat) (v : Eft) : (s.setEft e v).ctxs = s.ctxs := rfl
@[simp] theorem State.setEft_iss (s : State) (e : Nat) (v : Eft) : (s.setEft e v).iss = s.iss := rfl
@[simp] theorem State.setEft_tiles (s : State) (e : Nat) (v : Eft) : (s.setEft e v).tiles = s.tiles := rfl
@[simp] theorem State.setEft_clusters (s : State) (e : Nat) (v : Eft) : (s.setEft e v).clusters = s.clusters := rfl
@[simp] theorem State.setEft_live (s : State) (e : Nat) (v : Eft) : (s.setEft e v).live = s.live := rfl
@[simp] theorem State.setEft_launches (s : State) (e : Nat) (v : Eft) : (s.setEft e v).launches = s.launches := rfl
@[simp] theorem State.setEft_images (s : State) (e : Nat) (v : Eft) : (s.setEft e v).images = s.images := rfl
@[simp] theorem State.setEft_serials (s : State) (e : Nat) (v : Eft) : (s.setEft e v).serials = s.serials := rfl
@[simp] theorem State.setEft_cps (s : State) (e : Nat) (v : Eft) : (s.setEft e v).cps = s.cps := rfl
@[simp] theorem State.setEft_links (s : State) (e : Nat) (v : Eft) : (s.setEft e v).links = s.links := rfl
@[simp] theorem State.setEft_net (s : State) (e : Nat) (v : Eft) : (s.setEft e v).net = s.net := rfl
@[simp] theorem State.setEft_cur (s : State) (e : Nat) (v : Eft) : (s.setEft e v).cur = s.cur := rfl
@[simp] theorem State.setEft_seqrs (s : State) (e : Nat) (v : Eft) : (s.setEft e v).seqrs = s.seqrs := rfl
@[simp] theorem State.setEft_tlb (s : State) (e : Nat) (v : Eft) : (s.setEft e v).tlb = s.tlb := rfl
@[simp] theorem State.setEft_access (s : State) (e : Nat) (v : Eft) : (s.setEft e v).access = s.access := rfl
@[simp] theorem State.setEft_barX (s : State) (e : Nat) (v : Eft) : (s.setEft e v).barX = s.barX := rfl
@[simp] theorem State.setEft_pfDown (s : State) (e : Nat) (v : Eft) : (s.setEft e v).pfDown = s.pfDown := rfl
@[simp] theorem State.setEft_streams (s : State) (e : Nat) (v : Eft) : (s.setEft e v).streams = s.streams := rfl
@[simp] theorem State.setEft_recq (s : State) (e : Nat) (v : Eft) : (s.setEft e v).recq = s.recq := rfl
@[simp] theorem State.setEft_recAt (s : State) (e : Nat) (v : Eft) : (s.setEft e v).recAt = s.recAt := rfl
@[simp] theorem State.setEft_recHeld (s : State) (e : Nat) (v : Eft) : (s.setEft e v).recHeld = s.recHeld := rfl
@[simp] theorem State.setEft_recGone (s : State) (e : Nat) (v : Eft) : (s.setEft e v).recGone = s.recGone := rfl
@[simp] theorem State.setEft_lost (s : State) (e : Nat) (v : Eft) : (s.setEft e v).lost = s.lost := rfl
@[simp] theorem State.setEft_msix (s : State) (e : Nat) (v : Eft) : (s.setEft e v).msix = s.msix := rfl
@[simp] theorem State.setEft_powerK (s : State) (e : Nat) (v : Eft) : (s.setEft e v).powerK = s.powerK := rfl
@[simp] theorem State.setEft_alerts (s : State) (e : Nat) (v : Eft) : (s.setEft e v).alerts = s.alerts := rfl
@[simp] theorem State.setEft_rowActs (s : State) (e : Nat) (v : Eft) : (s.setEft e v).rowActs = s.rowActs := rfl
@[simp] theorem State.setEft_resp (s : State) (e : Nat) (v : Eft) : (s.setEft e v).resp = s.resp := rfl
@[simp] theorem State.setEft_events (s : State) (e : Nat) (v : Eft) : (s.setEft e v).events = s.events := rfl
@[simp] theorem State.setEft_nextRid (s : State) (e : Nat) (v : Eft) : (s.setEft e v).nextRid = s.nextRid := rfl
@[simp] theorem State.setEft_wins (s : State) (e : Nat) (v : Eft) : (s.setEft e v).wins = s.wins := rfl
@[simp] theorem State.setEft_nextCard (s : State) (e : Nat) (v : Eft) : (s.setEft e v).nextCard = s.nextCard := rfl
@[simp] theorem State.setEft_stalled (s : State) (e : Nat) (v : Eft) : (s.setEft e v).stalled = s.stalled := rfl
@[simp] theorem State.setEft_autoq (s : State) (e : Nat) (v : Eft) : (s.setEft e v).autoq = s.autoq := rfl

@[simp] theorem State.setSeqr_ident (s : State) (d : Nat) (v : Seqr) : (s.setSeqr d v).ident = s.ident := rfl
@[simp] theorem State.setSeqr_tick (s : State) (d : Nat) (v : Seqr) : (s.setSeqr d v).tick = s.tick := rfl
@[simp] theorem State.setSeqr_turn (s : State) (d : Nat) (v : Seqr) : (s.setSeqr d v).turn = s.turn := rfl
@[simp] theorem State.setSeqr_tsc (s : State) (d : Nat) (v : Seqr) : (s.setSeqr d v).tsc = s.tsc := rfl
@[simp] theorem State.setSeqr_regs (s : State) (d : Nat) (v : Seqr) : (s.setSeqr d v).regs = s.regs := rfl
@[simp] theorem State.setSeqr_mem (s : State) (d : Nat) (v : Seqr) : (s.setSeqr d v).mem = s.mem := rfl
@[simp] theorem State.setSeqr_tags (s : State) (d : Nat) (v : Seqr) : (s.setSeqr d v).tags = s.tags := rfl
@[simp] theorem State.setSeqr_relVec (s : State) (d : Nat) (v : Seqr) : (s.setSeqr d v).relVec = s.relVec := rfl
@[simp] theorem State.setSeqr_ctxs (s : State) (d : Nat) (v : Seqr) : (s.setSeqr d v).ctxs = s.ctxs := rfl
@[simp] theorem State.setSeqr_iss (s : State) (d : Nat) (v : Seqr) : (s.setSeqr d v).iss = s.iss := rfl
@[simp] theorem State.setSeqr_tiles (s : State) (d : Nat) (v : Seqr) : (s.setSeqr d v).tiles = s.tiles := rfl
@[simp] theorem State.setSeqr_clusters (s : State) (d : Nat) (v : Seqr) : (s.setSeqr d v).clusters = s.clusters := rfl
@[simp] theorem State.setSeqr_live (s : State) (d : Nat) (v : Seqr) : (s.setSeqr d v).live = s.live := rfl
@[simp] theorem State.setSeqr_launches (s : State) (d : Nat) (v : Seqr) : (s.setSeqr d v).launches = s.launches := rfl
@[simp] theorem State.setSeqr_images (s : State) (d : Nat) (v : Seqr) : (s.setSeqr d v).images = s.images := rfl
@[simp] theorem State.setSeqr_serials (s : State) (d : Nat) (v : Seqr) : (s.setSeqr d v).serials = s.serials := rfl
@[simp] theorem State.setSeqr_cps (s : State) (d : Nat) (v : Seqr) : (s.setSeqr d v).cps = s.cps := rfl
@[simp] theorem State.setSeqr_links (s : State) (d : Nat) (v : Seqr) : (s.setSeqr d v).links = s.links := rfl
@[simp] theorem State.setSeqr_net (s : State) (d : Nat) (v : Seqr) : (s.setSeqr d v).net = s.net := rfl
@[simp] theorem State.setSeqr_efts (s : State) (d : Nat) (v : Seqr) : (s.setSeqr d v).efts = s.efts := rfl
@[simp] theorem State.setSeqr_cur (s : State) (d : Nat) (v : Seqr) : (s.setSeqr d v).cur = s.cur := rfl
@[simp] theorem State.setSeqr_tlb (s : State) (d : Nat) (v : Seqr) : (s.setSeqr d v).tlb = s.tlb := rfl
@[simp] theorem State.setSeqr_access (s : State) (d : Nat) (v : Seqr) : (s.setSeqr d v).access = s.access := rfl
@[simp] theorem State.setSeqr_barX (s : State) (d : Nat) (v : Seqr) : (s.setSeqr d v).barX = s.barX := rfl
@[simp] theorem State.setSeqr_pfDown (s : State) (d : Nat) (v : Seqr) : (s.setSeqr d v).pfDown = s.pfDown := rfl
@[simp] theorem State.setSeqr_streams (s : State) (d : Nat) (v : Seqr) : (s.setSeqr d v).streams = s.streams := rfl
@[simp] theorem State.setSeqr_recq (s : State) (d : Nat) (v : Seqr) : (s.setSeqr d v).recq = s.recq := rfl
@[simp] theorem State.setSeqr_recAt (s : State) (d : Nat) (v : Seqr) : (s.setSeqr d v).recAt = s.recAt := rfl
@[simp] theorem State.setSeqr_recHeld (s : State) (d : Nat) (v : Seqr) : (s.setSeqr d v).recHeld = s.recHeld := rfl
@[simp] theorem State.setSeqr_recGone (s : State) (d : Nat) (v : Seqr) : (s.setSeqr d v).recGone = s.recGone := rfl
@[simp] theorem State.setSeqr_lost (s : State) (d : Nat) (v : Seqr) : (s.setSeqr d v).lost = s.lost := rfl
@[simp] theorem State.setSeqr_msix (s : State) (d : Nat) (v : Seqr) : (s.setSeqr d v).msix = s.msix := rfl
@[simp] theorem State.setSeqr_powerK (s : State) (d : Nat) (v : Seqr) : (s.setSeqr d v).powerK = s.powerK := rfl
@[simp] theorem State.setSeqr_alerts (s : State) (d : Nat) (v : Seqr) : (s.setSeqr d v).alerts = s.alerts := rfl
@[simp] theorem State.setSeqr_rowActs (s : State) (d : Nat) (v : Seqr) : (s.setSeqr d v).rowActs = s.rowActs := rfl
@[simp] theorem State.setSeqr_resp (s : State) (d : Nat) (v : Seqr) : (s.setSeqr d v).resp = s.resp := rfl
@[simp] theorem State.setSeqr_events (s : State) (d : Nat) (v : Seqr) : (s.setSeqr d v).events = s.events := rfl
@[simp] theorem State.setSeqr_nextRid (s : State) (d : Nat) (v : Seqr) : (s.setSeqr d v).nextRid = s.nextRid := rfl
@[simp] theorem State.setSeqr_wins (s : State) (d : Nat) (v : Seqr) : (s.setSeqr d v).wins = s.wins := rfl
@[simp] theorem State.setSeqr_nextCard (s : State) (d : Nat) (v : Seqr) : (s.setSeqr d v).nextCard = s.nextCard := rfl
@[simp] theorem State.setSeqr_stalled (s : State) (d : Nat) (v : Seqr) : (s.setSeqr d v).stalled = s.stalled := rfl
@[simp] theorem State.setSeqr_autoq (s : State) (d : Nat) (v : Seqr) : (s.setSeqr d v).autoq = s.autoq := rfl

@[simp] theorem State.setCp_ident (s : State) (c : Nat) (v : Cp) : (s.setCp c v).ident = s.ident := rfl
@[simp] theorem State.setCp_tick (s : State) (c : Nat) (v : Cp) : (s.setCp c v).tick = s.tick := rfl
@[simp] theorem State.setCp_turn (s : State) (c : Nat) (v : Cp) : (s.setCp c v).turn = s.turn := rfl
@[simp] theorem State.setCp_tsc (s : State) (c : Nat) (v : Cp) : (s.setCp c v).tsc = s.tsc := rfl
@[simp] theorem State.setCp_regs (s : State) (c : Nat) (v : Cp) : (s.setCp c v).regs = s.regs := rfl
@[simp] theorem State.setCp_mem (s : State) (c : Nat) (v : Cp) : (s.setCp c v).mem = s.mem := rfl
@[simp] theorem State.setCp_tags (s : State) (c : Nat) (v : Cp) : (s.setCp c v).tags = s.tags := rfl
@[simp] theorem State.setCp_relVec (s : State) (c : Nat) (v : Cp) : (s.setCp c v).relVec = s.relVec := rfl
@[simp] theorem State.setCp_ctxs (s : State) (c : Nat) (v : Cp) : (s.setCp c v).ctxs = s.ctxs := rfl
@[simp] theorem State.setCp_iss (s : State) (c : Nat) (v : Cp) : (s.setCp c v).iss = s.iss := rfl
@[simp] theorem State.setCp_tiles (s : State) (c : Nat) (v : Cp) : (s.setCp c v).tiles = s.tiles := rfl
@[simp] theorem State.setCp_clusters (s : State) (c : Nat) (v : Cp) : (s.setCp c v).clusters = s.clusters := rfl
@[simp] theorem State.setCp_live (s : State) (c : Nat) (v : Cp) : (s.setCp c v).live = s.live := rfl
@[simp] theorem State.setCp_launches (s : State) (c : Nat) (v : Cp) : (s.setCp c v).launches = s.launches := rfl
@[simp] theorem State.setCp_images (s : State) (c : Nat) (v : Cp) : (s.setCp c v).images = s.images := rfl
@[simp] theorem State.setCp_serials (s : State) (c : Nat) (v : Cp) : (s.setCp c v).serials = s.serials := rfl
@[simp] theorem State.setCp_links (s : State) (c : Nat) (v : Cp) : (s.setCp c v).links = s.links := rfl
@[simp] theorem State.setCp_net (s : State) (c : Nat) (v : Cp) : (s.setCp c v).net = s.net := rfl
@[simp] theorem State.setCp_efts (s : State) (c : Nat) (v : Cp) : (s.setCp c v).efts = s.efts := rfl
@[simp] theorem State.setCp_cur (s : State) (c : Nat) (v : Cp) : (s.setCp c v).cur = s.cur := rfl
@[simp] theorem State.setCp_seqrs (s : State) (c : Nat) (v : Cp) : (s.setCp c v).seqrs = s.seqrs := rfl
@[simp] theorem State.setCp_tlb (s : State) (c : Nat) (v : Cp) : (s.setCp c v).tlb = s.tlb := rfl
@[simp] theorem State.setCp_access (s : State) (c : Nat) (v : Cp) : (s.setCp c v).access = s.access := rfl
@[simp] theorem State.setCp_barX (s : State) (c : Nat) (v : Cp) : (s.setCp c v).barX = s.barX := rfl
@[simp] theorem State.setCp_pfDown (s : State) (c : Nat) (v : Cp) : (s.setCp c v).pfDown = s.pfDown := rfl
@[simp] theorem State.setCp_streams (s : State) (c : Nat) (v : Cp) : (s.setCp c v).streams = s.streams := rfl
@[simp] theorem State.setCp_recq (s : State) (c : Nat) (v : Cp) : (s.setCp c v).recq = s.recq := rfl
@[simp] theorem State.setCp_recAt (s : State) (c : Nat) (v : Cp) : (s.setCp c v).recAt = s.recAt := rfl
@[simp] theorem State.setCp_recHeld (s : State) (c : Nat) (v : Cp) : (s.setCp c v).recHeld = s.recHeld := rfl
@[simp] theorem State.setCp_recGone (s : State) (c : Nat) (v : Cp) : (s.setCp c v).recGone = s.recGone := rfl
@[simp] theorem State.setCp_lost (s : State) (c : Nat) (v : Cp) : (s.setCp c v).lost = s.lost := rfl
@[simp] theorem State.setCp_msix (s : State) (c : Nat) (v : Cp) : (s.setCp c v).msix = s.msix := rfl
@[simp] theorem State.setCp_powerK (s : State) (c : Nat) (v : Cp) : (s.setCp c v).powerK = s.powerK := rfl
@[simp] theorem State.setCp_alerts (s : State) (c : Nat) (v : Cp) : (s.setCp c v).alerts = s.alerts := rfl
@[simp] theorem State.setCp_rowActs (s : State) (c : Nat) (v : Cp) : (s.setCp c v).rowActs = s.rowActs := rfl
@[simp] theorem State.setCp_resp (s : State) (c : Nat) (v : Cp) : (s.setCp c v).resp = s.resp := rfl
@[simp] theorem State.setCp_events (s : State) (c : Nat) (v : Cp) : (s.setCp c v).events = s.events := rfl
@[simp] theorem State.setCp_nextRid (s : State) (c : Nat) (v : Cp) : (s.setCp c v).nextRid = s.nextRid := rfl
@[simp] theorem State.setCp_wins (s : State) (c : Nat) (v : Cp) : (s.setCp c v).wins = s.wins := rfl
@[simp] theorem State.setCp_nextCard (s : State) (c : Nat) (v : Cp) : (s.setCp c v).nextCard = s.nextCard := rfl
@[simp] theorem State.setCp_stalled (s : State) (c : Nat) (v : Cp) : (s.setCp c v).stalled = s.stalled := rfl
@[simp] theorem State.setCp_autoq (s : State) (c : Nat) (v : Cp) : (s.setCp c v).autoq = s.autoq := rfl

@[simp] theorem State.setCtx_ident (s : State) (ck : Nat) (c : Ctx) : (s.setCtx ck c).ident = s.ident := rfl
@[simp] theorem State.setCtx_tick (s : State) (ck : Nat) (c : Ctx) : (s.setCtx ck c).tick = s.tick := rfl
@[simp] theorem State.setCtx_turn (s : State) (ck : Nat) (c : Ctx) : (s.setCtx ck c).turn = s.turn := rfl
@[simp] theorem State.setCtx_tsc (s : State) (ck : Nat) (c : Ctx) : (s.setCtx ck c).tsc = s.tsc := rfl
@[simp] theorem State.setCtx_regs (s : State) (ck : Nat) (c : Ctx) : (s.setCtx ck c).regs = s.regs := rfl
@[simp] theorem State.setCtx_mem (s : State) (ck : Nat) (c : Ctx) : (s.setCtx ck c).mem = s.mem := rfl
@[simp] theorem State.setCtx_tags (s : State) (ck : Nat) (c : Ctx) : (s.setCtx ck c).tags = s.tags := rfl
@[simp] theorem State.setCtx_relVec (s : State) (ck : Nat) (c : Ctx) : (s.setCtx ck c).relVec = s.relVec := rfl
@[simp] theorem State.setCtx_iss (s : State) (ck : Nat) (c : Ctx) : (s.setCtx ck c).iss = s.iss := rfl
@[simp] theorem State.setCtx_tiles (s : State) (ck : Nat) (c : Ctx) : (s.setCtx ck c).tiles = s.tiles := rfl
@[simp] theorem State.setCtx_clusters (s : State) (ck : Nat) (c : Ctx) : (s.setCtx ck c).clusters = s.clusters := rfl
@[simp] theorem State.setCtx_live (s : State) (ck : Nat) (c : Ctx) : (s.setCtx ck c).live = s.live := rfl
@[simp] theorem State.setCtx_launches (s : State) (ck : Nat) (c : Ctx) : (s.setCtx ck c).launches = s.launches := rfl
@[simp] theorem State.setCtx_images (s : State) (ck : Nat) (c : Ctx) : (s.setCtx ck c).images = s.images := rfl
@[simp] theorem State.setCtx_serials (s : State) (ck : Nat) (c : Ctx) : (s.setCtx ck c).serials = s.serials := rfl
@[simp] theorem State.setCtx_cps (s : State) (ck : Nat) (c : Ctx) : (s.setCtx ck c).cps = s.cps := rfl
@[simp] theorem State.setCtx_links (s : State) (ck : Nat) (c : Ctx) : (s.setCtx ck c).links = s.links := rfl
@[simp] theorem State.setCtx_net (s : State) (ck : Nat) (c : Ctx) : (s.setCtx ck c).net = s.net := rfl
@[simp] theorem State.setCtx_efts (s : State) (ck : Nat) (c : Ctx) : (s.setCtx ck c).efts = s.efts := rfl
@[simp] theorem State.setCtx_cur (s : State) (ck : Nat) (c : Ctx) : (s.setCtx ck c).cur = s.cur := rfl
@[simp] theorem State.setCtx_seqrs (s : State) (ck : Nat) (c : Ctx) : (s.setCtx ck c).seqrs = s.seqrs := rfl
@[simp] theorem State.setCtx_tlb (s : State) (ck : Nat) (c : Ctx) : (s.setCtx ck c).tlb = s.tlb := rfl
@[simp] theorem State.setCtx_access (s : State) (ck : Nat) (c : Ctx) : (s.setCtx ck c).access = s.access := rfl
@[simp] theorem State.setCtx_barX (s : State) (ck : Nat) (c : Ctx) : (s.setCtx ck c).barX = s.barX := rfl
@[simp] theorem State.setCtx_pfDown (s : State) (ck : Nat) (c : Ctx) : (s.setCtx ck c).pfDown = s.pfDown := rfl
@[simp] theorem State.setCtx_streams (s : State) (ck : Nat) (c : Ctx) : (s.setCtx ck c).streams = s.streams := rfl
@[simp] theorem State.setCtx_recq (s : State) (ck : Nat) (c : Ctx) : (s.setCtx ck c).recq = s.recq := rfl
@[simp] theorem State.setCtx_recAt (s : State) (ck : Nat) (c : Ctx) : (s.setCtx ck c).recAt = s.recAt := rfl
@[simp] theorem State.setCtx_recHeld (s : State) (ck : Nat) (c : Ctx) : (s.setCtx ck c).recHeld = s.recHeld := rfl
@[simp] theorem State.setCtx_recGone (s : State) (ck : Nat) (c : Ctx) : (s.setCtx ck c).recGone = s.recGone := rfl
@[simp] theorem State.setCtx_lost (s : State) (ck : Nat) (c : Ctx) : (s.setCtx ck c).lost = s.lost := rfl
@[simp] theorem State.setCtx_msix (s : State) (ck : Nat) (c : Ctx) : (s.setCtx ck c).msix = s.msix := rfl
@[simp] theorem State.setCtx_powerK (s : State) (ck : Nat) (c : Ctx) : (s.setCtx ck c).powerK = s.powerK := rfl
@[simp] theorem State.setCtx_alerts (s : State) (ck : Nat) (c : Ctx) : (s.setCtx ck c).alerts = s.alerts := rfl
@[simp] theorem State.setCtx_rowActs (s : State) (ck : Nat) (c : Ctx) : (s.setCtx ck c).rowActs = s.rowActs := rfl
@[simp] theorem State.setCtx_resp (s : State) (ck : Nat) (c : Ctx) : (s.setCtx ck c).resp = s.resp := rfl
@[simp] theorem State.setCtx_events (s : State) (ck : Nat) (c : Ctx) : (s.setCtx ck c).events = s.events := rfl
@[simp] theorem State.setCtx_nextRid (s : State) (ck : Nat) (c : Ctx) : (s.setCtx ck c).nextRid = s.nextRid := rfl
@[simp] theorem State.setCtx_wins (s : State) (ck : Nat) (c : Ctx) : (s.setCtx ck c).wins = s.wins := rfl
@[simp] theorem State.setCtx_nextCard (s : State) (ck : Nat) (c : Ctx) : (s.setCtx ck c).nextCard = s.nextCard := rfl
@[simp] theorem State.setCtx_stalled (s : State) (ck : Nat) (c : Ctx) : (s.setCtx ck c).stalled = s.stalled := rfl
@[simp] theorem State.setCtx_autoq (s : State) (ck : Nat) (c : Ctx) : (s.setCtx ck c).autoq = s.autoq := rfl

@[simp] theorem State.delCtx_ident (s : State) (ck : Nat) : (s.delCtx ck).ident = s.ident := rfl
@[simp] theorem State.delCtx_tick (s : State) (ck : Nat) : (s.delCtx ck).tick = s.tick := rfl
@[simp] theorem State.delCtx_turn (s : State) (ck : Nat) : (s.delCtx ck).turn = s.turn := rfl
@[simp] theorem State.delCtx_tsc (s : State) (ck : Nat) : (s.delCtx ck).tsc = s.tsc := rfl
@[simp] theorem State.delCtx_regs (s : State) (ck : Nat) : (s.delCtx ck).regs = s.regs := rfl
@[simp] theorem State.delCtx_mem (s : State) (ck : Nat) : (s.delCtx ck).mem = s.mem := rfl
@[simp] theorem State.delCtx_tags (s : State) (ck : Nat) : (s.delCtx ck).tags = s.tags := rfl
@[simp] theorem State.delCtx_relVec (s : State) (ck : Nat) : (s.delCtx ck).relVec = s.relVec := rfl
@[simp] theorem State.delCtx_iss (s : State) (ck : Nat) : (s.delCtx ck).iss = s.iss := rfl
@[simp] theorem State.delCtx_tiles (s : State) (ck : Nat) : (s.delCtx ck).tiles = s.tiles := rfl
@[simp] theorem State.delCtx_clusters (s : State) (ck : Nat) : (s.delCtx ck).clusters = s.clusters := rfl
@[simp] theorem State.delCtx_live (s : State) (ck : Nat) : (s.delCtx ck).live = s.live := rfl
@[simp] theorem State.delCtx_launches (s : State) (ck : Nat) : (s.delCtx ck).launches = s.launches := rfl
@[simp] theorem State.delCtx_images (s : State) (ck : Nat) : (s.delCtx ck).images = s.images := rfl
@[simp] theorem State.delCtx_serials (s : State) (ck : Nat) : (s.delCtx ck).serials = s.serials := rfl
@[simp] theorem State.delCtx_cps (s : State) (ck : Nat) : (s.delCtx ck).cps = s.cps := rfl
@[simp] theorem State.delCtx_links (s : State) (ck : Nat) : (s.delCtx ck).links = s.links := rfl
@[simp] theorem State.delCtx_net (s : State) (ck : Nat) : (s.delCtx ck).net = s.net := rfl
@[simp] theorem State.delCtx_efts (s : State) (ck : Nat) : (s.delCtx ck).efts = s.efts := rfl
@[simp] theorem State.delCtx_cur (s : State) (ck : Nat) : (s.delCtx ck).cur = s.cur := rfl
@[simp] theorem State.delCtx_seqrs (s : State) (ck : Nat) : (s.delCtx ck).seqrs = s.seqrs := rfl
@[simp] theorem State.delCtx_tlb (s : State) (ck : Nat) : (s.delCtx ck).tlb = s.tlb := rfl
@[simp] theorem State.delCtx_access (s : State) (ck : Nat) : (s.delCtx ck).access = s.access := rfl
@[simp] theorem State.delCtx_barX (s : State) (ck : Nat) : (s.delCtx ck).barX = s.barX := rfl
@[simp] theorem State.delCtx_pfDown (s : State) (ck : Nat) : (s.delCtx ck).pfDown = s.pfDown := rfl
@[simp] theorem State.delCtx_streams (s : State) (ck : Nat) : (s.delCtx ck).streams = s.streams := rfl
@[simp] theorem State.delCtx_recq (s : State) (ck : Nat) : (s.delCtx ck).recq = s.recq := rfl
@[simp] theorem State.delCtx_recAt (s : State) (ck : Nat) : (s.delCtx ck).recAt = s.recAt := rfl
@[simp] theorem State.delCtx_recHeld (s : State) (ck : Nat) : (s.delCtx ck).recHeld = s.recHeld := rfl
@[simp] theorem State.delCtx_recGone (s : State) (ck : Nat) : (s.delCtx ck).recGone = s.recGone := rfl
@[simp] theorem State.delCtx_lost (s : State) (ck : Nat) : (s.delCtx ck).lost = s.lost := rfl
@[simp] theorem State.delCtx_msix (s : State) (ck : Nat) : (s.delCtx ck).msix = s.msix := rfl
@[simp] theorem State.delCtx_powerK (s : State) (ck : Nat) : (s.delCtx ck).powerK = s.powerK := rfl
@[simp] theorem State.delCtx_alerts (s : State) (ck : Nat) : (s.delCtx ck).alerts = s.alerts := rfl
@[simp] theorem State.delCtx_rowActs (s : State) (ck : Nat) : (s.delCtx ck).rowActs = s.rowActs := rfl
@[simp] theorem State.delCtx_resp (s : State) (ck : Nat) : (s.delCtx ck).resp = s.resp := rfl
@[simp] theorem State.delCtx_events (s : State) (ck : Nat) : (s.delCtx ck).events = s.events := rfl
@[simp] theorem State.delCtx_nextRid (s : State) (ck : Nat) : (s.delCtx ck).nextRid = s.nextRid := rfl
@[simp] theorem State.delCtx_wins (s : State) (ck : Nat) : (s.delCtx ck).wins = s.wins := rfl
@[simp] theorem State.delCtx_nextCard (s : State) (ck : Nat) : (s.delCtx ck).nextCard = s.nextCard := rfl
@[simp] theorem State.delCtx_stalled (s : State) (ck : Nat) : (s.delCtx ck).stalled = s.stalled := rfl
@[simp] theorem State.delCtx_autoq (s : State) (ck : Nat) : (s.delCtx ck).autoq = s.autoq := rfl

@[simp] theorem State.post_ident (s : State) (i : Instr) : (s.post i).ident = s.ident := rfl
@[simp] theorem State.post_tick (s : State) (i : Instr) : (s.post i).tick = s.tick := rfl
@[simp] theorem State.post_turn (s : State) (i : Instr) : (s.post i).turn = s.turn := rfl
@[simp] theorem State.post_tsc (s : State) (i : Instr) : (s.post i).tsc = s.tsc := rfl
@[simp] theorem State.post_regs (s : State) (i : Instr) : (s.post i).regs = s.regs := rfl
@[simp] theorem State.post_mem (s : State) (i : Instr) : (s.post i).mem = s.mem := rfl
@[simp] theorem State.post_tags (s : State) (i : Instr) : (s.post i).tags = s.tags := rfl
@[simp] theorem State.post_relVec (s : State) (i : Instr) : (s.post i).relVec = s.relVec := rfl
@[simp] theorem State.post_ctxs (s : State) (i : Instr) : (s.post i).ctxs = s.ctxs := rfl
@[simp] theorem State.post_iss (s : State) (i : Instr) : (s.post i).iss = s.iss := rfl
@[simp] theorem State.post_tiles (s : State) (i : Instr) : (s.post i).tiles = s.tiles := rfl
@[simp] theorem State.post_clusters (s : State) (i : Instr) : (s.post i).clusters = s.clusters := rfl
@[simp] theorem State.post_live (s : State) (i : Instr) : (s.post i).live = s.live := rfl
@[simp] theorem State.post_launches (s : State) (i : Instr) : (s.post i).launches = s.launches := rfl
@[simp] theorem State.post_images (s : State) (i : Instr) : (s.post i).images = s.images := rfl
@[simp] theorem State.post_serials (s : State) (i : Instr) : (s.post i).serials = s.serials := rfl
@[simp] theorem State.post_cps (s : State) (i : Instr) : (s.post i).cps = s.cps := rfl
@[simp] theorem State.post_links (s : State) (i : Instr) : (s.post i).links = s.links := rfl
@[simp] theorem State.post_net (s : State) (i : Instr) : (s.post i).net = s.net := rfl
@[simp] theorem State.post_efts (s : State) (i : Instr) : (s.post i).efts = s.efts := rfl
@[simp] theorem State.post_cur (s : State) (i : Instr) : (s.post i).cur = s.cur := rfl
@[simp] theorem State.post_seqrs (s : State) (i : Instr) : (s.post i).seqrs = s.seqrs := rfl
@[simp] theorem State.post_tlb (s : State) (i : Instr) : (s.post i).tlb = s.tlb := rfl
@[simp] theorem State.post_access (s : State) (i : Instr) : (s.post i).access = s.access := rfl
@[simp] theorem State.post_barX (s : State) (i : Instr) : (s.post i).barX = s.barX := rfl
@[simp] theorem State.post_pfDown (s : State) (i : Instr) : (s.post i).pfDown = s.pfDown := rfl
@[simp] theorem State.post_streams (s : State) (i : Instr) : (s.post i).streams = s.streams := rfl
@[simp] theorem State.post_recq (s : State) (i : Instr) : (s.post i).recq = s.recq := rfl
@[simp] theorem State.post_recAt (s : State) (i : Instr) : (s.post i).recAt = s.recAt := rfl
@[simp] theorem State.post_recHeld (s : State) (i : Instr) : (s.post i).recHeld = s.recHeld := rfl
@[simp] theorem State.post_recGone (s : State) (i : Instr) : (s.post i).recGone = s.recGone := rfl
@[simp] theorem State.post_lost (s : State) (i : Instr) : (s.post i).lost = s.lost := rfl
@[simp] theorem State.post_msix (s : State) (i : Instr) : (s.post i).msix = s.msix := rfl
@[simp] theorem State.post_powerK (s : State) (i : Instr) : (s.post i).powerK = s.powerK := rfl
@[simp] theorem State.post_alerts (s : State) (i : Instr) : (s.post i).alerts = s.alerts := rfl
@[simp] theorem State.post_rowActs (s : State) (i : Instr) : (s.post i).rowActs = s.rowActs := rfl
@[simp] theorem State.post_resp (s : State) (i : Instr) : (s.post i).resp = s.resp := rfl
@[simp] theorem State.post_nextRid (s : State) (i : Instr) : (s.post i).nextRid = s.nextRid := rfl
@[simp] theorem State.post_wins (s : State) (i : Instr) : (s.post i).wins = s.wins := rfl
@[simp] theorem State.post_nextCard (s : State) (i : Instr) : (s.post i).nextCard = s.nextCard := rfl
@[simp] theorem State.post_stalled (s : State) (i : Instr) : (s.post i).stalled = s.stalled := rfl
@[simp] theorem State.post_autoq (s : State) (i : Instr) : (s.post i).autoq = s.autoq := rfl

@[simp] theorem State.setIss_ident (s : State) (i : Issue) : (s.setIss i).ident = s.ident := rfl
@[simp] theorem State.setIss_tick (s : State) (i : Issue) : (s.setIss i).tick = s.tick := rfl
@[simp] theorem State.setIss_turn (s : State) (i : Issue) : (s.setIss i).turn = s.turn := rfl
@[simp] theorem State.setIss_tsc (s : State) (i : Issue) : (s.setIss i).tsc = s.tsc := rfl
@[simp] theorem State.setIss_regs (s : State) (i : Issue) : (s.setIss i).regs = s.regs := rfl
@[simp] theorem State.setIss_mem (s : State) (i : Issue) : (s.setIss i).mem = s.mem := rfl
@[simp] theorem State.setIss_tags (s : State) (i : Issue) : (s.setIss i).tags = s.tags := rfl
@[simp] theorem State.setIss_relVec (s : State) (i : Issue) : (s.setIss i).relVec = s.relVec := rfl
@[simp] theorem State.setIss_ctxs (s : State) (i : Issue) : (s.setIss i).ctxs = s.ctxs := rfl
@[simp] theorem State.setIss_tiles (s : State) (i : Issue) : (s.setIss i).tiles = s.tiles := rfl
@[simp] theorem State.setIss_clusters (s : State) (i : Issue) : (s.setIss i).clusters = s.clusters := rfl
@[simp] theorem State.setIss_live (s : State) (i : Issue) : (s.setIss i).live = s.live := rfl
@[simp] theorem State.setIss_launches (s : State) (i : Issue) : (s.setIss i).launches = s.launches := rfl
@[simp] theorem State.setIss_images (s : State) (i : Issue) : (s.setIss i).images = s.images := rfl
@[simp] theorem State.setIss_serials (s : State) (i : Issue) : (s.setIss i).serials = s.serials := rfl
@[simp] theorem State.setIss_cps (s : State) (i : Issue) : (s.setIss i).cps = s.cps := rfl
@[simp] theorem State.setIss_links (s : State) (i : Issue) : (s.setIss i).links = s.links := rfl
@[simp] theorem State.setIss_net (s : State) (i : Issue) : (s.setIss i).net = s.net := rfl
@[simp] theorem State.setIss_efts (s : State) (i : Issue) : (s.setIss i).efts = s.efts := rfl
@[simp] theorem State.setIss_cur (s : State) (i : Issue) : (s.setIss i).cur = s.cur := rfl
@[simp] theorem State.setIss_seqrs (s : State) (i : Issue) : (s.setIss i).seqrs = s.seqrs := rfl
@[simp] theorem State.setIss_tlb (s : State) (i : Issue) : (s.setIss i).tlb = s.tlb := rfl
@[simp] theorem State.setIss_access (s : State) (i : Issue) : (s.setIss i).access = s.access := rfl
@[simp] theorem State.setIss_barX (s : State) (i : Issue) : (s.setIss i).barX = s.barX := rfl
@[simp] theorem State.setIss_pfDown (s : State) (i : Issue) : (s.setIss i).pfDown = s.pfDown := rfl
@[simp] theorem State.setIss_streams (s : State) (i : Issue) : (s.setIss i).streams = s.streams := rfl
@[simp] theorem State.setIss_recq (s : State) (i : Issue) : (s.setIss i).recq = s.recq := rfl
@[simp] theorem State.setIss_recAt (s : State) (i : Issue) : (s.setIss i).recAt = s.recAt := rfl
@[simp] theorem State.setIss_recHeld (s : State) (i : Issue) : (s.setIss i).recHeld = s.recHeld := rfl
@[simp] theorem State.setIss_recGone (s : State) (i : Issue) : (s.setIss i).recGone = s.recGone := rfl
@[simp] theorem State.setIss_lost (s : State) (i : Issue) : (s.setIss i).lost = s.lost := rfl
@[simp] theorem State.setIss_msix (s : State) (i : Issue) : (s.setIss i).msix = s.msix := rfl
@[simp] theorem State.setIss_powerK (s : State) (i : Issue) : (s.setIss i).powerK = s.powerK := rfl
@[simp] theorem State.setIss_alerts (s : State) (i : Issue) : (s.setIss i).alerts = s.alerts := rfl
@[simp] theorem State.setIss_rowActs (s : State) (i : Issue) : (s.setIss i).rowActs = s.rowActs := rfl
@[simp] theorem State.setIss_resp (s : State) (i : Issue) : (s.setIss i).resp = s.resp := rfl
@[simp] theorem State.setIss_events (s : State) (i : Issue) : (s.setIss i).events = s.events := rfl
@[simp] theorem State.setIss_nextRid (s : State) (i : Issue) : (s.setIss i).nextRid = s.nextRid := rfl
@[simp] theorem State.setIss_wins (s : State) (i : Issue) : (s.setIss i).wins = s.wins := rfl
@[simp] theorem State.setIss_nextCard (s : State) (i : Issue) : (s.setIss i).nextCard = s.nextCard := rfl
@[simp] theorem State.setIss_stalled (s : State) (i : Issue) : (s.setIss i).stalled = s.stalled := rfl
@[simp] theorem State.setIss_autoq (s : State) (i : Issue) : (s.setIss i).autoq = s.autoq := rfl

@[simp] theorem wrByte_ident (s : State) (a : Nat) (v : Byte) : (wrByte s a v).ident = s.ident := rfl
@[simp] theorem wrByte_tick (s : State) (a : Nat) (v : Byte) : (wrByte s a v).tick = s.tick := rfl
@[simp] theorem wrByte_turn (s : State) (a : Nat) (v : Byte) : (wrByte s a v).turn = s.turn := rfl
@[simp] theorem wrByte_tsc (s : State) (a : Nat) (v : Byte) : (wrByte s a v).tsc = s.tsc := rfl
@[simp] theorem wrByte_regs (s : State) (a : Nat) (v : Byte) : (wrByte s a v).regs = s.regs := rfl
@[simp] theorem wrByte_tags (s : State) (a : Nat) (v : Byte) : (wrByte s a v).tags = s.tags := rfl
@[simp] theorem wrByte_relVec (s : State) (a : Nat) (v : Byte) : (wrByte s a v).relVec = s.relVec := rfl
@[simp] theorem wrByte_ctxs (s : State) (a : Nat) (v : Byte) : (wrByte s a v).ctxs = s.ctxs := rfl
@[simp] theorem wrByte_iss (s : State) (a : Nat) (v : Byte) : (wrByte s a v).iss = s.iss := rfl
@[simp] theorem wrByte_tiles (s : State) (a : Nat) (v : Byte) : (wrByte s a v).tiles = s.tiles := rfl
@[simp] theorem wrByte_clusters (s : State) (a : Nat) (v : Byte) : (wrByte s a v).clusters = s.clusters := rfl
@[simp] theorem wrByte_live (s : State) (a : Nat) (v : Byte) : (wrByte s a v).live = s.live := rfl
@[simp] theorem wrByte_launches (s : State) (a : Nat) (v : Byte) : (wrByte s a v).launches = s.launches := rfl
@[simp] theorem wrByte_images (s : State) (a : Nat) (v : Byte) : (wrByte s a v).images = s.images := rfl
@[simp] theorem wrByte_serials (s : State) (a : Nat) (v : Byte) : (wrByte s a v).serials = s.serials := rfl
@[simp] theorem wrByte_cps (s : State) (a : Nat) (v : Byte) : (wrByte s a v).cps = s.cps := rfl
@[simp] theorem wrByte_links (s : State) (a : Nat) (v : Byte) : (wrByte s a v).links = s.links := rfl
@[simp] theorem wrByte_net (s : State) (a : Nat) (v : Byte) : (wrByte s a v).net = s.net := rfl
@[simp] theorem wrByte_efts (s : State) (a : Nat) (v : Byte) : (wrByte s a v).efts = s.efts := rfl
@[simp] theorem wrByte_cur (s : State) (a : Nat) (v : Byte) : (wrByte s a v).cur = s.cur := rfl
@[simp] theorem wrByte_seqrs (s : State) (a : Nat) (v : Byte) : (wrByte s a v).seqrs = s.seqrs := rfl
@[simp] theorem wrByte_tlb (s : State) (a : Nat) (v : Byte) : (wrByte s a v).tlb = s.tlb := rfl
@[simp] theorem wrByte_access (s : State) (a : Nat) (v : Byte) : (wrByte s a v).access = s.access := rfl
@[simp] theorem wrByte_barX (s : State) (a : Nat) (v : Byte) : (wrByte s a v).barX = s.barX := rfl
@[simp] theorem wrByte_pfDown (s : State) (a : Nat) (v : Byte) : (wrByte s a v).pfDown = s.pfDown := rfl
@[simp] theorem wrByte_streams (s : State) (a : Nat) (v : Byte) : (wrByte s a v).streams = s.streams := rfl
@[simp] theorem wrByte_recq (s : State) (a : Nat) (v : Byte) : (wrByte s a v).recq = s.recq := rfl
@[simp] theorem wrByte_recAt (s : State) (a : Nat) (v : Byte) : (wrByte s a v).recAt = s.recAt := rfl
@[simp] theorem wrByte_recHeld (s : State) (a : Nat) (v : Byte) : (wrByte s a v).recHeld = s.recHeld := rfl
@[simp] theorem wrByte_recGone (s : State) (a : Nat) (v : Byte) : (wrByte s a v).recGone = s.recGone := rfl
@[simp] theorem wrByte_lost (s : State) (a : Nat) (v : Byte) : (wrByte s a v).lost = s.lost := rfl
@[simp] theorem wrByte_msix (s : State) (a : Nat) (v : Byte) : (wrByte s a v).msix = s.msix := rfl
@[simp] theorem wrByte_powerK (s : State) (a : Nat) (v : Byte) : (wrByte s a v).powerK = s.powerK := rfl
@[simp] theorem wrByte_alerts (s : State) (a : Nat) (v : Byte) : (wrByte s a v).alerts = s.alerts := rfl
@[simp] theorem wrByte_rowActs (s : State) (a : Nat) (v : Byte) : (wrByte s a v).rowActs = s.rowActs := rfl
@[simp] theorem wrByte_resp (s : State) (a : Nat) (v : Byte) : (wrByte s a v).resp = s.resp := rfl
@[simp] theorem wrByte_events (s : State) (a : Nat) (v : Byte) : (wrByte s a v).events = s.events := rfl
@[simp] theorem wrByte_nextRid (s : State) (a : Nat) (v : Byte) : (wrByte s a v).nextRid = s.nextRid := rfl
@[simp] theorem wrByte_wins (s : State) (a : Nat) (v : Byte) : (wrByte s a v).wins = s.wins := rfl
@[simp] theorem wrByte_nextCard (s : State) (a : Nat) (v : Byte) : (wrByte s a v).nextCard = s.nextCard := rfl
@[simp] theorem wrByte_stalled (s : State) (a : Nat) (v : Byte) : (wrByte s a v).stalled = s.stalled := rfl
@[simp] theorem wrByte_autoq (s : State) (a : Nat) (v : Byte) : (wrByte s a v).autoq = s.autoq := rfl

@[simp] theorem wipe_ident (s : State) (a n : Nat) : (wipe s a n).ident = s.ident := rfl
@[simp] theorem wipe_tick (s : State) (a n : Nat) : (wipe s a n).tick = s.tick := rfl
@[simp] theorem wipe_turn (s : State) (a n : Nat) : (wipe s a n).turn = s.turn := rfl
@[simp] theorem wipe_tsc (s : State) (a n : Nat) : (wipe s a n).tsc = s.tsc := rfl
@[simp] theorem wipe_regs (s : State) (a n : Nat) : (wipe s a n).regs = s.regs := rfl
@[simp] theorem wipe_tags (s : State) (a n : Nat) : (wipe s a n).tags = s.tags := rfl
@[simp] theorem wipe_relVec (s : State) (a n : Nat) : (wipe s a n).relVec = s.relVec := rfl
@[simp] theorem wipe_ctxs (s : State) (a n : Nat) : (wipe s a n).ctxs = s.ctxs := rfl
@[simp] theorem wipe_iss (s : State) (a n : Nat) : (wipe s a n).iss = s.iss := rfl
@[simp] theorem wipe_tiles (s : State) (a n : Nat) : (wipe s a n).tiles = s.tiles := rfl
@[simp] theorem wipe_clusters (s : State) (a n : Nat) : (wipe s a n).clusters = s.clusters := rfl
@[simp] theorem wipe_live (s : State) (a n : Nat) : (wipe s a n).live = s.live := rfl
@[simp] theorem wipe_launches (s : State) (a n : Nat) : (wipe s a n).launches = s.launches := rfl
@[simp] theorem wipe_images (s : State) (a n : Nat) : (wipe s a n).images = s.images := rfl
@[simp] theorem wipe_serials (s : State) (a n : Nat) : (wipe s a n).serials = s.serials := rfl
@[simp] theorem wipe_cps (s : State) (a n : Nat) : (wipe s a n).cps = s.cps := rfl
@[simp] theorem wipe_links (s : State) (a n : Nat) : (wipe s a n).links = s.links := rfl
@[simp] theorem wipe_net (s : State) (a n : Nat) : (wipe s a n).net = s.net := rfl
@[simp] theorem wipe_efts (s : State) (a n : Nat) : (wipe s a n).efts = s.efts := rfl
@[simp] theorem wipe_cur (s : State) (a n : Nat) : (wipe s a n).cur = s.cur := rfl
@[simp] theorem wipe_seqrs (s : State) (a n : Nat) : (wipe s a n).seqrs = s.seqrs := rfl
@[simp] theorem wipe_tlb (s : State) (a n : Nat) : (wipe s a n).tlb = s.tlb := rfl
@[simp] theorem wipe_access (s : State) (a n : Nat) : (wipe s a n).access = s.access := rfl
@[simp] theorem wipe_barX (s : State) (a n : Nat) : (wipe s a n).barX = s.barX := rfl
@[simp] theorem wipe_pfDown (s : State) (a n : Nat) : (wipe s a n).pfDown = s.pfDown := rfl
@[simp] theorem wipe_streams (s : State) (a n : Nat) : (wipe s a n).streams = s.streams := rfl
@[simp] theorem wipe_recq (s : State) (a n : Nat) : (wipe s a n).recq = s.recq := rfl
@[simp] theorem wipe_recAt (s : State) (a n : Nat) : (wipe s a n).recAt = s.recAt := rfl
@[simp] theorem wipe_recHeld (s : State) (a n : Nat) : (wipe s a n).recHeld = s.recHeld := rfl
@[simp] theorem wipe_recGone (s : State) (a n : Nat) : (wipe s a n).recGone = s.recGone := rfl
@[simp] theorem wipe_lost (s : State) (a n : Nat) : (wipe s a n).lost = s.lost := rfl
@[simp] theorem wipe_msix (s : State) (a n : Nat) : (wipe s a n).msix = s.msix := rfl
@[simp] theorem wipe_powerK (s : State) (a n : Nat) : (wipe s a n).powerK = s.powerK := rfl
@[simp] theorem wipe_alerts (s : State) (a n : Nat) : (wipe s a n).alerts = s.alerts := rfl
@[simp] theorem wipe_rowActs (s : State) (a n : Nat) : (wipe s a n).rowActs = s.rowActs := rfl
@[simp] theorem wipe_resp (s : State) (a n : Nat) : (wipe s a n).resp = s.resp := rfl
@[simp] theorem wipe_events (s : State) (a n : Nat) : (wipe s a n).events = s.events := rfl
@[simp] theorem wipe_nextRid (s : State) (a n : Nat) : (wipe s a n).nextRid = s.nextRid := rfl
@[simp] theorem wipe_wins (s : State) (a n : Nat) : (wipe s a n).wins = s.wins := rfl
@[simp] theorem wipe_nextCard (s : State) (a n : Nat) : (wipe s a n).nextCard = s.nextCard := rfl
@[simp] theorem wipe_stalled (s : State) (a n : Nat) : (wipe s a n).stalled = s.stalled := rfl
@[simp] theorem wipe_autoq (s : State) (a n : Nat) : (wipe s a n).autoq = s.autoq := rfl

@[simp] theorem setTag_ident (s : State) (a : Nat) (t : W32) : (setTag s a t).ident = s.ident := by unfold setTag; split <;> rfl
@[simp] theorem setTag_tick (s : State) (a : Nat) (t : W32) : (setTag s a t).tick = s.tick := by unfold setTag; split <;> rfl
@[simp] theorem setTag_turn (s : State) (a : Nat) (t : W32) : (setTag s a t).turn = s.turn := by unfold setTag; split <;> rfl
@[simp] theorem setTag_tsc (s : State) (a : Nat) (t : W32) : (setTag s a t).tsc = s.tsc := by unfold setTag; split <;> rfl
@[simp] theorem setTag_regs (s : State) (a : Nat) (t : W32) : (setTag s a t).regs = s.regs := by unfold setTag; split <;> rfl
@[simp] theorem setTag_mem (s : State) (a : Nat) (t : W32) : (setTag s a t).mem = s.mem := by unfold setTag; split <;> rfl
@[simp] theorem setTag_relVec (s : State) (a : Nat) (t : W32) : (setTag s a t).relVec = s.relVec := by unfold setTag; split <;> rfl
@[simp] theorem setTag_ctxs (s : State) (a : Nat) (t : W32) : (setTag s a t).ctxs = s.ctxs := by unfold setTag; split <;> rfl
@[simp] theorem setTag_iss (s : State) (a : Nat) (t : W32) : (setTag s a t).iss = s.iss := by unfold setTag; split <;> rfl
@[simp] theorem setTag_tiles (s : State) (a : Nat) (t : W32) : (setTag s a t).tiles = s.tiles := by unfold setTag; split <;> rfl
@[simp] theorem setTag_clusters (s : State) (a : Nat) (t : W32) : (setTag s a t).clusters = s.clusters := by unfold setTag; split <;> rfl
@[simp] theorem setTag_live (s : State) (a : Nat) (t : W32) : (setTag s a t).live = s.live := by unfold setTag; split <;> rfl
@[simp] theorem setTag_launches (s : State) (a : Nat) (t : W32) : (setTag s a t).launches = s.launches := by unfold setTag; split <;> rfl
@[simp] theorem setTag_images (s : State) (a : Nat) (t : W32) : (setTag s a t).images = s.images := by unfold setTag; split <;> rfl
@[simp] theorem setTag_serials (s : State) (a : Nat) (t : W32) : (setTag s a t).serials = s.serials := by unfold setTag; split <;> rfl
@[simp] theorem setTag_cps (s : State) (a : Nat) (t : W32) : (setTag s a t).cps = s.cps := by unfold setTag; split <;> rfl
@[simp] theorem setTag_links (s : State) (a : Nat) (t : W32) : (setTag s a t).links = s.links := by unfold setTag; split <;> rfl
@[simp] theorem setTag_net (s : State) (a : Nat) (t : W32) : (setTag s a t).net = s.net := by unfold setTag; split <;> rfl
@[simp] theorem setTag_efts (s : State) (a : Nat) (t : W32) : (setTag s a t).efts = s.efts := by unfold setTag; split <;> rfl
@[simp] theorem setTag_cur (s : State) (a : Nat) (t : W32) : (setTag s a t).cur = s.cur := by unfold setTag; split <;> rfl
@[simp] theorem setTag_seqrs (s : State) (a : Nat) (t : W32) : (setTag s a t).seqrs = s.seqrs := by unfold setTag; split <;> rfl
@[simp] theorem setTag_tlb (s : State) (a : Nat) (t : W32) : (setTag s a t).tlb = s.tlb := by unfold setTag; split <;> rfl
@[simp] theorem setTag_access (s : State) (a : Nat) (t : W32) : (setTag s a t).access = s.access := by unfold setTag; split <;> rfl
@[simp] theorem setTag_barX (s : State) (a : Nat) (t : W32) : (setTag s a t).barX = s.barX := by unfold setTag; split <;> rfl
@[simp] theorem setTag_pfDown (s : State) (a : Nat) (t : W32) : (setTag s a t).pfDown = s.pfDown := by unfold setTag; split <;> rfl
@[simp] theorem setTag_streams (s : State) (a : Nat) (t : W32) : (setTag s a t).streams = s.streams := by unfold setTag; split <;> rfl
@[simp] theorem setTag_recq (s : State) (a : Nat) (t : W32) : (setTag s a t).recq = s.recq := by unfold setTag; split <;> rfl
@[simp] theorem setTag_recAt (s : State) (a : Nat) (t : W32) : (setTag s a t).recAt = s.recAt := by unfold setTag; split <;> rfl
@[simp] theorem setTag_recHeld (s : State) (a : Nat) (t : W32) : (setTag s a t).recHeld = s.recHeld := by unfold setTag; split <;> rfl
@[simp] theorem setTag_recGone (s : State) (a : Nat) (t : W32) : (setTag s a t).recGone = s.recGone := by unfold setTag; split <;> rfl
@[simp] theorem setTag_lost (s : State) (a : Nat) (t : W32) : (setTag s a t).lost = s.lost := by unfold setTag; split <;> rfl
@[simp] theorem setTag_msix (s : State) (a : Nat) (t : W32) : (setTag s a t).msix = s.msix := by unfold setTag; split <;> rfl
@[simp] theorem setTag_powerK (s : State) (a : Nat) (t : W32) : (setTag s a t).powerK = s.powerK := by unfold setTag; split <;> rfl
@[simp] theorem setTag_alerts (s : State) (a : Nat) (t : W32) : (setTag s a t).alerts = s.alerts := by unfold setTag; split <;> rfl
@[simp] theorem setTag_rowActs (s : State) (a : Nat) (t : W32) : (setTag s a t).rowActs = s.rowActs := by unfold setTag; split <;> rfl
@[simp] theorem setTag_resp (s : State) (a : Nat) (t : W32) : (setTag s a t).resp = s.resp := by unfold setTag; split <;> rfl
@[simp] theorem setTag_events (s : State) (a : Nat) (t : W32) : (setTag s a t).events = s.events := by unfold setTag; split <;> rfl
@[simp] theorem setTag_nextRid (s : State) (a : Nat) (t : W32) : (setTag s a t).nextRid = s.nextRid := by unfold setTag; split <;> rfl
@[simp] theorem setTag_wins (s : State) (a : Nat) (t : W32) : (setTag s a t).wins = s.wins := by unfold setTag; split <;> rfl
@[simp] theorem setTag_nextCard (s : State) (a : Nat) (t : W32) : (setTag s a t).nextCard = s.nextCard := by unfold setTag; split <;> rfl
@[simp] theorem setTag_stalled (s : State) (a : Nat) (t : W32) : (setTag s a t).stalled = s.stalled := by unfold setTag; split <;> rfl
@[simp] theorem setTag_autoq (s : State) (a : Nat) (t : W32) : (setTag s a t).autoq = s.autoq := by unfold setTag; split <;> rfl

@[simp] theorem raiseMsix_ident (s : State) (f : Nat) : (raiseMsix s f).ident = s.ident := rfl
@[simp] theorem raiseMsix_tick (s : State) (f : Nat) : (raiseMsix s f).tick = s.tick := rfl
@[simp] theorem raiseMsix_turn (s : State) (f : Nat) : (raiseMsix s f).turn = s.turn := rfl
@[simp] theorem raiseMsix_tsc (s : State) (f : Nat) : (raiseMsix s f).tsc = s.tsc := rfl
@[simp] theorem raiseMsix_regs (s : State) (f : Nat) : (raiseMsix s f).regs = s.regs := rfl
@[simp] theorem raiseMsix_mem (s : State) (f : Nat) : (raiseMsix s f).mem = s.mem := rfl
@[simp] theorem raiseMsix_tags (s : State) (f : Nat) : (raiseMsix s f).tags = s.tags := rfl
@[simp] theorem raiseMsix_relVec (s : State) (f : Nat) : (raiseMsix s f).relVec = s.relVec := rfl
@[simp] theorem raiseMsix_ctxs (s : State) (f : Nat) : (raiseMsix s f).ctxs = s.ctxs := rfl
@[simp] theorem raiseMsix_iss (s : State) (f : Nat) : (raiseMsix s f).iss = s.iss := rfl
@[simp] theorem raiseMsix_tiles (s : State) (f : Nat) : (raiseMsix s f).tiles = s.tiles := rfl
@[simp] theorem raiseMsix_clusters (s : State) (f : Nat) : (raiseMsix s f).clusters = s.clusters := rfl
@[simp] theorem raiseMsix_live (s : State) (f : Nat) : (raiseMsix s f).live = s.live := rfl
@[simp] theorem raiseMsix_launches (s : State) (f : Nat) : (raiseMsix s f).launches = s.launches := rfl
@[simp] theorem raiseMsix_images (s : State) (f : Nat) : (raiseMsix s f).images = s.images := rfl
@[simp] theorem raiseMsix_serials (s : State) (f : Nat) : (raiseMsix s f).serials = s.serials := rfl
@[simp] theorem raiseMsix_cps (s : State) (f : Nat) : (raiseMsix s f).cps = s.cps := rfl
@[simp] theorem raiseMsix_links (s : State) (f : Nat) : (raiseMsix s f).links = s.links := rfl
@[simp] theorem raiseMsix_net (s : State) (f : Nat) : (raiseMsix s f).net = s.net := rfl
@[simp] theorem raiseMsix_efts (s : State) (f : Nat) : (raiseMsix s f).efts = s.efts := rfl
@[simp] theorem raiseMsix_cur (s : State) (f : Nat) : (raiseMsix s f).cur = s.cur := rfl
@[simp] theorem raiseMsix_seqrs (s : State) (f : Nat) : (raiseMsix s f).seqrs = s.seqrs := rfl
@[simp] theorem raiseMsix_tlb (s : State) (f : Nat) : (raiseMsix s f).tlb = s.tlb := rfl
@[simp] theorem raiseMsix_access (s : State) (f : Nat) : (raiseMsix s f).access = s.access := rfl
@[simp] theorem raiseMsix_barX (s : State) (f : Nat) : (raiseMsix s f).barX = s.barX := rfl
@[simp] theorem raiseMsix_pfDown (s : State) (f : Nat) : (raiseMsix s f).pfDown = s.pfDown := rfl
@[simp] theorem raiseMsix_streams (s : State) (f : Nat) : (raiseMsix s f).streams = s.streams := rfl
@[simp] theorem raiseMsix_recq (s : State) (f : Nat) : (raiseMsix s f).recq = s.recq := rfl
@[simp] theorem raiseMsix_recAt (s : State) (f : Nat) : (raiseMsix s f).recAt = s.recAt := rfl
@[simp] theorem raiseMsix_recHeld (s : State) (f : Nat) : (raiseMsix s f).recHeld = s.recHeld := rfl
@[simp] theorem raiseMsix_recGone (s : State) (f : Nat) : (raiseMsix s f).recGone = s.recGone := rfl
@[simp] theorem raiseMsix_lost (s : State) (f : Nat) : (raiseMsix s f).lost = s.lost := rfl
@[simp] theorem raiseMsix_powerK (s : State) (f : Nat) : (raiseMsix s f).powerK = s.powerK := rfl
@[simp] theorem raiseMsix_alerts (s : State) (f : Nat) : (raiseMsix s f).alerts = s.alerts := rfl
@[simp] theorem raiseMsix_rowActs (s : State) (f : Nat) : (raiseMsix s f).rowActs = s.rowActs := rfl
@[simp] theorem raiseMsix_resp (s : State) (f : Nat) : (raiseMsix s f).resp = s.resp := rfl
@[simp] theorem raiseMsix_events (s : State) (f : Nat) : (raiseMsix s f).events = s.events := rfl
@[simp] theorem raiseMsix_nextRid (s : State) (f : Nat) : (raiseMsix s f).nextRid = s.nextRid := rfl
@[simp] theorem raiseMsix_wins (s : State) (f : Nat) : (raiseMsix s f).wins = s.wins := rfl
@[simp] theorem raiseMsix_nextCard (s : State) (f : Nat) : (raiseMsix s f).nextCard = s.nextCard := rfl
@[simp] theorem raiseMsix_stalled (s : State) (f : Nat) : (raiseMsix s f).stalled = s.stalled := rfl
@[simp] theorem raiseMsix_autoq (s : State) (f : Nat) : (raiseMsix s f).autoq = s.autoq := rfl

@[simp] theorem State.setTile_tiles (s : State) (t : Nat) (v : Tile) : (s.setTile t v).tiles = s.tiles.put {} t v := rfl
@[simp] theorem State.setCl_clusters (s : State) (c : Nat) (v : Cluster) : (s.setCl c v).clusters = s.clusters.put {} c v := rfl
@[simp] theorem State.setLink_links (s : State) (e : Nat) (v : Link) : (s.setLink e v).links = s.links.put {} e v := rfl
@[simp] theorem State.setEft_efts (s : State) (e : Nat) (v : Eft) : (s.setEft e v).efts = s.efts.put {} e v := rfl
@[simp] theorem State.setSeqr_seqrs (s : State) (d : Nat) (v : Seqr) : (s.setSeqr d v).seqrs = s.seqrs.put {} d v := rfl
@[simp] theorem State.setCp_cps (s : State) (c : Nat) (v : Cp) : (s.setCp c v).cps = s.cps.put {} c v := rfl
@[simp] theorem State.setCtx_ctxs (s : State) (ck : Nat) (c : Ctx) : (s.setCtx ck c).ctxs = SMap.ins s.ctxs ck c := rfl
@[simp] theorem State.delCtx_ctxs (s : State) (ck : Nat) : (s.delCtx ck).ctxs = SMap.del s.ctxs ck := rfl
@[simp] theorem State.post_events (s : State) (i : Instr) : (s.post i).events = s.events ++ [i] := rfl
@[simp] theorem State.setIss_iss (s : State) (i : Issue) : (s.setIss i).iss = some i := rfl
@[simp] theorem wrByte_mem (s : State) (a : Nat) (v : Byte) : (wrByte s a v).mem = SMap.put unwritten s.mem a v := rfl

@[simp] theorem wrNat_ident (s : State) (a n v : Nat) : (wrNat s a n v).ident = s.ident := by
  induction n generalizing s a v with
  | zero => rfl
  | succ n ih => rw [wrNat, ih, wrByte_ident]
@[simp] theorem wrNat_tick (s : State) (a n v : Nat) : (wrNat s a n v).tick = s.tick := by
  induction n generalizing s a v with
  | zero => rfl
  | succ n ih => rw [wrNat, ih, wrByte_tick]
@[simp] theorem wrNat_turn (s : State) (a n v : Nat) : (wrNat s a n v).turn = s.turn := by
  induction n generalizing s a v with
  | zero => rfl
  | succ n ih => rw [wrNat, ih, wrByte_turn]
@[simp] theorem wrNat_tsc (s : State) (a n v : Nat) : (wrNat s a n v).tsc = s.tsc := by
  induction n generalizing s a v with
  | zero => rfl
  | succ n ih => rw [wrNat, ih, wrByte_tsc]
@[simp] theorem wrNat_regs (s : State) (a n v : Nat) : (wrNat s a n v).regs = s.regs := by
  induction n generalizing s a v with
  | zero => rfl
  | succ n ih => rw [wrNat, ih, wrByte_regs]
@[simp] theorem wrNat_tags (s : State) (a n v : Nat) : (wrNat s a n v).tags = s.tags := by
  induction n generalizing s a v with
  | zero => rfl
  | succ n ih => rw [wrNat, ih, wrByte_tags]
@[simp] theorem wrNat_relVec (s : State) (a n v : Nat) : (wrNat s a n v).relVec = s.relVec := by
  induction n generalizing s a v with
  | zero => rfl
  | succ n ih => rw [wrNat, ih, wrByte_relVec]
@[simp] theorem wrNat_ctxs (s : State) (a n v : Nat) : (wrNat s a n v).ctxs = s.ctxs := by
  induction n generalizing s a v with
  | zero => rfl
  | succ n ih => rw [wrNat, ih, wrByte_ctxs]
@[simp] theorem wrNat_iss (s : State) (a n v : Nat) : (wrNat s a n v).iss = s.iss := by
  induction n generalizing s a v with
  | zero => rfl
  | succ n ih => rw [wrNat, ih, wrByte_iss]
@[simp] theorem wrNat_tiles (s : State) (a n v : Nat) : (wrNat s a n v).tiles = s.tiles := by
  induction n generalizing s a v with
  | zero => rfl
  | succ n ih => rw [wrNat, ih, wrByte_tiles]
@[simp] theorem wrNat_clusters (s : State) (a n v : Nat) : (wrNat s a n v).clusters = s.clusters := by
  induction n generalizing s a v with
  | zero => rfl
  | succ n ih => rw [wrNat, ih, wrByte_clusters]
@[simp] theorem wrNat_live (s : State) (a n v : Nat) : (wrNat s a n v).live = s.live := by
  induction n generalizing s a v with
  | zero => rfl
  | succ n ih => rw [wrNat, ih, wrByte_live]
@[simp] theorem wrNat_launches (s : State) (a n v : Nat) : (wrNat s a n v).launches = s.launches := by
  induction n generalizing s a v with
  | zero => rfl
  | succ n ih => rw [wrNat, ih, wrByte_launches]
@[simp] theorem wrNat_images (s : State) (a n v : Nat) : (wrNat s a n v).images = s.images := by
  induction n generalizing s a v with
  | zero => rfl
  | succ n ih => rw [wrNat, ih, wrByte_images]
@[simp] theorem wrNat_serials (s : State) (a n v : Nat) : (wrNat s a n v).serials = s.serials := by
  induction n generalizing s a v with
  | zero => rfl
  | succ n ih => rw [wrNat, ih, wrByte_serials]
@[simp] theorem wrNat_cps (s : State) (a n v : Nat) : (wrNat s a n v).cps = s.cps := by
  induction n generalizing s a v with
  | zero => rfl
  | succ n ih => rw [wrNat, ih, wrByte_cps]
@[simp] theorem wrNat_links (s : State) (a n v : Nat) : (wrNat s a n v).links = s.links := by
  induction n generalizing s a v with
  | zero => rfl
  | succ n ih => rw [wrNat, ih, wrByte_links]
@[simp] theorem wrNat_net (s : State) (a n v : Nat) : (wrNat s a n v).net = s.net := by
  induction n generalizing s a v with
  | zero => rfl
  | succ n ih => rw [wrNat, ih, wrByte_net]
@[simp] theorem wrNat_efts (s : State) (a n v : Nat) : (wrNat s a n v).efts = s.efts := by
  induction n generalizing s a v with
  | zero => rfl
  | succ n ih => rw [wrNat, ih, wrByte_efts]
@[simp] theorem wrNat_cur (s : State) (a n v : Nat) : (wrNat s a n v).cur = s.cur := by
  induction n generalizing s a v with
  | zero => rfl
  | succ n ih => rw [wrNat, ih, wrByte_cur]
@[simp] theorem wrNat_seqrs (s : State) (a n v : Nat) : (wrNat s a n v).seqrs = s.seqrs := by
  induction n generalizing s a v with
  | zero => rfl
  | succ n ih => rw [wrNat, ih, wrByte_seqrs]
@[simp] theorem wrNat_tlb (s : State) (a n v : Nat) : (wrNat s a n v).tlb = s.tlb := by
  induction n generalizing s a v with
  | zero => rfl
  | succ n ih => rw [wrNat, ih, wrByte_tlb]
@[simp] theorem wrNat_access (s : State) (a n v : Nat) : (wrNat s a n v).access = s.access := by
  induction n generalizing s a v with
  | zero => rfl
  | succ n ih => rw [wrNat, ih, wrByte_access]
@[simp] theorem wrNat_barX (s : State) (a n v : Nat) : (wrNat s a n v).barX = s.barX := by
  induction n generalizing s a v with
  | zero => rfl
  | succ n ih => rw [wrNat, ih, wrByte_barX]
@[simp] theorem wrNat_pfDown (s : State) (a n v : Nat) : (wrNat s a n v).pfDown = s.pfDown := by
  induction n generalizing s a v with
  | zero => rfl
  | succ n ih => rw [wrNat, ih, wrByte_pfDown]
@[simp] theorem wrNat_streams (s : State) (a n v : Nat) : (wrNat s a n v).streams = s.streams := by
  induction n generalizing s a v with
  | zero => rfl
  | succ n ih => rw [wrNat, ih, wrByte_streams]
@[simp] theorem wrNat_recq (s : State) (a n v : Nat) : (wrNat s a n v).recq = s.recq := by
  induction n generalizing s a v with
  | zero => rfl
  | succ n ih => rw [wrNat, ih, wrByte_recq]
@[simp] theorem wrNat_recAt (s : State) (a n v : Nat) : (wrNat s a n v).recAt = s.recAt := by
  induction n generalizing s a v with
  | zero => rfl
  | succ n ih => rw [wrNat, ih, wrByte_recAt]
@[simp] theorem wrNat_recHeld (s : State) (a n v : Nat) : (wrNat s a n v).recHeld = s.recHeld := by
  induction n generalizing s a v with
  | zero => rfl
  | succ n ih => rw [wrNat, ih, wrByte_recHeld]
@[simp] theorem wrNat_recGone (s : State) (a n v : Nat) : (wrNat s a n v).recGone = s.recGone := by
  induction n generalizing s a v with
  | zero => rfl
  | succ n ih => rw [wrNat, ih, wrByte_recGone]
@[simp] theorem wrNat_lost (s : State) (a n v : Nat) : (wrNat s a n v).lost = s.lost := by
  induction n generalizing s a v with
  | zero => rfl
  | succ n ih => rw [wrNat, ih, wrByte_lost]
@[simp] theorem wrNat_msix (s : State) (a n v : Nat) : (wrNat s a n v).msix = s.msix := by
  induction n generalizing s a v with
  | zero => rfl
  | succ n ih => rw [wrNat, ih, wrByte_msix]
@[simp] theorem wrNat_powerK (s : State) (a n v : Nat) : (wrNat s a n v).powerK = s.powerK := by
  induction n generalizing s a v with
  | zero => rfl
  | succ n ih => rw [wrNat, ih, wrByte_powerK]
@[simp] theorem wrNat_alerts (s : State) (a n v : Nat) : (wrNat s a n v).alerts = s.alerts := by
  induction n generalizing s a v with
  | zero => rfl
  | succ n ih => rw [wrNat, ih, wrByte_alerts]
@[simp] theorem wrNat_rowActs (s : State) (a n v : Nat) : (wrNat s a n v).rowActs = s.rowActs := by
  induction n generalizing s a v with
  | zero => rfl
  | succ n ih => rw [wrNat, ih, wrByte_rowActs]
@[simp] theorem wrNat_resp (s : State) (a n v : Nat) : (wrNat s a n v).resp = s.resp := by
  induction n generalizing s a v with
  | zero => rfl
  | succ n ih => rw [wrNat, ih, wrByte_resp]
@[simp] theorem wrNat_events (s : State) (a n v : Nat) : (wrNat s a n v).events = s.events := by
  induction n generalizing s a v with
  | zero => rfl
  | succ n ih => rw [wrNat, ih, wrByte_events]
@[simp] theorem wrNat_nextRid (s : State) (a n v : Nat) : (wrNat s a n v).nextRid = s.nextRid := by
  induction n generalizing s a v with
  | zero => rfl
  | succ n ih => rw [wrNat, ih, wrByte_nextRid]
@[simp] theorem wrNat_wins (s : State) (a n v : Nat) : (wrNat s a n v).wins = s.wins := by
  induction n generalizing s a v with
  | zero => rfl
  | succ n ih => rw [wrNat, ih, wrByte_wins]
@[simp] theorem wrNat_nextCard (s : State) (a n v : Nat) : (wrNat s a n v).nextCard = s.nextCard := by
  induction n generalizing s a v with
  | zero => rfl
  | succ n ih => rw [wrNat, ih, wrByte_nextCard]
@[simp] theorem wrNat_stalled (s : State) (a n v : Nat) : (wrNat s a n v).stalled = s.stalled := by
  induction n generalizing s a v with
  | zero => rfl
  | succ n ih => rw [wrNat, ih, wrByte_stalled]
@[simp] theorem wrNat_autoq (s : State) (a n v : Nat) : (wrNat s a n v).autoq = s.autoq := by
  induction n generalizing s a v with
  | zero => rfl
  | succ n ih => rw [wrNat, ih, wrByte_autoq]

end Sys2Proof.Machine
end

