-- ==== Sys2Proof/Laws/Memory.lean ====
section
/-! SUPPORT. Laws of memory and of the numbered registers: a read after a write, what a write leaves alone, and that every
memory operation keeps the canonical form. -/

namespace Sys2Proof.Machine

/-- One byte written keeps memory canonical. -/
theorem wrByte_wf {s : State} (h : Memory.wf s.mem) (a : Nat) (v : Byte) : Memory.wf (wrByte s a v).mem := SMap.Wf.put h a v

/-- A number written keeps memory canonical. -/
theorem wrNat_wf {s : State} (h : Memory.wf s.mem) (a n v : Nat) : Memory.wf (wrNat s a n v).mem := by
  induction n generalizing s a v with
  | zero => exact h
  | succ n ih => exact ih (wrByte_wf h _ _) _ _

/-- A range wiped keeps memory canonical. -/
theorem wipe_wf {s : State} (h : Memory.wf s.mem) (a n : Nat) : Memory.wf (wipe s a n).mem := SMap.Wf.filter h _

theorem rdByte_wrByte_same {s : State} (h : Memory.wf s.mem) (a : Nat) (v : Byte) : rdByte (wrByte s a v) a = v :=
  SMap.get_put_same _ h.1 a v

theorem rdByte_wrByte_other {s : State} (h : Memory.wf s.mem) {a b : Nat} (v : Byte) (hab : b ≠ a) :
    rdByte (wrByte s a v) b = rdByte s b := SMap.get_put_other _ h.1 v hab

/-- A number written leaves every byte outside it. -/
theorem rdByte_wrNat_other {s : State} (h : Memory.wf s.mem) {a n v b : Nat} (hb : b < a ∨ a + n ≤ b) :
    rdByte (wrNat s a n v) b = rdByte s b := by
  induction n generalizing s a v with
  | zero => rfl
  | succ n ih =>
    rw [wrNat, ih (wrByte_wf h _ _) (by omega), rdByte_wrByte_other h _ (by omega)]

/-- A number written reads back, byte by byte. -/
theorem rdByte_wrNat {s : State} (h : Memory.wf s.mem) {a n v k : Nat} (hk : k < n) :
    rdByte (wrNat s a n v) (a + k) = BitVec.ofNat 8 (v / 256 ^ k) := by
  induction n generalizing s a v k with
  | zero => omega
  | succ n ih =>
    rw [wrNat]
    cases k with
    | zero =>
      rw [rdByte_wrNat_other (wrByte_wf h _ _) (by omega)]
      simpa using rdByte_wrByte_same h a (BitVec.ofNat 8 v)
    | succ k =>
      have := ih (s := wrByte s a (BitVec.ofNat 8 v)) (a := a + 1) (v := v / 256) (k := k) (wrByte_wf h _ _) (by omega)
      rw [show a + (k + 1) = a + 1 + k by omega, this, Nat.div_div_eq_div_mul, pow_succ, mul_comm]

/-- What a number reads as depends on its bytes alone. -/
theorem rdNat_congr {s t : State} {a b n : Nat} (h : ∀ k < n, rdByte s (a + k) = rdByte t (b + k)) : rdNat s a n = rdNat t b n := by
  induction n generalizing a b with
  | zero => rfl
  | succ n ih =>
    have h0 := h 0 (by omega)
    simp only [Nat.add_zero] at h0
    rw [rdNat, rdNat, h0, ih (a := a + 1) (b := b + 1) fun k hk => by
      have := h (k + 1) (by omega)
      simpa [Nat.add_assoc, Nat.add_comm 1 k] using this]

/-- A number written reads back modulo its width. -/
theorem rdNat_wrNat {s : State} (h : Memory.wf s.mem) (a n v : Nat) : rdNat (wrNat s a n v) a n = v % 256 ^ n := by
  induction n generalizing s a v with
  | zero => simp [rdNat, Nat.mod_one]
  | succ n ih =>
    rw [rdNat, wrNat, ih (wrByte_wf h _ _), rdByte_wrNat_other (wrByte_wf h _ _) (by omega), rdByte_wrByte_same h,
      BitVec.toNat_ofNat, show 256 ^ (n + 1) = 256 * 256 ^ n by rw [Nat.pow_succ, Nat.mul_comm], Nat.mod_mul]

theorem rdByte_wipe {s : State} (h : Memory.wf s.mem) (a n b : Nat) :
    rdByte (wipe s a n) b = if a ≤ b ∧ b < a + n then 0 else rdByte s b := by
  have := SMap.get_filter unwritten h.1 (fun k => decide (k < a) || decide (a + n ≤ k)) b
  unfold rdByte wipe
  rw [this]
  by_cases h1 : a ≤ b <;> by_cases h2 : b < a + n <;> simp [h1, h2, Nat.not_lt.2, Nat.not_le.2, unwritten]

/-! Numbered registers -/

theorem State.setReg_regs (s : State) (c n u : Nat) (v : W64) :
    (s.setReg c n u v).regs = if v = resetOf (rkey c n u) then s.regs.del (rkey c n u) else s.regs.ins (rkey c n u) v :=
  Eq.refl _

theorem State.setReg_rises {s : State} (h : s.regs.Rises) (c n u : Nat) (v : W64) : (s.setReg c n u v).regs.Rises := by
  rw [State.setReg_regs]; split
  · exact h.del _
  · exact h.ins _ _

theorem State.reg_setReg_same {s : State} (h : s.regs.Rises) (c n u : Nat) (v : W64) : (s.setReg c n u v).reg c n u = v := by
  rw [State.reg, State.setReg_regs]; split
  · rename_i e; rw [SMap.get_del_same _ h, e]
  · exact SMap.get_ins_same _ _ _ _

theorem State.reg_setReg_other {s : State} (h : s.regs.Rises) {c n u c' n' u' : Nat} (v : W64)
    (hk : rkey c' n' u' ≠ rkey c n u) : (s.setReg c n u v).reg c' n' u' = s.reg c' n' u' := by
  rw [State.reg, State.setReg_regs]; split
  · exact SMap.get_del_other _ h hk
  · exact SMap.get_ins_other _ _ _ hk

theorem State.rn_setN_same {s : State} (h : s.regs.Rises) (c n u v : Nat) : (s.setN c n u v).rn c n u = v % 2 ^ 64 := by
  rw [State.rn, State.setN, State.reg_setReg_same h, BitVec.toNat_ofNat]

theorem State.rn_setN_other {s : State} (h : s.regs.Rises) {c n u c' n' u' : Nat} (v : Nat)
    (hk : rkey c' n' u' ≠ rkey c n u) : (s.setN c n u v).rn c' n' u' = s.rn c' n' u' := by
  rw [State.rn, State.setN, State.reg_setReg_other h _ hk, State.rn]

/-- Numbers and units below 65,536 give distinct keys. -/
theorem rkey_inj {c n u c' n' u' : Nat} (h : rkey c n u = rkey c' n' u') (hn : n < 65536) (hu : u < 65536) (hn' : n' < 65536)
    (hu' : u' < 65536) : c = c' ∧ n = n' ∧ u = u' := by
  unfold rkey at h; omega

/-! Contexts -/

theorem SMap.find_ins {β : Type} (m : SMap β) (i : Nat) (v : β) : (m.ins i v).find? (·.1 == i) = some (i, v) := by
  induction m with
  | nil => simp [SMap.ins]
  | cons p t ih =>
    obtain ⟨k, w⟩ := p
    simp only [SMap.ins]
    split
    · simp
    · split
      · simp
      · rename_i h1 h2
        have : (k == i) = false := by simpa using fun h => h1 h.symm
        simp [this, ih]

theorem SMap.find_ins_other {β : Type} (m : SMap β) {i j : Nat} (v : β) (h : j ≠ i) :
    (m.ins i v).find? (·.1 == j) = m.find? (·.1 == j) := by
  have hij : (i == j) = false := by simpa using fun e => h e.symm
  induction m with
  | nil => simp [SMap.ins, hij]
  | cons p t ih =>
    obtain ⟨k, w⟩ := p
    simp only [SMap.ins]
    split
    · rename_i e; subst e; simp [hij]
    · split
      · simp [List.find?_cons, hij]
      · simp [List.find?_cons, ih]

@[simp] theorem State.ctx?_setCtx_same (s : State) (ck : Nat) (c : Ctx) : (s.setCtx ck c).ctx? ck = some c := by
  simp [State.ctx?, SMap.find_ins]

@[simp] theorem State.ctx_setCtx_same (s : State) (ck : Nat) (c : Ctx) : (s.setCtx ck c).ctx ck = c := by
  simp [State.ctx]

theorem State.ctx?_setCtx_other (s : State) {ck k : Nat} (c : Ctx) (h : k ≠ ck) : (s.setCtx ck c).ctx? k = s.ctx? k := by
  simp [State.ctx?, SMap.find_ins_other _ _ h]

theorem State.ctx_of_ctx? {s : State} {ck : Nat} {c : Ctx} (h : s.ctx? ck = some c) : s.ctx ck = c := by
  simp [State.ctx, h]

end Sys2Proof.Machine
end

