-- ==== Sys2Proof/Laws/Slots.lean ====
section
/-! SUPPORT. What the shared slot operations do: each lemma says once everything that one of them answers. -/

namespace Sys2Proof.Machine

/-- Several results staged are one extension of the pending list. -/
theorem Ctx.stages_eq (c : Ctx) (slot lat : Nat) (ws : List Wr) :
    c.stages slot lat ws = { c with pend := c.pend ++ ws.map fun w => ⟨c.ic + lat, slot, w⟩ } := by
  unfold Ctx.stages
  induction ws generalizing c with
  | nil => simp
  | cons w t ih => rw [List.foldl_cons, ih]; simp [Ctx.stage]

theorem Ctx.stage_eq (c : Ctx) (slot lat : Nat) (w : Wr) :
    c.stage slot lat w = { c with pend := c.pend ++ [⟨c.ic + lat, slot, w⟩] } := rfl

/-- A form that issues runs. -/
theorem slotOp_issues {s : State} {is : Issue} {c : Ctx} {i : Instr} (h : Issues s is c i) (f : Issue → Ctx → State) :
    slotOp i s f = .next (f is c) := by
  unfold slotOp
  rw [h.iss]
  simp [State.ctx_of_ctx? h.ctx, h.pred, h.foot]

/-- A form whose predicate is false leaves only its lineage. -/
theorem slotOp_predFalse {s : State} {is : Issue} {c : Ctx} {i : Instr} (h1 : s.iss = some is) (h2 : s.ctx? is.ck = some c)
    (h3 : predTrue c (predField i) = false) (f : Issue → Ctx → State) :
    slotOp i s f = .next (s.setCtx is.ck (lineageOnly c is.slot i)) := by
  unfold slotOp
  rw [h1]
  simp [State.ctx_of_ctx? h2, h3]

/-- A form that names a tile register outside the footprint raises footprint. -/
theorem slotOp_footprint {s : State} {is : Issue} {c : Ctx} {i : Instr} (h1 : s.iss = some is) (h2 : s.ctx? is.ck = some c)
    (h3 : predTrue c (predField i) = true) (h4 : inFoot c i = false) (f : Issue → Ctx → State) :
    slotOp i s f = .next (slotFault s 0x10 is.va) := by
  unfold slotOp
  rw [h1]
  simp [State.ctx_of_ctx? h2, h3, h4]

/-- Outside a bundle a form faults. -/
theorem slotOp_noBundle {s : State} (h : s.iss = none) (i : Instr) (f : Issue → Ctx → State) :
    slotOp i s f = .fault .noBundle := by unfold slotOp; rw [h]

theorem slotFault_eq {s : State} {is : Issue} (h : s.iss = some is) (cause eva : Nat) :
    slotFault s cause eva = faulted s is cause eva := by unfold slotFault faulted; rw [h]; rfl

theorem xOp_issues {s : State} {is : Issue} {c : Ctx} {i : Instr} (h : Issues s is c i) (d : Nat) (v : Ctx → W64) :
    xOp i d s v = .next (staged s is c (latOf c i) [.x d (v c), .lin (xKey d) (linOf c 0 i)]) := by
  unfold xOp; rw [slotOp_issues h, Ctx.stages_eq]; rfl

theorem condOp_issues {s : State} {is : Issue} {c : Ctx} {i : Instr} (h : Issues s is c i) (n : Nat) (v : Ctx → Bool) :
    condOp i n s v = .next (staged s is c 1 [.cond n (v c)]) := by
  unfold condOp; rw [slotOp_issues h, Ctx.stage_eq]; rfl

end Sys2Proof.Machine
end

