-- ==== Sys2Proof/Laws/Mem.lean ====
section
/-! SUPPORT. What the operations of the MEM forms and of the kernel instructions do: held accesses, post-increments, and a
run's next state. -/

namespace Sys2Proof.Machine

/-- The later of two insertions at a key stands. -/
theorem SMap.ins_ins {β : Type} (m : SMap β) (k : Nat) (v w : β) : (m.ins k v).ins k w = m.ins k w := by
  induction m with
  | nil => simp [SMap.ins]
  | cons p t ih =>
    simp only [SMap.ins]
    split
    · simp [SMap.ins]
    · split
      · simp [SMap.ins]
      · rename_i h1 h2
        simp [SMap.ins, h1, h2, ih]

/-- The later of two settings of a context stands. -/
theorem State.setCtx_setCtx (s : State) (k : Nat) (c d : Ctx) : (s.setCtx k c).setCtx k d = s.setCtx k d := by
  simp [State.setCtx, SMap.ins_ins]

/-- Accesses that fit the hold buffer are held, and nothing else changes. -/
theorem hold_eq {s : State} {is : Issue} {c : Ctx} {l : List Held} (h1 : s.iss = some is) (h2 : s.ctx? is.ck = some c)
    (h : holdRoom c l) : hold s l = s.setCtx is.ck { c with held := c.held ++ l } := by
  have hr : ¬ (((c.held ++ l).map heldSize).foldl (· + ·) 0 > 64) := by
    unfold holdRoom at h; rw [List.sum_eq_foldl] at h; omega
  unfold hold
  rw [h1]
  simp only [State.ctx_of_ctx? h2]
  rw [if_neg hr]

/-- An access too many raises illegal-bundle. -/
theorem hold_full {s : State} {is : Issue} {c : Ctx} {l : List Held} (h1 : s.iss = some is) (h2 : s.ctx? is.ck = some c)
    (h : ¬ holdRoom c l) : hold s l = faulted s is 0x13 is.va := by
  have hr : ((c.held ++ l).map heldSize).foldl (· + ·) 0 > 64 := by
    unfold holdRoom at h; rw [List.sum_eq_foldl] at h; omega
  unfold hold
  rw [h1]
  simp only [State.ctx_of_ctx? h2]
  rw [if_pos hr, slotFault_eq h1]

/-- A post-increment only lands a result and its lineage at latency 1. -/
theorem withPost_eq {s : State} {is : Issue} {c : Ctx} (h1 : s.iss = some is) (h2 : s.ctx? is.ck = some c) (i : Instr) (f : MemF) :
    withPost s i f = s.setCtx is.ck { c with pend := c.pend ++ dueIn c is 1 (postInc c i f) } := by
  unfold withPost
  rw [h1]
  simp only [State.ctx_of_ctx? h2, Ctx.stages_eq]
  rfl

/-- A store form none of whose accesses is refused, and whose accesses fit the hold buffer. -/
theorem storeOp_eq {s : State} {is : Issue} {c : Ctx} {i : Instr} {f : MemF} {k : MKind} {vas : List Nat} {l : List Held}
    (h : Issues s is c i) (hm : ∀ a ∈ vas, memCheck s c (is.ck / 2) a k = none)
    (hl : k = .row → ∀ a ∈ vas, ∀ x ∈ rowLines s a, vaClass s.capSpad (x % 2 ^ 64) ≠ .none) (hr : holdRoom c l) :
    storeOp i f k vas s is c l =
      let c' := { c with held := c.held ++ l }
      s.setCtx is.ck { c' with pend := c'.pend ++ dueIn c' is 1 (postInc c' i f) } := by
  have hn : memChecks s c (is.ck / 2) k vas = none := by
    unfold memChecks
    rw [List.findSome?_eq_none_iff]
    intro a ha
    rw [hm a ha]
    simp only [ite_eq_right_iff, List.findSome?_eq_none_iff]
    intro hk x hx
    exact fun e => absurd e (hl hk a ha x hx)
  unfold storeOp
  rw [hn]
  simp only
  rw [hold_eq h.iss h.ctx hr,
    withPost_eq (s := s.setCtx is.ck { c with held := c.held ++ l }) (c := { c with held := c.held ++ l })
      (by rw [State.setCtx_iss]; exact h.iss) (State.ctx?_setCtx_same _ _ _),
    State.setCtx_setCtx]

/-- A kernel instruction of a core whose run moves answers what its effect gives. -/
theorem onRun_runs {s : State} {d core u : Nat} {r : Run} (h : EftRuns s d core u r) (f : Nat → Run → State) :
    onRun s f = .next (f u r) := by
  unfold onRun
  rw [h.cur]
  simp only [← h.unit, h.run]

/-- Without a run a kernel instruction does not run. -/
theorem onRun_none {s : State} (h : s.cur = .none) (f : Nat → Run → State) : onRun s f = .fault .noRun := by
  unfold onRun; rw [h]

/-- A scalar kernel instruction changes its run only. -/
theorem eftAlu_runs {s : State} {d core u : Nat} {r : Run} (h : EftRuns s d core u r) (n : Nat) (v : Run → Nat) :
    eftAlu n v s = .next (eftNext s u (r.put n (v r)).step) := by
  unfold eftAlu
  rw [onRun_runs h]
  rfl

end Sys2Proof.Machine
end

