-- ==== Sys2Proof/Laws/Canon.lean ====
section
/-! SUPPORT. The canonical form of memory and of the register file is kept by the operations that write them, and by every
change of another field. -/

namespace Sys2Proof.Machine

theorem State.Canon.of_eq {s t : State} (h : s.Canon) (hm : t.mem = s.mem) (hr : t.regs = s.regs) : t.Canon :=
  ⟨by rw [hm]; exact h.mem, by rw [hr]; exact h.regs⟩

theorem State.Canon.setReg {s : State} (h : s.Canon) (c n u : Nat) (v : W64) : (s.setReg c n u v).Canon :=
  ⟨h.mem, State.setReg_rises h.regs c n u v⟩

theorem State.Canon.setN {s : State} (h : s.Canon) (c n u v : Nat) : (s.setN c n u v).Canon := h.setReg c n u _

theorem State.Canon.bump {s : State} (h : s.Canon) (c n u : Nat) : (s.bump c n u).Canon := h.setReg c n u _

theorem State.Canon.wrByte {s : State} (h : s.Canon) (a : Nat) (v : Byte) : (wrByte s a v).Canon := ⟨wrByte_wf h.mem a v, h.regs⟩

theorem State.Canon.wrNat {s : State} (h : s.Canon) (a n v : Nat) : (Machine.wrNat s a n v).Canon :=
  ⟨wrNat_wf h.mem a n v, by rw [wrNat_regs]; exact h.regs⟩

theorem State.Canon.wipe {s : State} (h : s.Canon) (a n : Nat) : (Machine.wipe s a n).Canon := ⟨wipe_wf h.mem a n, h.regs⟩

theorem State.Canon.setCtx {s : State} (h : s.Canon) (ck : Nat) (c : Ctx) : (s.setCtx ck c).Canon := ⟨h.mem, h.regs⟩

theorem State.Canon.setIss {s : State} (h : s.Canon) (is : Issue) : (s.setIss is).Canon := ⟨h.mem, h.regs⟩

theorem State.Canon.post {s : State} (h : s.Canon) (i : Instr) : (s.post i).Canon := ⟨h.mem, h.regs⟩

/-- A fold keeps the form where each of its steps does. -/
theorem State.Canon.foldl {α : Type} (f : State → α → State) (hf : ∀ s x, s.Canon → (f s x).Canon) (l : List α) {s : State}
    (h : s.Canon) : (l.foldl f s).Canon := by
  induction l generalizing s with
  | nil => exact h
  | cons x l ih => exact ih (hf s x h)

end Sys2Proof.Machine
end

