-- ==== Sys2Proof/Laws/Exec.lean ====
section
/-! SUPPORT. The arms of the dispatch as equations, one for each constructor. -/

namespace Sys2Proof.Machine

theorem exec_nop (bk : Nat) (dp : Nat) (lv : Nat) (s : State) : exec (.nop bk dp lv) s = execNop bk dp lv s := rfl
theorem exec_prep (p : Pred) (n : Nat) (o : Imm) (s : State) : exec (.prep p n o) s = execPrep p n o s := rfl
theorem exec_prepi (p : Pred) (n : Nat) (m : Nat) (s : State) : exec (.prepi p n m) s = execPrepi p n m s := rfl
theorem exec_jmp (p : Pred) (n : Nat) (s : State) : exec (.jmp p n) s = execJmp p n s := rfl
theorem exec_br (p : Pred) (n : Nat) (s : State) : exec (.br p n) s = execBr p n s := rfl
theorem exec_brn (p : Pred) (n : Nat) (s : State) : exec (.brn p n) s = execBrn p n s := rfl
theorem exec_call (p : Pred) (n : Nat) (s : State) : exec (.call p n) s = execCall p n s := rfl
theorem exec_ret (p : Pred) (s : State) : exec (.ret p) s = execRet p s := rfl
theorem exec_loop (p : Pred) (l : Nat) (c : Nat) (o : Imm) (s : State) : exec (.loop p l c o) s = execLoop p l c o s := rfl
theorem exec_lstep (p : Pred) (l : Nat) (b : Nat) (r : Nat) (st : Imm) (s : State) : exec (.lstep p l b r st) s = execLstep p l b r st s := rfl
theorem exec_lbrk (p : Pred) (l : Nat) (s : State) : exec (.lbrk p l) s = execLbrk p l s := rfl
theorem exec_rot (p : Pred) (n : Nat) (s : State) : exec (.rot p n) s = execRot p n s := rfl
theorem exec_ldep (p : Pred) (n : Nat) (s : State) : exec (.ldep p n) s = execLdep p n s := rfl
theorem exec_syncN (p : Pred) (g : Nat) (s : State) : exec (.syncN p g) s = execSyncN p g s := rfl
theorem exec_syncX (p : Pred) (g : Nat) (s : State) : exec (.syncX p g) s = execSyncX p g s := rfl
theorem exec_waitfeRow (p : Pred) (r : Nat) (s : State) : exec (.waitfeRow p r) s = execWaitfeRow p r s := rfl
theorem exec_waitfeFlag (p : Pred) (r : Nat) (s : State) : exec (.waitfeFlag p r) s = execWaitfeFlag p r s := rfl
theorem exec_susp (p : Pred) (s : State) : exec (.susp p) s = execSusp p s := rfl
theorem exec_yield (p : Pred) (s : State) : exec (.yield p) s = execYield p s := rfl
theorem exec_exit (p : Pred) (s : State) : exec (.exit p) s = execExit p s := rfl
theorem exec_trap (p : Pred) (c : Nat) (s : State) : exec (.trap p c) s = execTrap p c s := rfl
theorem exec_ifence (p : Pred) (s : State) : exec (.ifence p) s = execIfence p s := rfl
theorem exec_eret (p : Pred) (s : State) : exec (.eret p) s = execEret p s := rfl
theorem exec_halt (p : Pred) (s : State) : exec (.halt p) s = execHalt p s := rfl
theorem exec_add (p : Pred) (d : Nat) (a : Nat) (b : Nat) (s : State) : exec (.add p d a b) s = execAdd p d a b s := rfl
theorem exec_sub (p : Pred) (d : Nat) (a : Nat) (b : Nat) (s : State) : exec (.sub p d a b) s = execSub p d a b s := rfl
theorem exec_and (p : Pred) (d : Nat) (a : Nat) (b : Nat) (s : State) : exec (.and p d a b) s = execAnd p d a b s := rfl
theorem exec_or (p : Pred) (d : Nat) (a : Nat) (b : Nat) (s : State) : exec (.or p d a b) s = execOr p d a b s := rfl
theorem exec_xor (p : Pred) (d : Nat) (a : Nat) (b : Nat) (s : State) : exec (.xor p d a b) s = execXor p d a b s := rfl
theorem exec_andn (p : Pred) (d : Nat) (a : Nat) (b : Nat) (s : State) : exec (.andn p d a b) s = execAndn p d a b s := rfl
theorem exec_shl (p : Pred) (d : Nat) (a : Nat) (b : Nat) (s : State) : exec (.shl p d a b) s = execShl p d a b s := rfl
theorem exec_shr (p : Pred) (d : Nat) (a : Nat) (b : Nat) (s : State) : exec (.shr p d a b) s = execShr p d a b s := rfl
theorem exec_sra (p : Pred) (d : Nat) (a : Nat) (b : Nat) (s : State) : exec (.sra p d a b) s = execSra p d a b s := rfl
theorem exec_rotl (p : Pred) (d : Nat) (a : Nat) (b : Nat) (s : State) : exec (.rotl p d a b) s = execRotl p d a b s := rfl
theorem exec_min (p : Pred) (d : Nat) (a : Nat) (b : Nat) (s : State) : exec (.min p d a b) s = execMin p d a b s := rfl
theorem exec_max (p : Pred) (d : Nat) (a : Nat) (b : Nat) (s : State) : exec (.max p d a b) s = execMax p d a b s := rfl
theorem exec_minu (p : Pred) (d : Nat) (a : Nat) (b : Nat) (s : State) : exec (.minu p d a b) s = execMinu p d a b s := rfl
theorem exec_maxu (p : Pred) (d : Nat) (a : Nat) (b : Nat) (s : State) : exec (.maxu p d a b) s = execMaxu p d a b s := rfl
theorem exec_mul (p : Pred) (d : Nat) (a : Nat) (b : Nat) (s : State) : exec (.mul p d a b) s = execMul p d a b s := rfl
theorem exec_mulhs (p : Pred) (d : Nat) (a : Nat) (b : Nat) (s : State) : exec (.mulhs p d a b) s = execMulhs p d a b s := rfl
theorem exec_mulhz (p : Pred) (d : Nat) (a : Nat) (b : Nat) (s : State) : exec (.mulhz p d a b) s = execMulhz p d a b s := rfl
theorem exec_div (p : Pred) (d : Nat) (a : Nat) (b : Nat) (s : State) : exec (.div p d a b) s = execDiv p d a b s := rfl
theorem exec_divu (p : Pred) (d : Nat) (a : Nat) (b : Nat) (s : State) : exec (.divu p d a b) s = execDivu p d a b s := rfl
theorem exec_rem (p : Pred) (d : Nat) (a : Nat) (b : Nat) (s : State) : exec (.rem p d a b) s = execRem p d a b s := rfl
theorem exec_remu (p : Pred) (d : Nat) (a : Nat) (b : Nat) (s : State) : exec (.remu p d a b) s = execRemu p d a b s := rfl
theorem exec_addi (p : Pred) (d : Nat) (a : Nat) (im : Imm) (s : State) : exec (.addi p d a im) s = execAddi p d a im s := rfl
theorem exec_clz (p : Pred) (d : Nat) (a : Nat) (s : State) : exec (.clz p d a) s = execClz p d a s := rfl
theorem exec_ctz (p : Pred) (d : Nat) (a : Nat) (s : State) : exec (.ctz p d a) s = execCtz p d a s := rfl
theorem exec_popc (p : Pred) (d : Nat) (a : Nat) (s : State) : exec (.popc p d a) s = execPopc p d a s := rfl
theorem exec_sextB (p : Pred) (d : Nat) (a : Nat) (s : State) : exec (.sextB p d a) s = execSextB p d a s := rfl
theorem exec_sextH (p : Pred) (d : Nat) (a : Nat) (s : State) : exec (.sextH p d a) s = execSextH p d a s := rfl
theorem exec_sextW (p : Pred) (d : Nat) (a : Nat) (s : State) : exec (.sextW p d a) s = execSextW p d a s := rfl
theorem exec_zextB (p : Pred) (d : Nat) (a : Nat) (s : State) : exec (.zextB p d a) s = execZextB p d a s := rfl
theorem exec_zextH (p : Pred) (d : Nat) (a : Nat) (s : State) : exec (.zextH p d a) s = execZextH p d a s := rfl
theorem exec_zextW (p : Pred) (d : Nat) (a : Nat) (s : State) : exec (.zextW p d a) s = execZextW p d a s := rfl
theorem exec_movi (p : Pred) (d : Nat) (im : Imm) (s : State) : exec (.movi p d im) s = execMovi p d im s := rfl
theorem exec_movhi (p : Pred) (d : Nat) (im : Nat) (s : State) : exec (.movhi p d im) s = execMovhi p d im s := rfl
theorem exec_lea (p : Pred) (d : Nat) (a : Nat) (b : Nat) (sh : Nat) (s : State) : exec (.lea p d a b sh) s = execLea p d a b sh s := rfl
theorem exec_sel (p : Pred) (d : Nat) (a : Nat) (b : Nat) (neg : Nat) (n : Nat) (s : State) : exec (.sel p d a b neg n) s = execSel p d a b neg n s := rfl
theorem exec_cmp (p : Pred) (n : Nat) (a : Nat) (b : Nat) (cc : Nat) (s : State) : exec (.cmp p n a b cc) s = execCmp p n a b cc s := rfl
theorem exec_setc (p : Pred) (n : Nat) (a : Nat) (s : State) : exec (.setc p n a) s = execSetc p n a s := rfl
theorem exec_mfs (p : Pred) (d : Nat) (r : Nat) (s : State) : exec (.mfs p d r) s = execMfs p d r s := rfl
theorem exec_mts (p : Pred) (x : Nat) (r : Nat) (s : State) : exec (.mts p x r) s = execMts p x r s := rfl
theorem exec_mvtc (p : Pred) (a : Nat) (n : Nat) (s : State) : exec (.mvtc p a n) s = execMvtc p a n s := rfl
theorem exec_mftc (p : Pred) (d : Nat) (n : Nat) (s : State) : exec (.mftc p d n) s = execMftc p d n s := rfl
theorem exec_aclr (p : Pred) (n : Nat) (s : State) : exec (.aclr p n) s = execAclr p n s := rfl
theorem exec_cmpiEq (p : Pred) (n : Nat) (a : Nat) (im : Imm) (s : State) : exec (.cmpiEq p n a im) s = execCmpiEq p n a im s := rfl
theorem exec_cmpiNe (p : Pred) (n : Nat) (a : Nat) (im : Imm) (s : State) : exec (.cmpiNe p n a im) s = execCmpiNe p n a im s := rfl
theorem exec_cmpiLt (p : Pred) (n : Nat) (a : Nat) (im : Imm) (s : State) : exec (.cmpiLt p n a im) s = execCmpiLt p n a im s := rfl
theorem exec_cmpiGe (p : Pred) (n : Nat) (a : Nat) (im : Imm) (s : State) : exec (.cmpiGe p n a im) s = execCmpiGe p n a im s := rfl
theorem exec_cmpiLtu (p : Pred) (n : Nat) (a : Nat) (im : Imm) (s : State) : exec (.cmpiLtu p n a im) s = execCmpiLtu p n a im s := rfl
theorem exec_cmpiGeu (p : Pred) (n : Nat) (a : Nat) (im : Imm) (s : State) : exec (.cmpiGeu p n a im) s = execCmpiGeu p n a im s := rfl
theorem exec_shli (p : Pred) (d : Nat) (a : Nat) (n : Imm) (s : State) : exec (.shli p d a n) s = execShli p d a n s := rfl
theorem exec_shri (p : Pred) (d : Nat) (a : Nat) (n : Imm) (s : State) : exec (.shri p d a n) s = execShri p d a n s := rfl
theorem exec_srai (p : Pred) (d : Nat) (a : Nat) (n : Imm) (s : State) : exec (.srai p d a n) s = execSrai p d a n s := rfl
theorem exec_vadd (p : Pred) (f : VecF) (s : State) : exec (.vadd p f) s = execVadd p f s := rfl
theorem exec_vsub (p : Pred) (f : VecF) (s : State) : exec (.vsub p f) s = execVsub p f s := rfl
theorem exec_vmul (p : Pred) (f : VecF) (s : State) : exec (.vmul p f) s = execVmul p f s := rfl
theorem exec_vfma (p : Pred) (f : VecF) (s : State) : exec (.vfma p f) s = execVfma p f s := rfl
theorem exec_vfms (p : Pred) (f : VecF) (s : State) : exec (.vfms p f) s = execVfms p f s := rfl
theorem exec_vfnm (p : Pred) (f : VecF) (s : State) : exec (.vfnm p f) s = execVfnm p f s := rfl
theorem exec_vmac (p : Pred) (f : VecF) (s : State) : exec (.vmac p f) s = execVmac p f s := rfl
theorem exec_vneg (p : Pred) (f : VecF) (s : State) : exec (.vneg p f) s = execVneg p f s := rfl
theorem exec_vabs (p : Pred) (f : VecF) (s : State) : exec (.vabs p f) s = execVabs p f s := rfl
theorem exec_vmin (p : Pred) (f : VecF) (s : State) : exec (.vmin p f) s = execVmin p f s := rfl
theorem exec_vmax (p : Pred) (f : VecF) (s : State) : exec (.vmax p f) s = execVmax p f s := rfl
theorem exec_vrcp (p : Pred) (f : VecF) (s : State) : exec (.vrcp p f) s = execVrcp p f s := rfl
theorem exec_vrsq (p : Pred) (f : VecF) (s : State) : exec (.vrsq p f) s = execVrsq p f s := rfl
theorem exec_vexp2 (p : Pred) (f : VecF) (s : State) : exec (.vexp2 p f) s = execVexp2 p f s := rfl
theorem exec_vlog2 (p : Pred) (f : VecF) (s : State) : exec (.vlog2 p f) s = execVlog2 p f s := rfl
theorem exec_vsel (p : Pred) (f : VecF) (s : State) : exec (.vsel p f) s = execVsel p f s := rfl
theorem exec_vcmpEq (p : Pred) (f : VecF) (s : State) : exec (.vcmpEq p f) s = execVcmpEq p f s := rfl
theorem exec_vcmpNe (p : Pred) (f : VecF) (s : State) : exec (.vcmpNe p f) s = execVcmpNe p f s := rfl
theorem exec_vcmpLt (p : Pred) (f : VecF) (s : State) : exec (.vcmpLt p f) s = execVcmpLt p f s := rfl
theorem exec_vcmpGe (p : Pred) (f : VecF) (s : State) : exec (.vcmpGe p f) s = execVcmpGe p f s := rfl
theorem exec_vcmpLtu (p : Pred) (f : VecF) (s : State) : exec (.vcmpLtu p f) s = execVcmpLtu p f s := rfl
theorem exec_vcmpGeu (p : Pred) (f : VecF) (s : State) : exec (.vcmpGeu p f) s = execVcmpGeu p f s := rfl
theorem exec_vand (p : Pred) (f : VecF) (s : State) : exec (.vand p f) s = execVand p f s := rfl
theorem exec_vor (p : Pred) (f : VecF) (s : State) : exec (.vor p f) s = execVor p f s := rfl
theorem exec_vxor (p : Pred) (f : VecF) (s : State) : exec (.vxor p f) s = execVxor p f s := rfl
theorem exec_vnot (p : Pred) (f : VecF) (s : State) : exec (.vnot p f) s = execVnot p f s := rfl
theorem exec_vshl (p : Pred) (f : VecF) (s : State) : exec (.vshl p f) s = execVshl p f s := rfl
theorem exec_vshr (p : Pred) (f : VecF) (s : State) : exec (.vshr p f) s = execVshr p f s := rfl
theorem exec_vsra (p : Pred) (f : VecF) (s : State) : exec (.vsra p f) s = execVsra p f s := rfl
theorem exec_vcvt (p : Pred) (f : VecF) (s : State) : exec (.vcvt p f) s = execVcvt p f s := rfl
theorem exec_vqnt (p : Pred) (f : VecF) (s : State) : exec (.vqnt p f) s = execVqnt p f s := rfl
theorem exec_vdq (p : Pred) (f : VecF) (s : State) : exec (.vdq p f) s = execVdq p f s := rfl
theorem exec_vrsum (p : Pred) (f : VecF) (s : State) : exec (.vrsum p f) s = execVrsum p f s := rfl
theorem exec_vrmax (p : Pred) (f : VecF) (s : State) : exec (.vrmax p f) s = execVrmax p f s := rfl
theorem exec_vrmin (p : Pred) (f : VecF) (s : State) : exec (.vrmin p f) s = execVrmin p f s := rfl
theorem exec_vbamax (p : Pred) (f : VecF) (s : State) : exec (.vbamax p f) s = execVbamax p f s := rfl
theorem exec_vmov (p : Pred) (f : VecF) (s : State) : exec (.vmov p f) s = execVmov p f s := rfl
theorem exec_vbcst (p : Pred) (f : VecF) (s : State) : exec (.vbcst p f) s = execVbcst p f s := rfl
theorem exec_vext (p : Pred) (f : VecF) (s : State) : exec (.vext p f) s = execVext p f s := rfl
theorem exec_vins (p : Pred) (f : VecF) (s : State) : exec (.vins p f) s = execVins p f s := rfl
theorem exec_vperm (p : Pred) (f : VecF) (s : State) : exec (.vperm p f) s = execVperm p f s := rfl
theorem exec_vrot (p : Pred) (f : VecF) (s : State) : exec (.vrot p f) s = execVrot p f s := rfl
theorem exec_viota (p : Pred) (f : VecF) (s : State) : exec (.viota p f) s = execViota p f s := rfl
theorem exec_vpack (p : Pred) (f : VecF) (s : State) : exec (.vpack p f) s = execVpack p f s := rfl
theorem exec_vunpk (p : Pred) (f : VecF) (s : State) : exec (.vunpk p f) s = execVunpk p f s := rfl
theorem exec_vcmpr (p : Pred) (f : VecF) (s : State) : exec (.vcmpr p f) s = execVcmpr p f s := rfl
theorem exec_vpart (p : Pred) (f : VecF) (s : State) : exec (.vpart p f) s = execVpart p f s := rfl
theorem exec_vamul (p : Pred) (f : VecF) (s : State) : exec (.vamul p f) s = execVamul p f s := rfl
theorem exec_vconj (p : Pred) (f : VecF) (s : State) : exec (.vconj p f) s = execVconj p f s := rfl
theorem exec_vnorm (p : Pred) (f : VecF) (s : State) : exec (.vnorm p f) s = execVnorm p f s := rfl
theorem exec_mma (p : Pred) (f : MtxF) (s : State) : exec (.mma p f) s = execMma p f s := rfl
theorem exec_mzero (p : Pred) (f : MtxF) (s : State) : exec (.mzero p f) s = execMzero p f s := rfl
theorem exec_mrd (p : Pred) (f : MtxF) (s : State) : exec (.mrd p f) s = execMrd p f s := rfl
theorem exec_mtrn (p : Pred) (f : MtxF) (s : State) : exec (.mtrn p f) s = execMtrn p f s := rfl
theorem exec_mcpy (p : Pred) (f : MtxF) (s : State) : exec (.mcpy p f) s = execMcpy p f s := rfl
theorem exec_ld (p : Pred) (f : MemF) (s : State) : exec (.ld p f) s = execLd p f s := rfl
theorem exec_st (p : Pred) (f : MemF) (s : State) : exec (.st p f) s = execSt p f s := rfl
theorem exec_tld (p : Pred) (f : MemF) (s : State) : exec (.tld p f) s = execTld p f s := rfl
theorem exec_tst (p : Pred) (f : MemF) (s : State) : exec (.tst p f) s = execTst p f s := rfl
theorem exec_tldm (p : Pred) (f : MemF) (s : State) : exec (.tldm p f) s = execTldm p f s := rfl
theorem exec_tstm (p : Pred) (f : MemF) (s : State) : exec (.tstm p f) s = execTstm p f s := rfl
theorem exec_vgath (p : Pred) (f : MemF) (s : State) : exec (.vgath p f) s = execVgath p f s := rfl
theorem exec_vscat (p : Pred) (f : MemF) (s : State) : exec (.vscat p f) s = execVscat p f s := rfl
theorem exec_ldsg (p : Pred) (f : MemF) (s : State) : exec (.ldsg p f) s = execLdsg p f s := rfl
theorem exec_fence (p : Pred) (f : MemF) (s : State) : exec (.fence p f) s = execFence p f s := rfl
theorem exec_fenceSc (p : Pred) (f : MemF) (s : State) : exec (.fenceSc p f) s = execFenceSc p f s := rfl
theorem exec_fenceAll (p : Pred) (f : MemF) (s : State) : exec (.fenceAll p f) s = execFenceAll p f s := rfl
theorem exec_pref (p : Pred) (f : MemF) (s : State) : exec (.pref p f) s = execPref p f s := rfl
theorem exec_bankAdd (p : Pred) (f : MemF) (s : State) : exec (.bankAdd p f) s = execBankAdd p f s := rfl
theorem exec_bankFadd (p : Pred) (f : MemF) (s : State) : exec (.bankFadd p f) s = execBankFadd p f s := rfl
theorem exec_bankMin (p : Pred) (f : MemF) (s : State) : exec (.bankMin p f) s = execBankMin p f s := rfl
theorem exec_bankMax (p : Pred) (f : MemF) (s : State) : exec (.bankMax p f) s = execBankMax p f s := rfl
theorem exec_bankOr (p : Pred) (f : MemF) (s : State) : exec (.bankOr p f) s = execBankOr p f s := rfl
theorem exec_bankAnd (p : Pred) (f : MemF) (s : State) : exec (.bankAnd p f) s = execBankAnd p f s := rfl
theorem exec_bankSwap (p : Pred) (f : MemF) (s : State) : exec (.bankSwap p f) s = execBankSwap p f s := rfl
theorem exec_sld (p : Pred) (d : Nat) (b : Nat) (o : Imm) (s : State) : exec (.sld p d b o) s = execSld p d b o s := rfl
theorem exec_slil (p : Pred) (d : Nat) (b : Nat) (o : Imm) (s : State) : exec (.slil p d b o) s = execSlil p d b o s := rfl
theorem exec_slbs (p : Pred) (d : Nat) (b : Nat) (o : Imm) (s : State) : exec (.slbs p d b o) s = execSlbs p d b o s := rfl
theorem exec_atld (p : Pred) (d : Nat) (b : Nat) (o : Imm) (s : State) : exec (.atld p d b o) s = execAtld p d b o s := rfl
theorem exec_smov (p : Pred) (d : Nat) (k : Nat) (x : Nat) (s : State) : exec (.smov p d k x) s = execSmov p d k x s := rfl
theorem exec_eftMovi (d : Nat) (h : Nat) (im : Nat) (s : State) : exec (.eftMovi d h im) s = execEftMovi d h im s := rfl
theorem exec_eftAdd (d : Nat) (a : Nat) (b : Nat) (s : State) : exec (.eftAdd d a b) s = execEftAdd d a b s := rfl
theorem exec_eftAddImm (d : Nat) (a : Nat) (im : Nat) (s : State) : exec (.eftAddImm d a im) s = execEftAddImm d a im s := rfl
theorem exec_eftSub (d : Nat) (a : Nat) (b : Nat) (s : State) : exec (.eftSub d a b) s = execEftSub d a b s := rfl
theorem exec_eftSubImm (d : Nat) (a : Nat) (im : Nat) (s : State) : exec (.eftSubImm d a im) s = execEftSubImm d a im s := rfl
theorem exec_eftAnd (d : Nat) (a : Nat) (b : Nat) (s : State) : exec (.eftAnd d a b) s = execEftAnd d a b s := rfl
theorem exec_eftAndImm (d : Nat) (a : Nat) (im : Nat) (s : State) : exec (.eftAndImm d a im) s = execEftAndImm d a im s := rfl
theorem exec_eftOr (d : Nat) (a : Nat) (b : Nat) (s : State) : exec (.eftOr d a b) s = execEftOr d a b s := rfl
theorem exec_eftOrImm (d : Nat) (a : Nat) (im : Nat) (s : State) : exec (.eftOrImm d a im) s = execEftOrImm d a im s := rfl
theorem exec_eftXor (d : Nat) (a : Nat) (b : Nat) (s : State) : exec (.eftXor d a b) s = execEftXor d a b s := rfl
theorem exec_eftXorImm (d : Nat) (a : Nat) (im : Nat) (s : State) : exec (.eftXorImm d a im) s = execEftXorImm d a im s := rfl
theorem exec_eftShl (d : Nat) (a : Nat) (b : Nat) (s : State) : exec (.eftShl d a b) s = execEftShl d a b s := rfl
theorem exec_eftShlImm (d : Nat) (a : Nat) (im : Nat) (s : State) : exec (.eftShlImm d a im) s = execEftShlImm d a im s := rfl
theorem exec_eftShr (d : Nat) (a : Nat) (b : Nat) (s : State) : exec (.eftShr d a b) s = execEftShr d a b s := rfl
theorem exec_eftShrImm (d : Nat) (a : Nat) (im : Nat) (s : State) : exec (.eftShrImm d a im) s = execEftShrImm d a im s := rfl
theorem exec_eftMul (d : Nat) (a : Nat) (b : Nat) (s : State) : exec (.eftMul d a b) s = execEftMul d a b s := rfl
theorem exec_eftMulImm (d : Nat) (a : Nat) (im : Nat) (s : State) : exec (.eftMulImm d a im) s = execEftMulImm d a im s := rfl
theorem exec_eftMin (d : Nat) (a : Nat) (b : Nat) (s : State) : exec (.eftMin d a b) s = execEftMin d a b s := rfl
theorem exec_eftMinImm (d : Nat) (a : Nat) (im : Nat) (s : State) : exec (.eftMinImm d a im) s = execEftMinImm d a im s := rfl
theorem exec_eftMax (d : Nat) (a : Nat) (b : Nat) (s : State) : exec (.eftMax d a b) s = execEftMax d a b s := rfl
theorem exec_eftMaxImm (d : Nat) (a : Nat) (im : Nat) (s : State) : exec (.eftMaxImm d a im) s = execEftMaxImm d a im s := rfl
theorem exec_eftCmp (c : Nat) (a : Nat) (b : Nat) (s : State) : exec (.eftCmp c a b) s = execEftCmp c a b s := rfl
theorem exec_eftCmpImm (c : Nat) (a : Nat) (im : Nat) (s : State) : exec (.eftCmpImm c a im) s = execEftCmpImm c a im s := rfl
theorem exec_eftBf (o : Nat) (s : State) : exec (.eftBf o) s = execEftBf o s := rfl
theorem exec_eftBfn (o : Nat) (s : State) : exec (.eftBfn o) s = execEftBfn o s := rfl
theorem exec_eftJ (o : Nat) (s : State) : exec (.eftJ o) s = execEftJ o s := rfl
theorem exec_eftHrd (d : Nat) (n : Nat) (s : State) : exec (.eftHrd d n) s = execEftHrd d n s := rfl
theorem exec_eftHwr (a : Nat) (n : Nat) (s : State) : exec (.eftHwr a n) s = execEftHwr a n s := rfl
theorem exec_eftPld (d : Nat) (a : Nat) (o : Nat) (s : State) : exec (.eftPld d a o) s = execEftPld d a o s := rfl
theorem exec_eftPst (x : Nat) (a : Nat) (o : Nat) (s : State) : exec (.eftPst x a o) s = execEftPst x a o s := rfl
theorem exec_eftFld (d : Nat) (a : Nat) (o : Nat) (s : State) : exec (.eftFld d a o) s = execEftFld d a o s := rfl
theorem exec_eftFst (x : Nat) (a : Nat) (o : Nat) (s : State) : exec (.eftFst x a o) s = execEftFst x a o s := rfl
theorem exec_eftFvld (d : Nat) (a : Nat) (o : Nat) (s : State) : exec (.eftFvld d a o) s = execEftFvld d a o s := rfl
theorem exec_eftFvst (x : Nat) (a : Nat) (o : Nat) (s : State) : exec (.eftFvst x a o) s = execEftFvst x a o s := rfl
theorem exec_eftVadd (d : Nat) (a : Nat) (b : Nat) (t : Nat) (h : Nat) (s : State) : exec (.eftVadd d a b t h) s = execEftVadd d a b t h s := rfl
theorem exec_eftVmax (d : Nat) (a : Nat) (b : Nat) (t : Nat) (h : Nat) (s : State) : exec (.eftVmax d a b t h) s = execEftVmax d a b t h s := rfl
theorem exec_eftVmin (d : Nat) (a : Nat) (b : Nat) (t : Nat) (h : Nat) (s : State) : exec (.eftVmin d a b t h) s = execEftVmin d a b t h s := rfl
theorem exec_eftVmul (d : Nat) (a : Nat) (b : Nat) (t : Nat) (h : Nat) (s : State) : exec (.eftVmul d a b t h) s = execEftVmul d a b t h s := rfl
theorem exec_eftVcvt (d : Nat) (a : Nat) (t : Nat) (h : Nat) (s : State) : exec (.eftVcvt d a t h) s = execEftVcvt d a t h s := rfl
theorem exec_eftFwd (s : State) : exec (.eftFwd) s = execEftFwd s := rfl
theorem exec_eftMcast (a : Nat) (o : Nat) (s : State) : exec (.eftMcast a o) s = execEftMcast a o s := rfl
theorem exec_eftDrop (s : State) : exec (.eftDrop) s = execEftDrop s := rfl
theorem exec_eftNack (s : State) : exec (.eftNack) s = execEftNack s := rfl
theorem exec_eftEmit (s : State) : exec (.eftEmit) s = execEftEmit s := rfl
theorem exec_eftPark (s : State) : exec (.eftPark) s = execEftPark s := rfl
theorem exec_eftDone (s : State) : exec (.eftDone) s = execEftDone s := rfl
theorem exec_eftTrap (c : Nat) (s : State) : exec (.eftTrap c) s = execEftTrap c s := rfl
theorem exec_lotteryDraw (cp : Nat) (s : State) : exec (.lotteryDraw cp) s = execLotteryDraw cp s := rfl
theorem exec_launch (r : LRec) (s : State) : exec (.launch r) s = execLaunch r s := rfl
theorem exec_admitImage (r : LRec) (s : State) : exec (.admitImage r) s = execAdmit r s := rfl
theorem exec_retire (r : LRec) (s : State) : exec (.retire r) s = execRetire r s := rfl
theorem exec_marker (r : LRec) (s : State) : exec (.marker r) s = execMarker r s := rfl
theorem exec_launchCompletion (id : Nat) (s : State) : exec (.launchCompletion id) s = execLaunchCompletion id s := rfl
theorem exec_linkReport (die : Nat) (k : Pkt) (s : State) : exec (.linkReport die k) s = execLinkReport die k s := rfl
theorem exec_packetInject (die : Nat) (leaf : Nat) (k : Pkt) (s : State) : exec (.packetInject die leaf k) s = execPacketInject die leaf k s := rfl
theorem exec_jalcyDEndpointRewrite (ep : Nat) (k : Pkt) (s : State) : exec (.jalcyDEndpointRewrite ep k) s = execJalcyDEndpointRewrite ep k s := rfl
theorem exec_portSwitchRoute (die : Nat) (fromX : Bool) (k : Pkt) (s : State) : exec (.portSwitchRoute die fromX k) s = execPortSwitchRoute die fromX k s := rfl
theorem exec_read (die : Nat) (k : Pkt) (s : State) : exec (.read die k) s = execRead die k s := rfl
theorem exec_write (die : Nat) (k : Pkt) (s : State) : exec (.write die k) s = execWrite die k s := rfl
theorem exec_readReply (die : Nat) (k : Pkt) (s : State) : exec (.readReply die k) s = execReadReply die k s := rfl
theorem exec_writeAcknowledge (die : Nat) (k : Pkt) (s : State) : exec (.writeAcknowledge die k) s = execWriteAcknowledge die k s := rfl
theorem exec_bankOperation (die : Nat) (k : Pkt) (s : State) : exec (.bankOperation die k) s = execBankOperation die k s := rfl
theorem exec_bankReply (die : Nat) (k : Pkt) (s : State) : exec (.bankReply die k) s = execBankReply die k s := rfl
theorem exec_contextWriteBack (ck : Nat) (st : Nat) (s : State) : exec (.contextWriteBack ck st) s = execContextWriteBack ck st s := rfl
theorem exec_waitWriteBack (ck : Nat) (s : State) : exec (.waitWriteBack ck) s = execWaitWriteBack ck s := rfl
theorem exec_contWakeWrite (part : Nat) (va : Nat) (s : State) : exec (.contWakeWrite part va) s = execContWakeWrite part va s := rfl
theorem exec_barrierComplete (part : Nat) (g : Nat) (s : State) : exec (.barrierComplete part g) s = execBarrierComplete part g s := rfl
theorem exec_riserCheck (ck : Nat) (s : State) : exec (.riserCheck ck) s = execRiserCheck ck s := rfl
theorem exec_contextExit (ck : Nat) (s : State) : exec (.contextExit ck) s = execContextExit ck s := rfl
theorem exec_preemption (ck : Nat) (s : State) : exec (.preemption ck) s = execPreemption ck s := rfl
theorem exec_autotomy (tile : Nat) (s : State) : exec (.autotomy tile) s = execAutotomy tile s := rfl
theorem exec_cardWindowEntry (cl : Nat) (id : Nat) (s : State) : exec (.cardWindowEntry cl id) s = execCardWindowEntry cl id s := rfl
theorem exec_cardDone (cl : Nat) (id : Nat) (s : State) : exec (.cardDone cl id) s = execCardDone cl id s := rfl
theorem exec_allReduce (die : Nat) (op : Nat) (part : Nat) (s : State) : exec (.allReduce die op part) s = execAllReduce die op part s := rfl
theorem exec_reduce (die : Nat) (op : Nat) (part : Nat) (s : State) : exec (.reduce die op part) s = execReduce die op part s := rfl
theorem exec_broadcast (die : Nat) (op : Nat) (part : Nat) (s : State) : exec (.broadcast die op part) s = execBroadcast die op part s := rfl
theorem exec_allGather (die : Nat) (op : Nat) (part : Nat) (s : State) : exec (.allGather die op part) s = execAllGather die op part s := rfl
theorem exec_reduceScatter (die : Nat) (op : Nat) (part : Nat) (s : State) : exec (.reduceScatter die op part) s = execReduceScatter die op part s := rfl
theorem exec_allToAll (die : Nat) (op : Nat) (part : Nat) (s : State) : exec (.allToAll die op part) s = execAllToAll die op part s := rfl
theorem exec_barrier (die : Nat) (op : Nat) (part : Nat) (s : State) : exec (.barrier die op part) s = execBarrier die op part s := rfl
theorem exec_send (die : Nat) (op : Nat) (part : Nat) (s : State) : exec (.send die op part) s = execSend die op part s := rfl
theorem exec_receive (die : Nat) (op : Nat) (part : Nat) (s : State) : exec (.receive die op part) s = execReceive die op part s := rfl
theorem exec_collectiveData (die : Nat) (k : Pkt) (s : State) : exec (.collectiveData die k) s = execCollectiveData die k s := rfl
theorem exec_answer (die : Nat) (k : Pkt) (s : State) : exec (.answer die k) s = execAnswer die k s := rfl
theorem exec_nack (die : Nat) (k : Pkt) (s : State) : exec (.nack die k) s = execNack die k s := rfl
theorem exec_arm (die : Nat) (core : Nat) (k : Pkt) (s : State) : exec (.arm die core k) s = execArm die core k s := rfl
theorem exec_eftPacketArrival (die : Nat) (core : Nat) (k : Pkt) (s : State) : exec (.eftPacketArrival die core k) s = execEftPacketArrival die core k s := rfl
theorem exec_packageReset (s : State) : exec (.packageReset) s = execPackageReset s := rfl
theorem exec_powerLoss (s : State) : exec (.powerLoss) s = execPowerLoss s := rfl
theorem exec_criticalTemperature (die : Nat) (s : State) : exec (.criticalTemperature die) s = execCriticalTemperature die s := rfl
theorem exec_powerMeasurement (mean : Nat) (s : State) : exec (.powerMeasurement mean) s = execPowerMeasurement mean s := rfl
theorem exec_supplySagStepUp (cl : Nat) (s : State) : exec (.supplySagStepUp cl) s = execSupplySagStepUp cl s := rfl
theorem exec_supplySagStepDown (cl : Nat) (s : State) : exec (.supplySagStepDown cl) s = execSupplySagStepDown cl s := rfl
theorem exec_tscTick (s : State) : exec (.tscTick) s = execTscTick s := rfl
theorem exec_refreshManagement (stack : Nat) (row : Nat) (acts : Nat) (s : State) : exec (.refreshManagement stack row acts) s = execRefreshManagement stack row acts s := rfl
theorem exec_hostRequest (r : HostReq) (s : State) : exec (.hostRequest r) s = execHostRequest r s := rfl
theorem exec_ideIntegrityFailure (pf : Nat) (stream : Nat) (s : State) : exec (.ideIntegrityFailure pf stream) s = execIdeIntegrityFailure pf stream s := rfl
theorem exec_pcieLinkDown (pf : Nat) (s : State) : exec (.pcieLinkDown pf) s = execPcieLinkDown pf s := rfl
theorem exec_pcieLinkUp (pf : Nat) (s : State) : exec (.pcieLinkUp pf) s = execPcieLinkUp pf s := rfl
theorem exec_pfIdectlWrite (pf : Nat) (v : Nat) (s : State) : exec (.pfIdectlWrite pf v) s = execPfIdectlWrite pf v s := rfl
theorem exec_pwrCapWrite (w : ByDie) (s : State) : exec (.pwrCapWrite w) s = execPwrCapWrite w s := rfl
theorem exec_cqTailWrite (vf : Nat) (q : Nat) (v : Nat) (s : State) : exec (.cqTailWrite vf q v) s = execCqTailWrite vf q v s := rfl
theorem exec_cqCtlWrite (vf : Nat) (q : Nat) (v : Nat) (s : State) : exec (.cqCtlWrite vf q v) s = execCqCtlWrite vf q v s := rfl
theorem exec_cpLseedWrite (cp : Nat) (v : Nat) (s : State) : exec (.cpLseedWrite cp v) s = execCpLseedWrite cp v s := rfl
theorem exec_vfPartWrite (vf : Nat) (v : Nat) (s : State) : exec (.vfPartWrite vf v) s = execVfPartWrite vf v s := rfl
theorem exec_partClmapWrite (p : Nat) (v : Nat) (s : State) : exec (.partClmapWrite p v) s = execPartClmapWrite p v s := rfl
theorem exec_nrConsWrite (p : Nat) (v : Nat) (s : State) : exec (.nrConsWrite p v) s = execNrConsWrite p v s := rfl
theorem exec_hvNrConsWrite (pf : Nat) (v : Nat) (s : State) : exec (.hvNrConsWrite pf v) s = execHvNrConsWrite pf v s := rfl
theorem exec_dataFlitSend (ep : Nat) (vc : Nat) (body : Nat) (last : Nat) (s : State) : exec (.dataFlitSend ep vc body last) s = execDataFlitSend ep vc body last s := rfl
theorem exec_dataFlitReceive (ep : Nat) (f : Flit) (s : State) : exec (.dataFlitReceive ep f) s = execDataFlitReceive ep f s := rfl
theorem exec_controlFlitReceive (ep : Nat) (f : Flit) (s : State) : exec (.controlFlitReceive ep f) s = execControlFlitReceive ep f s := rfl
theorem exec_oldKeyRetired (ep : Nat) (f : Flit) (s : State) : exec (.oldKeyRetired ep f) s = execOldKeyRetired ep f s := rfl
theorem exec_idleFlitReceive (ep : Nat) (f : Flit) (s : State) : exec (.idleFlitReceive ep f) s = execIdleFlitReceive ep f s := rfl
theorem exec_retryRequest (ep : Nat) (f : Flit) (s : State) : exec (.retryRequest ep f) s = execRetryRequest ep f s := rfl
theorem exec_linkRetrain (ep : Nat) (ok : Bool) (s : State) : exec (.linkRetrain ep ok) s = execLinkRetrain ep ok s := rfl
theorem exec_linkFailed (ep : Nat) (s : State) : exec (.linkFailed ep) s = execLinkFailed ep s := rfl
theorem exec_keyLimitWarning (ep : Nat) (s : State) : exec (.keyLimitWarning ep) s = execKeyLimitWarning ep s := rfl
theorem exec_keyLimit (ep : Nat) (s : State) : exec (.keyLimit ep) s = execKeyLimit ep s := rfl
theorem exec_jlkKldWrite (ep : Nat) (v : Nat) (s : State) : exec (.jlkKldWrite ep v) s = execJlkKldWrite ep v s := rfl
theorem exec_txselWrite (ep : Nat) (v : Nat) (s : State) : exec (.txselWrite ep v) s = execTxselWrite ep v s := rfl
theorem exec_retrainWrite (ep : Nat) (v : Nat) (s : State) : exec (.retrainWrite ep v) s = execRetrainWrite ep v s := rfl
theorem exec_linkEnableWrite (ep : Nat) (v : Nat) (s : State) : exec (.linkEnableWrite ep v) s = execLinkEnableWrite ep v s := rfl
theorem exec_switchTurn (im : Nat) (s : State) : exec (.switchTurn im) s = execSwitchTurn im s := rfl
theorem exec_nocTurnWrite (die : Nat) (leaf : Nat) (e : Nat) (v : Nat) (s : State) : exec (.nocTurnWrite die leaf e v) s = execNocTurnWrite die leaf e v s := rfl
theorem exec_nocWinminWrite (die : Nat) (v : Nat) (s : State) : exec (.nocWinminWrite die v) s = execNocWinminWrite die v s := rfl
theorem exec_tlbWalk (die : Nat) (part : Nat) (va : Nat) (s : State) : exec (.tlbWalk die part va) s = execTlbWalk die part va s := rfl
theorem exec_zeroBeforeFirstAccess (die : Nat) (part : Nat) (va : Nat) (ok : Bool) (s : State) : exec (.zeroBeforeFirstAccess die part va ok) s = execZeroBeforeFirstAccess die part va ok s := rfl
theorem exec_invProdWrite (die : Nat) (v : Nat) (s : State) : exec (.invProdWrite die v) s = execInvProdWrite die v s := rfl
theorem exec_invKickWrite (die : Nat) (v : Nat) (s : State) : exec (.invKickWrite die v) s = execInvKickWrite die v s := rfl
theorem exec_invalidatePage (die : Nat) (s : State) : exec (.invalidatePage die) s = execInvalidatePage die s := rfl
theorem exec_invalidatePartition (die : Nat) (s : State) : exec (.invalidatePartition die) s = execInvalidatePartition die s := rfl
theorem exec_movePage (die : Nat) (ok : Bool) (s : State) : exec (.movePage die ok) s = execMovePage die ok s := rfl
theorem exec_contextLoad (tile : Nat) (slot : Nat) (s : State) : exec (.contextLoad tile slot) s = execContextLoad tile slot s := rfl
theorem exec_flagReread (part : Nat) (cr : Nat) (ck : Nat) (s : State) : exec (.flagReread part cr ck) s = execFlagReread part cr ck s := rfl
theorem exec_waitDeadline (part : Nat) (cr : Nat) (ck : Nat) (s : State) : exec (.waitDeadline part cr ck) s = execWaitDeadline part cr ck s := rfl
theorem exec_preWrite (p : Nat) (v : Nat) (s : State) : exec (.preWrite p v) s = execPreWrite p v s := rfl
theorem exec_holdWrite (p : Nat) (v : Nat) (s : State) : exec (.holdWrite p v) s = execHoldWrite p v s := rfl
theorem exec_pldWrite (w : ByDie) (s : State) : exec (.pldWrite w) s = execPldWrite w s := rfl
theorem exec_plcWrite (p : Nat) (d : Nat) (v : Nat) (s : State) : exec (.plcWrite p d v) s = execPlcWrite p d v s := rfl
theorem exec_pltWrite (p : Nat) (d : Nat) (c : Nat) (h : Nat) (v : Nat) (s : State) : exec (.pltWrite p d c h v) s = execPltWrite p d c h v s := rfl
theorem exec_slottabWrite (tile : Nat) (v : Nat) (s : State) : exec (.slottabWrite tile v) s = execSlottabWrite tile v s := rfl
theorem exec_cardLseedWrite (cl : Nat) (v : Nat) (s : State) : exec (.cardLseedWrite cl v) s = execCardLseedWrite cl v s := rfl
theorem exec_sfcWindowExpiry (tile : Nat) (s : State) : exec (.sfcWindowExpiry tile) s = execSfcWindowExpiry tile s := rfl
theorem exec_verdictRemote (ck : Nat) (s : State) : exec (.verdictRemote ck) s = execVerdictRemote ck s := rfl
theorem exec_verdictLocal (ck : Nat) (s : State) : exec (.verdictLocal ck) s = execVerdictLocal ck s := rfl
theorem exec_retiredWrite (tile : Nat) (v : Nat) (s : State) : exec (.retiredWrite tile v) s = execRetiredWrite tile v s := rfl
theorem exec_finjCtlWrite (cl : Nat) (v : Nat) (s : State) : exec (.finjCtlWrite cl v) s = execFinjCtlWrite cl v s := rfl
theorem exec_collRtbWrite (ck : Nat) (v : Nat) (s : State) : exec (.collRtbWrite ck v) s = execCollRtbWrite ck v s := rfl
theorem exec_bargCtlWrite (p : Nat) (g : Nat) (v : Nat) (s : State) : exec (.bargCtlWrite p g v) s = execBargCtlWrite p g v s := rfl
theorem exec_bargCluWrite (p : Nat) (g : Nat) (v : Nat) (s : State) : exec (.bargCluWrite p g v) s = execBargCluWrite p g v s := rfl
theorem exec_cardDraw (cl : Nat) (kind : Nat) (s : State) : exec (.cardDraw cl kind) s = execCardDraw cl kind s := rfl
theorem exec_copy2d (cl : Nat) (id : Nat) (s : State) : exec (.copy2d cl id) s = execCopy2d cl id s := rfl
theorem exec_copyx (cl : Nat) (id : Nat) (s : State) : exec (.copyx cl id) s = execCopyx cl id s := rfl
theorem exec_gather (cl : Nat) (id : Nat) (s : State) : exec (.gather cl id) s = execGather cl id s := rfl
theorem exec_scacc (cl : Nat) (id : Nat) (s : State) : exec (.scacc cl id) s = execScacc cl id s := rfl
theorem exec_fill (cl : Nat) (id : Nat) (s : State) : exec (.fill cl id) s = execFill cl id s := rfl
theorem exec_copyxTimeout (cl : Nat) (id : Nat) (s : State) : exec (.copyxTimeout cl id) s = execCopyxTimeout cl id s := rfl
theorem exec_ringPoll (die : Nat) (ctx : Nat) (ring : Nat) (s : State) : exec (.ringPoll die ctx ring) s = execRingPoll die ctx ring s := rfl
theorem exec_collectiveRetry (die : Nat) (op : Nat) (im : Nat) (s : State) : exec (.collectiveRetry die op im) s = execCollectiveRetry die op im s := rfl
theorem exec_parkTimeout (die : Nat) (unit : Nat) (im : Nat) (s : State) : exec (.parkTimeout die unit im) s = execParkTimeout die unit im s := rfl
theorem exec_collectiveTimeout (die : Nat) (op : Nat) (s : State) : exec (.collectiveTimeout die op) s = execCollectiveTimeout die op s := rfl
theorem exec_eftRun (die : Nat) (core : Nat) (s : State) : exec (.eftRun die core) s = execEftRun die core s := rfl
theorem exec_eftRetry (die : Nat) (core : Nat) (im : Nat) (s : State) : exec (.eftRetry die core im) s = execEftRetry die core im s := rfl
theorem exec_eftSendLost (die : Nat) (core : Nat) (im : Nat) (s : State) : exec (.eftSendLost die core im) s = execEftSendLost die core im s := rfl
theorem exec_eftKernelEnable (die : Nat) (core : Nat) (kern : Nat) (v : Nat) (s : State) : exec (.eftKernelEnable die core kern v) s = execEftKernelEnable die core kern v s := rfl
theorem exec_eftKernelDisable (die : Nat) (core : Nat) (kern : Nat) (v : Nat) (s : State) : exec (.eftKernelDisable die core kern v) s = execEftKernelDisable die core kern v s := rfl
theorem exec_eftImemWrite (die : Nat) (core : Nat) (w : Nat) (v : Nat) (s : State) : exec (.eftImemWrite die core w v) s = execEftImemWrite die core w v s := rfl
theorem exec_eftFlowwinAccess (die : Nat) (core : Nat) (w : Nat) (v : Option Nat) (s : State) : exec (.eftFlowwinAccess die core w v) s = execEftFlowwinAccess die core w v s := rfl
theorem exec_registerWrite (key : Nat) (w : ByDie) (priv : Bool) (s : State) : exec (.registerWrite key w priv) s = execRegisterWrite key w priv s := rfl
theorem exec_jalcyLinkUp (ep : Nat) (s : State) : exec (.jalcyLinkUp ep) s = execJalcyLinkUp ep s := rfl
theorem exec_idleFlitSend (ep : Nat) (s : State) : exec (.idleFlitSend ep) s = execIdleFlitSend ep s := rfl

end Sys2Proof.Machine
end

