-- ==== Sys2Proof/Tests/Slice0.lean ====
section
/-! SUPPORT. Tests: an ill-formed term for each check of WellFormed, words written out from the encoding tables, single steps on
small states, and for each statement with hypotheses a state and operands that meet them. -/

open Sys2Proof Sys2Proof.Machine

namespace Sys2Proof.Tests

set_option Elab.async false

/-! WellFormed: each check refuses a term -/

/-- A VEC word's fields in its order: FMT, FE, RU, D, A, B, C. -/
def vf (fmt d a b c : Nat) (ext : Option Nat := none) (fe : Nat := 0) (ru : Nat := 0) : VecF := ⟨fmt, fe, ru, d, a, b, c, ext⟩

/-- A MEM word's fields. -/
def mf (base data size off : Nat) (ord : Nat := 0) (scope : Nat := 0) (pi : Nat := 0) (fe : Nat := 0) (ext : Option Nat := none) : MemF :=
  ⟨fe, ord, scope, base, data, size, pi, off, ext⟩

/-- An MTX word's fields without table, order or conjugation. -/
def xf (fa fb acc tc ta tb a0 b0 cnt grd : Nat) (ext : Option Nat := none) (sat : Nat := 0) : MtxF :=
  ⟨fa, fb, 0, 0, 0, 0, acc, sat, tc, ta, tb, a0, b0, cnt, grd, ext⟩

/-- Predicates and immediates (R212, R269). -/
theorem test_wf_predicates_and_immediates : ([
    .ret (.isTrue 12), .ret (.isFalse 15), .addi .always 1 2 (.short 1024), .addi .always 1 2 (.ext (2 ^ 32)),
    .prep .always 0 (.short 65536), .loop .always 0 1 (.short 4096), .sld .always 0 0 (.short 8192)] : List Instr).all
      (fun i => !i.wf 2) = true := by decide +kernel

/-- Register, steer, level, group and code fields (R212, R213, R300 to R311). -/
theorem test_wf_control_fields : ([
    .nop 4 0 0, .nop 0 2 0, .nop 0 0 6, .prep .always 12 (.short 0), .prepi .always 0 32, .jmp .always 12, .loop .always 6 1 (.short 1),
    .lstep .always 0 4 1 (.short 0), .lbrk .always 6, .rot .always 16, .ldep .always 0, .ldep .always 17, .syncN .always 16,
    .waitfeRow .always 1536, .waitfeFlag .always 32, .trap .always 65536] : List Instr).all (fun i => !i.wf 2) = true ∧
    ([.loop .always 4 1 (.short 1), .rot .always 0, .ldep .always 1] : List Instr).all (fun i => !i.wf 1) = true ∧
    (Instr.halt .always).wf 2 = false := by decide +kernel

/-- SCA fields and system-register numbers (R313 to R320). -/
theorem test_wf_scalar_fields : ([
    .add .always 32 0 0, .clz .always 0 32, .lea .always 0 0 0 4, .sel .always 0 0 0 2 0, .sel .always 0 0 0 0 12, .movhi .always 0 (2 ^ 32),
    .cmp .always 0 1 2 6, .setc .always 12 0, .mfs .always 0 6, .mfs .always 0 0x2D, .mts .always 0 0x70, .mts .always 0 0x1018,
    .mvtc .always 0 48, .mftc .always 0 48, .aclr .always 48, .shli .always 0 0 (.short 0)] : List Instr).all (fun i => !i.wf 2) = true ∧
    (Instr.shli .always 0 0 (.short 32)).wf 1 = false := by decide +kernel

/-- VEC formats, rows, fields that are not read, the extension word, FE and RU (R287, R349). -/
theorem test_wf_vector_fields : ([
    .vadd .always (vf 2 0 0 0 0), .vadd .always (vf 0 1536 0 0 0), .vadd .always (vf 0 0 0 0 1), .vadd .always (vf 4 0 0 0 0 (some 0)),
    .vadd .always (vf 0 0 0 0 0 (some 5)), .vmin .always (vf 0 0 0 0 0 (some 0)), .vneg .always (vf 0 0 0 1 0),
    .vnot .always (vf 0 0 0 0 0 none 2), .vnot .always (vf 0 0 0 0 0 none 0 1), .vshl .always (vf 0 0 0 0 0), .vcmpLtu .always (vf 0 0 0 0 0),
    .vfma .always (vf 4 0 0 0 0), .vins .always (vf 0 0 0 32 0), .vext .always (vf 0 0 0 0 512), .vunpk .always (vf 0 0 0 0 4),
    .vrsum .always (vf 0 0 0 0 8), .vconj .always (vf 0 0 0 0 4), .vmac .always (vf 0 0 0 0 0)] : List Instr).all
      (fun i => !i.wf 2) = true ∧
    ([.vand .always (vf 3 0 0 0 0), .vcmpr .always (vf 0 0 0 0 0)] : List Instr).all (fun i => !i.wf 1) = true := by decide +kernel

/-- The checks of single VEC forms (R359 to R371). -/
theorem test_wf_vector_forms : ([
    .vcvt .always (vf 0 0 0 0 7), .vcvt .always (vf 1 0 0 0 0x10), .vcvt .always (vf 1 0 0 1 0), .vbcst .always (vf 0 0 0 0 512),
    .vbcst .always (vf 0 0 1 0 1024), .vbcst .always (vf 0 0 0 0 1 (some 0)), .vqnt .always (vf 3 0 0 0 1 (some 0)),
    .vqnt .always (vf 3 0 0 0 0), .vqnt .always (vf 3 0 0 0 0 (some 2)), .vqnt .always (vf 3 0 0 0 0 (some 0x200000)),
    .vdq .always (vf 0 0 0 0 0 (some 5)), .vdq .always (vf 0 0 0 0 0 (some 0x10000000)), .vpart .always (vf 5 8 0 0 9),
    .vpart .always (vf 5 1533 0 0 0)] : List Instr).all (fun i => !i.wf 2) = true := by decide +kernel

/-- MTX fields, formats and extension words (R257, R288, R377, R382). -/
theorem test_wf_matrix_fields : ([
    .mma .always (xf 0 0 3 0 0 0 0 0 0 0), .mma .always (xf 0 0 0 48 0 0 0 0 0 0), .mma .always (xf 0 4 0 0 0 0 0 0 0 0),
    .mma .always (xf 3 3 0 0 0 0 0 0 0 0), .mma .always (xf 3 3 0 0 0 0 0 0 0 0 (some 0x4000000)), .mma .always (xf 0 0 0 0 0 0 0 0 0 0 (some 0)),
    .mzero .always (xf 1 0 0 0 0 0 0 0 0 0), .mzero .always (xf 0 0 0 0 1 0 0 0 0 0), .mcpy .always (xf 0 0 0 0 0 1 0 0 0 0),
    .mtrn .always (xf 0 1 0 0 0 0 0 0 0 0), .mrd .always (xf 3 1 0 0 0 0 0 0 0 0), .mrd .always (xf 0 0 0 0 0 0 0 0 0 0),
    .mrd .always (xf 0 1 0 0 0 0 31 0 0 0), .mrd .always (xf 6 6 0 0 0 0 0 0 0 0 (some 0)),
    .mrd .always (xf 0 1 0 0 0 0 0 0 0 0 (some 5))] : List Instr).all (fun i => !i.wf 2) = true ∧
    (Instr.mma .always (xf 3 3 0 0 0 0 0 0 0 0 (some 0))).wf 1 = false := by decide +kernel

/-- MEM and SCL fields (R289, R322 to R336, R384, R385). -/
theorem test_wf_memory_fields : ([
    .ld .always (mf 1 2 3 0 2), .ld .always (mf 1 2 4 0), .ld .always (mf 1 1 3 0 0 0 1), .ld .always (mf 1 2 3 0 0 1), .ld .always (mf 1 2 3 0 1 5),
    .ld .always (mf 1 32 3 0), .ld .always (mf 1 2 3 0 0 0 0 2), .st .always (mf 1 2 3 0 1), .tld .always (mf 1 2 3 0), .tst .always (mf 1 1536 4 0),
    .tldm .always (mf 1 0 3 0), .vgath .always (mf 1 0 3 1536), .vscat .always (mf 1 0 3 0 0 0 1), .ldsg .always (mf 1 12 3 0),
    .fence .always (mf 0 0 0 0 0), .fence .always (mf 1 0 0 0 1), .fenceSc .always (mf 0 0 0 0 3 4), .fenceAll .always (mf 0 0 0 0 0),
    .pref .always (mf 0 1 0 0), .bankAdd .always (mf 1 2 1 0), .bankFadd .always (mf 1 2 3 0), .bankSwap .always (mf 1 2 3 0 0 0 1),
    .sld .always 8 0 (.short 0), .atld .always 4 0 (.short 0), .smov .always 4 1 0, .smov .always 0 4 0, .smov .always 0 0 8] : List Instr).all
      (fun i => !i.wf 2) = true ∧
    ([.fenceSc .always (mf 0 0 0 0 3 3), .bankSwap .always (mf 1 2 3 0), .sld .always 0 0 (.short 0)] : List Instr).all
      (fun i => !i.wf 1) = true := by decide +kernel

/-- Kernel fields (R88 to R97). -/
theorem test_wf_kernel_fields : ([
    .eftMovi 0 1 0x10000, .eftAdd 16 0 0, .eftAddImm 0 0 (2 ^ 17), .eftCmp 6 0 0, .eftCmpImm 0 16 0, .eftBf 0, .eftJ 256, .eftHrd 0 8,
    .eftPld 8 0 0, .eftFst 0 0 (2 ^ 18), .eftVadd 0 0 0 3 0, .eftVcvt 0 0 4 0, .eftVcvt 0 0 1 1, .eftMcast 16 0,
    .eftTrap 65536] : List Instr).all (fun i => !i.wf 2) = true := by decide +kernel

/-! Decode: words written out from the encoding tables (R266, R270, R284 to R290, R88) -/

/-- CTL words (R284). -/
theorem test_decode_ctl :
    decodeSlot 2 0 0x7C13000C none = .ok (.prep .always 3 (.short 12)) ∧ decodeSlot 2 0 0x7C430000 none = .ok (.br .always 3) ∧
    decodeSlot 2 0 0x7C670000 none = .ok (.call .always 7) ∧ decodeSlot 2 0 0x7C700000 none = .ok (.ret .always) ∧
    decodeSlot 2 0 0x7CE00003 none = .ok (.syncX .always 3) ∧ decodeSlot 2 0 0x7CF00809 none = .ok (.waitfeFlag .always 9) := by
  decide +kernel

/-- SCA and ADR words, short and with an extension word (R285). -/
theorem test_decode_scalar :
    decodeSlot 2 1 0x7C91A122 none = .ok (.cmp .always 3 8 9 2) ∧ decodeSlot 2 1 0x7D502064 none = .ok (.cmpiGeu .always 0 8 (.short 100)) ∧
    decodeSlot 2 1 0x7C252123 none = .ok (.div .always 10 8 9) ∧ decodeSlot 2 1 0xFC648000 (some 0x12345678) = .ok (.movhi .always 9 0x12345678) ∧
    decodeSlot 2 2 0x48152D80 none = .ok (.add (.isFalse 2) 10 11 12) ∧ decodeSlot 2 1 0x7CB40008 none = .ok (.mfs .always 8 8) := by
  decide +kernel

/-- MEM words (R289). -/
theorem test_decode_mem :
    decodeSlot 2 5 0x7C41150A38000100 none = .ok (.tst .always (mf 10 163 4 256 2 1)) ∧
    decodeSlot 2 5 0x7D01BA0096000008 none = .ok (.bankAdd .always (mf 20 9 3 8 3 3)) ∧
    decodeSlot 2 5 0x7C70058E040000C0 none = .ok (.vgath .always (mf 11 224 2 192)) ∧
    decodeSlot 2 5 0x7C90B18076000028 none = .ok (.ldsg .always (mf 3 7 3 40 1 3)) ∧
    decodeSlot 2 5 0x7CB1B00000000000 none = .ok (.fenceSc .always (mf 0 0 0 0 3 3)) ∧
    decodeSlot 2 5 0x7C200A0096000020 none = .ok (.st .always (mf 20 9 3 32)) := by decide +kernel

/-- VEC words (R287, R360, R361). -/
theorem test_decode_vec :
    decodeSlot 2 3 0xFC12010210032800 (some 1) = .ok (.vadd .always (vf 1 129 64 101 0 (some 1))) ∧
    decodeSlot 2 3 0x04F04180100300E0 none = .ok (.vsel (.isTrue 1) (vf 0 192 64 96 224 none 1)) ∧
    decodeSlot 2 3 0x7EEC0200480A0160 none = .ok (.vpart .always (vf 6 256 288 320 352)) := by decide +kernel

/-- MTX and SCL words (R288, R290). -/
theorem test_decode_mtx_scl :
    decodeSlot 2 4 0x7C20201000800280 none = .ok (.mma .always ⟨0, 0, 1, 0, 0, 0, 0, 0, 8, 0, 4, 0, 0, 10, 0, none⟩) ∧
    decodeSlot 2 4 0xFC2DA02000200296 (some 0x01080000) = .ok (.mma .always ⟨3, 3, 1, 0, 0, 0, 0, 0, 16, 0, 1, 0, 0, 10, 11, some 0x01080000⟩) ∧
    decodeSlot 2 4 0xFC60801840000000 (some 0x200) = .ok (.mrd .always (xf 0 1 0 12 8 0 0 0 0 0 (some 0x200))) ∧
    decodeSlot 2 4 0x7C40001000000000 none = .ok (.mzero .always (xf 0 0 0 8 0 0 0 0 0 0)) ∧
    decodeSlot 2 6 0x7C5580A0 none = .ok (.sld .always 5 12 (.short 160)) := by decide +kernel

/-! Small states -/

/-- A context that owns all 48 tile registers, with VAs in its own scratchpad, plain cluster memory, and counts in x registers. -/
def tc : Ctx :=
  { tmask := 2 ^ 48 - 1, pc := 0x1000, entryVa := 0x1000, x := [(1, 2 ^ 63), (2, 2 ^ 63 + 0x80000), (3, 2 ^ 63 + 2 ^ 32), (4, 7), (5, -1), (10, 1)] }

/-- The issue record of the bundle of `tc`, which stands at 0x1000. -/
def tis : Issue :=
  { ck := 0, before := tc, va := 0x1000, hdr := ⟨2, false, 0, 0, 0, 0⟩, next := 0x1008, slot := 1, xfer := .fall, act := .none, jumps := false,
    rot := none, ldep := none, sends := [] }

/-- The machine after reset with a context resident on tile 0, issuing. -/
def bare (c : Ctx) (is : Issue) : State := (State.reset.setCtx 0 c).setIss is

/-- The same with cluster 0 in the map of partition 0. -/
def ts : State := { bare tc tis with regs := [(rkey 4 0x1000 0, 1)] }

/-- The registers by which partition 0 has cluster 0 and places its tile 0. -/
def tPartRegs : List (Nat × W64) := [(rkey 4 0x1000 0, 1), (rkey 4 0x1100 0, 0x8000)]

/-- A form whose predicate is true and whose tile registers are owned issues. -/
theorem issues_of {s : State} {is : Issue} {c : Ctx} {i : Instr} (h : s.iss = some is ∧ s.ctx? is.ck = some c)
    (g : (predTrue c (predField i) && inFoot c i) = true) : Issues s is c i := by
  rw [Bool.and_eq_true] at g
  exact ⟨h.1, h.2, g.1, g.2⟩

theorem ts_base : ts.iss = some tis ∧ ts.ctx? tis.ck = some tc := by decide +kernel

theorem ts_issues {i : Instr} (g : (predTrue tc (predField i) && inFoot tc i) = true) : Issues ts tis tc i := issues_of ts_base g

/-- A list of forms that issue. -/
theorem ts_all {l : List Instr} (g : (l.all fun i => predTrue tc (predField i) && inFoot tc i) = true) : ∀ i ∈ l, Issues ts tis tc i :=
  fun i h => ts_issues (List.all_eq_true.1 g i h)

/-- State.reset is canonical. -/
theorem reset_canon : State.reset.Canon := ⟨⟨.nil, fun _ h => absurd h List.not_mem_nil⟩, .nil⟩

/-! Witnesses: slot forms -/

theorem meets_scalar_forms : ∀ i ∈ [Instr.add .always 1 4 5, .mul .always 1 4 5, .div .always 1 4 0, .addi .always 31 4 (.short 0x3FF),
    .clz .always 1 0, .movhi .always 1 0xFFFFFFFF, .lea .always 1 4 5 3, .sel .always 1 4 5 1 11, .rotl .always 0 4 5],
    Issues ts tis tc i ∧ (scalarDest i).isSome = true := by
  intro i h
  exact ⟨ts_all (by decide +kernel) i h, by revert i h; decide +kernel⟩

theorem meets_compare_forms : (∀ i ∈ [Instr.cmp .always 11 4 5 5, .setc .always 0 4, .cmpiLt .always 3 4 (.short 0x200),
    .cmpiGeu .always 3 4 (.ext 0xFFFFFFFF)], Issues ts tis tc i ∧ (condForm tc i).isSome = true) ∧
    ∀ i ∈ [Instr.shli .always 1 4 (.ext 63), .shri .always 1 4 (.short 0), .srai .always 1 5 (.short 31)], Issues ts tis tc i := by
  refine ⟨fun i h => ⟨ts_all (by decide +kernel) i h, ?_⟩, ts_all (by decide +kernel)⟩
  simp only [List.mem_cons, List.not_mem_nil, or_false] at h
  rcases h with rfl | rfl | rfl | rfl <;> rfl

theorem meets_tile_controls : (∀ i ∈ [Instr.mvtc .always 4 47, .mftc .always 1 0, .aclr .always 31, .aclr .always 47, .aclr .always 0x3FF],
    Issues ts tis tc i) ∧ legalTc (tc.rx 4) = true ∧ legalTc (tc.rx 5) = false := by
  exact ⟨ts_all (by decide +kernel), by decide +kernel⟩

theorem meets_transfers : (∀ i ∈ [Instr.prep .always 11 (.short 0x8000), .prepi .always 0 4, .jmp .always 0, .br .always 3, .brn .always 3,
    .call .always 7, .ret .always], Issues ts tis tc i) ∧ ¬ atBodyEnd tc tis := by
  refine ⟨ts_all (by decide +kernel), fun h => h.1 (by decide +kernel)⟩

/-- A context in the body-end bundle of its one loop level. -/
def tcLoop : Ctx := { tc with arch := { tc.arch with nloop := 1, loops := tc.arch.loops.set 0 ⟨2, 0, 0x1000, 0x1000, [(4, 1), (0, 0), (0, 0), (0, 0)]⟩ } }

theorem meets_loops : (∀ i ∈ [Instr.loop .always 0 4 (.short 2), .loop .always 1 4 (.short 2), .loop .always 0 0 (.short 2), .lstep .always 5 3 0 (.short 1),
    .lbrk .always 0, .rot .always 15, .ldep .always 16], Issues ts tis tc i) ∧ ¬ atBodyEnd tc tis ∧ tc.arch.nloop = 0 ∧
    tis.next ≤ loopEnd tis (.short 2) ∧ loopEnd tis (.short 1) < tis.next ∧ (tc.rx 4).toNat % 2 ^ 32 ≠ 0 ∧ (tc.rx 0).toNat % 2 ^ 32 = 0 ∧
    atBodyEnd tcLoop tis ∧ Issues (bare tcLoop tis) tis tcLoop (.lbrk .always 0) ∧ (0 : Nat) < tcLoop.arch.nloop ∧
    ∀ i ∈ [Instr.jmp .always 0, .loop .always 0 4 (.short 2), .eret .always], Issues (bare tcLoop tis) tis tcLoop i := by
  refine ⟨ts_all (by decide +kernel), fun h => h.1 (by decide +kernel), by decide +kernel, by decide +kernel, by decide +kernel, by decide +kernel,
    by decide +kernel, ⟨by decide +kernel, by decide +kernel⟩, issues_of (by decide +kernel) (by decide +kernel), by decide +kernel, ?_⟩
  intro i h
  exact issues_of (by decide +kernel) (by revert i h; decide +kernel)

/-- A LOOP whose count is 0 and whose end lies past the top, and a bundle after which 32 places become dead that were not. -/
theorem meets_loop_ends : Issues (bare tc { tis with va := 2 ^ 64 - 8, next := 2 ^ 64 }) { tis with va := 2 ^ 64 - 8, next := 2 ^ 64 } tc (.loop .always 0 0 (.short 4)) ∧
    2 ^ 64 ≤ (loopEnd { tis with va := 2 ^ 64 - 8, next := 2 ^ 64 } (.short 4)).toNat ∧ tis.hdr.isEnd = false ∧ tis.xfer = .fall ∧ tis.hdr.dp = false ∧
    (landDue tc tc.ic).rows.Pairwise (fun a b => a.1 < b.1) ∧ (landDue tc tc.ic).lin.Pairwise (fun a b => a.1 < b.1) ∧
    deadPlace 3 2 1024 ∧ ¬ deadPlace tc.arch.rot 16 1024 := by
  refine ⟨⟨rfl, by decide +kernel, by decide +kernel, by decide +kernel⟩, by decide +kernel, rfl, rfl, rfl, by decide +kernel, by decide +kernel, ?_, ?_⟩ <;>
    · unfold deadPlace; decide

theorem meets_suspension_points : ∀ i ∈ [Instr.syncN .always 0, .syncX .always 15, .waitfeRow .always 1535, .susp .always, .yield .always, .exit .always,
    .halt .always, .eret .always, .trap .always 65535, .ifence .always], Issues ts tis tc i := ts_all (by decide +kernel)

/-- A privileged context. -/
def tcPriv : Ctx := { tc with priv := true }

theorem tsPriv_issues (i : Instr) (g : (predTrue tcPriv (predField i) && inFoot tcPriv i) = true) : Issues (bare tcPriv tis) tis tcPriv i :=
  issues_of (by decide +kernel) g

theorem meets_mfs : Issues ts tis tc (.mfs .always 1 8) ∧ ¬ privOnly 8 ∧ (8, 0) ∈ ctxReg ts tc 0 ∧ ¬ privOnly 0x6F ∧
    Issues (bare tcPriv tis) tis tcPriv (.mfs .always 1 0x7FF) ∧ Issues (bare tcPriv tis) tis tcPriv (.mfs .always 0 0x801F) ∧
    Issues ts tis tc (.mfs .always 1 0x807) ∧ ¬ privOnly 0x807 ∧ tc.recasts = 0 ∧ tc.scaLoads < 128 := by
  refine ⟨ts_issues (by decide +kernel), ?_, by decide +kernel, ?_, tsPriv_issues _ (by decide +kernel), tsPriv_issues _ (by decide +kernel),
    ts_issues (by decide +kernel), ?_, by decide +kernel, by decide +kernel⟩ <;> · unfold privOnly; omega

theorem meets_mts : Issues ts tis tc (.mts .always 4 0x11) ∧ ¬ privOnly 0x11 ∧ (0x11, 0xFFFFFFFF) ∈ ctxWritable ∧
    Issues (bare tcPriv tis) tis tcPriv (.mts .always 4 0x12) ∧ Issues ts tis tc (.mts .always 4 8) ∧ neverWritten 8 ∧
    Issues ts tis tc (.mts .always 4 0x14) ∧ ¬ neverWritten 0x14 ∧ holdRoom tc [⟨.mts 0x14 (tc.rx 4).toNat, 0, 0⟩] ∧
    Issues (bare tcPriv tis) tis tcPriv (.mts .always 4 0x1000) := by
  refine ⟨ts_issues (by decide +kernel), ?_, by decide +kernel, tsPriv_issues _ (by decide +kernel), ts_issues (by decide +kernel), ?_,
    ts_issues (by decide +kernel), ?_, ?_, tsPriv_issues _ (by decide +kernel)⟩
  · unfold privOnly; omega
  · unfold neverWritten; decide
  · unfold neverWritten; decide
  · unfold holdRoom; decide +kernel

theorem meets_privilege_traps : tc.priv = false ∧ Issues ts tis tc (.mfs .always 1 0x20) ∧ privOnly 0x20 ∧ Issues ts tis tc (.mts .always 1 0x12) ∧
    Issues ts tis tc (.eret .always) ∧ ¬ atBodyEnd tc tis := by
  refine ⟨rfl, ts_issues (by decide +kernel), ?_, ts_issues (by decide +kernel), ts_issues (by decide +kernel), fun h => h.1 (by decide +kernel)⟩
  unfold privOnly; omega

theorem meets_checks_at_issue : (∀ i ∈ [Instr.ld .always (mf 4 1 3 0), .st .always (mf 4 1 3 0), .tld .always (mf 4 1 4 0), .tst .always (mf 4 1 4 0),
    .bankSwap .always (mf 1 4 3 0), .vgath .always (mf 4 0 3 0), .vscat .always (mf 4 0 3 0), .tldm .always (mf 1 31 4 0),
    .tstm .always (mf 1 31 4 0)], Issues ts tis tc i) ∧
    memCheck ts tc 0 (memEa tc (mf 4 1 3 0)) (.dword false) = some 1 ∧ memCheck ts tc 0 (memEa tc (mf 4 1 3 0)) (.dword true) = some 1 ∧
    memCheck ts tc 0 (memEa tc (mf 4 1 4 0)) .row = some 1 ∧ memCheck ts tc 0 (memEa tc (mf 1 4 3 0)) (.bank 8) = some 1 ∧
    (tc.rx 4).toNat % 8 ≠ 0 ∧ 32 < 31 + mRows tc (mf 1 31 4 0) ∧ memCheck (bare tc tis) tc 0 (2 ^ 63) (.dword false) = some 3 ∧
    vaClass ts.capSpad (2 ^ 63 + 0x300000000) = .eng 0 0 0 0 0 ∧ vaClass ts.capSpad (2 ^ 63 + 0x300000000 + 56) = .none ∧
    bankable (vaClass ts.capSpad (2 ^ 63 + 2 ^ 32)) = true := by
  exact ⟨ts_all (by decide +kernel), by decide +kernel⟩

theorem meets_exposed_loads : tc.recasts = 0 ∧ Issues ts tis tc (.ld .always (mf 1 0 3 0x7FFF8)) ∧ Issues ts tis tc (.ld .always (mf 2 31 0 0)) ∧
    Issues ts tis tc (.tld .always (mf 2 1023 4 0)) ∧ tc.scaLoads < 128 ∧ tc.rowLoads < 128 ∧
    (ownLoc ts tc 0 (memEa tc (mf 1 0 3 0x7FFF8))).isSome = true ∧ memCheck ts tc 0 (memEa tc (mf 1 0 3 0x7FFF8)) (.dword false) = none ∧
    (ownLoc ts tc 0 (memEa tc (mf 2 31 0 0))).isSome = true ∧ memCheck ts tc 0 (memEa tc (mf 2 31 0 0)) (.scalar 1) = none ∧
    memCheck ts tc 0 (memEa tc (mf 2 1023 4 0)) .row = none := by
  exact ⟨rfl, ts_issues (by decide +kernel), ts_issues (by decide +kernel), ts_issues (by decide +kernel), by decide +kernel⟩

theorem meets_loads_elsewhere : (∀ i ∈ [Instr.ld .always (mf 3 1 3 0), .tld .always (mf 3 1535 4 0), .ldsg .always (mf 3 11 3 0), .waitfeFlag .always 3],
    Issues ts tis tc i) ∧ ownLoc ts tc 0 (memEa tc (mf 3 1 3 0)) = none ∧ vaClass ts.capSpad (memEa tc (mf 3 1 3 0)) = .clu 0 0 0 ∧
    memCheck ts tc 0 (memEa tc (mf 3 1 3 0)) (.dword false) = none ∧ memCheck ts tc 0 (memEa tc (mf 3 1535 4 0)) .row = none ∧
    memCheck ts tc 0 (tc.rx 3).toNat (.scalar 8) = none ∧ tc.recasts = 0 ∧ tc.scaLoads < 128 := by
  exact ⟨ts_all (by decide +kernel), by decide +kernel⟩

/-- A context with its own half of the engine window in x3. -/
def tcEng : Ctx := { tc with x := [(3, 2 ^ 63 + 0x300000000)] }

/-- Row groups and gathers beyond the own scratchpad, and a load of the engine window. -/
theorem meets_far_groups : (∀ i ∈ [Instr.tldm .always (mf 3 0 4 0), .vgath .always (mf 3 0 3 32)], Issues ts tis tc i) ∧ mRows tc (mf 3 0 4 0) = 32 ∧
    (∀ k < 32, memCheck ts tc 0 ((memEa tc (mf 3 0 4 0) + 256 * k) % 2 ^ 64) .row = none) ∧ ownLoc ts tc 0 (memEa tc (mf 3 0 4 0)) = none ∧
    (vaClass ts.capSpad (memEa tc (mf 3 0 4 0))).translated = false ∧ (tc.rx 3).toNat % 8 = 0 ∧
    (∀ a ∈ gathVas tc (mf 3 0 3 32), memCheck ts tc 0 a (.elem 8) = none) ∧ (∃ a ∈ gathVas tc (mf 3 0 3 32), ownLoc ts tc 0 a = none) ∧
    vaClass ts.capSpad (memEa tcEng (mf 3 1 3 0)) = .eng 0 0 0 0 0 ∧
    memCheck { bare tcEng tis with regs := tPartRegs } tcEng 0 (memEa tcEng (mf 3 1 3 0)) (.dword false) = none := by
  exact ⟨ts_all (by decide +kernel), by decide +kernel⟩

theorem meets_groups_and_scales : tc.recasts = 0 ∧ (∀ i ∈ [Instr.tldm .always (mf 1 0 4 0), .vgath .always (mf 1 0 3 32), .sld .always 7 1 (.short 0),
    .slil .always 3 1 (.short 192), .slbs .always 3 1 (.short 224), .atld .always 3 1 (.short 208), .smov .always 3 3 0, .sld .always 0 4 (.short 0)],
    Issues ts tis tc i) ∧ mRows tc (mf 1 0 4 0) = 32 ∧ (∀ k < 32, (ownLoc ts tc 0 ((memEa tc (mf 1 0 4 0) + 256 * k) % 2 ^ 64)).isSome = true ∧
    memCheck ts tc 0 ((memEa tc (mf 1 0 4 0) + 256 * k) % 2 ^ 64) .row = none) ∧ (tc.rx 1).toNat % 8 = 0 ∧ gathVas tc (mf 1 0 3 32) ≠ [] ∧
    (∀ a ∈ gathVas tc (mf 1 0 3 32), (ownLoc ts tc 0 a).isSome = true ∧ memCheck ts tc 0 a (.elem 8) = none) ∧
    sclEa tc 1 (.short 208) % 16 = 0 ∧ sclEa tc 1 (.short 208) % 256 + 48 ≤ 256 ∧ (ownLoc ts tc 0 (sclEa tc 1 (.short 208))).isSome = true ∧
    ownLoc ts tc 0 (sclEa tc 4 (.short 0)) = none := by
  exact ⟨rfl, ts_all (by decide +kernel), by decide +kernel⟩

theorem meets_held_stores : (∀ i ∈ [Instr.st .always (mf 1 4 3 0), .tst .always (mf 3 31 4 0), .tstm .always (mf 1 0 4 0), .vscat .always (mf 1 0 3 32)],
    Issues ts tis tc i) ∧ memCheck ts tc 0 (memEa tc (mf 1 4 3 0)) (.dword true) = none ∧ memCheck ts tc 0 (memEa tc (mf 3 31 4 0)) .row = none ∧
    (∀ a ∈ gathVas tc (mf 1 0 3 32), memCheck ts tc 0 a (.elem 8) = none) ∧ (∀ k < 32, memCheck ts tc 0 ((memEa tc (mf 1 0 4 0) + 256 * k) % 2 ^ 64) .row = none) ∧
    holdRoom tc (List.replicate 64 ⟨.store 0 8 0, 0, 0⟩) := by
  refine ⟨ts_all (by decide +kernel), by decide +kernel, by decide +kernel, by decide +kernel, by decide +kernel, ?_⟩
  unfold holdRoom; decide +kernel

theorem meets_bank_and_fences : (∀ i ∈ [Instr.bankAdd .always (mf 3 4 3 8 3 3), .bankSwap .always (mf 3 0 2 0), .fence .always (mf 0 0 0 0 1 3),
    .fence .always (mf 0 0 0 0 2 0), .fenceSc .always (mf 0 0 0 0 3 3), .fenceAll .always (mf 0 0 0 0), .pref .always (mf 4 0 0 0)],
    Issues ts tis tc i) ∧ memCheck ts tc 0 (memEa tc (mf 3 4 3 8 3 3)) (.bank 8) = none ∧ memCheck ts tc 0 (memEa tc (mf 3 0 2 0)) (.bank 4) = none ∧
    holdRoom tc [⟨.bank 0 (memEa tc (mf 3 4 3 8 3 3)) 8 7 4, 3, 3⟩] ∧ holdRoom tc [] := by
  refine ⟨ts_all (by decide +kernel), by decide +kernel, by decide +kernel, ?_, ?_⟩ <;> · unfold holdRoom; decide +kernel

/-! Witnesses: vector, scale and matrix forms -/

theorem meets_vector_patterns : ∀ i ∈ [Instr.vadd .always (vf 4 0 31 32 0), .vsub .always (vf 5 1535 0 1 0), .vmul .always (vf 6 0 1 2 0),
    .vabs .always (vf 4 0 1 0 0), .vmin .always (vf 6 0 1 2 0), .vcmpLtu .always (vf 5 0 1 2 0), .vand .always (vf 3 0 1 2 0), .vnot .always (vf 0 0 1 0 0),
    .vsra .always (vf 4 0 1 2 0), .vsel .always (vf 2 0 1 2 3), .vmov .always (vf 7 0 1 0 0), .vbcst .always (vf 0 0 0 0 1028), .vbcst .always (vf 0 0 1 0 511),
    .vbcst .always (vf 0 0 0 0 0 (some 0x3F80)), .vext .always (vf 3 0 1 2 511), .vrot .always (vf 3 0 1 0 511), .vperm .always (vf 4 0 1 2 0),
    .vins .always (vf 5 0 1 4 127), .viota .always (vf 6 0 4 0 2047), .vpack .always (vf 4 0 1 2 0), .vunpk .always (vf 6 0 1 0 3),
    .vcmpr .always (vf 2 0 1 2 0), .vrsum .always (vf 4 0 1 0 8), .vrmax .always (vf 6 0 1 0 6), .vrmin .always (vf 5 0 1 0 0)],
    Issues ts tis tc i ∧ (vecPattern tc i).isSome = true := by
  intro i h
  exact ⟨ts_all (by decide +kernel) i h, by revert i h; decide +kernel⟩

theorem meets_exact_vectors : ∀ i ∈ [Instr.vneg .always (vf 0 0 1 0 0), .vabs .always (vf 1 0 1 0 0), .vmin .always (vf 0 0 1 2 0), .vmax .always (vf 1 0 1 2 0),
    .vcmpEq .always (vf 0 0 1 2 0), .vcmpNe .always (vf 1 0 1 2 0), .vcmpLt .always (vf 0 0 1 2 0), .vcmpGe .always (vf 0 0 1 2 0),
    .vrmax .always (vf 0 0 1 0 7), .vrmin .always (vf 1 0 1 0 6), .vbamax .always (vf 0 0 1 0 0), .vconj .always (vf 0 0 1 0 3)],
    Issues ts tis tc i ∧ (vecExact tc i).isSome = true := by
  intro i h
  exact ⟨ts_all (by decide +kernel) i h, by
    simp only [List.mem_cons, List.not_mem_nil, or_false] at h
    rcases h with rfl | rfl | rfl | rfl | rfl | rfl | rfl | rfl | rfl | rfl | rfl | rfl <;> rfl⟩

theorem meets_rounded_vectors : (∀ i ∈ [Instr.vadd .always (vf 0 0 1 2 0), .vsub .always (vf 1 0 1 2 0 (some 4)), .vmul .always (vf 0 0 1 2 0),
    .vfma .always (vf 0 0 1 2 3), .vfms .always (vf 0 0 1 2 3), .vfnm .always (vf 1 0 1 2 3), .vrsum .always (vf 0 0 1 0 7)],
    Issues ts tis tc i ∧ (vecRounded tc i).isSome = true) ∧
    ∀ i ∈ [Instr.vrcp .always (vf 0 0 1 0 0), .vrsq .always (vf 1 0 1 0 0), .vexp2 .always (vf 0 0 1 0 0), .vlog2 .always (vf 1 0 1 0 0),
      .vmac .always (vf 0 0 1 2 0)], Issues ts tis tc i := by
  refine ⟨fun i h => ⟨ts_all (by decide +kernel) i h, ?_⟩, ts_all (by decide +kernel)⟩
  simp only [List.mem_cons, List.not_mem_nil, or_false] at h
  rcases h with rfl | rfl | rfl | rfl | rfl | rfl | rfl <;> rfl

theorem meets_conversions : ∀ f ∈ [vf 1 0 1 0 0, vf 1 0 1 0 8, vf 0 0 1 2 9, vf 2 0 1 2 25, vf 3 0 1 2 0x39, vf 4 0 1 0 4],
    Issues ts tis tc (.vcvt .always f) ∧ f.c / 8 % 8 * (2048 / max (formatBits (f.c % 8)) (formatBits f.fmt)) +
      2048 / max (formatBits (f.c % 8)) (formatBits f.fmt) ≤ 2048 / min (formatBits (f.c % 8)) (formatBits f.fmt) := by
  intro f h
  simp only [List.mem_cons, List.not_mem_nil, or_false] at h
  rcases h with rfl | rfl | rfl | rfl | rfl | rfl <;> exact ⟨ts_issues (by decide +kernel), by decide +kernel⟩

theorem meets_algebra : ∀ i ∈ [Instr.vamul .always (vf 0 0 1 2 3), .vnorm .always (vf 1 0 1 0 0), .vdq .always (vf 0 0 1 0 0 (some 0x1C7FFFF)),
    .vdq .always (vf 1 0 1 0 0 (some 0x380004))], Issues ts tis tc i := ts_all (by decide +kernel)

theorem meets_quantization : (∀ i ∈ [Instr.vqnt .always (vf 3 0 1 2 4 (some 0x180001)), .vqnt .always (vf 3 0 1 2 0x20 (some 0x380000)),
    .vpart .always (vf 4 0 32 64 4)], Issues ts tis tc i) ∧ (3 + 1) * 128 ≤ 512 ∧ (7 + 1) * 64 ≤ 512 := ⟨ts_all (by decide +kernel), by decide⟩

theorem meets_quantized_blocks : (∃ n e, Machine.Num.fin false 1 0 = .fin false n e ∧ n ≠ 0) ∧
    (Machine.Num.fin true 4 0).abs.lt? (.fin false 1 1) = some false ∧ (Machine.Num.fin true 1 0).abs.lt? (.fin false 1 1) = some true ∧
    (∀ v ∈ [(Machine.Num.fin true 3 (-1), 0), (.fin false 0 0, 64)], ∃ s n e, v.1 = .fin s n e) ∧
    (List.replicate 16 (0xFFFF, 0)).length = 16 ∧ ilPop (List.replicate 16 (0xFFFF, 0)) < 16 ∧ 0xFFFE < 0xFFFF ∧
    (((List.replicate 16 (0xFFFF, 0)).take (ilPop (List.replicate 16 (0xFFFF, 0)))).map (·.1)).Pairwise (· < ·) ∧
    16 ≤ ilPop ((List.range 16).map fun k => (k, 0)) := by
  refine ⟨⟨1, 0, rfl, by decide⟩, by decide +kernel, by decide +kernel, ?_, by decide +kernel⟩
  intro v h
  simp only [List.mem_cons, List.not_mem_nil, or_false] at h
  rcases h with rfl | rfl <;> exact ⟨_, _, _, rfl⟩

/-- A context with planar register 8, and register 9 of dimension 2. -/
def tcPlanar : Ctx := { tc with tc := [(8, 0x400000), (9, 0x600000)], x := [(10, 1), (11, 65)] }

theorem tcPlanar_issues (i : Instr) (g : (predTrue tcPlanar (predField i) && inFoot tcPlanar i) = true) :
    Issues (bare tcPlanar tis) tis tcPlanar i := issues_of (by decide +kernel) g

theorem meets_matrix_products : (∀ f ∈ [xf 0 0 1 8 0 1 0 0 10 0, xf 4 5 0 0 9 1 0 0 10 0, xf 2 2 2 0 1 2 0 0 0 0, xf 0 2 0 0 1 2 0 0 11 0,
      xf 3 3 0 47 1 2 0 0 10 0 (some 0x18C0000), xf 4 4 1 0 1 2 0 0 10 10], Issues (bare tcPlanar tis) tis tcPlanar (.mma .always f)) ∧
    planar tcPlanar 8 ∧ ¬ planar tcPlanar 0 ∧ ¬ planar tcPlanar 9 ∧ (algTab (tcPlanar.tab.get 0 0)).d = 1 ∧
    2 ^ ((tcPlanar.tc.get 0 9).toNat / 2 ^ 22 % 4) ≠ 1 ∧ 2 ^ ((tcPlanar.tc.get 0 0).toNat / 2 ^ 22 % 4) = 1 ∧
    (tcPlanar.rx 0).toNat = 0 ∧ min 64 (128 / 1) < (tcPlanar.rx 11).toNat ∧ (tcPlanar.rx 10).toNat = 1 := by
  refine ⟨?_, ⟨by decide +kernel, by decide +kernel⟩, fun h => h.1 (by decide +kernel), fun h => absurd h.2 (by decide +kernel), by decide +kernel⟩
  intro f h
  simp only [List.mem_cons, List.not_mem_nil, or_false] at h
  rcases h with rfl | rfl | rfl | rfl | rfl | rfl <;> exact tcPlanar_issues _ (by decide +kernel)

theorem meets_tile_forms : (∀ i ∈ [Instr.mzero .always (xf 0 0 0 8 0 0 0 0 0 0), .mzero .always (xf 0 0 0 47 0 0 0 0 0 0), .mcpy .always (xf 0 0 0 1 0 0 0 0 0 0),
      .mtrn .always (xf 3 0 0 1 0 0 0 0 0 0), .mrd .always (xf 0 1 0 1 0 0 30 31 0 0 (some 4)), .mrd .always (xf 5 6 0 1 8 0 0 0 0 0)],
      Issues (bare tcPlanar tis) tis tcPlanar i) ∧ planar tcPlanar 8 ∧ ¬ planar tcPlanar 0 ∧ ¬ planar tcPlanar 1 := by
  refine ⟨?_, ⟨by decide +kernel, by decide +kernel⟩, fun h => h.1 (by decide +kernel), fun h => h.1 (by decide +kernel)⟩
  intro i h
  simp only [List.mem_cons, List.not_mem_nil, or_false] at h
  rcases h with rfl | rfl | rfl | rfl | rfl | rfl <;> exact tcPlanar_issues _ (by decide +kernel)

/-! Witnesses: kernel instructions -/

/-- A run of kernel 0 of a core, with an onward endpoint in header word 5. -/
def tr : Run :=
  { kern := 0, pkt := { opc := 6, cls := 3, len := 4, payload := 5 }, h := [0, 0, 4 * 2 ^ 11, 0, 0, 27 * 2 ^ 13, 0, 0], win := 5,
    e := [0, 64, 1, 192, 256, 2 ^ 32 - 1, 0, 0, 0, 0, 0, 0, 0, 0, 0, 0], v := [1, 0x7F800000, 0x7FC00000, 0, 0, 0, 0, 0], c := true, pc := 0, emits := 0 }

/-- Core 0 of die 0 moves with a run, with slots 0 to 1 of its kernel. -/
def tEft (r : Run) : State := { State.reset with cur := .eft 0 0, efts := [(0, { run := some r })], regs := [(rkey 14 2 0, 0x10000)] }

theorem tEft_runs (r : Run) : EftRuns (tEft r) 0 0 0 r := ⟨rfl, rfl, rfl⟩

theorem meets_kernel_scalars : EftRuns (tEft tr) 0 0 0 tr ∧ ∀ i ∈ [Instr.eftMovi 15 0 0x1FFFFF, .eftMovi 1 1 0xFFFF, .eftAdd 0 1 5, .eftSubImm 1 1 0x10000,
    .eftShl 1 1 5, .eftMin 1 1 5, .eftCmp 5 1 5, .eftCmpImm 2 1 0x1FFFF, .eftBf 1, .eftBfn 255, .eftJ 1, .eftHrd 1 7, .eftHwr 1 0],
    (eftScalar tr i).isSome = true := ⟨tEft_runs tr, by decide +kernel⟩

theorem meets_kernel_memory : EftRuns (tEft tr) 0 0 0 tr ∧ eAddr tr 3 0 = 192 ∧ eAddr tr 4 0 = 256 ∧ eAddr tr 5 0 % 4 ≠ 0 ∧ eAddr tr 1 60 = 124 ∧
    (eRange (tEft tr) 0 tr).2 = 128 ∧ eAddr tr 1 64 = 128 ∧ (tEft tr).Canon ∧ decFmt 1 (lane 32 (tr.v.getD 2 0) 0) = .nan ∧
    decFmt 1 (lane 32 (tr.v.getD 1 0) 0) = .inf false ∧ ∀ k < 16, decFmt 1 (lane 32 (tr.v.getD 0 0) k) ≠ .nan := by
  refine ⟨tEft_runs tr, by decide +kernel, by decide +kernel, by decide +kernel, by decide +kernel, by decide +kernel, by decide +kernel,
    ⟨⟨.nil, fun _ h => absurd h List.not_mem_nil⟩, List.pairwise_singleton _ _⟩, by decide +kernel⟩

/-- The same run with an onward endpoint that takes no collective packets, with a LEN past 256, and after four EMITs. -/
def trOdd (h2 h5 emits : Nat) : Run := { tr with h := [0, 0, h2, 0, 0, h5, 0, 0], emits := emits }

theorem meets_dispositions : EftRuns (tEft tr) 0 0 0 tr ∧ ((tEft tr).eft 0).stopping = [] ∧ onwardOk (onwardOf (tr.h.getD 5 0)).2.2 ∧
    tr.h.getD 2 0 / 2 ^ 11 % 2 ^ 9 ≤ 256 ∧ tr.emits < 4 ∧ EftRuns (tEft (trOdd 0 (12 * 2 ^ 13) 4)) 0 0 0 (trOdd 0 (12 * 2 ^ 13) 4) ∧
    ¬ onwardOk (onwardOf ((trOdd 0 (12 * 2 ^ 13) 4).h.getD 5 0)).2.2 ∧ 4 ≤ (trOdd 0 (12 * 2 ^ 13) 4).emits ∧
    256 < (trOdd (257 * 2 ^ 11) 0 0).h.getD 2 0 / 2 ^ 11 % 2 ^ 9 ∧ EftRuns (tEft (trOdd (257 * 2 ^ 11) 0 0)) 0 0 0 (trOdd (257 * 2 ^ 11) 0 0) ∧
    eAddr tr 1 0 % 64 = 0 ∧ eAddr tr 1 0 < (eRange (tEft tr) 0 tr).2 ∧
    (List.range (eFlow (tEft tr) 0 16 % 2 ^ 4)).map (fun k => eFlow (tEft tr) 0 (17 + k)) = [] := by
  refine ⟨tEft_runs _, by decide +kernel, by unfold onwardOk; decide +kernel, by decide +kernel, by decide +kernel, tEft_runs _, by unfold onwardOk; decide +kernel,
    by decide +kernel, by decide +kernel, tEft_runs _, by decide +kernel, by decide +kernel, by decide +kernel⟩

/-- A flow state with a well-formed list of one entry. -/
def tEftList : State := { tEft tr with regs := [(rkey 14 2 0, 0x10000), (rkey 14 (0x4000 + 16) 0, 1), (rkey 14 (0x4000 + 17) 0, 27 * 2 ^ 13)] }

theorem meets_mcast : EftRuns tEftList 0 0 0 tr ∧ (tEftList.eft 0).stopping = [] ∧ (eRange tEftList 0 tr).1 + eAddr tr 1 0 / 4 = 16 ∧
    (List.range (eFlow tEftList 0 16 % 2 ^ 4)).map (fun k => eFlow tEftList 0 (17 + k)) = [27 * 2 ^ 13] ∧
    onwardOk (onwardOf (27 * 2 ^ 13)).2.2 ∧ 27 * 2 ^ 13 % 2 ^ 13 = 0 := by
  refine ⟨⟨rfl, rfl, rfl⟩, by decide +kernel, by decide +kernel, by decide +kernel, by unfold onwardOk; decide +kernel, by decide⟩

/-- TRAPS at seven and TRAPACT set, with an onward endpoint in the packet. -/
def tEftAct : State := { tEft tr with regs := [(rkey 14 0 0, 0x730001)] }

theorem meets_kernel_traps : (tEft tr).Canon ∧ tr.kern < 8 ∧ ((tEft tr).eft 0).stopping = [] ∧ tEftAct.Canon ∧ (tEftAct.eft 0).stopping = [] ∧
    (tEftAct.reg 14 0 0).toNat / 2 ^ 17 % 2 = 1 ∧ (tEftAct.reg 14 0 0).toNat / 2 ^ 20 % 2 ^ 4 + 1 = 8 ∧
    onwardOk (onwardOf ((headWords tr.pkt).getD 5 0)).2.2 ∧ EftRuns (tEft tr) 0 0 0 tr := by
  refine ⟨⟨⟨.nil, fun _ h => absurd h List.not_mem_nil⟩, List.pairwise_singleton _ _⟩, by decide, by decide +kernel,
    ⟨⟨.nil, fun _ h => absurd h List.not_mem_nil⟩, List.pairwise_singleton _ _⟩, by decide +kernel, by decide +kernel, by decide +kernel,
    by unfold onwardOk; decide +kernel, tEft_runs tr⟩

/-! Witnesses: the package, its registers and the host -/

/-- Canonical form of a state without memory whose registers are listed by number. -/
theorem canon_of {s : State} (m : s.mem = []) (r : (s.regs.map (·.1)).Pairwise (· < ·)) : s.Canon := by
  refine ⟨?_, List.pairwise_map.1 r⟩
  rw [m]
  exact ⟨.nil, fun _ h => absurd h List.not_mem_nil⟩

/-- The machine after reset with registers set. -/
def withRegs (l : List (Nat × W64)) : State := { State.reset with regs := l }

theorem meets_package_resets : ∃ die < 4, Instr.criticalTemperature 3 = .criticalTemperature die := ⟨3, by decide, rfl⟩

/-- The ring split between dies 0 and 1 and between dies 2 and 3. -/
def tSplit : State := { State.reset with links := [(0, { st := 3 }), (13, { st := 3 })] }

theorem meets_authority : Authority State.reset 3 ∧ Authority tSplit 3 ∧ ¬ Authority tSplit 1 := by unfold Authority; decide +kernel

theorem meets_power_and_clock : State.reset.Canon ∧ (State.reset.cl 63).k = 0 ∧ 2199 < (State.reset.reg 9 0 0).toNat ∧
    2200 = (State.reset.reg 9 0 0).toNat ∧ State.reset.recq = [] ∧ (∀ p ∈ State.reset.clusters, p.2.k = 0) ∧
    SMap.get 0 State.reset.rowActs 7 + 0xFFF < max 1 ((State.reset.reg 10 0 7).toNat % 2 ^ 16) ∧
    max 1 ((State.reset.reg 10 0 7).toNat % 2 ^ 16) ≤ SMap.get 0 State.reset.rowActs 7 + 0x1000 :=
  ⟨reset_canon, by decide +kernel⟩

/-- A queued context. -/
def tLive : Live :=
  { part := 0, cr := 0x4000, ctxno := 1, g := 0, any := false, launch := 1, bgrp := 0xFF, foot := 48, st := 0, first := true, link := 0, args := 0,
    rank := 0, rtbBad := false }

/-- Partition 31 has every cluster. -/
def tMap : State := withRegs [(rkey 4 0x1000 31, 0xFFFFFFFF)]

theorem meets_place_writes : tMap.Canon ∧ (∃ q < 32, q ≠ 0 ∧ (tMap.reg 4 0x1000 q).toNat &&& 1 % 2 ^ 32 ≠ 0) ∧ (∀ p, ¬ holdsWork tMap p) ∧
    (∀ d < 4, ∃ l < 4, 0x1B / 4 ^ l % 4 = d) ∧ (∃ d < 4, ∀ l < 4, 0 / 4 ^ l % 4 ≠ d) ∧ holdsWork { tMap with live := [tLive] } 0 ∧
    (∀ k < 16, (tMap.reg 4 0x1000 31).getLsbD ((tMap.physDie 3 * 16 + 0xFFFFFFFFFFFFFFFF / 16 ^ k % 16) / 2) = true) ∧
    (∀ g < 512, tMap.pltEntry 31 g < 2 ^ 15) ∧ (tMap.reg 4 0x1000 31).getLsbD (0x83F7 / 16 % 64 / 2) = true := by
  refine ⟨canon_of rfl (by decide +kernel), ⟨31, by decide, by decide, by decide +kernel⟩, fun p h => ?_, by decide, ⟨1, by decide, by decide⟩,
    ⟨tLive, by decide +kernel, rfl, by decide⟩, by decide +kernel, by decide +kernel, by decide +kernel⟩
  exact absurd h.choose_spec.1 List.not_mem_nil

/-- A place-table value with one entry, of a cluster of the partition and of one outside it. -/
theorem meets_plt_fits : (∀ g < 512, (tMap.setReg 4 0x1100 31 0x83F7).physTile 31 g ≠ none → g = 0) ∧
    (∀ k < 4, 2 ^ 15 ≤ 0x83F7 / 2 ^ (16 * k) % 2 ^ 16 → (tMap.reg 4 0x1000 31).getLsbD (0x83F7 / 2 ^ (16 * k) / 16 % 64 / 2) = true) ∧
    2 ^ 15 ≤ 0x8000 / 2 ^ (16 * 0) % 2 ^ 16 ∧ (tMap.reg 4 0x1000 30).getLsbD (0x8000 / 2 ^ (16 * 0) / 16 % 64 / 2) = false := by decide +kernel

/-- Tile 511 is named by a place table, die 3's log has an entry, and barrier group 15 of partition 31 has an arrival. -/
def tDie : State := withRegs [(rkey 3 0xC05 3, 4), (rkey 3 0xC06 3, 1), (rkey 4 0x102F 31, 0x208001), (rkey 4 0x1100 31, 0x83F7)]

theorem meets_tile_and_die_writes : tDie.Canon ∧ (∃ p < 32, ∃ g < 512, tDie.physTile p g = some 511) ∧ tDie.rn 4 0x102F 31 / 2 ^ 21 % 2 ^ 11 ≠ 0 ∧
    tDie.rn 3 0xC05 3 / 32 % 2 = 0 ∧ tDie.reg 3 0xC07 3 ≠ tDie.reg 3 0xC06 3 ∧ 4 ≤ tDie.rn 3 0xC05 3 % 32 ∧
    (tDie.reg 3 0xC06 3 - tDie.reg 3 0xC07 3).toNat ≤ 2 ^ (tDie.rn 3 0xC05 3 % 32) ∧ (17 + 2 ^ 64 - tDie.rn 3 0xC07 3) % 2 ^ 64 > 2 ^ (tDie.rn 3 0xC05 3 % 32) ∧
    2 ^ 63 % 2 ^ 63 / 2 ^ 32 % 16 ≤ 8 ∧ 9 * 2 ^ 32 % 2 ^ 63 / 2 ^ 32 % 16 > 8 ∧ turnOk 0 (2 ^ 63 + 2 ^ 32) = true := by
  refine ⟨canon_of rfl (by decide +kernel), ⟨31, by decide, 0, by decide, by decide +kernel⟩, by decide +kernel⟩

/-- A context in a seal fault. -/
def tcSeal (v : Bool) : Ctx := { tc with verdict := v, arch := { tc.arch with ecause := 0x15 } }

theorem meets_verdicts : (bare (tcSeal false) tis).ctx? 0 = some (tcSeal false) ∧ (tcSeal false).verdict = false ∧
    (tcSeal false).arch.ecause.toNat % 256 = 0x15 ∧ (bare (tcSeal true) tis).ctx? 0 = some (tcSeal true) ∧ (tcSeal true).verdict = true := by
  decide +kernel

theorem meets_notification_records : State.reset.Canon ∧ (31 : Nat) < 34 ∧ State.ringRegs 33 = ((7, 0, 1), (7, 1, 1), (7, 2, 1), (7, 3, 1)) ∧
    SMap.get 0 State.reset.recAt 0xFFFF ≠ State.reset.tsc.toNat + 1 ∧ State.reset.recq = [] ∧ SMap.get 0 State.reset.lost 33 = 0 ∧
    State.reset.ringPf 33 = some 1 ∧ State.reset.ringPf 0 = none ∧ ¬ 4 ≤ State.reset.rn 7 1 1 / 2 ^ 32 % 16 ∧
    (withRegs [(rkey 7 1 1, 0x400000000)]).rn 7 1 1 / 2 ^ 32 % 16 = 4 ∧ (withRegs [(rkey 7 1 1, 0x400000000), (rkey 7 2 1, 16)]).Canon ∧
    (16 + 2 ^ 64 - 0) % 2 ^ 64 = 2 ^ 4 ∧ SMap.get 0 [(5, 1)] 5 = State.reset.tsc.toNat + 1 := by
  refine ⟨reset_canon, by decide, rfl, by decide +kernel, rfl, rfl, rfl, by decide +kernel, by decide +kernel, by decide +kernel,
    canon_of rfl (by decide +kernel), by decide +kernel⟩

/-- A ring's way that its link or a stream shuts, one with a record held behind, and one that holds nothing back. -/
theorem meets_ways : WayShut { State.reset with pfDown := [1] } 33 ∧ WayShut { State.reset with streams := [(1, 7, false)] } 33 ∧ ¬ WayShut State.reset 31 ∧
    (∃ x ∈ ({ State.reset with recHeld := [(31, [0, 0, 0, 0])] } : State).recHeld, x.1 = 31) ∧
    (({ State.reset with recHeld := [(31, [0, 0, 0, 0])] } : State).recHeld.filter fun x => x.1 == 31).length < 4096 ∧ QuietRing State.reset 33 := by
  refine ⟨⟨1, rfl, .inl (.head _)⟩, ⟨1, rfl, .inr ⟨7, .head _⟩⟩, fun h => ?_, ⟨_, .head _, rfl⟩, by decide, rfl, rfl, fun x h => absurd h List.not_mem_nil⟩
  obtain ⟨pf, h, _⟩ := h
  have : State.reset.ringPf 31 = none := by decide +kernel
  rw [this] at h; cases h

/-- Records of ring 31 were lost, and it has room. -/
def tLost : State := { withRegs [(rkey 4 0x1003 31, 0x400000000), (rkey 6 0 256, 0x21), (rkey 8 0 31, 15)] with lost := [(31, 3)] }

theorem meets_queue_writes : tLost.Canon ∧ tLost.rn 6 0x1F 511 ≤ 1 ∧ 1 ≤ tLost.rn 6 0x1F 511 + 2 ^ (tLost.rn 6 0x1D 511 % 16) ∧
    tLost.rn 6 0x1F 511 + 2 ^ (tLost.rn 6 0x1D 511 % 16) < 2 ∧ (tLost.reg 6 0 511).getLsbD 5 = false ∧ (tLost.reg 6 0 256).getLsbD 5 = true ∧
    (∃ w < 512, w / 256 ≠ 0 / 256 ∧ tLost.rn 6 0 w % 64 = 32 + 0x21 % 32) ∧ SMap.get 0 tLost.lost 0 = 0 ∧ SMap.get 0 tLost.lost 33 = 0 ∧
    SMap.get 0 tLost.lost 31 = 3 ∧ 4 = tLost.rn 4 0x1003 31 / 2 ^ 32 % 16 ∧ (tLost.rn 8 0 31 + 2 ^ 64 - 0) % 2 ^ 64 < 2 ^ 4 := by
  refine ⟨canon_of rfl (by decide +kernel), by decide +kernel, by decide +kernel, by decide +kernel, by decide +kernel, by decide +kernel,
    ⟨256, by decide, by decide, by decide +kernel⟩, by decide +kernel⟩

/-- REQ of PF 1 is set. -/
def tReq : State := withRegs [(rkey 7 5 1, 1)]

theorem meets_host_requests : tReq.Canon ∧ fnOk (.vf 511) = true ∧ Fn.pfNo (.vf 511) = 1 ∧ Fn.pfNo (.pf 1) = 1 ∧ fnOk (.pf 1) = true ∧ 1 ∉ tReq.pfDown ∧
    (tReq.reg 7 5 1).getLsbD 0 = true ∧ (State.reset.reg 7 5 1).getLsbD 0 = false ∧ Fn.vf 511 ≠ .pf 1 ∧ (State.reset.reg 6 0 511).getLsbD 5 = false ∧
    (4, 0x1008, 0xFFFFFFFFFFFFFFFF) ∈ plainRegs ∧ 0x40000 + 0x1000 * 31 + 8 * (0x1008 - 0x1000) < 0x400000 :=
  ⟨canon_of rfl (by decide +kernel), by decide +kernel⟩

theorem meets_register_and_link_events : State.reset.Canon ∧ (15, 0, 0xFFFFFFFFFFFFFFFF) ∈ plainRegs ∧ 1 ∉ State.reset.pfDown ∧
    1 ∈ ({ State.reset with pfDown := [1] } : State).pfDown ∧ State.reset.recHeld = [] ∧ State.reset.recGone = [] :=
  ⟨reset_canon, by decide +kernel⟩

/-! Witnesses: command processors and launches -/

/-- Queue 2047 (function 511, queue 3) is runnable, bound to partition 0, and has one record. -/
def tQueue : State := withRegs [(rkey 6 0 511, 0x20), (rkey 6 0x1D 511, 0x1011), (rkey 6 0x1E 511, 1)]

theorem meets_lottery : State.reset.Canon ∧ 0 < (State.reset.cp 1).x ∧ (State.reset.cp 1).x < 2 ^ 32 ∧ (State.reset.cp 1).taken = [] ∧
    (∀ k < 1024, ¬ IsRunnable State.reset (1024 + k)) ∧ tQueue.Canon ∧ (tQueue.cp 1).taken = [] ∧ IsRunnable tQueue (1024 + 1023) := by
  refine ⟨reset_canon, by decide, by decide, rfl, fun k h => ?_, canon_of rfl (by decide +kernel), rfl, ?_⟩
  · revert k; decide +kernel
  · decide +kernel

/-- A record of an OPC, with DW0 to DW9. -/
def rec (opc : Nat) (dws : List Nat) : LRec := ⟨2047, 0, dws.zipIdx.foldl (fun v p => v + p.1 * 2 ^ (64 * p.2)) opc⟩

/-- That record taken, the only one. -/
def tTaken (r : LRec) : State := { tQueue with cps := [(1, { taken := [r], open_ := [(2047, 0)] })] }

/-- A partition that does not lie wholly in the group of its processor. -/
theorem meets_split_record : ¬ ∀ c < 64, ({ tSplit with regs := [(rkey 4 0x1000 0, 2 ^ 8)] } : State).inMap 0 c = true →
    ({ tSplit with regs := [(rkey 4 0x1000 0, 2 ^ 8)] } : State).reach 0 (c / 16) = true := fun h =>
  absurd (h 16 (by decide) (by decide +kernel)) (by decide +kernel)

theorem meets_records : ∀ o ∈ [(4, []), (3, [0, 0x80]), (2, [0, 0x40]), (1, [0, 0]), (0, [])],
    rec o.1 o.2 ∈ ((tTaken (rec o.1 o.2)).cp ((rec o.1 o.2).queue / 1024)).taken ∧ recField (rec o.1 o.2) 0 7 0 = o.1 ∧
    ((tTaken (rec o.1 o.2)).cp 1).taken.find? (·.queue == 2047) = some (rec o.1 o.2) ∧ recField (rec o.1 o.2) 0 8 8 = 0 ∧
    recField (rec o.1 o.2) 8 63 0 = 0 ∧ recField (rec o.1 o.2) 9 63 0 = 0 ∧
    (o.1 ≠ 0 → wellFormedRec (rec o.1 o.2)) ∧ (o.1 = 0 → ¬ wellFormedRec (rec o.1 o.2)) := by unfold wellFormedRec; decide +kernel

/-- A record's turn has come, and has not come behind an earlier one of its queue. -/
theorem meets_turns : Turn (tTaken (rec 4 [])) (rec 4 []) ∧
    ¬ Turn { tQueue with cps := [(1, { taken := [rec 4 [], rec 3 []] })] } (rec 3 []) := by
  refine ⟨⟨by decide +kernel, fun h => absurd h (by decide +kernel)⟩, fun h => absurd h.1 (by decide +kernel)⟩

/-- A MARKER with STATUS in device memory: CAP_SPAD's window of tile 0, which the processor of die 2 reaches. -/
theorem meets_marker_status : recField (rec 4 [0, 0, 0, 0, 0, 0, 0, 0, 0, 2 ^ 63]) 9 63 0 = 2 ^ 63 ∧
    (match (locate (untake { tTaken (rec 4 [0, 0, 0, 0, 0, 0, 0, 0, 0, 2 ^ 63]) with
        regs := [(rkey 4 0x1000 0, 1), (rkey 4 0x1100 0, 0x8000)] } (rec 4 [0, 0, 0, 0, 0, 0, 0, 0, 0, 2 ^ 63])) 0 (2 ^ 63) 8 true false true 2).2 with
      | .ok _ => true
      | .error _ => false) = true := by decide +kernel

/-- A LAUNCH of one context of tile 0 from an image at 0x8000, whose footprint needs SSTRIDE 0x1200. -/
def recLaunch : LRec := rec 1 [0xFF000000, 0x8000, 0, 0, 0x10000, 0x20000, 0x1200, 0x10000, 0, 0]

/-- The state in which that launch is taken. -/
def tLaunch : State :=
  { tTaken recLaunch with
    images := [(0, [⟨0x8000, 0x100, 0, 0, 2, 0, 0, [0x80]⟩])],
    regs := [(rkey 4 0x1000 0, 1), (rkey 4 0x1100 0, 0x8000), (rkey 6 0 511, 0x20), (rkey 6 0x1D 511, 0x1011), (rkey 6 0x1E 511, 1)] }

theorem meets_launches : recLaunch ∈ (tLaunch.cp 1).taken ∧ Turn tLaunch recLaunch ∧ recField recLaunch 0 7 0 = 1 ∧ launchBad recLaunch = false ∧
    0 = (tLaunch.reg 6 0 511).toNat % 32 ∧ (∀ c < 64, tLaunch.inMap 0 c = true → tLaunch.reach 2 (c / 16) = true) ∧ tLaunch.live = [] ∧
    ((SMap.get [] tLaunch.images 0).find? (·.base == recField recLaunch 1 63 0)).isSome = true ∧ recField recLaunch 0 23 16 < 1 ∧
    0x1200 + 0x2000 * popFoot 0 ≤ recField recLaunch 6 31 0 ∧ (tLaunch.reg 4 0x1006 0).getLsbD 0 = false ∧ recField recLaunch 7 25 16 = 1 ∧
    tLaunch.physTile 0 (recField recLaunch 7 8 0) = some 0 ∧ tLaunch.inMap 0 0 = true := by
  refine ⟨by decide +kernel, ⟨by decide +kernel, fun h => absurd h (by decide +kernel)⟩, by decide +kernel⟩

/-- A launch beside a live context of the tile, with room for its registers and without. -/
theorem meets_neighbours : ∀ n ∈ [48, 49], (({ tLaunch with live := [{ tLive with foot := n }] } : State).live.filter fun l =>
      decide (l.part = 0 ∧ l.st ≤ 3 ∧ tLaunch.physTile 0 l.g = some 0)).map (fun l => decide (l.foot + popFoot 0 ≤ 48)) = [n == 48] ∧
    recField recLaunch 0 31 24 = 0xFF := by decide +kernel

theorem meets_launch_completion : ({ State.reset with launches := [⟨7, 2047, 0, 0, 0, 0, 0, 1, 0, 0, false, false⟩] } : State).launches.find? (·.id == 7) =
    some ⟨7, 2047, 0, 0, 0, 0, 0, 1, 0, 0, false, false⟩ := by decide

/-- The first 112 bytes of an image of 128 bytes with one entry and no code, under generation 1, with 16 bytes of certificate. -/
def imageBytes (cert : List Nat) : List Nat :=
  leBytes 8 (0x4E525645 + 2 ^ 32) ++ leBytes 8 (2 ^ 48) ++ leBytes 8 128 ++ leBytes 8 0 ++ leBytes 8 (2 ^ 32) ++ List.replicate 72 0 ++ cert

/-- The SEAL_KEY is written, and tile 0 serves partition 0. -/
def tKey : State := withRegs [(rkey 4 0x1000 0, 1), (rkey 4 0x1100 0, 0x8000), (rkey 9 2 0, 5), (rkey 9 6 0, 1)]

/-- That image with its certificate in the scratchpad of tile 0. -/
def tImage : State :=
  { tKey with mem := (imageBytes ((certOf tKey 1 (imageBytes (List.replicate 16 0))).getD [])).zipIdx.map fun p => (region 1 p.2, BitVec.ofNat 8 p.1) }

theorem meets_admission : (admitImage tImage 0 (2 ^ 63) 0).2 = 1 := by decide +kernel

/-! Witnesses: links and the network -/

/-- A key that is valid. -/
def tKeyOn : Key := { valid := true }

/-- A link that is up with valid keys on both sides. -/
def tLink : Link := { st := 2, tx := [tKeyOn, tKeyOn], rx := [tKeyOn, tKeyOn] }

/-- Endpoint 15 with a link. -/
def withLink (l : Link) : State := { State.reset with links := [(15, l)] }

/-- A flit of a type under key slot 0, with SEQ 0, on channel 7. -/
def tFlit (typ body : Nat) : Flit := makeFlit tKeyOn 0 (typ * 2 ^ 60 + 7 * 2 ^ 32) body

/-- Data, last and control flits open to their bodies. -/
theorem meets_flit_tags : openFlit tKeyOn 0 (tFlit 0 5) = some 5 ∧ openFlit tKeyOn 0 (tFlit 1 0) = some 0 ∧ openFlit tKeyOn 0 (tFlit 2 0) = some 0 ∧
    openFlit tKeyOn 0 (tFlit 2 258) = some 258 := by decide +kernel

theorem meets_link_flits : (withLink tLink).Canon ∧ (withLink tLink).links.Pairwise (fun a b => a.1 < b.1) ∧ (withLink tLink).link 15 = tLink ∧
    (withLink tLink).rn 11 0 15 % 2 = 1 ∧ tLink.credits.getD 7 0 ≠ 0 ∧ tLink.tail = none ∧ (tFlit 1 0).hdr / 2 ^ 48 % 2 ^ 12 = tLink.expect ∧
    (tFlit 1 0).hdr / 2 ^ 60 % 2 ^ 3 = 1 ∧ (tFlit 1 0).hdr / 2 ^ 32 % 2 ^ 4 = 7 ∧ (tFlit 1 0).hdr % 2 ^ 18 = 0 ∧ keyAt tLink.rx 0 = tKeyOn ∧
    (258 : Nat) % 256 = 2 ∧ seqLe 4095 ((tLink.expect + 4095) % 4096) = true ∧ seqLe 1 ((tLink.expect + 4095) % 4096) = false ∧ tLink.retry ≠ some tLink.expect ∧
    ({ tLink with retry := some 0, retryFails := 7 } : Link).retry = some tLink.expect ∧ openFlit {} 0 ⟨2 ^ 61, 0, 0⟩ = none ∧
    (⟨2 ^ 61, 1, 0⟩ : Flit).hdr / 2 ^ 60 % 2 ^ 3 = 2 ∧ 3 < (⟨2 ^ 62, 0, 0⟩ : Flit).hdr / 2 ^ 60 % 2 ^ 3 := by
  refine ⟨canon_of rfl (by decide), by decide, by decide +kernel, by decide +kernel, by decide +kernel, rfl, by rfl, by rfl, by rfl, by rfl, rfl, by decide,
    by decide +kernel, by decide +kernel, by decide +kernel, rfl, rfl, by decide, by decide⟩

/-- Idle flits: without a valid key the body stands as it is; a retry request has low byte 1; with one, the flit opens under the idle
count that its SEQ names, or its tag fails. -/
theorem meets_idle_flits : (∀ k ∈ ({ st := 2 } : Link).rx, k.valid = false) ∧ (⟨3 * 2 ^ 60, 0, 0⟩ : Flit).hdr / 2 ^ 60 % 2 ^ 3 = 3 ∧ (1 + 4095 * 256) % 256 = 1 ∧
    tLink.rolling = none ∧ openFlit tKeyOn (2 ^ 63 + 4095) (makeFlit tKeyOn (2 ^ 63 + 4095) (3 * 2 ^ 60 + 4095 * 2 ^ 48) 257) = some 257 ∧
    openFlit tKeyOn (2 ^ 63 + (tKeyOn.idle + (0 + 4096 - tKeyOn.idle % 4096) % 4096)) ⟨3 * 2 ^ 60, 0, 0⟩ = none := by decide +kernel

/-- Links at each stage, keys in and out of use, and packets that report them. -/
theorem meets_link_keys : (withLink tLink).Canon ∧ (∀ e < 16, ({ State.reset with links := [] } : State).link e = {}) ∧
    (∀ e < 16, (State.reset.reg 11 0 e).getLsbD 0 = true) ∧ ({ st := 1, retrainFails := 2 } : Link).retrainFails = 2 ∧
    (0 : Nat) + 10 ^ 6 ≤ ({ withLink tLink with tsc := 10 ^ 6 } : State).tsc.toNat ∧ ({ st := 2, retrainFails := 3 } : Link).st ≠ 3 ∧
    (withLink { tLink with tx := [{ valid := true, ctr := 2 ^ 40 }, {}] }).link 15 = { tLink with tx := [{ valid := true, ctr := 2 ^ 40 }, {}] } ∧
    tLink.warned = false ∧ tLink.limit = false ∧ (keyAt tLink.tx 1).valid = true ∧ tLink.rolling = none ∧ 1 ≠ tLink.txsel ∧
    (keyAt ({} : Link).tx 1).valid = false ∧ (keyAt ({} : Link).rx 1).valid = false ∧
    (∃ h ∈ [(⟨0, ⟨0, 0, 0⟩⟩ : HeldFlit)], h.flit.hdr / 2 ^ 63 % 2 = tLink.txsel) ∧ ¬ (∃ h ∈ tLink.replay, h.flit.hdr / 2 ^ 63 % 2 = tLink.txsel) ∧
    ((withLink tLink).reg 11 0 15).getLsbD 0 = true ∧ ((withRegs [(rkey 11 0 15, 0)]).reg 11 0 15).getLsbD 0 = false ∧
    ({ opc := 9, payload := 3 * 2 ^ 12 + 2 ^ 14 } : Pkt).payload / 2 ^ 12 % 4 = 13 / 4 ∧
    ({ opc := 9, payload := 3 * 2 ^ 12 + 2 ^ 14 } : Pkt).payload / 2 ^ 14 % 2 = 13 % 4 ∧ ({ st := 3 } : Link).reported = false ∧
    ({ st := 3, reported := true } : Link).st = 3 := by
  refine ⟨canon_of rfl (by decide), by decide +kernel⟩

/-- The turn table of leaf 0 of die 0: endpoint 1 of the die, the ways to die 1 and to die 3, a core, and the port switch. Chip 5 has port 0 of
this die, chip 6 one of die 1, and chip 7 a primary whose link has failed and an alternate. Every ring link is open. -/
def tTurns : State :=
  { withRegs [(rkey 12 1 0, 0x8000000100000001), (rkey 12 11 0, 0x8000000100000004), (rkey 12 15 0, 0x8000000100000003),
      (rkey 12 19 0, 0x8000000200000035), (rkey 12 43 0, 0x8000000100000004), (rkey 13 5 0, 8), (rkey 13 6 0, 8 + 2), (rkey 13 7 0, 0x98)] with
    links := [(0, tLink), (1, tLink), (2, { st := 3 }), (4, tLink), (5, tLink), (8, tLink), (9, tLink), (12, tLink), (13, tLink)] }

/-- A request packet to endpoint 1 of a die of a chip. -/
def tPkt (die : Nat) (chip : Nat := 0) : Pkt := { opc := 0, ddie := die, dep := 1, dchip := chip }

theorem meets_injection : tTurns.Canon ∧ tTurns.links.Pairwise (fun a b => a.1 < b.1) ∧ windowFull tTurns (tPkt 0) = false ∧ lookupHeld tTurns (tPkt 0) = false ∧
    (tPkt 0).dchip = tTurns.ident.chip % 4096 ∧ (tPkt 0).cls ≠ 3 ∧ tTurns.rn 12 1 0 = 0x8000000100000001 ∧ ringDir tTurns 0 1 = 1 ∧ ringDir tTurns 0 3 = 2 ∧
    tTurns.rn 12 15 0 = 0x8000000100000003 ∧ tTurns.rn 12 2 0 < 2 ^ 63 ∧ (wayOpen tTurns 0 1).2 = true ∧
    ringDir State.reset 0 1 = 3 ∧ State.reset.reach 0 1 = true ∧ tSplit.reach 0 1 = false ∧ ({ cls := 3, dep := 12 } : Pkt).dep = 12 ∧
    (countReq tTurns (tPkt 0)).2.q = 0 ∧ (countReq tTurns { tPkt 0 with opc := 2 }).2 = { tPkt 0 with opc := 2 } := by
  refine ⟨canon_of rfl (by decide +kernel), by decide, by decide +kernel⟩

/-- The ports of chips: its own, of another die, and none. -/
theorem meets_ports : PortTo { tTurns with links := [] } 0 5 0 ∧ PortTo tTurns 0 6 2 ∧ PortTo tTurns 0 7 1 ∧ (∀ p, ¬ PortTo tTurns 0 4095 p) ∧ (∀ p, ¬ PortTo tTurns 0 5 p) ∧
    (tPkt 0 5).dchip ≠ tTurns.ident.chip % 4096 ∧ (tTurns.link 2).reinject = [] ∧ ({ tLink with reinject := [tPkt 0] } : Link).reinject ≠ [] := by
  refine ⟨?_, ?_, ?_, fun p h => ?_, fun p h => ?_, by decide +kernel, rfl, by decide⟩
  · unfold PortTo; decide +kernel
  · unfold PortTo; decide +kernel
  · unfold PortTo; decide +kernel
  · unfold PortTo at h; revert h; simp only [show (tTurns.reg 13 (4095 % 4096) 0).toNat = 0 by decide +kernel]; omega
  · unfold PortTo at h; revert h
    simp only [show (tTurns.reg 13 (5 % 4096) 0).toNat = 8 by decide +kernel, show (tTurns.link (8 % 8 / 2 * 4 + 2 + 8 % 8 % 2)).st = 3 by decide +kernel]; omega

/-- A full window of tile 0, one that is not, and a request for a tile under autotomy. -/
theorem meets_windows : windowFull { tTurns with wins := [(0, (1, 0, 0))], ctxs := [(0, { outst := List.replicate 2 ⟨0, 0, 8, none, false, 0⟩ })] } (tPkt 0) = true ∧
    windowFull { tTurns with wins := [(0, (2, 0, 0))], ctxs := [(0, { outst := List.replicate 2 ⟨0, 0, 8, none, false, 0⟩ })] } (tPkt 0) = false ∧
    lookupHeld { withRegs [(rkey 4 0x1000 0, 1), (rkey 4 0x1100 0, 0x8000)] with autoq := [⟨0, 0, 4⟩] } { opc := 0, va := 2 ^ 63, src := 1 } = true := by decide +kernel

/-- Queues with room for a packet, and without. -/
theorem meets_queues : flitsIn tTurns 0 0 0 1 0 + 1 + ((tPkt 0).len + 31) / 32 ≤ 32 ∧ 32 < flitsIn tTurns 0 0 0 1 0 + 1 + (1024 + 31) / 32 ∧
    TurnsTo tTurns 0 0 0 { tPkt 0 with turns := 1 } 1 ∧ TurnsTo tTurns 0 0 0 { cls := 3, dep := 6, turns := 4 } 7 ∧ TurnsTo tTurns 0 1 0 { turns := 4 } 4 := by
  refine ⟨by decide +kernel, by decide +kernel, rfl, rfl, rfl⟩

/-- A port switch that has packets to re-inject, and hops of a packet at each stage. -/
theorem meets_hops : ∀ h ∈ [(⟨0, 0, 7, 7, tPkt 0⟩ : Hop), ⟨0, 1, 7, 4, tPkt 0⟩, ⟨0, 1, 0, 0, tPkt 0⟩, ⟨0, 2, 3, 1, tPkt 0⟩, ⟨0, 2, 3, 3, tPkt 0⟩, ⟨0, 0, 6, 3, tPkt 0⟩,
      ⟨0, 0, 0, 1, tPkt 0⟩, ⟨0, 0, 3, 3, tPkt 1⟩, ⟨0, 0, 4, 3, { tPkt 0 with opc := 9 }⟩, ⟨0, 0, 2, 3, tPkt 0 5⟩],
      ({ tTurns with net := [h] } : State).net[0]? = some h := fun _ _ => rfl

/-- Ends of a link that has failed and that has not, and failed endpoints that have a packet to send again. -/
theorem meets_reinjection : (∀ x, IsEnd 0 x → (tTurns.link x).st ≠ 3) ∧ (∃ x, IsEnd 0 x ∧ (tSplit.link x).st = 3) ∧
    (let l : Link := { st := 3, reported := true, reinject := [tPkt 0 4095] }
     ({ State.reset with turn := some (.link 13), links := [(13, l)] } : State).link 13 = l ∧
     ({ State.reset with turn := some (.link 14), links := [(14, l)] } : State).link 14 = l ∧ State.reset.stalled = false) ∧
    (∀ q, ¬ PortTo State.reset 3 4095 q) ∧ PortTo { withRegs [(rkey 13 4095 3, 15)] with links := [(14, { st := 3 })] } 3 4095 7 := by
  refine ⟨fun x h => ?_, ⟨0, .inl rfl, by decide +kernel⟩, by decide +kernel, fun q h => ?_, ?_⟩
  · unfold IsEnd at h
    rcases h with rfl | ⟨_, rfl⟩ | ⟨h, _⟩
    · decide +kernel
    · decide +kernel
    · omega
  · unfold PortTo at h; revert h; simp only [show (State.reset.reg 13 (4095 % 4096) 3).toNat = 0 by decide +kernel]; omega
  · unfold PortTo; decide +kernel

/-! Witnesses: homes, replies, translation -/

/-- Whether an access found its place. -/
def okOf {α : Type} (r : State × Except Bad α) : Bool :=
  match r.2 with
  | .ok _ => true
  | .error _ => false

theorem okOf_some {α : Type} {r : State × Except Bad α} (h : okOf r = true) : ∃ u a, r = (u, .ok a) := by
  obtain ⟨u, x⟩ := r
  cases x with
  | ok a => exact ⟨u, a, rfl⟩
  | error b => cases h

theorem okOf_none {α : Type} {r : State × Except Bad α} (h : okOf r = false) : ∃ u b, r = (u, .error b) := by
  obtain ⟨u, x⟩ := r
  cases x with
  | ok a => cases h
  | error b => exact ⟨u, b, rfl⟩

/-- Partition 0 has cluster 0 and places its tile 0. -/
def tPart : State := withRegs [(rkey 4 0x1000 0, 1), (rkey 4 0x1100 0, 0x8000)]

theorem tPart_canon : tPart.Canon := canon_of rfl (by decide +kernel)

/-- A request for a port of its sender's own leaf. -/
theorem meets_own_leaf : ownLeaf tPart { opc := 0, va := 2 ^ 63, src := 1 } = true ∧ windowFull tPart { opc := 0, va := 2 ^ 63, src := 1 } = false ∧
    lookupHeld tPart { opc := 0, va := 2 ^ 63, src := 1 } = false := by decide +kernel

theorem meets_homes : tPart.Canon ∧ (∃ u a, locate tPart 0 (2 ^ 63) 8 false false false 0 = (u, .ok a)) ∧
    (∃ u b, locate tPart 1 (2 ^ 63) 8 false false false 0 = (u, .error b)) ∧ (∃ u a, locate tPart 0 (2 ^ 63 + 256) 256 true false false 0 = (u, .ok a)) ∧
    exchangeOf tPart 0 (2 ^ 63) = none ∧ (∃ u a, locate tPart 0 (2 ^ 63 + 2 ^ 32) 8 true false false 0 = (u, .ok a)) ∧
    bankable (vaClass tPart.capSpad (2 ^ 63 + 2 ^ 32)) = true ∧ bankable (vaClass tPart.capSpad (2 ^ 63)) = false ∧
    (vaClass tPart.capSpad (2 ^ 63)).translated = false ∧ bankable (vaClass tPart.capSpad 64) = false ∧ (vaClass tPart.capSpad 64).translated = true ∧
    (∃ u b, locate tPart 0 64 8 false false false 0 = (u, .error b)) := by
  exact ⟨tPart_canon, okOf_some (by decide +kernel), okOf_none (by decide +kernel), okOf_some (by decide +kernel), by decide +kernel,
    okOf_some (by decide +kernel), by decide +kernel, by decide +kernel, by decide +kernel, by decide +kernel, by decide +kernel, okOf_none (by decide +kernel)⟩

/-- A write to the exchange window of cluster 0 from a tile of another cluster. -/
def tFar : Pkt := { opc := 1, va := 2 ^ 63 + 2 ^ 32 + 0x300000, len := 8, src := srcTile 8, dep := 0 }

/-- Loads with an earlier one before them, requests of the home's own cluster to a tile under autotomy, and writes from inside and
outside a cluster to its exchange window. -/
theorem meets_home_orders : loadBefore { tPart with events := [.read 0 { opc := 0, va := 2 ^ 63, want := 8 }] } { opc := 0, va := 2 ^ 63 + 4, want := 8, rid := 1 } = true ∧
    loadBefore tPart { opc := 0, va := 2 ^ 63, want := 8, rid := 1 } = false ∧
    (let s := { tPart with autoq := [⟨0, 0, 4⟩] }
     ownLeaf s { opc := 0, va := 2 ^ 63, src := 1 } = true ∧ lookupHeld s { opc := 0, va := 2 ^ 63, src := 1 } = true ∧
     lookupHeld s { opc := 0, va := 2 ^ 63, src := 0 } = false) ∧
    exchangeOf tPart 0 tFar.va = some 0 ∧ okOf (locate tPart 0 tFar.va 8 true false false 0) = true ∧ FromOutside tPart tFar 0 ∧
    ¬ FromOutside tPart { tFar with src := srcTile 7 } 0 ∧ (withRegs [(rkey 2 0x804 0, 0x10003)]).reg 2 0x804 0 = 0x10003 ∧
    (7 : Nat) < 2 ^ (8 * 4) ∧ okOf (locate tPart 0 (2 ^ 63 + 2 ^ 32) 4 true false false 0) = true := by
  unfold FromOutside; decide +kernel

/-- A row that spans lines of a translated range, whose first line is not mapped. -/
theorem meets_long_writes : vaLine 64 = 64 ∧ ¬ (64 % 64 + 256 ≤ 64) ∧ pieces 64 256 = [(64, 64), (128, 64), (192, 64), (256, 64)] ∧
    okOf (locate tPart 0 64 64 true false false 0) = false := by decide +kernel

/-- A context that waits for one reply to x31, and for an acknowledgement of a bank operation to x5. -/
def tcWaits : Ctx :=
  { fills := [⟨.x 31, 8, [⟨9, 2 ^ 63, 8, 0, none, 0⟩], [], 0, 0, 0, false, 0, false, 0, 5, none⟩], empties := [xKey 31, xKey 5],
    outst := [⟨10, 2 ^ 63, 8, some 5, false, 0⟩] }

theorem meets_replies : (bare tcWaits tis).ctx? 0 = some tcWaits ∧ (bare tcWaits tis).ctxs.Pairwise (fun a b => a.1 < b.1) ∧ tcWaits.phase = .running ∧
    (tcWaits.fills.map fun f => (f.parts.map (·.rid), f.size, f.dst, f.cover)) = [([9], 8, .x 31, [])] ∧ tcWaits.x.Pairwise (fun a b => a.1 < b.1) ∧
    (⟨10, 2 ^ 63, 8, some 5, false, 0⟩ : Outst) ∈ tcWaits.outst ∧ tcWaits.out = [] ∧ (∀ f ∈ tcWaits.fills, ∀ p ∈ f.parts, p.rid ≠ 8) ∧
    (∀ o ∈ tcWaits.outst, o.rid ≠ 8) ∧ acqReady { withRegs [(rkey 3 0xC10 1, 1)] with events := [.write 0 { opc := 1, src := srcNo 1 0 0, epoch := 0 }] } (srcTile 0) 3 [⟨srcTile 128, [0, 1]⟩] = false ∧
    acqReady { withRegs [(rkey 3 0xC10 1, 1)] with events := [.write 0 { opc := 1, src := srcNo 1 0 0, epoch := 0 }] } (srcTile 0) 2 [⟨srcTile 128, [0, 1]⟩] = true ∧
    acqReady State.reset 0 4 [] = true ∧ acqReady (withRegs [(rkey 3 0xC05 2, 0x24), (rkey 3 0xC06 2, 1)]) 0 3 [] = false := by decide +kernel

/-- The cells of n bytes at a location, without the zeros. -/
def cells (a n v : Nat) : List Host.Cell := ((List.range n).map fun k => (a + k, BitVec.ofNat 8 (v / 256 ^ k))).filter fun c => c.2 != 0

/-- The entries that a walk of page 3 of partition 31, whose home is die 3, meets at levels 4 to 1, and the first doublewords of the leaf. -/
def tWalks (root : Nat) (e4 e3 e2 e1 leaf sub : Nat) : State :=
  { withRegs [(rkey 3 0xC04 3, 0x10000), (rkey 3 0xC05 3, 4), (rkey 3 0xC06 3, 1), (rkey 4 0x1004 31, BitVec.ofNat 64 (root + 1))] with
    mem := cells (region 6 0x2000) 8 e4 ++ cells (region 6 0x4000) 8 e3 ++ cells (region 6 0x5000) 8 e2 ++ cells (region 6 0x6000) 8 e1
      ++ cells (region 6 0x7180) 8 leaf ++ cells (region 6 0x7188) 8 sub }

/-- Four directory tables and a leaf. -/
def tWalk (leaf : Nat) (sub : Nat := 0) : State := tWalks 0x2000 0x4001 0x5001 0x6001 0x7001 leaf sub

theorem tWalks_canon {r a b c d e f : Nat} (h : Memory.wf (tWalks r a b c d e f).mem) : (tWalks r a b c d e f).Canon := by
  refine ⟨h, List.pairwise_map.1 (?_ : List.Pairwise (· < ·) [rkey 3 0xC04 3, rkey 3 0xC05 3, rkey 3 0xC06 3, rkey 4 0x1004 31])⟩
  decide +kernel

/-- Directory walks of n levels through those tables. -/
theorem tWalks_reaches {s : State} {n : Nat} (hn : n ≤ 4) (h : ∀ k < n, Leads s ([0x2000, 0x4000, 0x5000, 0x6000].getD k 0) (indexAt 0x30000 (4 - k))
    ([0x4000, 0x5000, 0x6000, 0x7000].getD k 0)) (r : rootOf s 31 = 0x2000) : Reaches s 31 0x30000 n ([0x2000, 0x4000, 0x5000, 0x6000, 0x7000].getD n 0) := by
  induction n with
  | zero => exact r.symm
  | succ n ih =>
    refine ⟨_, ih (by omega) fun k g => h k (by omega), ?_⟩
    have g := h n (by omega)
    have : n = 0 ∨ n = 1 ∨ n = 2 ∨ n = 3 := by omega
    rcases this with rfl | rfl | rfl | rfl <;> simpa using g

/-- Leaves of 64 KiB: of the device, with Z, of the host, unmapped, malformed. -/
theorem meets_walks : ∀ e ∈ [(0x10000003, 0), (0x10000013, 0), (0x100083, 0x1000001), (0, 0), (0x10000043, 0), (0x2000000000013, 0)], (tWalk e.1 e.2).Canon ∧
    translatesAt (tWalk e.1 e.2) 3 0x30000 = true ∧ tlbFind (tWalk e.1 e.2) 3 31 0x30000 = none ∧ ((tWalk e.1 e.2).reg 4 0x1004 31).getLsbD 0 = true ∧
    WalksTo (tWalk e.1 e.2) 31 0x30000 0x7180 ∧ e.1 = deviceWord (tWalk e.1 e.2) 0x7180 ∧ ((tWalk e.1 e.2).tlb.filter fun e => e.die == 3).length < 8192 ∧
    ((tWalk e.1 e.2).reg 4 0x1004 30).getLsbD 0 = false ∧ ∀ t < 5, (tWalk e.1 e.2).reach 3 (([0x2000, 0x4000, 0x5000, 0x6000, 0x7000].getD t 0) / 2 ^ 37) = true := by
  intro e h
  refine ⟨tWalks_canon ?_, ?_, ?_, ?_, ⟨0x7000, tWalks_reaches (n := 4) (by decide) ?_ ?_, by decide⟩, ?_, ?_, ?_, ?_⟩
  · constructor <;> · revert e h; decide +kernel
  · revert e h; decide +kernel
  · revert e h; decide +kernel
  · revert e h; decide +kernel
  · unfold Leads; revert e h; decide +kernel
  · revert e h; decide +kernel
  · revert e h; decide +kernel
  · revert e h; decide +kernel
  · revert e h; decide +kernel
  · revert e h; decide +kernel

theorem meets_leaves : (∀ e ∈ [0x10000003, 0x10000013], deviceLeaf e ∧ e / 2 ^ 24 * 2 ^ 16 = 0x100000 ∧ State.reset.reach 3 (e / 2 ^ 24 * 2 ^ 16 / 2 ^ 37) = true) ∧
    hostLeaf (tWalk 0x83) 0x7180 0x83 ∧ ¬ deviceLeaf 0x10000043 ∧ ¬ hostLeaf (tWalk 0x10000043) 0x7180 0x10000043 ∧
    deviceLeaf 0x200000000013 ∧ 0x200000000013 / 16 % 2 = 1 ∧ tSplit.reach 3 (0x200000000013 / 2 ^ 24 * 2 ^ 16 / 2 ^ 37) = false := by
  unfold deviceLeaf hostLeaf; decide +kernel

/-- Entries at each level: V = 0, malformed, a table out of reach, and large leaves. -/
theorem meets_directories : deviceWord (tWalks 0x2000 0 0 0 0 0 0) (0x2000 + 8 * indexAt 0x30000 4) % 2 = 0 ∧
    Reaches (tWalks 0x2000 0x4001 0x5001 0x6001 0x400003 0 0) 31 0x30000 3 0x6000 ∧ Reaches (tWalks 0x2000 0x4001 0x5001 0x200003 0 0 0) 31 0x30000 2 0x5000 ∧
    largeLeaf 1 0x100003 ∧ largeLeaf 2 0x200083 ∧ ¬ largeLeaf 1 0x200003 ∧
    deviceWord (tWalks 0x2000 0x4001 0x5001 0x6001 0x100003 0 0) (0x6000 + 8 * indexAt 0x30000 1) = 0x100003 ∧
    (∀ next, ¬ Leads (tWalks 0x2000 0x4005 0 0 0 0 0) 0x2000 (indexAt 0x30000 4) next) ∧
    deviceWord (tWalks 0x2000 0x4005 0 0 0 0 0) (0x2000 + 8 * indexAt 0x30000 4) % 4 = 1 ∧
    tSplit.reach 3 (rootOf (tWalks 0x2000000000 0 0 0 0 0 0) 31 / 2 ^ 37) = false ∧ ∀ k < 4, ringDir State.reset k k ≠ 3 := by
  refine ⟨by decide +kernel, tWalks_reaches (n := 3) (by decide) (by unfold Leads; decide +kernel) (by decide +kernel),
    tWalks_reaches (n := 2) (by decide) (by unfold Leads; decide +kernel) (by decide +kernel), by unfold largeLeaf; decide, by unfold largeLeaf; decide,
    by unfold largeLeaf; decide, by decide +kernel, fun next h => ?_, by decide +kernel, by decide +kernel, by decide +kernel⟩
  have : deviceWord (tWalks 0x2000 0x4005 0 0 0 0 0) (0x2000 + 8 * indexAt 0x30000 4) / 4 % 2 ^ 10 = 1 := by decide +kernel
  rw [h.2.1] at this
  cases this

/-- The same with an entry of die 3's invalidation log: DW0 and DW1. -/
def tLog (dw0 dw1 : Nat) (leaf : Nat := 0x10000003) : State :=
  { tWalk leaf with mem := (tWalk leaf).mem ++ cells (region 6 0x10000) 8 dw0 ++ cells (region 6 0x10008) 8 dw1 }

theorem meets_log_entries : ∀ e ∈ [(0x3011F, 0), (0x3041F, 0), (0x3081F, 0x20000000), (0x3001F, 0x100)], NextInLog (tLog e.1 e.2) 3 0x10000 ∧
    e.1 = deviceWord (tLog e.1 e.2) 0x10000 ∧ e.2 = deviceWord (tLog e.1 e.2) 0x10008 ∧ e.1 % 32 = 31 ∧ e.1 / 2 ^ 12 % 16 = 0 ∧ e.1 / 2 ^ 5 % 8 = 0 ∧
    e.1 / 2 ^ 8 % 4 ≠ 3 ∧ e.1 / 2 ^ 10 % 4 ≠ 3 := by unfold NextInLog; decide +kernel

/-- The move of a die whose log's next entry is malformed. -/
theorem meets_malformed_entry : ({ tLog 0x3F01F 0 with turn := some (.inval 3) } : State).turn = some (.inval 3) ∧ NextInLog (tLog 0x3F01F 0) 3 0x10000 ∧
    0x3F01F / 2 ^ 12 % 16 ≠ 0 := by unfold NextInLog; decide +kernel

theorem meets_moved_page : (∀ dst ∈ [0x20000000, 0x2000000000000], (tLog 0x3081F dst).Canon ∧ WalksTo (tLog 0x3081F dst) 31 0x30000 0x7180 ∧
      0x10000003 = deviceWord (tLog 0x3081F dst) 0x7180) ∧ deviceLeaf 0x10000003 ∧ 0x10000003 / 2 ^ 24 * 2 ^ 16 = 0x100000 ∧
    0x20000000 / 2 ^ 24 % 2 ^ 23 * 2 ^ 16 = 0x200000 ∧ 0x200000 % 2 ^ 37 < 0x1800000000 ∧ State.reset.reach 3 (0x200000 / 2 ^ 37) = true ∧
    0x200000000000 / 2 ^ 24 % 2 ^ 23 * 2 ^ 16 / 2 ^ 37 = 1 ∧ tSplit.reach 3 1 = false ∧ ¬ deviceLeaf 0x10000083 := by
  refine ⟨fun dst h => ⟨⟨⟨?_, ?_⟩, List.pairwise_map.1 ?_⟩, ⟨0x7000, tWalks_reaches (n := 4) (by decide) ?_ ?_, by decide⟩, ?_⟩, by unfold deviceLeaf; decide,
    by decide, by decide, by decide, by decide +kernel, by decide, by decide +kernel, by unfold deviceLeaf; decide⟩
  · revert dst h; decide +kernel
  · revert dst h; decide +kernel
  · show List.Pairwise (· < ·) [rkey 3 0xC04 3, rkey 3 0xC05 3, rkey 3 0xC06 3, rkey 4 0x1004 31]
    decide +kernel
  · unfold Leads; revert dst h; decide +kernel
  · revert dst h; decide +kernel
  · revert dst h; decide +kernel

/-! Witnesses: the end of a block -/

/-- A line of 64 bytes whose last 16 are a riser: two digests, two successor words. -/
def riserLine (w0 w1 w2 w3 : Nat) : Nat := (w0 + w1 * 2 ^ 32 + w2 * 2 ^ 64 + w3 * 2 ^ 96) * 2 ^ 384

/-- A block that has ended at a bundle whose riser, held in a line, stands at 0x1030. -/
def tEnded (x : Xfer) (a : Act) (lv : Option Nat) (isEnd : Bool) (flags name : Nat) (priv : Bool) : Ctx :=
  { phase := .ended ⟨0x1028, 0x1040, isEnd, false, x, a, lv, false⟩, lines := [(0x1000, riserLine 5 6 (flags + name * 256) 0, 0)], odig := 5, ddig := 6,
    entryVa := 0x1000, fresh := false, priv := priv, arch := { loops := [⟨2, 0, 0x1000, 0x1028, [(4, 1), (0, 0), (0, 0), (0, 0)]⟩, {}, {}, {}, {}, {}], nloop := 1 } }

/-- Held accesses: a store to the own scratchpad, a release behind it, an element of a scatter, and a bank request. -/
def tHeld : List Held :=
  [⟨.store (2 ^ 63) 8 5, 0, 0⟩, ⟨.fence false, 2, 3⟩, ⟨.scat [(2 ^ 63 + 8, 4, 1), (2 ^ 63 + 12, 4, 2)], 0, 0⟩, ⟨.bank 0 (2 ^ 63 + 2 ^ 32) 8 1 4, 0, 0⟩]

/-- Blocks that go by a steer register, directly and not, by RET and past a loop; that fall through with each act; that end a loop's
iteration; and one that holds accesses. -/
def tBlocks : List Ctx :=
  [tEnded .fall .none none true 1 0 false, tEnded (.steer 0x1034 false true) .none none true 0 1 false, tEnded (.steer 0x1000 true false) .none none true 2 0 false,
    tEnded (.ret 0x2000) .none none true 4 0 false, tEnded .fall .eret none true 16 0 true, tEnded .fall .none (some 0) true 8 0 false,
    tEnded (.zeroLoop 0x1034) .none none true 0 1 false, tEnded .fall (.sync 15 false) none true 1 0 false, tEnded .fall (.sync 0 true) none true 1 0 false,
    tEnded .fall (.waitRow 1535) none true 1 0 false, tEnded .fall (.waitFlag (2 ^ 63) 0) none true 1 0 false, tEnded .fall .susp none true 16 0 false,
    tEnded .fall .yield none true 16 0 true, tEnded .fall .exit none true 16 0 false, { tEnded .fall .none none true 1 0 false with held := tHeld }]

/-- Such a block is checkable and plain, and its riser holds its digests. -/
theorem meets_commit : ∀ c ∈ tBlocks,
    (∃ e, c.phase = .ended e ∧ Checkable (bare c tis) 0 c e ∧ e.next = 0x1040 ∧ e.isEnd = true ∧ e.lost = false) ∧ PlainBlock c ∧ c.strayLoad = false ∧
      c.x.Pairwise (fun a b => a.1 < b.1) ∧ c.pend = [] ∧ c.empties = [] ∧ (∀ h ∈ released c, ∀ a, h.k ≠ .mts 0x2C a) ∧
      ∃ u v, fetchWords 4 (bare c tis) 0 0x1030 = (u, .ok v) ∧ v % 2 ^ 32 = c.odig.toNat ∧ v / 2 ^ 32 % 2 ^ 32 = c.ddig.toNat ∧ v / 2 ^ 96 % 2 ^ 8 = 0 := by
  intro c h
  refine ⟨?_, ⟨?_, ?_, ?_⟩, ?_, ?_, ?_, ?_, fun k hk a e => ?_, ?_⟩
  · simp only [tBlocks, List.mem_cons, List.not_mem_nil, or_false] at h
    rcases h with rfl | rfl | rfl | rfl | rfl | rfl | rfl | rfl | rfl | rfl | rfl | rfl | rfl | rfl | rfl <;>
      exact ⟨_, rfl, ⟨by decide +kernel, by decide +kernel, rfl, fun _ h => absurd h List.not_mem_nil, by decide +kernel, rfl⟩, rfl, rfl, rfl⟩
  · revert c h; decide +kernel
  · revert c h; decide +kernel
  · revert c h; decide +kernel
  · revert c h; decide +kernel
  · revert c h; decide +kernel
  · revert c h; decide +kernel
  · revert c h; decide +kernel
  · have : ∀ c ∈ tBlocks, ∀ h ∈ released c, (match h.k with | .mts _ _ => true | _ => false) = false := by decide +kernel
    have g := this c h k hk
    rw [e] at g; cases g
  · simp only [tBlocks, List.mem_cons, List.not_mem_nil, or_false] at h
    rcases h with rfl | rfl | rfl | rfl | rfl | rfl | rfl | rfl | rfl | rfl | rfl | rfl | rfl | rfl | rfl <;>
      exact ⟨_, _, rfl, by decide +kernel, by decide +kernel, by decide +kernel⟩

/-- The successor words name the VA that the direct transfers take; a VA whose held header is an entry bundle's is one. -/
theorem meets_commit_targets : Names 0x1030 (1 * 256) 0x1034 ∧ ¬ Names 0x1030 4 0x1030 ∧
    (entryBundle (bare { tc with lines := [(0x1000, 0x202, 0)] } tis) 0 2 0x1000).2.toOption = some true := by
  refine ⟨⟨by decide, by decide⟩, fun h => h.1 (by decide), by decide +kernel⟩

/-- A handler that ends by ERET with a verdict of local among its held accesses, after the first seal fault. -/
def tVerdict : Ctx :=
  let c := tEnded .fall .eret none true 16 0 true
  { c with held := [⟨.mts 0x2C 2, 0, 0⟩], arch := { c.arch with ecause := 0x14 } }

theorem meets_commit_verdict : released tVerdict = [⟨.mts 0x2C 2, 0, 0⟩] ∧ tVerdict.outst = [] ∧
    (verdict { (bare tVerdict tis).setCtx 0 { tVerdict with held := [], out := [] } with regs := [(rkey 1 0x402 0, 3)] } 0 (2 % 4)).retiring 0 = true := by decide +kernel

/-- Whether the own scratchpad takes an access, and an access of each kind that a commit performs. -/
theorem meets_performed : (∃ a, ownLoc ts tc 0 (2 ^ 63) = some a) ∧ (∃ w a, locate tPart tc.part (2 ^ 63) 8 true false false 0 = (w, .ok a)) ∧
    ¬ (∃ a, ownLoc ts tc 0 (2 ^ 63 + 2 ^ 32) = some a) ∧ (∃ w a, locate tPart tc.part (2 ^ 63) 256 true false false 0 = (w, .ok a)) ∧
    (vaClass ts.capSpad (2 ^ 63)).translated = false ∧ (vaClass ts.capSpad 64).translated = true ∧ ts.tags.Pairwise (fun x y => x.1 < y.1) ∧
    ts.clusters.Pairwise (fun x y => x.1 < y.1) ∧ ts.ctxs.Pairwise (fun x y => x.1 < y.1) := by
  refine ⟨?_, okOf_some (by decide +kernel), ?_, okOf_some (by decide +kernel), by decide +kernel⟩
  · exact Option.isSome_iff_exists.1 (by decide +kernel)
  · rintro ⟨a, h⟩
    have : ownLoc ts tc 0 (2 ^ 63 + 2 ^ 32) = none := by decide +kernel
    rw [this] at h; cases h

/-- The same block with another digest, recast or not, under a threshold that its fault reaches, and at a bundle that is no end bundle. -/
theorem meets_seal_failures : State.reset.Canon ∧ (tEnded .fall .none none true 1 0 false).recasts < ((bare tc tis).reg 1 0x401 0).toNat % 8 ∧
    ((bare tc tis).reg 1 0x401 0).toNat % 8 ≤ ({ tEnded .fall .none none true 1 0 false with recasts := 2, odig := 7 } : Ctx).recasts ∧
    (withRegs [(rkey 1 0x403 0, 0)]).reg 1 0x403 0 = 0 ∧ ((bare tc tis).reg 1 0x401 0).toNat % 8 ≠ 0 ∧
    ((withRegs [(rkey 1 0x402 0, 3)]).reg 1 0x403 0).toNat ≤ min 255 (((withRegs [(rkey 1 0x402 0, 3)]).reg 1 0x402 0).toNat + 1) ∧
    Checkable (bare (tEnded .fall .none none false 1 0 false) tis) 0 (tEnded .fall .none none false 1 0 false)
      ⟨0x1028, 0x1040, false, false, .fall, .none, none, false⟩ := by
  refine ⟨reset_canon, by decide +kernel, by decide +kernel, by decide +kernel, by decide +kernel, by decide +kernel, ?_⟩
  exact ⟨by decide +kernel, by decide +kernel, rfl, fun _ h => absurd h List.not_mem_nil, rfl, rfl⟩

/-- An image in the scratchpad of tile 0, whose bundle at 0x80 is an entry bundle. -/
def tImg : Image := ⟨2 ^ 63, 0x100, 0, 0x100, 2, 0, 0, [0x80]⟩

/-- A context whose fault has met its fills, with FLT_VEC set, in the context's own step. -/
def tFault (vec : W64) : State :=
  { bare { tc with phase := .faulting 0x18 0 5 255 0 false } tis with
    turn := some (.ctx 0), regs := [(rkey 4 0x1000 0, 1), (rkey 4 0x1006 0, vec), (rkey 4 0x1100 0, 0x8000)], images := [(0, [tImg])],
    mem := [(region 1 0x80, 2), (region 1 0x81, 2)] }

theorem meets_handler : (tFault (2 ^ 63 + 0x81)).turn = some (.ctx 0) ∧ (tFault (2 ^ 63 + 0x81)).Canon ∧
    (tFault (2 ^ 63 + 0x81)).ctx? 0 = some { tc with phase := .faulting 0x18 0 5 255 0 false } ∧
    ((tFault (2 ^ 63 + 0x81)).reg 4 0x1006 0).toNat % 2 = 1 ∧ EntryIn (tFault (2 ^ 63 + 0x81)) 0 (((tFault (2 ^ 63 + 0x81)).reg 4 0x1006 0).toNat / 4 * 4) tImg ∧
    tc.priv = false ∧ ((tFault 0).reg 4 0x1006 0).toNat % 2 ≠ 1 ∧ (tFault (2 ^ 63 + 0x81)).ctxs.Pairwise (fun a b => a.1 < b.1) ∧ tc.fills = [] ∧ tc.outst = [] ∧ tc.out = [] := by
  refine ⟨rfl, ⟨by constructor <;> decide +kernel, List.pairwise_map.1 ?_⟩, by decide +kernel, by decide +kernel,
    ⟨by decide +kernel, ⟨2, false, 2, 0, 0, 0⟩, by decide +kernel, by decide⟩, rfl, by decide +kernel⟩
  show List.Pairwise (· < ·) [rkey 4 0x1000 0, rkey 4 0x1006 0, rkey 4 0x1100 0]
  decide +kernel

/-- A fault reply of a load. -/
theorem meets_fault_reply : (∀ g ∈ [(⟨.x 1, 8, [⟨9, 2 ^ 63, 8, 0, some 0, 0⟩], [], 0, 0, 0, false, 0, false, 0, 5, some (3, 2 ^ 63, 255, 0)⟩ : Fill)],
    ∀ p ∈ g.parts, p.got.isSome = true) := by decide

/-! Witnesses: contexts, waits, cards -/

/-- A CR in plain cluster memory whose words start at generation 2 with LDEP 1, queued at cluster 0 for tile 0. -/
def crVa : Nat := 2 ^ 63 + 2 ^ 32

/-- The state in which slot 0 of tile 0 takes it; word 3 holds LDEP. -/
def tLoad (w3 : Nat) : State :=
  { tPart with
    mem := cells (region 2 0) 8 0x1000 ++ cells (region 2 8) 8 0x8000000 ++ cells (region 2 24) 8 w3,
    live := [{ tLive with cr := crVa }], clusters := [(0, { contq := [(0, crVa)] })] }

/-- The words that the load reads. -/
def loadWords (w3 : Nat) : List Nat :=
  match acqRead8 (dropWaiter (unqueue (tLoad w3) 0 0 crVa) 0 crVa) 0 (crVa + 8) (srcTile 0) 3 with
  | (u, .ok _) => match vaRead u 0 crVa 64 0 with
    | (_, .ok l) => (List.range 8).map fun k => leNat ((l.drop (8 * k)).take 8)
    | _ => []
  | _ => []

/-- A die whose log INV_ERR has stopped before its entries. -/
def tStuck : State := withRegs [(rkey 3 0xC05 3, 0x30), (rkey 3 0xC06 3, 1)]

theorem meets_context_load : (tLoad 0x10000).ctxs.Pairwise (fun a b => a.1 < b.1) ∧ canLoad (tLoad 0x10000) 0 0 = true ∧
    loadPick (tLoad 0x10000) 0 0 = some (0, crVa) ∧ (loadWords 0x10000).length = 8 ∧ crBad (loadWords 0x10000) = false ∧
    (loadWords 0x10000).getD 1 0 / 2 ^ 33 % 2 = 0 ∧ crBad (loadWords 0) = true ∧ LogStuck tStuck 3 := by unfold LogStuck; decide +kernel

/-- A context that leaves its slot, suspended, exiting, pre-empted, or waiting long enough to be written back. -/
theorem meets_write_backs : (∀ e ∈ [(0, 8), (4, 4), (3, 3), (6, 6)], drained { tc with phase := .leaving e.2, preempt := true } = true ∧
    (bare { tc with phase := .leaving e.2 } tis).ctx? 0 = some { tc with phase := .leaving e.2 }) ∧
    cardsDone (bare tc tis) 0 0 = true ∧ canWaitBack (bare { tc with phase := .waiting 1 0 0 true 4097 } tis) 0 = true ∧
    canWaitBack (bare { tc with phase := .waiting 1 0 0 true 4096 } tis) 0 = false := by decide +kernel

/-- Resident waiters of a flag, a deadline and a barrier; a written-back one. -/
theorem meets_waits : (bare { tc with phase := .waiting 2 crVa 0 true 0 } tis).ctx? 0 = some { tc with phase := .waiting 2 crVa 0 true 0 } ∧
    acqOpen tc = false ∧ storeOpen (bare tc tis) tc crVa 8 = false ∧ storeOpen (bare tc tis) { tc with outst := [⟨0, crVa, 8, none, false, 0⟩] } crVa 8 = true ∧
    (∃ u v, acqRead8 { bare { tc with phase := .waiting 2 crVa 0 true 0 } tis with regs := tPart.regs } 0 crVa (srcTile 0) 3 = (u, .ok v)) ∧
    (0x10000 : W64).toNat / 2 ^ 16 ≠ 0 ∧ (0x10000 : W64).toNat / 2 ^ 16 ≤ (0x1FFFF : W64).toNat / 2 ^ 16 ∧
    (findWaiter { State.reset with clusters := [(63, { waiters := [⟨31, 0x4000, 2, crVa, 0, 1⟩] })] } 31 0x4000).isSome = true ∧
    State.reset.ctx? 0x10000 = none ∧ (∀ l, State.reset.live? 0 0 = some l → l.st ≠ 3) := by
  refine ⟨by decide +kernel, by decide +kernel, by decide +kernel, by decide +kernel, okOf_some (by decide +kernel), by decide, by decide, by decide +kernel,
    by decide +kernel, fun l h => ?_⟩
  have : State.reset.live? 0 0 = none := rfl
  rw [this] at h; cases h

/-- Two tiles whose autotomy waits, tile 511 first. -/
def tAuto : State := { State.reset with autoq := [⟨1, 511, 4⟩, ⟨2, 3, 4⟩] }

theorem meets_barrier_and_windows : State.reset.Canon ∧ (withRegs [(rkey 4 0x102F 31, 0x208001)]).rn 4 0x102F 31 % 2 ^ 11 = 1 ∧
    (withRegs [(rkey 4 0x102F 31, 0x208001)]).rn 4 0x102F 31 / 2 ^ 21 % 2 ^ 11 = 1 ∧
    ((withRegs [(rkey 1 0x402 511, 3), (rkey 1 0x404 511, 1)]).reg 1 0x402 511).toNat < ((withRegs [(rkey 1 0x402 511, 3)]).reg 1 0x403 511).toNat ∧
    (({ withRegs [(rkey 1 0x404 511, 1)] with tiles := [(511, { cycle := 1 })] } : State).tile 511).sfcAt + 1 ≤ 1 ∧
    tAuto.retiring 511 = true ∧ tAuto.retiring 3 = true ∧ tAuto.autoq.head?.map (·.tile) = some 511 ∧ tAuto.autoq.head?.map (·.tile) ≠ some 3 ∧
    State.reset.ctx? 1022 = none := ⟨reset_canon, by decide +kernel⟩

/-- A card of cluster 0. -/
def tCard (op : Nat) (st : CardState) (w1 w2 w3 : W64) : Card :=
  { id := 1, part := 0, cr := 0, ctxno := 0, serial := 0, prio := 1, queue := 0, q := [BitVec.ofNat 64 op, w1, w2, w3], guard := 0, st := st,
    rlo := 0, rhi := 64, wlo := 64, whi := 128, edges := [], ill := false, rows := 0, sentAt := 0 }

/-- The machine with cards in cluster 0. -/
def withCards (l : List Card) : State := { tPart with clusters := [(0, { cards := l })] }

theorem meets_card_entry : (withCards [tCard 1 .posted 0 0 0]).card? 0 1 = some (tCard 1 .posted 0 0 0) ∧ (tCard 1 .posted 0 0 0).ill = false ∧
    (∃ m ∈ ((withCards [{ tCard 1 .posted 0 0 0 with id := 0 }, tCard 1 .posted 0 0 0]).cl 0).cards, m.id < 1 ∧ m.st = .posted) ∧
    (∀ m ∈ ((withCards [tCard 1 .posted 0 0 0]).cl 0).cards, m.id < 1 → m.st ≠ .posted) ∧
    (((withCards [tCard 1 .posted 0 0 0]).cl 0).cards.filter Card.inWindow).length < 64 ∧
    cardReady (withCards [tCard 1 .windowed 0 0 0]) 0 (tCard 1 .windowed 0 0 0) = true ∧ (tCard 1 .windowed 0 0 0).kind = 0 ∧
    (∃ e < 2, ∀ m ∈ ((withCards [tCard 1 .windowed 0 0 0]).cl 0).cards, m.kind = 0 → m.st ≠ .running e) ∧
    ((withCards [tCard 1 .windowed 0 0 0]).cl 0).gens.getD 0 1 = 1 := by
  exact ⟨rfl, rfl, ⟨_, .head _, by decide, rfl⟩, by decide +kernel, by decide +kernel, by decide +kernel, rfl, ⟨0, by decide, by decide +kernel⟩, rfl⟩

/-- A VA in the scratchpad of a tile of that cluster that is not placed. -/
def badVa : Nat := 2 ^ 63 + 7 * 2 ^ 20

/-- A running card of an operation: one row of 8 bytes, or one entry of index below 1, from and to plain cluster memory. -/
def tRow (op : Nat) (src : Nat := crVa) : Card :=
  tCard op (.running 0) (BitVec.ofNat 64 src) (BitVec.ofNat 64 (crVa + 256)) (if op = 4 then 0x100010008 else 0x10008)

/-- The machine with that card, and an index out of range and a VA in memory. -/
def tCards (k : Card) : State := { withCards [k] with mem := cells (region 2 64) 8 5 ++ cells (region 2 128) 8 crVa }

theorem meets_card_counts : (∀ op ∈ [1, 2, 3, 4, 5], (tCards (tRow op)).card? 0 1 = some (tRow op) ∧
      (cardCount (tCards (tRow op)) 0 (tRow op)).2.toOption = some 1 ∧ (tRow op).remote (tCards (tRow op)) = false) ∧
    okOf (cardCount (tCards (tRow 1)) 0 { tRow 1 with guard := badVa }) = false ∧ (cardCount (tCards (tRow 1)) 0 (tCard 1 (.running 0) 0 0 8)).2.toOption = some 0 := by
  decide +kernel

/-- Rows that are made, and rows that fault. -/
theorem meets_card_rows : (∀ k ∈ [tRow 1, tRow 2, tRow 3 (crVa + 128), tRow 5], k.rb = 8 ∧ k.dst % vaLine k.dst + k.rb ≤ vaLine k.dst ∧ (cardStep (tCards k) 0 k 0).2 = none) ∧
    (∃ x, RowsDone 0 (tRow 1) 0 1 (tCards (tRow 1)) x) ∧ (∃ y bad, cardStep (tCards (tRow 1)) 0 (tRow 1 badVa) 0 = (y, some bad)) ∧
    exchangeOf (tCards (tRow 1)) 0 (crVa + 256) = none ∧ okOf (vaRead (engReqs (tCards (tRow 1)) 0 (tRow 1) [crVa]) 0 crVa 8 0) = true ∧
    okOf (vaRead8 (engReqs (tCards (tRow 3)) 0 (tRow 3) [crVa]) 0 crVa 0) = true ∧ okOf (vaRead8 (engReqs (tCards (tRow 3)) 0 (tRow 3) [badVa]) 0 badVa 0) = false := by
  have step : ∀ {r : State × Option Bad}, r.2 = none → ∃ u, r = (u, none) := fun {r} h => ⟨r.1, by rw [← h]⟩
  refine ⟨by decide +kernel, ?_, ?_, by decide +kernel, by decide +kernel, by decide +kernel, by decide +kernel⟩
  · obtain ⟨u, h⟩ := step (r := cardStep (tCards (tRow 1)) 0 (tRow 1) 0) (by decide +kernel)
    exact ⟨u, u, h, rfl⟩
  · have h : (cardStep (tCards (tRow 1)) 0 (tRow 1 badVa) 0).2.isSome = true := by decide +kernel
    obtain ⟨b, h⟩ := Option.isSome_iff_exists.1 h
    exact ⟨_, b, by rw [← h]⟩

/-- Bytes that an access read. -/
def readOf (r : State × Except Bad (List Nat)) : Option (List Nat) := r.2.toOption

theorem readOf_some {r : State × Except Bad (List Nat)} {b : List Nat} (h : readOf r = some b) : ∃ u, r = (u, .ok b) := by
  obtain ⟨u, x⟩ := r
  cases x with
  | ok a => cases h; exact ⟨u, rfl⟩
  | error _ => cases h

/-- A stream of one entry is read, then accumulated; and one whose first entry is out of range. -/
theorem meets_card_windows : (∃ x, ScWindows 0 (tRow 4) 0 [[(0, 0)]] (tCards (tRow 4)) x) ∧ ScWindows 0 (tRow 4 (crVa + 64)) 0 [] (tCards (tRow 4)) (tCards (tRow 4)) ∧
    (∃ z, vaRead (engReqs (tCards (tRow 4)) 0 (tRow 4) [crVa + 64]) 0 (crVa + 64) 16 0 = (z, .ok (5 :: List.replicate 15 0))) ∧ (tRow 4).w 3 / 2 ^ 32 = 1 ∧
    (tRow 4).w 3 / 2 ^ 32 ≤ leNat ((5 :: List.replicate 15 0).take 8) := by
  refine ⟨?_, rfl, readOf_some (by decide +kernel), by decide, by decide⟩
  obtain ⟨u, h⟩ := readOf_some (r := vaRead (engReqs (tCards (tRow 4)) 0 (tRow 4) [(((tRow 4).w 1) + 16 * 0) % 2 ^ 64]) 0 ((((tRow 4).w 1) + 16 * 0) % 2 ^ 64) 16 (0 / 16)) (b := List.replicate 16 0)
    (by decide +kernel)
  have e : u = (vaRead (engReqs (tCards (tRow 4)) 0 (tRow 4) [(((tRow 4).w 1) + 16 * 0) % 2 ^ 64]) 0 ((((tRow 4).w 1) + 16 * 0) % 2 ^ 64) 16 (0 / 16)).1 := by rw [h]
  subst e
  have g : okOf (bankFar (engReqs (vaRead (engReqs (tCards (tRow 4)) 0 (tRow 4) [(((tRow 4).w 1) + 16 * 0) % 2 ^ 64]) 0
      ((((tRow 4).w 1) + 16 * 0) % 2 ^ 64) 16 (0 / 16)).1 0 (tRow 4) [(((tRow 4).dst + (tRow 4).rb * 0) % 2 ^ 64)]) 0
      (((tRow 4).dst + (tRow 4).rb * 0) % 2 ^ 64) (tRow 4).rb ((tRow 4).w 0 / 2 ^ 11 % 8) (windowValue (tRow 4) [(0, 0)] 0) (0 / 16)) = true := by decide +kernel
  obtain ⟨v, old, g⟩ := okOf_some g
  exact ⟨v, _, v, ⟨_, _, h, by decide, by decide, by decide, rfl⟩, ⟨v, old, by decide, g, rfl⟩, rfl⟩

/-- An accumulation whose one entry has a target that faults: the scratchpad of a tile that is not placed, and a misaligned VA. -/
theorem meets_card_faults : let k : Card := { tRow 4 with q := [4, BitVec.ofNat 64 crVa, BitVec.ofNat 64 badVa, 0x100010008] }
    (∃ y, ReadsEntries 0 k 0 ([] ++ (0, 0) :: []) (tCards k) y ∧ Accumulates 0 k [] (([] : List (Nat × Nat)).map (·.1)).eraseDups y y ∧
      ∃ v bad, bankFar (engReqs y 0 k [(k.dst + k.rb * 0) % 2 ^ 64]) k.part ((k.dst + k.rb * 0) % 2 ^ 64) k.rb (k.w 0 / 2 ^ 11 % 8) 0 (0 / 16) = (v, .error bad)) ∧
    k.rb = 8 ∧ (k.dst + k.rb * 0) % 2 ^ 64 % k.rb = 0 ∧ (badVa + 4) % 8 ≠ 0 := by
  intro k
  obtain ⟨u, h⟩ := readOf_some (r := vaRead (engReqs (tCards k) 0 k [(k.w 1 + 16 * 0) % 2 ^ 64]) k.part ((k.w 1 + 16 * 0) % 2 ^ 64) 16 (0 / 16))
    (b := List.replicate 16 0) (by decide +kernel)
  have e : u = (vaRead (engReqs (tCards k) 0 k [(k.w 1 + 16 * 0) % 2 ^ 64]) k.part ((k.w 1 + 16 * 0) % 2 ^ 64) 16 (0 / 16)).1 := by rw [h]
  subst e
  refine ⟨⟨_, ⟨_, _, h, by decide, by decide, by decide, rfl⟩, rfl, okOf_none (by decide +kernel)⟩, by decide, by decide, by decide⟩

/-- Cards for chip 1 at each stage: not begun, counted, with a packet of a row unsent, with the flag to send, and complete. -/
def tFarCard (n : Option Nat) (buf : List Pkt) (rows : Nat) (fofs : Bool) (flagged : Bool) (acks : Nat) : Card :=
  { tRow 2 with
    q := [BitVec.ofNat 64 (2 + if fofs then 2 ^ 32 * 64 else 0), BitVec.ofNat 64 crVa, BitVec.ofNat 64 (crVa + 256 + 2 ^ 48), 0x10008],
    count := n, buf := buf, rows := rows, flagged := flagged, acks := acks }

theorem meets_far_cards : (∀ k ∈ [tFarCard none [] 0 false false 0, tFarCard (some 1) [] 0 false false 0, tFarCard (some 1) [{ opc := 1, len := 8 }] 0 false false 0,
      tFarCard (some 1) [] 1 true false 0, tFarCard (some 1) [] 1 true true 0, tFarCard (some 1) [] 1 false false 0], (tCards k).card? 0 1 = some k ∧
      k.st = .running 0 ∧ k.op = 2 ∧ k.remote (tCards k) = true ∧ k.acks = 0 ∧ 0 < k.rb ∧ k.dst + k.rb ≤ 2 ^ 64) ∧
    (tFarCard (some 1) [] 1 true true 0).fofs = 64 ∧ (tFarCard (some 1) [] 1 false true 0).fofs = 0 ∧
    okOf (cardCount (tCards (tFarCard none [] 0 false false 0)) 0 (tFarCard none [] 0 false false 0)) = true ∧
    okOf (vaRead (engReqs (tCards (tFarCard (some 1) [] 0 false false 0)) 0 (tRow 2) [crVa]) 0 crVa 8 0) = true ∧
    (tCards (tFarCard (some 1) [{ opc := 1, len := 8 }] 0 false false 1)).card? 0 1 = some (tFarCard (some 1) [{ opc := 1, len := 8 }] 0 false false 1) ∧
    ({ who := 0x10000, rid := 1 } : Pkt).who = 0x10000 + 0 := by decide +kernel

/-- A card whose acknowledgement is overdue, and finished ones that are their context's next, with and without a flag. -/
theorem meets_card_ends : 0 + ((withCards []).reg 4 0x1008 0).toNat ≤ (0x5F5E100 : W64).toNat ∧ (tFarCard (some 1) [] 1 true true 1).sentAt = 0 ∧
    cardsOf (withCards [tCard 1 (.finished 3 0) 0 0 0]) 0 0 = [tCard 1 (.finished 3 0) 0 0 0] ∧ (tCard 1 (.finished 3 0) 0 0 0).serial = tc.cmpl ∧
    ({ withCards [tCard 1 (.finished 3 0) 0 0 0] with ctxs := [(0, tc)] } : State).ctxs.find? (fun p => p.2.part == 0 && p.2.cr == 0) = some (0, tc) ∧
    (∀ m ∈ ((withCards [tCard 1 (.finished 3 0) 0 0 0]).cl 0).cards, m.id = 1 → m = tCard 1 (.finished 3 0) 0 0 0) ∧
    (∀ sc ∈ [0, 3], (tCard (1 + 2 ^ 8 * sc + 2 ^ 32 * 64) (.finished 0 0) 0 (BitVec.ofNat 64 crVa) 0).fofs = 64 ∧
      (tCard (1 + 2 ^ 8 * sc + 2 ^ 32 * 64) (.finished 0 0) 0 (BitVec.ofNat 64 crVa) 0).scope = sc ∧
      (tCard (1 + 2 ^ 8 * sc + 2 ^ 32 * 64) (.finished 0 0) 0 (BitVec.ofNat 64 crVa) 0).flagVa = crVa + 64) ∧
    okOf (bankFar (withCards []) 0 (crVa + 64) 8 0 1 0) = true ∧ okOf (bankFar (withCards []) 0 64 8 0 1 0) = false ∧
    (relFlag (withCards []) 0 (crVa + 64) 0 false).2.isNone = true := by decide +kernel

/-! Witnesses: collectives -/

/-- A two-member block of rank 0, its other member on chip 5: OP, DTYPE INT32, tree, group 0, COUNT 2, RECV in plain cluster memory, ROOT 1. -/
def tOp (op : Nat) (alg : Nat := 2) : COp :=
  { id := 3, part := 0, cr := crVa, die := 0, raw := op + 6 * 2 ^ 16 + 2 * 2 ^ 24 + crVa * 2 ^ 64 + (crVa + 256) * 2 ^ 128 + 2 * 2 ^ 192 + 1 * 2 ^ 512, alg := alg,
    n := 2, rank := 0, members := [0x80000000, 0x80000005], seqno := 0, started := 0, covered := [], armed := true, data := [] }

/-- Sequencer 0 holds that block, and a packet of an OPC sent for it to the sequencer of rank 1. -/
def withOp (o : COp) (opc : Nat := 6) : State :=
  { tPart with seqrs := [(0, { ops := [o], sent := [⟨{ opc := opc, cls := 2, rid := 9, who := 2, va := 0, flow := 0 }, 0, 0, 0, 0, 1, 0, 3⟩], nextId := 4 })] }

/-- A data packet with the block's key, and a tag. -/
def tData (tag : Nat) : Pkt := { opc := 6, len := 8, flow := 0, tag := tag, payload := 5 }

/-- The block's data for ring and tree reductions and others, in memory or in an exchange window, and unmatched. -/
theorem meets_collective_data : (withOp (tOp 2)).seqrs.Pairwise (fun a b => a.1 < b.1) ∧ ((withOp (tOp 2)).seqr 0).ops = [] ++ tOp 2 :: [] ∧
    (∀ op ∈ [0, 2], (tOp op).part = (tData 0).part ∧ (tOp op).flowKey = (tData 0).flow ∧ (tOp op).sig.toNat = (tData (tOp op).sig.toNat).tag ∧ (tOp op).sig.toNat ≠ 1) ∧ (tOp 0).alg ≠ 3 ∧ blockOp (tOp 0) ∈ [0, 1, 4] ∧ blockOp (tOp 2) ∉ [0, 1, 4] ∧
    (tOp 2).recvVa = crVa + 256 ∧ vaLine ((tOp 2).recvVa + 248) = 256 ∧ ((tOp 2).recvVa + 248) % 256 + 8 ≤ 256 ∧ exchangeOf (withOp (tOp 2)) 0 (crVa + 256) = none ∧
    (vaWrite (withOp (tOp 2)) 0 (crVa + 256) (List.replicate 8 5) false (srcSeq 0)).2 = none ∧
    (sramLoc (withOp (tOp 2)) 0 (vaClass (withOp (tOp 2)).capSpad (crVa + 256)) true).toOption.isSome = true ∧
    (sramLoc (withOp (tOp 2)) 0 (vaClass (withOp (tOp 2)).capSpad 64) true).toOption = none ∧ exchangeOf (withOp (tOp 2)) 0 (crVa + 0x300000) = some 0 ∧
    okOf (locateFar (withOp (tOp 2)) 0 (crVa + 0x300000) 8 true false false 0) = true ∧ exchangeOf (withOp (tOp 2)) 1 (crVa + 0x300000) = some 0 ∧
    okOf (locateFar (withOp (tOp 2)) 1 (crVa + 0x300000) 8 true false false 0) = false ∧
    (vaWrite (withOp (tOp 2)) 0 64 (List.replicate 8 5) false (srcSeq 0)).2.isSome = true ∧
    (tPart.seqr 0).ops = [] ∧ (tPart.seqr 0).park.length < 32 ∧ 32 ≤ ({ park := List.replicate 32 ⟨tData 0, 0, false⟩ } : Seqr).park.length := by
  decide +kernel

/-- An in-network reduction of 64 elements whose line a second packet completes. -/
theorem meets_whole_lines : let o : COp := { tOp 0 3 with raw := 6 * 2 ^ 16 + 2 * 2 ^ 24 + crVa * 2 ^ 64 + (crVa + 256) * 2 ^ 128 + 64 * 2 ^ 192, covered := [(0, 128)] }
    partBytes o = 256 ∧ blockOp o ∈ [0, 1, 4] ∧ o.alg = 3 ∧ o.recvVa = crVa + 256 ∧ (crVa + 384) / 256 * 256 = o.recvVa ∧
    (∀ b < 256, ∃ c ∈ o.covered ++ [(128, 128)], c.1 ≤ b ∧ b < c.1 + c.2) ∧ (withOp o).tags.Pairwise (fun a b => a.1 < b.1) ∧
    (sramLoc (withOp o) 0 (vaClass (withOp o).capSpad (crVa + 256)) true).toOption = some (region 2 256) ∧ region 2 256 < 6 * 2 ^ 60 := by decide +kernel

/-- A block of that key completed lately, and one did not. -/
theorem meets_late_data : CompletedLately { tPart with seqrs := [(0, { recent := [(0, 7, 0)] })], tsc := 0xF4240 } 0 (tData 7) ∧
    ¬ CompletedLately tPart 0 (tData 7) := by
  refine ⟨⟨(0, 7, 0), .head _, by decide +kernel, rfl, by decide +kernel⟩, fun h => ?_⟩
  exact absurd h.choose_spec.1 List.not_mem_nil

/-- The answer of rank 1's sequencer to the packet that is held, and one that names another core. -/
def tAnswer (opc reason : Nat) : Pkt := { opc := opc, reason := reason, rid := 9, va := (5 * 2 ^ 7 + 27) * 2 ^ 45 }

theorem meets_answers : ∀ opc ∈ [6, 8], let x : Sent := ⟨{ opc := opc, cls := 2, rid := 9, who := 2, va := 0, flow := 0 }, 0, 0, 0, 0, 1, 0, 3⟩
    ((withOp (tOp 2) opc).seqr 0).sent = [] ++ x :: [] ∧ ((withOp (tOp 2) opc).seqr 0).ops.find? (·.id == x.op) = some (tOp 2) ∧
    (∀ a ∈ [tAnswer 3 0, tAnswer 7 1, tAnswer 7 0], SeqAnswerOf x (tOp 2) a) ∧ ¬ SeqAnswerOf x (tOp 2) { opc := 3 } ∧
    SeqAnswerOf { x with pkt := { x.pkt with cls := 3 } } (tOp 2) { opc := 3 } ∧
    okOf (vaRead (withOp (tOp 2) opc) 0 (tOp 2).sendVa (tOp 2).sendLen 0) = true ∧ 0 < (tOp 2).sendLen := by
  unfold SeqAnswerOf; decide +kernel

/-- A retry that is due, packets parked too long, and a block whose timeout has come. -/
theorem meets_collective_timeouts : (⟨{}, 0, 0, 0, 0, 1, 5, 3⟩ : Sent).due ≠ 0 ∧ (⟨{}, 0, 0, 0, 0, 1, 5, 3⟩ : Sent).due ≤ (5 : W64).toNat ∧
    (⟨tData 0, 0, false⟩ : Parked).at_ + (tPart.reg 4 0x1009 0).toNat < (0xF4241 : W64).toNat ∧
    (tOp 2).started + (if (tOp 2).dw 6 = 0 then ((withOp (tOp 2)).reg 4 0x1008 0).toNat else (tOp 2).dw 6) ≤ (0x5F5E100 : W64).toNat ∧
    ((withOp (tOp 2)).seqr 0).ops.find? (·.id == (tOp 2).id) = some (tOp 2) ∧ (tOp 2).dw 5 = 0 ∧ (tOp 2).dw 7 = 0 ∧
    ({ tOp 2 with raw := (tOp 2).raw + crVa * 2 ^ 320 } : COp).dw 5 = crVa ∧ ({ tOp 2 with raw := (tOp 2).raw + (crVa + 512) * 2 ^ 448 } : COp).dw 7 % 32 = 0 ∧
    (relFlag tPart 0 crVa (srcSeq 0) false).2.isNone = true ∧ (relFlag tPart 0 (2 ^ 63) (srcSeq 0) false).2.isSome = true ∧
    (vaWrite tPart 0 (crVa + 512) (List.replicate 32 0) false (srcSeq 0)).2 = none ∧ exchangeOf tPart 0 (crVa + 512) = none ∧
    (vaWrite tPart 0 64 (List.replicate 32 0) false (srcSeq 0)).2.isSome = true ∧ leNat ((leBytes 8 2 ++ List.replicate 24 255).take 8) = 2 ∧
    (∀ j < 12, leNat (((leBytes 8 2 ++ List.replicate 24 255).drop (8 + 2 * j)).take 2) = ([] : List Nat).getD j 0xFFFF % 2 ^ 16) := by decide +kernel

/-- A reduction with its own part and that of rank 1, whole. -/
def tWhole (op : Nat) : COp :=
  { tOp op with covered := [(8, 8)], data := [(0, [1, 0, 0, 0, 2, 0, 0, 0]), (8, [3, 0, 0, 0, 4, 0, 0, 0])] }

/-- A block of two ranks of which every rank gives a part, ready where rank 0 has the other's. -/
theorem blockReady_of {s : State} {die : Nat} {o : COp} (hn : o.n = 2) (hr : o.rank = 0) (ho : blockOp o = 0) (hc : HasCome o 1)
    (g : ∀ x ∈ (s.seqr die).sent, x.op ≠ o.id) : BlockReady s die o := by
  refine ⟨fun r h => ?_, g⟩
  have h : r < 2 ∧ r ≠ 0 := by simpa [NeedsRank, hn, hr, ho] using h
  obtain rfl : r = 1 := by omega
  exact hc

theorem meets_ready_blocks : NeedsRank (tOp 0) 1 ∧ ¬ HasCome (tOp 0) 1 ∧ SendsRank (tOp 0) 1 ∧
    (∀ r < 2, Staged (tWhole 0) r ([[1, 0, 0, 0, 2, 0, 0, 0], [3, 0, 0, 0, 4, 0, 0, 0]].getD r [])) ∧ (∀ x ∈ ((withOp (tWhole 0)).seqr 1).sent, x.op ≠ 3) ∧
    ¬ BlockReady (withOp (tWhole 0)) 0 (tWhole 0) ∧ Awaits (withOp (tWhole 0)) 0 (tWhole 0) 1 ∧
    BlockReady { withOp (tWhole 0) with seqrs := [(0, { ops := [tWhole 0] })] } 0 (tWhole 0) := by
  refine ⟨?_, ?_, ?_, ?_, ?_, ?_, ?_, ?_⟩
  · unfold NeedsRank; decide +kernel
  · unfold HasCome; decide +kernel
  · unfold SendsRank; decide +kernel
  · unfold Staged; decide +kernel
  · decide +kernel
  · rintro ⟨_, h⟩
    have : ¬ ∀ x ∈ ((withOp (tWhole 0)).seqr 0).sent, x.op ≠ (tWhole 0).id := by decide +kernel
    exact this h
  · unfold Awaits; decide +kernel
  · exact blockReady_of (by decide +kernel) (by decide +kernel) (by decide +kernel) (by unfold HasCome; decide +kernel) (by decide +kernel)

theorem meets_collective_results : ∀ op ∈ [0, 1, 2, 3, 4, 5, 6, 7, 8], (tOp op).alg ≠ 3 ∧ blockOp (tOp op) = op ∧ (tOp op).dtype = 6 ∧ (tOp op).rank < (tOp op).n ∧
    blockRoot (tOp op) < (tOp op).n ∧ okOf (vaRead (withOp (tOp op)) 0 (tOp op).sendVa (tOp op).sendLen 0) = true ∧
    (tOp op).sendVa + (tOp op).sendLen ≤ 2 ^ 64 ∧ ({ tOp op with rank := 1 } : COp).rank = blockRoot (tOp op) := by decide +kernel

/-- Results of each REDOP of two ranks' elements 1, 2 and 3, 4: bytes, by REDOP. -/
theorem meets_reductions : (tWhole 0).count = 2 ∧ (∀ j < 2, leNat (([4, 0, 0, 0, 6, 0, 0, 0].drop (4 * j)).take 4) =
      ((List.range 2).map fun r => leNat ((([[1, 0, 0, 0, 2, 0, 0, 0], [3, 0, 0, 0, 4, 0, 0, 0]].getD r []).drop (4 * j)).take 4)).sum % 2 ^ 32) ∧
    (∀ op ∈ [0, 1, 2, 3, 4], ({ tWhole 0 with raw := (tWhole 0).raw + op * 2 ^ 8 } : COp).redop = op) := by decide +kernel

/-- A floating-point reduction of two ranks whose parts are staged. -/
theorem meets_float_reductions : let o : COp := { tWhole 0 with raw := (tWhole 0).raw - 5 * 2 ^ 16 }
    o.dtype = 1 ∧ o.redop = 0 ∧ o.n ≤ 4096 ∧ o.rank < o.n ∧
    (∀ r < 2, Staged o r ([[1, 0, 0, 0, 2, 0, 0, 0], [3, 0, 0, 0, 4, 0, 0, 0]].getD r []) ∧
      ∀ z ∈ [[1, 0, 0, 0, 2, 0, 0, 0], [3, 0, 0, 0, 4, 0, 0, 0]].getD r [], z < 256) := by unfold Staged; decide +kernel

/-- Writes of a line, across lines, and one that faults. -/
theorem meets_line_writes : exchangeOf tPart 0 (crVa + 256) = none ∧ vaLine (crVa + 256) = 256 ∧ (crVa + 256) % 256 + 256 ≤ 256 ∧
    (vaWrite tPart 0 (crVa + 256) (List.replicate 256 1) false (srcSeq 0)).2 = none ∧ (63 + [1].length) % 64 = 0 ∧ vaLine 63 = 64 ∧
    (crVa + 255 + [1].length) % 256 = 0 ∧ (seqWrite tPart 0 0 (crVa + 255) [1] fun _ => 0).2 = none ∧ (seqWrite tPart 0 0 64 [1] fun _ => 0).2.isSome = true := by
  decide +kernel

/-- A parked packet of the block's flow, alone. -/
theorem meets_unpark : (tData 0).part = (tOp 2).part ∧ (tData 0).flow = (tOp 2).flowKey ∧ (tData 0).opc = 6 ∧ ({ tData 0 with flow := 1 } : Pkt).flow ≠ (tOp 2).flowKey := by
  decide +kernel

/-- A polled context of CR 0x4000. -/
def tPolled : Live := { tLive with first := false, st := 1, rtb := crVa }

/-- A context with a ring table whose ring 63 has LOGN, EN, PROD and CONS 0 and a block of COUNT in memory, which names its group. -/
def tPoll (ctl prod base : Nat) (count : Nat := 2) : State :=
  { withRegs [(rkey 4 0x1000 0, 1), (rkey 4 0x1007 0, BitVec.ofNat 64 (crVa + 0x4000)), (rkey 4 0x1100 0, 0x8000)] with
    live := [tPolled], mem := cells (region 2 2016) 8 base ++ cells (region 2 2024) 8 ctl ++ cells (region 2 2032) 8 prod
      ++ cells (region 2 0x2000) 8 (2 + 6 * 2 ^ 16) ++ cells (region 2 0x2008) 8 crVa ++ cells (region 2 0x2010) 8 (crVa + 256)
      ++ cells (region 2 0x2018) 8 count ++ cells (region 2 0x4000) 8 (crVa + 0x5000) ++ cells (region 2 0x4008) 8 2
      ++ cells (region 2 0x5000) 4 0x80000000 ++ cells (region 2 0x5004) 4 0x80000005 }

/-- What a poll reads in turn: the descriptor, PROD, the block, and the group's members, with the state before those were read and after. -/
def polled (s : State) : Option (List Nat × Nat × List Nat × List Nat × Bool) :=
  match vaRead s 0 (crVa + 2016) 32 0 with
  | (u, .ok b) => match acqRead8 u 0 (crVa + 2032) (srcSeq 0) 3 with
    | (v, .ok prod) => match vaRead v 0 (crVa + 0x2000) 128 0 with
      | (x, .ok blk) =>
        let y := (relWrite8 x 0 (crVa + 2040) 1 false (srcSeq 0)).1
        let (w, ms) := groupOf y 0 0 0
        some (b, prod, blk, ms, decide (y.seqrs = w.seqrs ∧ y.ident = w.ident ∧ (w.seqr 0).nextId = 0))
      | _ => none
    | _ => none
  | _ => none

theorem meets_ring_poll : (tPoll (2 ^ 16 + 1) 1 (crVa + 0x2000)).live[0]? = some tPolled ∧ tPolled.st ≠ 4 ∧ tPolled.first = false ∧ tPolled.rtbBad = false ∧
    homeOf (tPoll (2 ^ 16 + 1) 1 (crVa + 0x2000)) tPolled = 0 ∧ tPolled.rtb ≠ 0 ∧ (tPolled.rtb + 32 * 63) % 2 ^ 64 = crVa + 2016 ∧
    polled (tPoll (2 ^ 16 + 1) 1 (crVa + 0x2000)) = some (leBytes 8 (crVa + 0x2000) ++ leBytes 8 (2 ^ 16 + 1) ++ leBytes 8 1 ++ leBytes 8 0, 1,
      leBytes 8 (2 + 6 * 2 ^ 16) ++ leBytes 8 crVa ++ leBytes 8 (crVa + 256) ++ leBytes 8 2 ++ List.replicate 96 0, [0x80000000, 0x80000005], true) ∧
    (polled (tPoll (2 ^ 16 + 1) 1 (crVa + 0x2000) 0)).isSome = true ∧
    okOf (vaRead (tPoll 0 0 0) 0 64 32 0) = false ∧ okOf (vaRead (tPoll 0 0 0) 0 64 128 0) = false ∧ okOf (acqRead8 (tPoll 0 0 0) 0 64 (srcSeq 0) 3) = false ∧
    okOf (vaRead (tPoll 0 0 0) 0 (crVa + 2016) 32 0) = true := by decide +kernel

/-- Descriptors that are not enabled, at their end, and ill-formed for each reason: DW1, DW0, PROD and CONS. -/
theorem meets_ring_reasons : (0 : Nat) / 2 ^ 16 % 2 = 0 ∧ (2 ^ 17 + 2 ^ 16 + 1) / 2 ^ 17 ≠ 0 ∧ (2 ^ 16 + 0) % 16 = 0 ∧ (crVa + 64) % 128 ≠ 0 ∧ (0 : Nat) < 1 ∧
    2 ^ ((2 ^ 16 + 1) % 16) < 3 - 0 ∧ ∀ ctl ∈ [0, 2 ^ 17 + 2 ^ 16 + 1, 2 ^ 16, 2 ^ 16 + 1], okOf (vaRead (tPoll ctl 3 (crVa + 64)) 0 (crVa + 2016) 32 0) = true := by decide +kernel

/-- That block is not ill-formed for its group, and one with a reserved bit is. -/
theorem meets_block_forms : ¬ IllFormed (tPoll (2 ^ 16 + 1) 1 (crVa + 0x2000)) tPolled (2 + 6 * 2 ^ 16 + crVa * 2 ^ 64 + (crVa + 256) * 2 ^ 128 + 2 * 2 ^ 192)
      [0x80000000, 0x80000005] ∧
    IllFormed (tPoll (2 ^ 16 + 1) 1 (crVa + 0x2000)) tPolled (2 ^ 63) [0x80000000] := by
  refine ⟨fun h => ?_, .inl (by decide)⟩
  simp only [IllFormed, IsOwnEntry] at h
  rcases h with h | h | h | h | h | h | h | h | h | h | h | h | h | h | h | h | h | h | h | h | h | h <;> revert h <;> decide +kernel

/-! Witnesses: eft cores, and whole steps -/

/-- Kernel 7 of core 11 of die 3: FLO 5, FHI 6, SLO 2, SHI 3, with EN, TRAPS and DIS in its EFT_KCTL, ARM of its second slot, and one word of code. -/
def tCore (kctl arm : W64) (e : Eft) : State :=
  { withRegs [(rkey 14 21 47, kctl), (rkey 14 22 47, 0x600000005), (rkey 14 23 47, 0x30002), (rkey 14 0x1700 47, 0xD8000000), (rkey 14 0x4030 47, arm)] with
    efts := [(47, e)] }

theorem tCore_canon (kctl arm : W64) (e : Eft) : (tCore kctl arm e).Canon := canon_of rfl (by
  show List.Pairwise (· < ·) [rkey 14 21 47, rkey 14 22 47, rkey 14 23 47, rkey 14 0x1700 47, rkey 14 0x4030 47]
  decide +kernel)

/-- A packet of that flow. -/
def tFlow (opc : Nat) : Pkt := { opc := opc, cls := 3, flow := 6, len := 4, payload := 5 }

theorem meets_arrivals : (tCore 0x10001 0 {}).Canon ∧ (tCore 0x10001 0 {}).efts.Pairwise (fun a b => a.1 < b.1) ∧ KernelOf (tCore 0x10001 0 {}) 47 7 (tFlow 6) ∧
    NoKernel (tCore 0x1 0 {}) 47 (tFlow 6) ∧ NoKernel (tCore 0x10001 0 {}) 47 { tFlow 6 with flow := 4 } ∧
    AnswerOf { opc := 6, flow := 6 } { opc := 3, flow := 6 } ∧ ¬ AnswerOf { opc := 6, flow := 5 } { opc := 3, flow := 6 } := by
  refine ⟨tCore_canon _ _ _, List.pairwise_singleton _ _, ?_, ?_, ?_, ⟨rfl, rfl, rfl, rfl⟩, fun h => absurd h.1 (by decide)⟩
  · simp only [KernelOf, TakesFlow]; decide +kernel
  · simp only [NoKernel, TakesFlow]; decide +kernel
  · simp only [NoKernel, TakesFlow]; decide +kernel

/-- The next packet of a core: of no kernel, under DIS sent on and not, with 64 packets held and fewer, without and with ARM, with room and
without; a ready parked packet; a packet sent. -/
theorem meets_runs_start : ((tCore 0x90001 0 { waiting := [tFlow 6] }).reg 14 21 47).toNat / 2 ^ 19 % 2 = 1 ∧
    ((tCore 0x90001 0 {}).reg 14 21 47).toNat / 2 ^ 17 % 2 = 0 ∧ slotWord (tCore 0x10001 0 {}) 47 7 (tFlow 6) = 48 ∧
    eFlow (tCore 0x10001 0 {}) 47 48 / 2 ^ 31 % 2 = 0 ∧ eFlow (tCore 0x10001 0x80000000 {}) 47 48 / 2 ^ 31 % 2 = 1 ∧
    ((tCore 0x10001 0 { waiting := [tFlow 6] }).eft 47).run = none ∧ ((tCore 0x10001 0 { waiting := [tFlow 6] }).eft 47).waiting = tFlow 6 :: [] ∧
    ({} : Eft).outb.length + 20 ≤ 64 ∧ ¬ ({ outb := List.replicate 45 ⟨{}, 0, 0, 0, 0, 1, 0, 0⟩ } : Eft).outb.length + 20 ≤ 64 ∧
    64 ≤ ({ outb := List.replicate 64 ⟨{}, 0, 0, 0, 0, 1, 0, 0⟩ } : Eft).outb.length ∧
    16 ≤ ({ park := List.replicate 16 ⟨{}, 0, false⟩ } : Eft).park.length ∧
    ({ park := [⟨tFlow 6, 0, true⟩] } : Eft).park.find? (·.ready) = some ⟨tFlow 6, 0, true⟩ ∧ (∀ x ∈ ({} : Eft).park, x.ready = false) := by decide +kernel

theorem meets_forwarding : Forwards (tCore 0xB0001 0 {}) 47 7 (tFlow 6) ∧ ¬ Forwards (tCore 0x90001 0 {}) 47 7 (tFlow 6) ∧
    ({} : Eft).outb = [] ∧ ({ outb := [⟨tFlow 6, 7, 0, 0, 0, 1, 5, 0⟩] } : Eft).outb = [] ++ ⟨tFlow 6, 7, 0, 0, 0, 1, 5, 0⟩ :: [] ∧ AnswerOf (tFlow 6) { tFlow 3 with reason := 1 } ∧
    (5 : Nat) ≤ (5 : W64).toNat ∧ 0 + ((tCore 0x10001 0 {}).reg 4 0x1008 0).toNat ≤ (0x5F5E100 : W64).toNat := by
  refine ⟨?_, ?_, rfl, rfl, ⟨rfl, rfl, rfl, rfl⟩, by decide, by decide +kernel⟩ <;> · unfold Forwards onwardOk; decide +kernel

/-- A kernel of one DONE is verified under EFT_KCTL = LEN 1 and EN, and one of length 0 is not. -/
theorem meets_kernel_enable : Verified (tCore 0 0 {}) 47 7 0x10001 ∧ ¬ Verified (tCore 0 0 {}) 47 7 0x10000 ∧ 0x10001 / 2 ^ 16 % 2 = 1 ∧
    ((tCore 0 0 {}).reg 14 21 47).toNat / 2 ^ 16 % 2 = 0 := by
  refine ⟨⟨by decide, by decide, ?_, ⟨.eftDone, by decide +kernel, .inl (by decide)⟩, by decide +kernel, by decide +kernel, by decide +kernel, by decide +kernel⟩,
    fun h => absurd h.1 (by decide), by decide, by decide +kernel⟩
  intro j h
  have : j = 0 := by omega
  subst this
  exact ⟨.eftDone, by decide +kernel, fun o h => by rcases h with h | h | h <;> cases h⟩

theorem meets_kernel_disable : (0x1 : Nat) / 2 ^ 16 % 2 = 0 ∧ ((tCore 0x10001 0 {}).reg 14 21 47).toNat / 2 ^ 16 % 2 = 1 ∧
    ((tCore 0x10001 0 { run := some tr }).eft 47).run = some tr ∧ ((tCore 0x10001 0 {}).eft 47).run = none ∧
    ((tCore 0x10001 0 {}).reg 14 (3 * (2047 / 256)) 47).toNat / 2 ^ 16 % 2 = 1 ∧ ((tCore 0x10001 0 {}).reg 14 (3 * (1791 / 256)) 47).toNat / 2 ^ 16 % 2 = 0 ∧
    ((tCore 0x10001 0 {}).reg 14 23 47).toNat % 2 ^ 10 ≤ 63 / 16 ∧ 63 / 16 ≤ ((tCore 0x10001 0 {}).reg 14 23 47).toNat / 2 ^ 16 % 2 ^ 10 ∧
    ¬ 64 / 16 ≤ ((tCore 0x10001 0 {}).reg 14 23 47).toNat / 2 ^ 16 % 2 ^ 10 := by decide +kernel

/-- A context that owns tile registers 0 to 7 only. -/
def tcFew : Ctx := { tc with tmask := 0xFF }

theorem meets_unexecuted : ts.iss = some tis ∧ ts.ctx? tis.ck = some tc ∧ predTrue tc (predField (.add (.isTrue 0) 1 2 3)) = false ∧
    predTrue tcFew (predField (.vadd .always (vf 4 256 0 1 0))) = true ∧ inFoot tcFew (.vadd .always (vf 4 256 0 1 0)) = false ∧ State.reset.iss = none ∧
    State.reset.cur = .none ∧ (decodeEft 0xD8000000).isSome = true := by decide +kernel

theorem meets_round_trip : (Instr.vadd (.isFalse 11) (vf 1 1535 0 1 0 (some 4) 6 3)).wf 1 = true ∧ (Instr.nop 3 1 7).wf 2 = true ∧ (Instr.eftTrap 0xFFFF).wf 2 = true ∧
    kernelForm (.eftTrap 0xFFFF) = true ∧ (Instr.add .always 31 31 31).slot = 1 ∧ (Instr.add .always 31 31 31).wf 2 = true ∧ Instr.tscTick.wf 2 = true ∧
    7 ≤ Instr.tscTick.slot ∧ kernelForm .tscTick = false ∧ 0x7C152960 / 2 ^ 20 % 2 ^ 6 < 0xB ∧
    (Instr.shli .always 31 1 (.ext 63)).wf 1 = true := by decide +kernel

/-- A step of an event, of a kernel, and of a tile whose context is about to issue ADD x10, x10, x11 alone. -/
theorem meets_step_event : ({ State.reset with turn := some (.event 0), events := [.tscTick] } : State).events[0]? = some .tscTick ∧
    (({ tCore 0x10001 0 { run := some { tr with kern := 7 } } with turn := some (.eft 3 11) } : State).eft (3 * 12 + 11)).run = some { tr with kern := 7 } ∧
    decodeEft ((tCore 0x10001 0 {}).rn 14 (0x1000 + (256 * 7 + 0)) 47) = some .eftDone := by decide +kernel

/-- The state that places that instruction. -/
def tAdd : State := State.reset.withFetchWord 32 0x7C152960

/-- The same in the tile's cycle of index 2, whose primary slot is 0. -/
def tStep : State := { tAdd with tiles := [(0, { cycle := 2 })] }

/-- The number that a fetch gives, where it gives one. -/
def wordOf {ε : Type} (r : State × Except ε Nat) : Option Nat := r.2.toOption

/-- The fetch of the bundle's header and of its slot's word in that step. -/
def tHead : State × Except Early Nat := codeWord { tStep with turn := none, tick := tStep.tick + 1 } 0 0 (tStep.ctx 0).pc (tStep.ctx 0).pc

/-- The fetch of the slot's word. -/
def tSlot : State × Except Early Nat := codeWords 1 tHead.1 0 1 (tStep.ctx 0).pc ((tStep.ctx 0).pc + 4)

/-- The header, which names slot 1 alone. -/
def tHdr : Header := ⟨2, false, 1, 0, 0, 0⟩

theorem meets_step_tile : tStep.turn = some (.tile 0) ∧ (tStep.tile 0).cycle % 16 ≠ 0 ∧ (tStep.tile 0).slottab = none ∧
    (tStep.rn 1 0x400 0).testBit ((tStep.tile 0).cycle % 16) = false ∧ tStep.ctx? 1 = none ∧ tStep.stalled = false := by decide +kernel

/-- The bundle of that step is fetched. -/
theorem meets_step_fetch : Fetched { tStep with turn := none, tick := tStep.tick + 1 } 0 tSlot.1 (tStep.ctx 0) tHdr 1 0x7C152960 (.add .always 10 10 11) := by
  have fetched : ∀ {r : State × Except Early Nat} {n : Nat}, wordOf r = some n → r = (r.1, .ok n) := by
    rintro ⟨u, x⟩ n h
    cases x with
    | ok a => cases h; rfl
    | error _ => cases h
  refine ⟨by decide +kernel, by decide +kernel, by decide +kernel, ⟨tHead.1, (wordOf tHead).getD 0, fetched (by decide +kernel), ?_,
    fetched (r := tSlot) (by decide +kernel)⟩, by decide +kernel, by decide, by decide +kernel, by decide +kernel, ?_, by decide +kernel⟩
  · decide +kernel
  · intro h
    cases (show endOnly (.add .always 10 10 11) = false by rfl).symm.trans h

/-- And it can issue; where a register that it names is empty, it waits. -/
theorem meets_step_checks : CanIssue tSlot.1 0 (tStep.ctx 0) tHdr 1 0x7C152960 (.add .always 10 10 11) ∧
    regsMeet (atIssue { tSlot.1.ctx 0 with empties := [xKey 10] }) (oneSlot (tStep.ctx 0) tHdr 1 0x7C152960 (.add .always 10 10 11)) = (none, true) := by
  refine ⟨⟨by decide +kernel, by decide +kernel, by decide +kernel, by decide +kernel, by decide +kernel⟩, by decide +kernel⟩

/-- Two contexts resident on tile 0, the second at a bundle of a slot, and the first, where told, with an empty register. -/
def tTwo (sl : Nat) (empty : Bool) : State :=
  let c := tStep.ctx 0
  { wrNat tStep (region 5 256) 9 (soloBundle sl 0x7C152960) with
    ctxs := [(0, { c with empties := if empty then [xKey 10] else [] }), (1, { c with pc := codeVa + 256 })] }

/-- Which of the two contexts have ended their blocks after a step. -/
def endedBy (s : State) : Option (Bool × Bool) :=
  let ended := fun (c : Ctx) => match c.phase with
    | .ended _ => true
    | _ => false
  match step s with
  | .next t => some (ended (t.ctx 0), ended (t.ctx 1))
  | _ => none

/-- R161: the second context issues beside the first where its slot is another one, not where it is the same, and where the first waits. -/
theorem test_merge : endedBy (tTwo 2 false) = some (true, true) ∧ endedBy (tTwo 1 false) = some (true, false) ∧ endedBy (tTwo 1 true) = some (false, true) := by
  decide +kernel

/-- A state whose next move is an event. -/
def tTick : State := { State.reset with turn := some (.event 0), events := [.tscTick] }

theorem meets_canonical_step : tTick.Canon ∧ (match step tTick with
    | .next s => s.tsc == 1
    | _ => false) = true := ⟨canon_of rfl (by decide), by decide +kernel⟩

/-! Single steps: results by hand from the rules -/

/-- The results that an instruction leaves due in `ts`, in order. -/
def due (i : Instr) (c : Ctx := tc) : List Wr :=
  match exec i { bare c tis with regs := ts.regs } with
  | .next t => ((t.ctx? 0).map fun c => c.pend.map (·.wr)).getD []
  | _ => []

/-- The first result due. -/
def first (i : Instr) (c : Ctx := tc) : Option Wr := (due i c).head?

/-- R314: 7 + (2^64 - 1) wraps to 6; R316: 7 × -1 high halves, signed -1 and unsigned 6. -/
theorem test_add_and_multiply : first (.add .always 1 4 5) = some (.x 1 6) ∧ first (.mulhs .always 1 4 5) = some (.x 1 (-1)) ∧
    first (.mulhz .always 1 4 5) = some (.x 1 6) := by decide +kernel

/-- R316: the quotient is truncated, a division by zero gives -1, and its remainder the dividend. -/
theorem test_divide : first (.div .always 1 4 0) = some (.x 1 (-1)) ∧ first (.rem .always 1 4 0) = some (.x 1 7) ∧
    first (.div .always 1 5 4) = some (.x 1 0) := by decide +kernel

/-- R315: the count of leading zeros of 0 is 64, of 7 is 61. -/
theorem test_clz : first (.clz .always 1 0) = some (.x 1 64) ∧ first (.clz .always 1 4) = some (.x 1 61) := by decide +kernel

/-- R318: -1 is below 7 signed and not below it unsigned. -/
theorem test_compare : first (.cmp .always 0 5 4 2) = some (.cond 0 true) ∧ first (.cmp .always 0 5 4 4) = some (.cond 0 false) := by decide +kernel

/-- R296: PREP by -1 word from the bundle at 0x1000. -/
theorem test_prep : first (.prep .always 3 (.short 0xFFFF)) = some (.target 3 0xFFC true false) := by decide +kernel

/-- Row 0 as ones in BF16 (0x3F80), row 1 as ulp ties: VADD 1 + 2^-8 rounds to even under RNE (R249, R353). -/
def tcRows : Ctx := { tc with rows := [(0, 0x3F80), (1, 0x3B80), (2, 0x7F)] }

/-- The low 16 bits of the row first due. -/
def low16 (i : Instr) : Option Nat :=
  match first i tcRows with
  | some (.row _ v) => some (v.toNat % 2 ^ 16)
  | _ => none

/-- RNE keeps 1 on the tie, RUP gives the next value; VADD.i8 wraps 0x7F + 0x7F to 0xFE; VMUL of BF16 ones is 1. -/
theorem test_vector_add : low16 (.vadd .always (vf 0 3 0 1 0)) = some 0x3F80 ∧ low16 (.vadd .always (vf 0 3 0 1 0 (some 2))) = some 0x3F81 ∧
    low16 (.vadd .always (vf 4 3 2 2 0)) = some 0xFE ∧ low16 (.vmul .always (vf 0 3 0 0 0)) = some 0x3F80 := by decide +kernel

/-- R356: a comparison that holds gives all ones. -/
theorem test_vector_compare : low16 (.vcmpLt .always (vf 0 3 1 0 0)) = some 0xFFFF ∧ low16 (.vcmpLt .always (vf 0 3 0 1 0)) = some 0 := by decide +kernel

/-- R381: MZERO of register 8 makes its 32 rows zero; R222 gives each a lineage beside it. -/
theorem test_mzero : (due (.mzero .always (xf 0 0 0 8 0 0 0 0 0 0))).head? = some (.row 256 0) ∧
    (due (.mzero .always (xf 0 0 0 8 0 0 0 0 0 0))).length = 64 := by decide +kernel

/-- R374, R256: MMA of BF16 ones over one step: (0, 0) is 1 x 1 and (0, 1) is 1 x 2^-8 as FP32. -/
theorem test_mma : (match first (.mma .always (xf 0 0 0 8 0 0 0 0 10 0)) tcRows with
    | some (.row 256 v) => some (v.toNat % 2 ^ 64)
    | _ => none) = some 0x3B8000003F800000 := by decide +kernel

/-- R230: ST is held with the low bytes of its register, and memory reads as before. -/
theorem test_store_held : (match exec (.st .always (mf 1 5 1 6)) ts with
    | .next t => some ((t.ctx 0).held.map (·.k), t.mem)
    | _ => none) = some ([.store (2 ^ 63 + 6) 2 0xFFFF], []) := by decide +kernel

/-- R310: TRAP raises user-trap with its code; R319: a privileged MFS in user mode raises priv-access. -/
theorem test_traps : (match exec (.trap .always 9) ts, exec (.mfs .always 1 0x400) ts with
    | .next a, .next b => ((a.ctx 0).phase, (b.ctx 0).phase)
    | _, _ => (.running, .running)) = (.faulting 0x18 1 9 255 0 false, .faulting 0x0D 1 0x1000 255 0 false) := by decide +kernel

/-- R89, R90: a kernel's ADD of 64 and 1, and BF taken by three words. -/
theorem test_kernel_scalars : (match exec (.eftAdd 4 1 2) (tEft tr), exec (.eftBf 3) (tEft tr) with
    | .next a, .next b => ((a.eft 0).run.map (fun r => (r.e.getD 4 0, r.pc)), (b.eft 0).run.map (·.pc))
    | _, _ => (none, none)) = (some (65, 1), some 3) := by decide +kernel

/-- R93: VMAX on INT32 lanes is signed: the larger of 1 and 0x7F800000. -/
theorem test_kernel_vmax : (match exec (.eftVmax 3 0 1 0 0) (tEft tr) with
    | .next a => (a.eft 0).run.map (fun r => r.v.getD 3 0)
    | _ => none) = some 0x7F800000 := by decide +kernel

/-- R96: DONE ends the run and answers the packet's sender. -/
theorem test_kernel_done : (match exec .eftDone (tEft tr) with
    | .next a => ((a.eft 0).run, a.events.length, a.rn 14 0x31 0)
    | _ => (none, 0, 0)) = (none, 1, 1) := by decide +kernel

/-- R21: TSC counts; R22: a write of PWR_CAP is limited to 2200. -/
theorem test_counter_and_cap : (match exec .tscTick State.reset, exec (.pwrCapWrite ⟨5000, 0⟩) State.reset with
    | .next a, .next b => (a.tsc, b.rn 9 0 0)
    | _, _ => (0, 0)) = (1, 2200) := by decide +kernel

/-- R331: an add at a bank of plain cluster memory of 7 to 0 leaves 7. -/
theorem test_bank_add : (match exec (.bankOperation 0 { opc := 4, va := crVa, want := 8, bop := 0, payload := 7 }) tPart with
    | .next t => some t.mem
    | _ => none) = some [(region 2 0, 7)] := by decide +kernel

/-- R293, R269: SHLI by an extension word of 63; R202, R7: an MTS of FST with every bit set keeps bits 6 to 0. -/
theorem test_shift_and_status : first (.shli .always 1 4 (.ext 63)) = some (.x 1 (2 ^ 63)) ∧ first (.mts .always 5 0x10) = some (.fstSet 0x7F) := by
  decide +kernel

/-- R39: after a split a die whose group has no authority leaves the die place table, and one of the group with authority changes it. -/
theorem test_split_authority : (match exec (.pldWrite ⟨0x1B, 1⟩) tSplit, exec (.pldWrite ⟨0x1B, 3⟩) tSplit with
    | .next a, .next b => (a.rn 5 0x2000 0, b.rn 5 0x2000 0)
    | _, _ => (0, 0)) = (0xE4, 0x1B) := by decide +kernel

end Sys2Proof.Tests
end

section
/-! What the writing of notification records (R18, R26, R114, R115) and the walks of translation (R133 to R140) leave of the
state: a frame that each of their steps keeps, and with it the canonical form. -/

namespace Sys2Proof.Machine

theorem wrNat_eq (s : State) (a n v : Nat) : wrNat s a n v = { s with mem := (wrNat s a n v).mem } := by
  induction n generalizing s a v with
  | zero => rfl
  | succ n ih => exact (ih _ _ _).trans rfl

/-- t differs from s at most in the register file, memory, the TLB with its counters, the records under way, and whether the move is
put off; and t is in canonical form where s is. -/
structure Keeps (s t : State) : Prop where
  frame : t = { s with
    regs := t.regs, mem := t.mem, tlb := t.tlb, access := t.access, stalled := t.stalled, recq := t.recq, recAt := t.recAt,
    recHeld := t.recHeld, recGone := t.recGone, lost := t.lost, msix := t.msix }
  canon : s.Canon → t.Canon

namespace Keeps

variable {s t u : State}

theorem refl (s : State) : Keeps s s := ⟨rfl, id⟩

theorem trans (h : Keeps s t) (h' : Keeps t u) : Keeps s u := ⟨h'.frame.trans (by rw [h.frame]), h'.canon ∘ h.canon⟩

theorem ident (h : Keeps s t) : t.ident = s.ident := by rw [h.frame]
theorem tags (h : Keeps s t) : t.tags = s.tags := by rw [h.frame]
theorem ctxs (h : Keeps s t) : t.ctxs = s.ctxs := by rw [h.frame]
theorem pfDown (h : Keeps s t) : t.pfDown = s.pfDown := by rw [h.frame]
theorem clusters (h : Keeps s t) : t.clusters = s.clusters := by rw [h.frame]

/-- A fold of steps that keep the frame keeps it. -/
theorem foldl {α : Type} {f : State → α → State} (h : Keeps s t) (hf : ∀ s x, Keeps s (f s x)) (l : List α) :
    Keeps s (l.foldl f t) := by
  induction l generalizing t with
  | nil => exact h
  | cons x l ih => exact ih (h.trans (hf t x))

/-- A choice of steps that keep the frame keeps it. -/
theorem ite {p : Prop} [Decidable p] (h : p → Keeps s t) (h' : ¬ p → Keeps s u) : Keeps s (if p then t else u) := by
  split
  · exact h ‹_›
  · exact h' ‹_›

theorem setReg (h : Keeps s t) (c n u : Nat) (v : W64) : Keeps s (t.setReg c n u v) := h.trans ⟨rfl, fun h => h.setReg c n u v⟩

theorem setN (h : Keeps s t) (c n u v : Nat) : Keeps s (t.setN c n u v) := h.setReg c n u _

theorem bump (h : Keeps s t) (c n u : Nat) : Keeps s (t.bump c n u) := h.setReg c n u _

theorem wrNat (h : Keeps s t) (a n v : Nat) : Keeps s (wrNat t a n v) := h.trans ⟨by rw [wrNat_eq], fun h => h.wrNat a n v⟩

theorem wipe (h : Keeps s t) (a n : Nat) : Keeps s (wipe t a n) := h.trans ⟨rfl, fun h => h.wipe a n⟩

/-- A change of the records under way. -/
theorem records (h : Keeps s t) (q : List Rec) (a : SMap Nat) (l : List (Nat × List Nat)) (g n m : SMap Nat) :
    Keeps s { t with recq := q, recAt := a, recHeld := l, recGone := g, lost := n, msix := m } :=
  h.trans ⟨rfl, fun h => ⟨h.mem, h.regs⟩⟩

/-- A change of the TLB, its counters, and whether the move is put off. -/
theorem tables (h : Keeps s t) (l : List Tlb) (a : List Access) (b : Bool) :
    Keeps s { t with tlb := l, access := a, stalled := b } := h.trans ⟨rfl, fun h => ⟨h.mem, h.regs⟩⟩

theorem cross (h : Keeps s t) (d f : Nat) : Keeps s (t.cross d f) := ite (fun _ => h.tables _ _ _) fun _ => h

theorem raiseMsix (h : Keeps s t) (fn : Nat) : Keeps s (raiseMsix t fn) := h.records _ _ _ _ _ _

theorem ringPut (h : Keeps s t) (r : Nat) (dws : List Nat) : Keeps s (ringPut t r dws) := by
  unfold Machine.ringPut
  rcases State.ringRegs r with ⟨⟨bc, bn, bu⟩, ⟨cc, cn, cu⟩, ⟨pc, pn, pu⟩, _⟩
  exact ite (fun _ => ((h.wrNat _ _ _).setN _ _ _ _).foldl (fun s v => ite (fun _ => (refl s).raiseMsix _) fun _ => refl s) _)
    fun _ => ((h.wrNat _ _ _).setN _ _ _ _).raiseMsix _

theorem ringLose (h : Keeps s t) (r : Nat) : Keeps s (ringLose t r) := (h.setN _ _ _ _).records _ _ _ _ _ _

theorem pushLost (h : Keeps s t) (r : Nat) : Keeps s (pushLost t r) :=
  ite (fun _ => (h.ringPut _ _).records _ _ _ _ _ _) fun _ => h

theorem pushRing (h : Keeps s t) (r : Nat) (dws : List Nat) : Keeps s (pushRing t r dws) :=
  ite (fun _ => h.ringPut r dws) fun _ => h.ringLose r

theorem holdRec (h : Keeps s t) (r : Nat) (dws : List Nat) : Keeps s (holdRec t r dws) :=
  ite (fun _ => h.records _ _ _ _ _ _) fun _ => h.records _ _ _ _ _ _

theorem deliver (h : Keeps s t) (r : Nat) (dws : List Nat) : Keeps s (deliver t r dws) :=
  ite (fun _ => h.holdRec r dws) fun _ => ite (fun _ => (h.pushLost r).holdRec r dws) fun _ => (h.pushLost r).pushRing r dws

theorem flushRing (h : Keeps s t) (r : Nat) : Keeps s (flushRing t r) := by
  unfold Machine.flushRing
  extract_lets gone v
  have hv : Keeps s v := (h.records _ _ _ _ _ _).pushLost r
  clear_value v
  have hp : ∀ (w : State) (x : Nat × List Nat), Keeps w (Machine.pushRing w r x.2) := fun w x => (refl w).pushRing r x.2
  refine ite (fun _ => h) fun _ => ite (fun _ => hv) fun _ => foldl (hv.records _ _ _ _ _ _) hp _

theorem emit (h : Keeps s t) (ring src typ hi dw2 dw3 : Nat) : Keeps s (emit t ring src typ hi dw2 dw3) :=
  ite (fun _ => h.records _ _ _ _ _ _) fun _ => (h.records _ _ _ _ _ _).deliver _ _

theorem emitFault (h : Keeps s t) (part src : Nat) (b : Bad) : Keeps s (emitFault t part src b) := h.emit _ _ _ _ _ _

end Keeps

end Sys2Proof.Machine
end

section
/-! Writes of a register by its key, host links and IDE streams (R7, R25, R26, R39, R110, R319). -/

namespace Sys2Proof.Machine

/-- A register set changes that register alone. -/
theorem State.setReg_regOnly {s : State} (h : s.Canon) (c n u : Nat) (v : W64) : RegOnly s (s.setReg c n u v) c n u v :=
  ⟨rfl, State.reg_setReg_same h.regs c n u v, fun _ _ _ hk => State.reg_setReg_other h.regs v hk⟩

/-- The class, number and unit of a register are those that its key was made of. -/
theorem rkey_parts {cls num unit : Nat} (hn : num < 2 ^ 16) (hu : unit < 2 ^ 16) :
    rkey cls num unit / 2 ^ 32 = cls ∧ rkey cls num unit / 2 ^ 16 % 2 ^ 16 = num ∧ rkey cls num unit % 2 ^ 16 = unit := by
  unfold rkey; omega

/-- REGISTER_WRITE by the parts of the key: performed with the privilege that the register asks for, else without effect. -/
theorem exec_registerWrite_rkey {cls num unit v die : Nat} (hc : 1 ≤ cls) (hc' : cls ≤ 15) (hn : num < 2 ^ 16)
    (hu : unit < 2 ^ 16) (hd : die < 4) (priv : Bool) (s : State) :
    exec (.registerWrite (rkey cls num unit) ⟨v, die⟩ priv) s =
      .next (if priv || userWritable cls num then wrAny s cls num unit (v % 2 ^ 64) die else s) := by
  obtain ⟨h1, h2, h3⟩ := rkey_parts (cls := cls) hn hu
  rw [exec_registerWrite, execRegisterWrite]
  simp only [h1, h2, h3]
  rw [if_neg (by simp only [ge_iff_le]; omega)]

/-- The field BASE of PF_DPAWIN as a mask. -/
theorem and_bits_38_36 (v : Nat) : v &&& 0x7000000000 = bits v 38 36 * 2 ^ 36 := by
  refine Nat.eq_of_testBit_eq fun i => ?_
  rw [show (0x7000000000 : Nat) = (2 ^ 3 - 1) * 2 ^ 36 by rfl, Nat.testBit_and, Nat.testBit_mul_two_pow, Nat.testBit_mul_two_pow,
    bits, Nat.testBit_mod_two_pow, Nat.testBit_div_two_pow, Nat.testBit_two_pow_sub_one]
  by_cases h : 36 ≤ i
  · simp [h, Nat.sub_add_cancel h, Bool.and_comm]
  · simp [h]

/-- What a write of a plain register leaves of it: the fields of its mask. -/
theorem wrAny_plain (s : State) (unit die : Nat) {v : Nat} (hv : v < 2 ^ 64) : ∀ e ∈ plainRegs,
    wrAny s e.1 e.2.1 unit v die = s.setN e.1 e.2.1 unit (v &&& e.2.2) := by
  have hmod : ∀ n, v &&& (2 ^ n - 1) = v % 2 ^ n := fun n => Nat.and_two_pow_sub_one_eq_mod v n
  have hall : v &&& 0xFFFFFFFFFFFFFFFF = v := (hmod 64).trans (Nat.mod_eq_of_lt hv)
  simp only [plainRegs, List.forall_mem_cons]
  -- the registers of R320 apply the mask itself; those of a host function, a stack and a port keep the low bits
  refine ⟨rfl, rfl, rfl, rfl, rfl, rfl, rfl, rfl, rfl, rfl, rfl, rfl, rfl, rfl, rfl, rfl, rfl, rfl, ?_, ?_, ?_, ?_, ?_, ?_, ?_, by simp⟩
  · exact congrArg (s.setN 6 1 unit) (hmod 8).symm
  · exact congrArg (s.setN 7 0 unit) hall.symm
  · exact congrArg (s.setN 7 4 unit) (and_bits_38_36 v).symm
  · exact congrArg (s.setN 10 0 unit) (hmod 16).symm
  · exact congrArg (s.setN 13 5 unit) (hmod 8).symm
  · exact congrArg (s.setN 13 0xFFF unit) (hmod 8).symm
  · exact congrArg (s.setN 15 0 unit) hall.symm

/-- A plain register has a class that the model numbers and a number of 16 bits. -/
theorem plainRegs_range : ∀ e ∈ plainRegs, 1 ≤ e.1 ∧ e.1 ≤ 15 ∧ e.2.1 < 2 ^ 16 := by decide

/-- A privileged REGISTER_WRITE of a plain register has that one effect (R7). -/
theorem registerWrite_plain {s : State} (h : s.Canon) {e : Nat × Nat × Nat} (he : e ∈ plainRegs) {unit die : Nat}
    (hu : unit < 2 ^ 16) (v : Nat) (hd : die < 4) :
    Writes (.registerWrite (rkey e.1 e.2.1 unit) ⟨v, die⟩ true) s e.1 e.2.1 unit (BitVec.ofNat 64 v &&& BitVec.ofNat 64 e.2.2) := by
  obtain ⟨h1, h2, h3⟩ := plainRegs_range e he
  refine ⟨_, exec_registerWrite_rkey h1 h2 h3 hu hd true s, ?_⟩
  rw [Bool.true_or, if_pos rfl, wrAny_plain s unit die (Nat.mod_lt _ (by decide)) e he, State.setN, BitVec.ofNat_and,
    show BitVec.ofNat 64 (v % 2 ^ 64) = BitVec.ofNat 64 v from BitVec.eq_of_toNat_eq (by simp)]
  exact State.setReg_regOnly h _ _ _ _

theorem hasAuthority_iff (s : State) (die : Nat) : hasAuthority s die = true ↔ Authority s die := by
  simp [hasAuthority, Authority]

/-- A package register, but for a lottery seed, takes no write by an agent of a die without package authority (R39). -/
theorem wrAny_without_authority {s : State} {die : Nat} (h : ¬ Authority s die) {cls num : Nat}
    (hc : cls = 5 ∨ cls = 9 ∧ num ≠ 1) (unit v : Nat) : wrAny s cls num unit v die = s := by
  have ha : hasAuthority s die = false := by rw [← Bool.not_eq_true, hasAuthority_iff]; exact h
  obtain rfl | ⟨rfl, hn⟩ := hc
  · simp [wrAny, wrReg, ha]
  · simp [wrAny, hn, ha]

/-- What the unprivileged view does not write (R110). -/
theorem userWritable_eq_false {cls num : Nat} (h : cls ≠ 15) (h6 : cls = 6 → num < 0x10) (h8 : cls = 8 → num ≠ 1) :
    userWritable cls num = false := by
  simp only [userWritable, Bool.or_eq_false_iff, Bool.and_eq_false_iff, beq_eq_false_iff_ne, decide_eq_false_iff_not, ne_eq]
  omega

/-- Of a ring that holds nothing back nothing is written. -/
theorem flushRing_quiet {s : State} {r : Nat} (h : QuietRing s r) : flushRing s r = s := by
  obtain ⟨hl, hg, hr⟩ := h
  have hall : s.recHeld.all (·.1 != r) = true := by simpa using hr
  unfold flushRing
  simp [hl, hg, hall]

/-- The state after the rings among l that are those of a function have been written. -/
def ringsWritten (s : State) (l : List Nat) (pf : Nat) : State :=
  l.foldl (fun s r => if s.ringPf r == some pf then flushRing s r else s) s

theorem ringsWritten_quiet {s : State} {l : List Nat} (h : ∀ r ∈ l, QuietRing s r) (pf : Nat) : ringsWritten s l pf = s := by
  induction l with
  | nil => rfl
  | cons r l ih =>
    rw [ringsWritten, List.foldl_cons, flushRing_quiet (h r List.mem_cons_self), ite_self]
    exact ih fun x hx => h x (List.mem_cons_of_mem r hx)

theorem ringsWritten_keeps (s : State) (l : List Nat) (pf : Nat) : Keeps s (ringsWritten s l pf) :=
  (Keeps.refl s).foldl (fun s r => Keeps.ite (fun _ => (Keeps.refl s).flushRing r) fun _ => Keeps.refl s) l

/-- The streams after an integrity failure: the one that failed is Insecure, the others are as they were (R25). -/
theorem mem_streams_failed (l : List (Nat × Nat × Bool)) (pf n : Nat) (x : Nat × Nat × Bool) :
    x ∈ (l.filter fun x => !(x.1 == pf && x.2.1 == n)) ++ [(pf, n, false)] ↔
      x = (pf, n, false) ∨ (x ∈ l ∧ ¬ (x.1 = pf ∧ x.2.1 = n)) := by
  simp only [List.mem_append, List.mem_filter, List.mem_singleton, Bool.not_eq_true', Bool.and_eq_false_iff, beq_eq_false_iff_ne,
    ne_eq, not_and_or]
  tauto

/-- PCIE_LINK_UP: the link is listed no more, and its rings are written before the link event (R26, R43). -/
theorem exec_pcieLinkUp_listed {s : State} {pf : Nat} (h : pf ∈ s.pfDown) :
    exec (.pcieLinkUp pf) s = .next (emitHv (ringsWritten { s with pfDown := s.pfDown.filter (· != pf) } (List.range 34) pf)
      (2 * pf) (srcNo (2 * pf) 6 4) 0x14 5 0 0) := by
  rw [exec_pcieLinkUp, execPcieLinkUp, if_neg (by simpa using h)]
  rfl

/-- A link that comes up is listed no more, and where no ring holds anything back it does nothing but give its event. -/
theorem pcieLinkUp_effect {s : State} {pf : Nat} (h : pf ∈ s.pfDown) : ∃ t u, exec (.pcieLinkUp pf) s = .next t ∧
    t = emitHv u (2 * pf) (srcNo (2 * pf) 6 4) 0x14 5 0 0 ∧ (∀ x, x ∈ u.pfDown ↔ x ∈ s.pfDown ∧ x ≠ pf) ∧
    ((∀ r < 34, QuietRing s r) → u = { s with pfDown := u.pfDown }) := by
  have hk := ringsWritten_keeps { s with pfDown := s.pfDown.filter (· != pf) } (List.range 34) pf
  refine ⟨_, _, exec_pcieLinkUp_listed h, rfl, fun x => ?_, fun hq => ?_⟩
  · rw [hk.pfDown]
    simp
  · rw [ringsWritten_quiet (s := { s with pfDown := s.pfDown.filter (· != pf) }) fun r hr => hq r (List.mem_range.1 hr)]

/-- Settles O37: each write of a register by its key by the parts of its key, and each event of a host link or a stream by its one
equation. -/
theorem registerWritesByKeyAndHostLinkEvents : Obligations.RegisterWritesByKeyAndHostLinkEvents := by
  unfold Obligations.RegisterWritesByKeyAndHostLinkEvents
  intro s hs
  refine ⟨fun e he unit hu v die hd => registerWrite_plain hs he hu v hd, fun cls num unit v die hd hc hc' hn hu => ⟨?_, ?_, ?_⟩,
    fun pf hpf n hn => ⟨_, ?_, mem_streams_failed s.streams pf n⟩, fun pf hpf hdown => ?_, fun pf hdown => pcieLinkUp_effect hdown⟩
  · intro h h6 h8
    rw [exec_registerWrite_rkey hc hc' hn hu hd, userWritable_eq_false h h6 h8]
    rfl
  · intro ha h
    rw [exec_registerWrite_rkey hc hc' hn hu hd, wrAny_without_authority ha h, ite_self]
  · exact fun b => ⟨_, exec_registerWrite_rkey hc hc' hn hu hd b s⟩
  · rw [exec_ideIntegrityFailure, execIdeIntegrityFailure, if_neg (by omega)]
  · rw [exec_pcieLinkDown, execPcieLinkDown, if_neg (not_or.2 ⟨by omega, by simpa using hdown⟩)]
    rfl

end Sys2Proof.Machine
end

section
/-! Translation and the locating of an access keep the frame of records and walks (R133 to R141). -/

namespace Sys2Proof.Machine

namespace Keeps

variable {s t : State}

/-- The frame of the state half of an answer, from that of the answer. -/
theorem fst_of_eq {α : Type} {x : State × α} {r : α} (h : x = (t, r)) (hk : Keeps s x.1) : Keeps s t := by
  rw [h] at hk; exact hk

theorem tlbPut (h : Keeps s t) (x : Tlb) : Keeps s (tlbPut t x) := h.tables _ _ _

theorem walkTlb (h : Keeps s t) (die part va : Nat) : Keeps s (walkTlb t die part va).1 := by
  unfold Machine.walkTlb
  extract_lets ttb root dies v
  have hv : Keeps s v := (h.bump _ _ _).foldl (fun s d => (refl s).cross die d) _
  split
  · exact h
  split
  · exact hv
  split
  · exact hv
  dsimp only
  split
  · split
    · exact (((hv.cross _ _).wipe _ _).wrNat _ _ _).tlbPut _
    · exact hv.cross _ _
  · exact hv.tlbPut _

theorem countAccess (h : Keeps s t) (x : Tlb) (va from_ : Nat) : Keeps s (countAccess t x va from_) := by
  unfold Machine.countAccess
  dsimp only
  refine ite (fun _ => h) fun _ => ite (fun _ => ?_) fun _ => h.tables _ _ _
  exact (h.tables _ _ _).emit _ _ _ _ _ _

theorem framePath (h : Keeps s t) (x : Tlb) (part va : Nat) (wr : Bool) : Keeps s (framePath t x part va wr).1 := by
  unfold Machine.framePath
  dsimp only
  split
  · split
    · exact h
    · split
      · exact h
      · split
        · exact h
        · split
          · exact h.cross _ _
          · exact h
  · split
    · exact h.cross _ _
    · exact h

theorem translate (h : Keeps s t) (part va : Nat) (wr ft : Bool) (from_ : Nat) :
    Keeps s (translate t part va wr ft from_).1 := by
  unfold Machine.translate
  extract_lets home
  split
  · exact h
  split
  · exact h
  -- the entry of the TLB, or of a walk
  split
  rename_i s1 r1 heq
  have h1 : Keeps s s1 := by
    split at heq
    · exact (Prod.mk.inj heq).1 ▸ h
    · exact fst_of_eq heq (h.walkTlb _ _ _)
  split
  · exact h1
  -- a write through D = 0 walks again
  extract_lets again
  split
  rename_i s2 r2 heq
  have h2 : Keeps s s2 := by
    split at heq
    · exact fst_of_eq heq (h1.walkTlb _ _ _)
    · exact (Prod.mk.inj heq).1 ▸ h1
  split
  · exact h2
  split
  · exact h2
  -- and sets D
  split
  rename_i s3 x heq
  have h3 : Keeps s s3 := by
    split at heq
    · exact fst_of_eq heq ((h2.wrNat _ _ _).tlbPut _)
    · exact (Prod.mk.inj heq).1 ▸ h2
  exact (h3.countAccess _ _ _).framePath _ _ _ _

theorem locate (h : Keeps s t) (part va n : Nat) (wr ft cp : Bool) (from_ : Nat) :
    Keeps s (locate t part va n wr ft cp from_).1 := by
  unfold Machine.locate
  extract_lets cls
  split
  · exact h
  split
  · exact h.translate _ _ _ _ _
  split
  · exact h
  split <;> exact h

end Keeps

/-- Locating an access keeps all but what walks, counts and their records change (R133 to R141). -/
theorem locate_keeps {s u : State} {part va n from_ : Nat} {wr ft cp : Bool} {r : Except Bad Nat}
    (h : locate s part va n wr ft cp from_ = (u, r)) : Keeps s u :=
  Keeps.fst_of_eq h ((Keeps.refl s).locate _ _ _ _ _ _ _)

end Sys2Proof.Machine
end

section
/-! Bytes left at a location with the tag of their line, and what FINJ_CTL does with a packet for an exchange window (R223, R241, R399). -/

namespace Sys2Proof.Machine

/-- What a number reads as is in memory alone. -/
theorem rdNat_of_mem {s t : State} (h : t.mem = s.mem) (a n : Nat) : rdNat t a n = rdNat s a n :=
  rdNat_congr fun k _ => by rw [rdByte, rdByte, h]

theorem rdNat_lt (s : State) (a n : Nat) : rdNat s a n < 256 ^ n := by
  induction n generalizing a with
  | zero => simp [rdNat]
  | succ n ih =>
    have h1 := (rdByte s a).isLt
    have h2 := ih (a + 1)
    rw [rdNat, Nat.pow_succ]
    omega

theorem setTag_eq (s : State) (a : Nat) (t : W32) : setTag s a t = { s with tags := (setTag s a t).tags } := by
  unfold setTag; split <;> rfl

theorem setTag_rises {s : State} (h : s.tags.Rises) (a : Nat) (t : W32) : (setTag s a t).tags.Rises := by
  unfold setTag; split
  · exact h.put _ _
  · exact h

/-- The tag set of a line of tagged memory reads back. -/
theorem tagAt_setTag {s : State} (h : s.tags.Rises) {a : Nat} (ha : a < 6 * 2 ^ 60) (t : W32) : tagAt (setTag s a t) a = t := by
  have hi : isTagged a = true := decide_eq_true ha
  rw [tagAt, setTag, if_pos hi, if_pos hi]
  exact SMap.get_put_same 0 h _ t

/-- t is s with a number x of n bytes at a location: every other byte is kept, and beside memory at most tags and what releases left
have changed. -/
structure Stores (s t : State) (a n x : Nat) : Prop where
  frame : t = { s with mem := t.mem, tags := t.tags, relVec := t.relVec }
  canon : t.Canon
  kept : BytesKept s t a n
  value : rdNat t a n = x

namespace Stores

variable {s t u : State} {a n x : Nat}

/-- A change of tags and of what releases left does not touch the bytes. -/
theorem of_mem (h : Stores s t a n x) (hu : u = { t with tags := u.tags, relVec := u.relVec }) : Stores s u a n x := by
  have hm : u.mem = t.mem := by rw [hu]
  refine ⟨hu.trans ?_, h.canon.of_eq hm (by rw [hu]), fun b hb => ?_, (rdNat_of_mem hm a n).trans h.value⟩
  · rw [h.frame, hm]
  · rw [rdByte, hm]; exact h.kept b hb

theorem setTag (h : Stores s t a n x) (b : Nat) (tag : W32) : Stores s (setTag t b tag) a n x :=
  h.of_mem (by rw [setTag_eq])

theorem relPut (h : Stores s t a n x) (b m : Nat) (l : List Stamp) : Stores s (relPut t b m l) a n x := h.of_mem rfl

/-- Bytes written at a location. -/
theorem storeAt (h : s.Canon) (a n v : Nat) : Stores s (storeAt s a n v) a n (v % 256 ^ n) := by
  let s' : State := { s with relVec := s.relVec.filter fun p => p.1 < a || a + n ≤ p.1 }
  have hs : s'.Canon := h.of_eq rfl rfl
  have hw : Stores s (wrNat s' a n v) a n (v % 256 ^ n) :=
    ⟨by rw [wrNat_eq], hs.wrNat a n v, fun b hb => rdByte_wrNat_other hs.mem hb, rdNat_wrNat hs.mem a n v⟩
  exact hw.setTag a 0

end Stores

theorem storeAt_tags_rise {s : State} (h : s.tags.Rises) (a n v : Nat) : (storeAt s a n v).tags.Rises :=
  setTag_rises (by simpa using h) a 0

/-- FINJ_CTL of a cluster acts on a packet as R241 says. -/
theorem finjAct_injects {s : State} (h : s.Canon) (c : Nat) : Injects s (finjAct s c).1 c (finjAct s c).2 := by
  have hmode : bits (s.rn 2 0x804 c) 2 1 = (s.reg 2 0x804 c).toNat / 2 % 4 := rfl
  have hcount : bits (s.rn 2 0x804 c) 31 16 = (s.reg 2 0x804 c).toNat / 2 ^ 16 % 2 ^ 16 := rfl
  have hbit : (s.rn 2 0x804 c).testBit 0 = decide ((s.reg 2 0x804 c).toNat % 2 = 1) := Nat.testBit_zero _
  have hlt : (s.reg 2 0x804 c).toNat / 2 % 4 < 4 := Nat.mod_lt _ (by decide)
  unfold finjAct Injects
  simp only [hmode, hcount, hbit]
  split
  case isTrue hoff =>
    -- not armed
    have hna : ¬ ((s.reg 2 0x804 c).toNat % 2 = 1 ∧ ((s.reg 2 0x804 c).toNat / 2 % 4 = 1 ∨ (s.reg 2 0x804 c).toNat / 2 % 4 = 2)) := by
      simp only [Bool.or_eq_true, Bool.not_eq_true', decide_eq_false_iff_not, decide_eq_true_eq] at hoff
      omega
    exact ⟨fun _ => ⟨rfl, rfl⟩, fun ha => absurd ha hna, fun ha => absurd ha hna⟩
  case isFalse hon =>
    have ha : (s.reg 2 0x804 c).toNat % 2 = 1 ∧ ((s.reg 2 0x804 c).toNat / 2 % 4 = 1 ∨ (s.reg 2 0x804 c).toNat / 2 % 4 = 2) := by
      simp only [Bool.or_eq_true, Bool.not_eq_true', decide_eq_false_iff_not, decide_eq_true_eq] at hon
      omega
    split
    case isTrue hp => exact ⟨fun hna => absurd ha hna, fun _ _ => ⟨rfl, rfl⟩, fun _ hn => absurd hp (Nat.not_lt.2 hn)⟩
    case isFalse hp => exact ⟨fun hna => absurd ha hna, fun _ hn => absurd hn hp, fun _ _ => ⟨rfl, State.setReg_regOnly h _ _ _ _⟩⟩

/-- FINJ_CTL changes a register and its count alone. -/
theorem finjAct_keeps (s : State) (c : Nat) : (finjAct s c).1.mem = s.mem ∧ (finjAct s c).1.tags = s.tags := by
  unfold finjAct
  extract_lets r mode
  split
  · exact ⟨rfl, rfl⟩
  · split <;> exact ⟨rfl, rfl⟩

theorem finjAct_canon {s : State} (h : s.Canon) (c : Nat) : (finjAct s c).1.Canon := by
  unfold finjAct
  extract_lets r mode
  split
  · exact h
  · split
    · exact h.of_eq rfl rfl
    · exact h.setN _ _ _ _

theorem bits_lt {hi lo n : Nat} (w : Nat) (h : hi + 1 - lo = n) : bits w hi lo < 2 ^ n :=
  h ▸ Nat.mod_lt _ (Nat.two_pow_pos _)

/-- The place tables name one of four dies, and one of 64 clusters (R158). -/
theorem State.physDie_lt (s : State) (d : Nat) : s.physDie d < 4 := bits_lt _ (n := 2) (by omega)

theorem State.physClu_lt (s : State) (p d c : Nat) : s.physClu p d c < 64 := by
  have hd := s.physDie_lt d
  have hc : bits (s.rn 4 (0x1014 + d) p) (4 * c + 3) (4 * c) < 2 ^ 4 := bits_lt _ (by omega)
  unfold State.physClu
  omega

/-- The exchange window of a cluster is one of 64. -/
theorem exchangeOf_lt {s : State} {part va c : Nat} (h : exchangeOf s part va = some c) : c < 64 := by
  unfold exchangeOf at h
  split at h
  · split at h
    · exact Option.some.inj h ▸ s.physClu_lt _ _ _
    · cases h
  · cases h

/-- The source that a home takes a request from stands outside a cluster exactly where the packet does (R241, R399). -/
theorem cluOfSrc_reqSrc (s : State) (die : Nat) (k : Pkt) {c : Nat} (hc : c < 64) :
    cluOfSrc (reqSrc s die k) ≠ some c ↔ FromOutside s k c := by
  have hkind : ∀ src, bits src 13 8 = src / 2 ^ 8 % 2 ^ 6 := fun _ => rfl
  unfold reqSrc cluOfSrc FromOutside
  by_cases h : k.schip = s.ident.chip
  · simp only [h, if_true, hkind, and_true]
    generalize k.src / 2 ^ 8 % 2 ^ 6 = kind
    by_cases h0 : kind = 0
    · simp [h0]
    · by_cases h1 : kind = 1
      · simp [h1]
      · have h2 : ¬ kind ≤ 1 := by omega
        simp [h0, h1, h2]
  · -- a request of another chip comes from a die past the four
    have h0 : (4 + die) * 2 ^ 14 / 2 ^ 8 % 2 ^ 6 = 0 := by omega
    simp only [h, if_false, hkind, and_false, not_false_eq_true, iff_true, h0, if_true, ne_eq, Option.some.injEq]
    omega

/-- The cluster from outside which a request comes to an exchange window. -/
theorem outsideOf_reqSrc (s u : State) (die : Nat) (k : Pkt) {va c : Nat} (he : exchangeOf u k.part va = exchangeOf s k.part va) :
    outsideOf u k.part va (reqSrc s die k) = some c ↔ exchangeOf s k.part va = some c ∧ FromOutside s k c := by
  unfold outsideOf
  rw [he, Option.filter_eq_some_iff]
  refine and_congr_right fun h => ?_
  rw [← cluOfSrc_reqSrc s die k (exchangeOf_lt h), bne_iff_ne]

end Sys2Proof.Machine
end

section
/-! A write packet performed at its home (R125, R136, R178, R223, R241, R399). -/

namespace Sys2Proof.Machine

theorem Keeps.capSpad {s t : State} (h : Keeps s t) : t.capSpad = s.capSpad := by
  rw [State.capSpad, State.capSpad, h.ident]

/-- Outside the translated ranges locating an access changes nothing. -/
theorem locate_untranslated {s u : State} {part va n from_ : Nat} {wr ft cp : Bool} {r : Except Bad Nat}
    (hc : (vaClass s.capSpad va).translated = false) (h : locate s part va n wr ft cp from_ = (u, r)) : u = s := by
  unfold locate at h
  simp only [hc, Bool.false_eq_true, if_false] at h
  split at h
  · exact (Prod.mk.inj h).1.symm
  · split at h
    · exact (Prod.mk.inj h).1.symm
    · split at h <;> exact (Prod.mk.inj h).1.symm

/-- A VA of no class is not located. -/
theorem locate_none {s u : State} {part va n from_ a : Nat} {wr ft cp : Bool} (hc : vaClass s.capSpad va = .none) :
    locate s part va n wr ft cp from_ ≠ (u, .ok a) := by
  unfold locate
  simp only [hc, VaClass.translated, sramLoc, Bool.false_eq_true, if_false]
  split <;> simp

/-- An exchange window is no translated range. -/
theorem exchangeOf_translated {s : State} {part va : Nat} (h : (vaClass s.capSpad va).translated = true) :
    exchangeOf s part va = none := by
  unfold exchangeOf
  split
  · rename_i e; rw [e] at h; cases h
  · rfl

/-- Locating an access moves no exchange window. -/
theorem exchangeOf_locate {s u : State} {part va n from_ : Nat} {wr ft cp : Bool} {r : Except Bad Nat}
    (h : locate s part va n wr ft cp from_ = (u, r)) : exchangeOf u part va = exchangeOf s part va := by
  cases hc : (vaClass s.capSpad va).translated with
  | false => rw [locate_untranslated hc h]
  | true => rw [exchangeOf_translated hc, exchangeOf_translated ((locate_keeps h).capSpad ▸ hc)]

theorem putAt_inside {s : State} {part va src : Nat} (h : outsideOf s part va src = none) (a n v : Nat) (tag : W32) :
    putAt s part va src a n v tag = (setTag (storeAt s a n v) a tag, true) := by
  unfold putAt; rw [h]

theorem putAt_outside {s : State} {part va src c : Nat} (h : outsideOf s part va src = some c) (a n v : Nat) (tag : W32) :
    putAt s part va src a n v tag = if (finjAct s c).2 = 1 then ((finjAct s c).1, false)
      else (setTag (storeAt (finjAct s c).1 a n v) a (if (finjAct s c).2 = 2 then tag ^^^ 1 else tag), true) := by
  unfold putAt; rw [h]

/-- The tag that a write of n bytes at a VA gives its line: the packet's for a whole aligned row, else 0 (R223). -/
def lineTag (k : Pkt) (va n : Nat) : W32 := if n = 256 ∧ va % 256 = 0 then BitVec.ofNat 32 k.tag else 0

theorem homePut_error {s u : State} {die va n : Nat} {k : Pkt} {b : Bad}
    (h : locate s k.part va n true false false (reqSrc s die k / 2 ^ 14) = (u, .error b)) :
    homePut s die k va n = (u, .error b) := by
  unfold homePut; simp only [h]

theorem homePut_ok {s u : State} {die va n a : Nat} {k : Pkt}
    (h : locate s k.part va n true false false (reqSrc s die k / 2 ^ 14) = (u, .ok a)) :
    homePut s die k va n =
      (let p := putAt u k.part va (reqSrc s die k) a n (k.payload / 256 ^ (va - k.va) % 256 ^ n) (lineTag k va n)
       if p.2 && k.rel && k.schip == p.1.ident.chip then relPut p.1 a n k.vec else p.1, .ok a) := by
  unfold homePut; simp only [h]; rfl

/-- A number of n bytes stored with a tag for its line. -/
theorem storeTagged {v : State} (hv : v.Canon) (a n x : Nat) (tag : W32) :
    Stores v (setTag (storeAt v a n (x % 256 ^ n)) a tag) a n (x % 256 ^ n) := by
  have h := Stores.storeAt hv a n (x % 256 ^ n)
  rw [Nat.mod_mod] at h
  exact h.setTag a tag

/-- What a release leaves at the location touches neither its bytes nor its tag. -/
theorem Stores.released {s t : State} {a n x : Nat} (h : Stores s t a n x) (b : Bool) (m : Nat) (l : List Stamp) :
    Stores s (if b then Machine.relPut t a m l else t) a n x := by
  cases b with
  | false => exact h
  | true => exact h.relPut a m l

theorem tagAt_released (t : State) (b : Bool) (a m c : Nat) (l : List Stamp) :
    tagAt (if b then relPut t a m l else t) c = tagAt t c := by
  cases b <;> rfl

/-- n bytes of a write packet at a VA that is located: what FINJ_CTL does with them, and else their store with the tag of their
line. -/
theorem homePut_performed {s u : State} (hs : s.Canon) {die va n a : Nat} {k : Pkt}
    (h : locate s k.part va n true false false (reqSrc s die k / 2 ^ 14) = (u, .ok a)) :
    ∃ v act w, homePut s die k va n = (w, .ok a) ∧
      (∀ c, exchangeOf s k.part va = some c → FromOutside s k c → Injects u v c act) ∧
      ((∀ c, exchangeOf s k.part va = some c → ¬ FromOutside s k c) → v = u ∧ act = 0) ∧
      (act = 1 → w = v) ∧
      (act ≠ 1 → Stores v w a n (k.payload / 256 ^ (va - k.va) % 256 ^ n) ∧
        (u.tags.Rises → a < 6 * 2 ^ 60 → tagAt w a = lineTag k va n ^^^ (if act = 2 then 1 else 0))) := by
  have hu : u.Canon := (locate_keeps h).canon hs
  have hout := fun c => outsideOf_reqSrc s u die k (c := c) (exchangeOf_locate h)
  rw [homePut_ok h]
  cases ho : outsideOf u k.part va (reqSrc s die k) with
  | none =>
    have hno : ∀ c, exchangeOf s k.part va = some c → ¬ FromOutside s k c := fun c he hf => by
      have := (hout c).2 ⟨he, hf⟩
      rw [ho] at this; cases this
    rw [putAt_inside ho]
    refine ⟨u, 0, _, rfl, fun c he hf => absurd hf (hno c he), fun _ => ⟨rfl, rfl⟩, fun h1 => absurd h1 Nat.zero_ne_one,
      fun _ => ⟨(storeTagged hu a n _ _).released _ n _, fun hr ha => (tagAt_released _ _ _ _ _ _).trans ?_⟩⟩
    exact (tagAt_setTag (storeAt_tags_rise hr a n _) ha _).trans (by simp)
  | some c =>
    obtain ⟨he, hf⟩ := (hout c).1 ho
    have hinj : ∀ d, exchangeOf s k.part va = some d → FromOutside s k d → Injects u (finjAct u c).1 d (finjAct u c).2 := by
      intro d hd _
      obtain rfl : c = d := Option.some.inj (he.symm.trans hd)
      exact finjAct_injects hu c
    rw [putAt_outside ho]
    by_cases h1 : (finjAct u c).2 = 1
    · rw [if_pos h1]
      exact ⟨_, _, _, rfl, hinj, fun hno => absurd hf (hno c he), fun _ => rfl, fun hn => absurd h1 hn⟩
    · rw [if_neg h1]
      refine ⟨_, _, _, rfl, hinj, fun hno => absurd hf (hno c he), fun h => absurd h h1, fun _ => ?_⟩
      refine ⟨(storeTagged (finjAct_canon hu c) a n _ _).released _ n _, fun hr ha => (tagAt_released _ _ _ _ _ _).trans ?_⟩
      rw [tagAt_setTag (storeAt_tags_rise ((finjAct_keeps u c).2 ▸ hr) a n _) ha]
      split <;> simp

end Sys2Proof.Machine
end

section
/-! Requests that a home answers: what becomes of a range cut at its lines, and the answer (R125, R134, R136, R239). -/

namespace Sys2Proof.Machine

/-- A reply is the answer to its request, with the fields that it was made from. -/
theorem reply_answers (s : State) (die : Nat) (k r : Pkt) : ∃ q, Answers s (reply s die k r) die k q ∧
    q.opc = r.opc ∧ q.cause = r.cause ∧ q.level = r.level ∧ q.payload = r.payload ∧ q.tag = r.tag := by
  refine ⟨{ r with
    cls := 1, ddie := k.src / 2 ^ 14, dep := srcEp k.src, part := k.part, src := srcNo die 3 0, dchip := k.schip % 4096,
    va := k.va, echo := k.mark, q := k.q, rid := k.rid, who := k.who, want := k.want, acq := k.acq },
    ⟨rfl, rfl, rfl, rfl, rfl, rfl, rfl, rfl, ?_⟩, rfl, rfl, rfl, rfl, rfl⟩
  unfold reply
  cases h : ownLeaf s k <;> simp [State.post]

theorem faultReply_answers (s : State) (die : Nat) (k : Pkt) (opc : Nat) (b : Bad) :
    ∃ q, Answers s (faultReply s die k opc b) die k q ∧ q.opc = opc ∧ q.cause = b.cause ∧ q.level = b.level := by
  obtain ⟨q, ha, h1, h2, h3, -, -⟩ := reply_answers s die k { opc := opc, cause := b.cause, level := b.level }
  exact ⟨q, ha, h1, h2, h3⟩

/-- A request of the home's own cluster to a tile under autotomy is put off (R239). -/
theorem atHome_held {s : State} {k : Pkt} (h : ownLeaf s k = true ∧ lookupHeld s k = true)
    (o : Host.Outcome State Fault Refusal) : atHome s k o = .next { s with stalled := true } := by
  simp [atHome, h.1, h.2]

theorem atHome_free {s : State} {k : Pkt} (h : ¬ (ownLeaf s k = true ∧ lookupHeld s k = true))
    (o : Host.Outcome State Fault Refusal) : atHome s k o = o :=
  if_neg (by simpa using h)

/-- The die that a request is counted for (R140). -/
theorem reqSrc_die (s : State) (die : Nat) (k : Pkt) :
    reqSrc s die k / 2 ^ 14 = if k.schip = s.ident.chip then k.src / 2 ^ 14 else 4 + die := by
  unfold reqSrc
  split
  · rfl
  · omega

/-- The translated ranges (R125). -/
theorem translated_iff (cap va : Nat) : (vaClass cap va).translated = true ↔
    va < 2 ^ 57 ∨ (va / 2 ^ 62 % 4 = 2 ∧ 2 ^ 40 ≤ va % 2 ^ 60 ∧ va % 2 ^ 60 < 2 ^ 48) := by
  have hb : bits va 63 62 = va / 2 ^ 62 % 4 := rfl
  unfold vaClass
  simp only [hb]
  split_ifs <;> simp only [VaClass.translated, Bool.false_eq_true, true_iff, false_iff] <;> omega

/-- Past a translated range there is no VA. -/
theorem vaClass_past {cap va : Nat} (h : 2 ^ 57 ≤ va) (h' : va / 2 ^ 62 % 4 ≠ 2 ∨ 2 ^ 48 ≤ va % 2 ^ 60) : vaClass cap va = .none := by
  have hb : bits va 63 62 = va / 2 ^ 62 % 4 := rfl
  unfold vaClass
  rw [if_neg (by omega), hb]
  by_cases hz : va / 2 ^ 62 % 4 = 2
  · have ho : 2 ^ 48 ≤ va % 2 ^ 60 := h'.resolve_left (not_not.2 hz)
    simp only
    rw [if_pos hz, if_neg (by omega), if_neg (by omega), if_neg (by omega), if_neg (by omega), if_neg (by omega)]
  · rw [if_neg hz]

/-- After a line of a translated range stands its next line, or no VA. -/
theorem translated_next {cap va k : Nat} (h : (vaClass cap va).translated = true) (hv : va < 2 ^ 64) (hk : k ≤ 64 - va % 64) :
    (vaClass cap ((va + k) % 2 ^ 64)).translated = true ∨ vaClass cap ((va + k) % 2 ^ 64) = .none := by
  have hlt : va + k < 2 ^ 64 := by rw [translated_iff] at h; omega
  rw [Nat.mod_eq_of_lt hlt]
  by_cases hn : (vaClass cap (va + k)).translated = true
  · exact .inl hn
  · refine .inr (vaClass_past ?_ ?_) <;> rw [translated_iff] at h hn <;> omega

/-- A line of a translated range has 64 bytes, whatever the scratchpads' size. -/
theorem vaLine_translated {cap va : Nat} (h : (vaClass cap va).translated = true) : vaLine va = 64 := by
  have h0 : (vaClass 0 va).translated = true := (translated_iff 0 va).2 ((translated_iff cap va).1 h)
  simp [vaLine, h0]

/-- How far a write got, piece by piece: the states between its pieces, up to its first fault, and the state it ends in (R125). -/
structure WritesPieces (s : State) (die : Nat) (k : Pkt) (by_ : Nat) (ps : List (Nat × Nat)) (vs : List State) (w : State)
    (r : Except Bad Nat) : Prop where
  head : vs.head? = some s
  length : vs.length ≤ ps.length + 1
  step : ∀ (j : Nat) (v v' : State) (p : Nat × Nat), vs[j]? = some v → vs[j + 1]? = some v' → ps[j]? = some p →
    ∃ u a, locate v k.part p.1 p.2 true false false by_ = (u, .ok a) ∧ Stores u v' a p.2 (k.payload / 256 ^ (p.1 - k.va) % 256 ^ p.2)
  whole : vs.length = ps.length + 1 → vs.getLast? = some w ∧ ∃ a, r = .ok a
  stopped : vs.length ≤ ps.length → ∃ v p b, vs.getLast? = some v ∧ ps[vs.length - 1]? = some p ∧
    locate v k.part p.1 p.2 true false false by_ = (w, .error b) ∧ r = .error b

namespace WritesPieces

variable {s u v w : State} {die by_ a x : Nat} {k : Pkt} {p : Nat × Nat} {ps : List (Nat × Nat)} {vs : List State} {b : Bad}
  {r : Except Bad Nat}

theorem nil (s : State) (die : Nat) (k : Pkt) (by_ x : Nat) : WritesPieces s die k by_ [] [s] s (.ok x) :=
  ⟨rfl, Nat.le_refl _, by simp, fun _ => ⟨rfl, x, rfl⟩, by simp⟩

/-- The first piece faults. -/
theorem cons_error (ps : List (Nat × Nat)) (h : locate s k.part p.1 p.2 true false false by_ = (w, .error b)) :
    WritesPieces s die k by_ (p :: ps) [s] w (.error b) :=
  ⟨rfl, by simp, by simp, by simp, fun _ => ⟨s, p, b, rfl, rfl, h, rfl⟩⟩

/-- The first piece is written, and the others go as far as they go after it. -/
theorem cons_ok (h : locate s k.part p.1 p.2 true false false by_ = (u, .ok a))
    (hst : Stores u v a p.2 (k.payload / 256 ^ (p.1 - k.va) % 256 ^ p.2)) (hr : WritesPieces v die k by_ ps vs w r) :
    WritesPieces s die k by_ (p :: ps) (s :: vs) w r := by
  obtain ⟨vs, rfl⟩ : ∃ l, vs = v :: l := List.head?_eq_some_iff.1 hr.head
  refine ⟨rfl, by simpa using hr.length, fun j y z q hy hz hq => ?_, fun hl => ?_, fun hl => ?_⟩
  · cases j with
    | zero =>
      obtain rfl : s = y := by simpa using hy
      obtain rfl : v = z := by simpa using hz
      obtain rfl : p = q := by simpa using hq
      exact ⟨u, a, h, hst⟩
    | succ j => exact hr.step j y z q (by simpa using hy) (by simpa using hz) (by simpa using hq)
  · simpa using hr.whole (by simpa using hl)
  · obtain ⟨y, q, b, h1, h2, h3⟩ := hr.stopped (by simpa using hl)
    exact ⟨y, q, b, by simpa using h1, by simpa using h2, h3⟩

end WritesPieces

theorem foldl_error {f : State × Except Bad Nat → Nat × Nat → State × Except Bad Nat} {w : State} {b : Bad}
    (hf : ∀ p, f (w, .error b) p = (w, .error b)) (ps : List (Nat × Nat)) : ps.foldl f (w, .error b) = (w, .error b) := by
  induction ps with
  | nil => rfl
  | cons p ps ih => rw [List.foldl_cons, hf, ih]

/-- A fold that performs piece by piece, up to the first fault, a range that begins in a translated range. -/
theorem foldl_homePut {f : State × Except Bad Nat → Nat × Nat → State × Except Bad Nat} {die by_ : Nat} {k : Pkt}
    (hok : ∀ v x p, f (v, .ok x) p = homePut v die k p.1 p.2) (hbad : ∀ v b p, f (v, .error b) p = (v, .error b))
    (fuel : Nat) : ∀ (s : State) (va n x : Nat), s.Canon → reqSrc s die k / 2 ^ 14 = by_ → va < 2 ^ 64 →
      (vaClass s.capSpad va).translated = true ∨ vaClass s.capSpad va = .none →
      ∃ vs, WritesPieces s die k by_ (cuts vaLine fuel va n) vs ((cuts vaLine fuel va n).foldl f (s, .ok x)).1
        ((cuts vaLine fuel va n).foldl f (s, .ok x)).2 := by
  induction fuel with
  | zero => exact fun s va n x _ _ _ _ => ⟨[s], .nil s die k by_ x⟩
  | succ fuel ih =>
    intro s va n x hs hby hva hcls
    unfold cuts
    by_cases hn : n = 0
    · rw [if_pos hn]; exact ⟨[s], .nil s die k by_ x⟩
    rw [if_neg hn]
    extract_lets m
    rw [List.foldl_cons, hok]
    rcases hl : locate s k.part va m true false false by_ with ⟨u, b | a⟩
    · rw [homePut_error (hby.symm ▸ hl), foldl_error (hbad _ _)]
      exact ⟨[s], .cons_error _ hl⟩
    · have htr : (vaClass s.capSpad va).translated = true := hcls.resolve_right fun hc => locate_none hc hl
      obtain ⟨v, act, w, hput, -, hin, -, hst⟩ := homePut_performed hs (die := die) (k := k) (hby.symm ▸ hl)
      obtain ⟨rfl, rfl⟩ := hin fun c hc => by rw [exchangeOf_translated htr] at hc; cases hc
      have hst := (hst Nat.zero_ne_one).1
      have hid : w.ident = s.ident := by rw [hst.frame]; exact (locate_keeps hl).ident
      have hcap : w.capSpad = s.capSpad := by rw [State.capSpad, State.capSpad, hid]
      have hnext := translated_next htr hva (k := m) (by rw [← vaLine_translated htr]; exact Nat.min_le_right _ _)
      obtain ⟨vs, hvs⟩ := ih w ((va + m) % 2 ^ 64) (n - m) a hst.canon (by rw [← hby, reqSrc, reqSrc, hid])
        (Nat.mod_lt _ (by decide)) (hcap.symm ▸ hnext)
      rw [hput]
      exact ⟨s :: vs, .cons_ok hl hst hvs⟩


end Sys2Proof.Machine
end

section
/-! Exact sums and their rounding to FP32 (R244, R249, R351). -/

namespace Sys2Proof.Machine

theorem Num.isNan_iff (v : Num) : v.isNan = true ↔ v = .nan := by cases v <;> simp [Num.isNan]

/-- The common exponent of a sum lies at or below that of each finite term. -/
theorem foldl_expo_le (l : List Num) (a : Int) :
    l.foldl (fun a v => v.expo a) a ≤ a ∧ ∀ s n e, Num.fin s n e ∈ l → l.foldl (fun a v => v.expo a) a ≤ e := by
  induction l generalizing a with
  | nil => simp
  | cons v l ih =>
    have hv : v.expo a ≤ a ∧ ∀ s n e, v = .fin s n e → v.expo a ≤ e := by cases v <;> simp [Num.expo]
    obtain ⟨h1, h2⟩ := ih (v.expo a)
    refine ⟨h1.trans hv.1, fun s n e hm => ?_⟩
    rcases List.mem_cons.1 hm with h | h
    · exact h1.trans (hv.2 s n e h.symm)
    · exact h2 s n e h

/-- A finite value as a multiple of a power of two at or below its exponent. -/
theorem numRat_eq_at {s : Bool} {n : Nat} {e e0 : Int} (h : e0 ≤ e) :
    numRat (.fin s n e) = ((Num.fin s n e).at e0 : ℚ) * 2 ^ e0 := by
  have hp : (2 : ℚ) ^ e = 2 ^ (e - e0).toNat * 2 ^ e0 := by
    rw [← zpow_natCast, ← zpow_add₀ (by norm_num), Int.toNat_of_nonneg (by omega)]
    congr 1; omega
  cases s <;> simp [numRat, Num.at, shiftUp, hp, mul_assoc]

/-- The terms of a sum at a common exponent add up to their exact sum. -/
theorem sum_numRat {l : List Num} {e0 : Int} (hfin : ∀ v ∈ l, ∃ s n e, v = .fin s n e ∧ e0 ≤ e) :
    (l.map numRat).sum = ((l.map (Num.at e0)).sum : ℚ) * 2 ^ e0 := by
  induction l with
  | nil => simp
  | cons v l ih =>
    obtain ⟨s, n, e, rfl, he⟩ := hfin v List.mem_cons_self
    rw [List.map_cons, List.map_cons, List.sum_cons, List.sum_cons, ih fun v hv => hfin v (List.mem_cons_of_mem _ hv),
      numRat_eq_at he]
    push_cast
    ring

theorem foldl_add_at (l : List Num) (e0 a : Int) : l.foldl (fun a v => a + v.at e0) a = a + (l.map (Num.at e0)).sum := by
  induction l generalizing a with
  | nil => simp
  | cons v l ih => rw [List.foldl_cons, ih, List.map_cons, List.sum_cons, add_assoc]

/-- An integer multiple of a power of two as a value. -/
theorem numRat_of_int (t e0 : Int) : numRat (.fin (t < 0) t.natAbs e0) = (t : ℚ) * 2 ^ e0 := by
  have ht : (if t < 0 then (-1 : ℚ) else 1) * (t.natAbs : ℚ) = t := by
    rw [Nat.cast_natAbs]
    split
    case isTrue h => rw [abs_of_neg h]; push_cast; ring
    case isFalse h => rw [abs_of_nonneg (not_lt.1 h), one_mul]
  rw [← ht]
  simp only [numRat, decide_eq_true_eq]

/-- The model's sum is the exact sum (R351). -/
theorem sumNum_isSum (rdn : Bool) (l : List Num) : IsSum rdn l (sumNum rdn l).1 (invIf (sumNum rdn l).2) := by
  have hnan : l.any Num.isNan = decide (Num.nan ∈ l) := by
    rw [Bool.eq_iff_iff]; simp [List.any_eq_true, Num.isNan_iff]
  have hinf : ∀ s, l.any (· == .inf s) = decide (Num.inf s ∈ l) := by
    intro s; rw [Bool.eq_iff_iff]; simp [List.any_eq_true]
  unfold sumNum IsSum
  simp only [hnan, hinf]
  by_cases h0 : Num.nan ∈ l
  · simp [h0, invIf]
  by_cases h1 : Num.inf false ∈ l
  · by_cases h2 : Num.inf true ∈ l <;> simp [h0, h1, h2, invIf]
  by_cases h2 : Num.inf true ∈ l
  · simp [h0, h1, h2, invIf]
  simp only [h0, h1, h2, decide_false, Bool.false_and, Bool.false_eq_true, if_false, false_and]
  have hfin : ∀ v ∈ l, ∃ s n e, v = .fin s n e ∧ l.foldl (fun a v => v.expo a) 0 ≤ e := by
    intro v hv
    match v with
    | .nan => exact absurd hv h0
    | .inf false => exact absurd hv h1
    | .inf true => exact absurd hv h2
    | .fin s n e => exact ⟨s, n, e, rfl, (foldl_expo_le l 0).2 s n e hv⟩
  have hsum := sum_numRat hfin
  generalize l.foldl (fun a v => v.expo a) 0 = e0 at hsum
  rw [foldl_add_at, zero_add]
  generalize (l.map (Num.at e0)).sum = t at hsum
  by_cases ht : t = 0
  · subst ht
    rw [if_pos rfl]
    refine ⟨rfl, (!l.isEmpty && l.all numSign) || (rdn && l.any numSign), 0, 0, rfl, ?_, fun _ => ?_⟩
    · rw [hsum]; simp [numRat]
    · simp [List.all_eq_true, List.any_eq_true]
  · rw [if_neg ht]
    refine ⟨rfl, _, _, _, rfl, (numRat_of_int t e0).trans hsum.symm, fun h => absurd (Int.natAbs_eq_zero.1 h) ht⟩

/-- Rounding a magnitude at a last place that leaves p bits gives at most 2^p. -/
theorem roundAt_le {p n : Nat} {e t : Int} (rm : Rm) (rand : Nat) (neg : Bool) (h : e + ((Nat.log2 n : Nat) : Int) + 1 - p ≤ t) :
    (roundAt rm rand neg n e t).1 ≤ 2 ^ p := by
  have hn : n < 2 ^ (Nat.log2 n + 1) := Nat.lt_log2_self
  unfold roundAt
  split
  case isTrue hle =>
    obtain ⟨d, hd⟩ : ∃ d : Nat, e - t = d := ⟨(e - t).toNat, by omega⟩
    have hpow : 2 ^ (Nat.log2 n + 1) * 2 ^ d ≤ 2 ^ p := by rw [← pow_add]; exact Nat.pow_le_pow_right (by decide) (by omega)
    simp only [shiftUp, hd, Int.toNat_natCast]
    exact (Nat.mul_le_mul_right _ hn.le).trans hpow
  case isFalse hlt =>
    have hq : n / 2 ^ (t - e).toNat < 2 ^ p := by
      rw [Nat.div_lt_iff_lt_mul (Nat.two_pow_pos _), ← pow_add]
      exact hn.trans_le (Nat.pow_le_pow_right (by decide) (by omega))
    have hup : ∀ up : Bool, (if up then n / 2 ^ (t - e).toNat + 1 else n / 2 ^ (t - e).toNat) ≤ 2 ^ p := by
      intro up; split
      · exact hq
      · exact hq.le
    exact hup _

/-- The mantissa of a rounded magnitude has the bits of its format. -/
theorem roundMag_lt (f : FForm) (rm : Rm) (rand : Nat) (neg : Bool) (n : Nat) (e : Int) :
    (roundMag f rm rand neg n e).1 < 2 ^ f.p := by
  have hle := roundAt_le (p := f.p) (n := n) (e := e) rm rand neg (le_max_left _ f.emin)
  have hpos : 0 < 2 ^ f.p := Nat.two_pow_pos _
  unfold roundMag
  simp only
  split
  case isTrue h => simp only [h]; omega
  case isFalse h => exact lt_of_le_of_ne hle h

/-- A value that does not overflow has a last place of at most its format's largest. -/
theorem roundMag_place {f : FForm} {rm : Rm} {rand : Nat} {neg : Bool} {n : Nat} {e : Int}
    (h : (roundMag f rm rand neg n e).2.2.2.2 = false) : (roundMag f rm rand neg n e).2.1 ≤ f.maxE := by
  unfold roundMag at h ⊢
  simp only [Bool.or_eq_false_iff, decide_eq_false_iff_not, not_lt] at h ⊢
  exact h.1

/-- The bits of a finite FP32 value. -/
theorem encIeee_fp32_lt {neg : Bool} {q : Nat} {t : Int} (hq : q < 2 ^ 24) (ht : t ≤ 104) : encIeee 23 neg q t < 2 ^ 32 := by
  have hs : (if neg then 2 ^ (23 + 8) else 0) ≤ 2 ^ 31 := by split <;> omega
  unfold encIeee
  simp only
  split <;> omega

/-- A value rounded to FP32 has 32 bits. -/
theorem encIeeeR_fp32_lt (clamp : Bool) (rm : Rm) (rand : Nat) (v : Num) : (encIeeeR 1 clamp rm rand v).1 < 2 ^ 32 := by
  have hinf : ∀ neg : Bool, (if neg then 2 ^ (23 + 8) else 0) + 255 * 2 ^ 23 < 2 ^ 32 := by intro neg; cases neg <;> decide
  match v with
  | .nan => simp [encIeeeR]
  | .inf neg => simpa [encIeeeR] using hinf neg
  | .fin neg 0 _ => simpa [encIeeeR] using encIeee_fp32_lt (neg := neg) (q := 0) (t := 0) (by decide) (by decide)
  | .fin neg (n + 1) e =>
    have hq := roundMag_lt formFp32 rm rand neg (n + 1) e
    have ht := roundMag_place (f := formFp32) (rm := rm) (rand := rand) (neg := neg) (n := n + 1) (e := e)
    unfold encIeeeR
    simp only [Nat.reduceEqDiff, if_false]
    generalize roundMag formFp32 rm rand neg (n + 1) e = y at hq ht
    obtain ⟨q, t, ix, tiny, ovf⟩ := y
    have hi := hinf neg
    generalize (if neg then 2 ^ (23 + 8) else 0) + 255 * 2 ^ 23 = i at hi ⊢
    split
    · -- an overflow gives an infinity, or the largest finite value below it
      have hmax : ∀ b : Bool, (if b then i - 1 else i) < 2 ^ 32 := by intro b; split <;> omega
      split
      · exact (Nat.sub_le i 1).trans_lt hi
      · dsimp only
        exact hmax _
    · rename_i h
      exact encIeee_fp32_lt hq (ht (by simpa using h))

end Sys2Proof.Machine
end

section
/-! READ, WRITE and BANK_OPERATION at their home (R125, R136, R178, R180, R223, R239, R241, R331). -/

namespace Sys2Proof.Machine

/-- A READ behind an earlier load of its context of a byte of it waits (R188, R190). -/
theorem exec_read_behind {s : State} {die : Nat} {k : Pkt} (hd : die < 4) (hk : k.opc = 0) (hb : loadBefore s k = true) :
    exec (.read die k) s = .next (s.post (.read die k)) := by
  rw [exec_read, execRead, if_neg (by omega), if_pos hb]

/-- A request of the home's own cluster to a tile under autotomy is put off (R239). -/
theorem requests_held {s : State} {die : Nat} {k : Pkt} (hd : die < 4) (hh : ownLeaf s k = true ∧ lookupHeld s k = true) :
    (k.opc = 0 → loadBefore s k = false → exec (.read die k) s = .next { s with stalled := true }) ∧
    (k.opc = 1 → exec (.write die k) s = .next { s with stalled := true }) ∧
    (k.opc = 4 → exec (.bankOperation die k) s = .next { s with stalled := true }) := by
  refine ⟨fun hk hb => ?_, fun hk => ?_, fun hk => ?_⟩
  · rw [exec_read, execRead, if_neg (by omega), if_neg (by simp [hb]), atHome_held hh]
  · rw [exec_write, execWrite, if_neg (by omega), atHome_held hh]
  · rw [exec_bankOperation, execBankOperation, if_neg (by omega), atHome_held hh]

/-- A READ that is located is answered with the bytes and the tag of its line; the owner of an HBM frame answers (R136, R178). -/
theorem exec_read_ok {s u : State} {die a : Nat} {k : Pkt} (hd : die < 4) (hk : k.opc = 0) (hb : loadBefore s k = false)
    (hh : ¬ (ownLeaf s k = true ∧ lookupHeld s k = true))
    (hl : locate s k.part k.va k.want false false false (reqSrc s die k / 2 ^ 14) = (u, .ok a)) :
    ∃ t r, exec (.read die k) s = .next t ∧ Answers u t (answerer die a) k r ∧ r.opc = 2 ∧ r.cause = 0 ∧
      r.payload = rdNat u a k.want ∧ r.tag = (tagAt u a).toNat := by
  obtain ⟨r, ha, h1, h2, -, h3, h4⟩ := reply_answers u (answerer die a) k
    { opc := 2, len := k.want, payload := rdNat u a k.want, tag := (tagAt u a).toNat, vec := relAt u a k.want }
  exact ⟨_, r, by rw [exec_read, execRead, if_neg (by omega), if_neg (by simp [hb]), atHome_free hh, hl], ha, h1, h2, h3, h4⟩

/-- A READ that is not located is answered with its fault (R134). -/
theorem exec_read_error {s u : State} {die : Nat} {k : Pkt} {b : Bad} (hd : die < 4) (hk : k.opc = 0) (hb : loadBefore s k = false)
    (hh : ¬ (ownLeaf s k = true ∧ lookupHeld s k = true))
    (hl : locate s k.part k.va k.want false false false (reqSrc s die k / 2 ^ 14) = (u, .error b)) :
    ∃ t r, exec (.read die k) s = .next t ∧ Answers u t die k r ∧ r.opc = 2 ∧ r.cause = b.cause ∧ r.level = b.level := by
  obtain ⟨r, ha⟩ := faultReply_answers u die k 2 b
  exact ⟨_, r, by rw [exec_read, execRead, if_neg (by omega), if_neg (by simp [hb]), atHome_free hh, hl], ha⟩

/-- A WRITE that is performed is answered. -/
theorem exec_write_ok {s w : State} {die a : Nat} {k : Pkt} (hd : die < 4) (hk : k.opc = 1)
    (hh : ¬ (ownLeaf s k = true ∧ lookupHeld s k = true)) (hw : homeWrite s die k = (w, .ok a)) :
    ∃ t r, exec (.write die k) s = .next t ∧ Answers w t (answerer die a) k r ∧ r.opc = 3 ∧ r.cause = 0 := by
  obtain ⟨r, ha, h1, h2, -⟩ := reply_answers w (answerer die a) k { opc := 3 }
  refine ⟨_, r, ?_, ha, h1, h2⟩
  rw [exec_write, execWrite, if_neg (by omega), atHome_free hh, hw]

/-- A WRITE that faults is answered with its fault. -/
theorem exec_write_error {s w : State} {die : Nat} {k : Pkt} {b : Bad} (hd : die < 4) (hk : k.opc = 1)
    (hh : ¬ (ownLeaf s k = true ∧ lookupHeld s k = true)) (hw : homeWrite s die k = (w, .error b)) :
    ∃ t r, exec (.write die k) s = .next t ∧ Answers w t die k r ∧ r.opc = 3 ∧ r.cause = b.cause := by
  obtain ⟨r, ha, h1, h2, -⟩ := faultReply_answers w die k 3 b
  refine ⟨_, r, ?_, ha, h1, h2⟩
  rw [exec_write, execWrite, if_neg (by omega), atHome_free hh, hw]

/-- A write packet within one line, or to an SRAM sub-window, is one access. -/
theorem homeWrite_oneLine {s : State} {die : Nat} {k : Pkt} (h : vaLine k.va ≠ 64 ∨ k.va % 64 + k.len ≤ 64) :
    homeWrite s die k = homePut s die k k.va k.len :=
  if_neg (by omega)

/-- A WRITE within one line that is located: FINJ_CTL may discard it, and else its payload is left, with the tag of the line; it
is answered all the same (R223, R241, R399). -/
theorem exec_write_oneLine {s u : State} (hs : s.Canon) {die a : Nat} {k : Pkt} (hd : die < 4) (hk : k.opc = 1)
    (hh : ¬ (ownLeaf s k = true ∧ lookupHeld s k = true)) (h1 : vaLine k.va ≠ 64 ∨ k.va % 64 + k.len ≤ 64)
    (hl : locate s k.part k.va k.len true false false (reqSrc s die k / 2 ^ 14) = (u, .ok a)) :
    ∃ v act w t r, exec (.write die k) s = .next t ∧ Answers w t (answerer die a) k r ∧ r.opc = 3 ∧ r.cause = 0 ∧
      (∀ c, exchangeOf s k.part k.va = some c → FromOutside s k c → Injects u v c act) ∧
      ((∀ c, exchangeOf s k.part k.va = some c → ¬ FromOutside s k c) → v = u ∧ act = 0) ∧
      (act = 1 → w = v) ∧
      (act ≠ 1 → BytesKept v w a k.len ∧ rdNat w a k.len = k.payload % 256 ^ k.len ∧
        w = { v with mem := w.mem, tags := w.tags, relVec := w.relVec } ∧
        (u.tags.Rises → a < 6 * 2 ^ 60 → tagAt w a = lineTag k k.va k.len ^^^ (if act = 2 then 1 else 0))) := by
  obtain ⟨v, act, w, hput, hinj, hin, hdrop, hst⟩ := homePut_performed hs hl
  obtain ⟨t, r, ht, ha, ho, hz⟩ := exec_write_ok hd hk hh ((homeWrite_oneLine h1).trans hput)
  refine ⟨v, act, w, t, r, ht, ha, ho, hz, hinj, hin, hdrop, fun hact => ?_⟩
  obtain ⟨hstores, htag⟩ := hst hact
  exact ⟨hstores.kept, by simpa using hstores.value, hstores.frame, htag⟩

/-- The line of a VA is 64 bytes in the translated ranges alone. -/
theorem translated_of_vaLine {cap va : Nat} (h : vaLine va = 64) : (vaClass cap va).translated = true := by
  unfold vaLine at h
  split at h
  case isTrue h0 => exact (translated_iff cap va).2 ((translated_iff 0 va).1 h0)
  case isFalse => cases h

/-- A write packet of more than a line of a translated range is performed line by line, up to its first fault (R125). -/
theorem homeWrite_lines {s : State} (hs : s.Canon) {die : Nat} {k : Pkt}
    (h : ¬ (vaLine k.va ≠ 64 ∨ k.va % 64 + k.len ≤ 64)) (hv : k.va + k.len ≤ 2 ^ 64) :
    ∃ vs, WritesPieces s die k (reqSrc s die k / 2 ^ 14) (pieces k.va k.len) vs (homeWrite s die k).1 (homeWrite s die k).2 := by
  obtain ⟨h64, hlen⟩ : vaLine k.va = 64 ∧ 64 < k.va % 64 + k.len := by omega
  unfold homeWrite
  rw [if_pos ⟨h64, hlen⟩]
  exact foldl_homePut (fun _ _ _ => rfl) (fun _ _ _ => rfl) _ s k.va k.len 0 hs rfl (by omega)
    (.inl (translated_of_vaLine h64))

/-- Such a packet is answered from where it ended, without a cause or with that of its first fault. -/
theorem exec_write_lines {s : State} (hs : s.Canon) {die : Nat} {k : Pkt} (hd : die < 4) (hk : k.opc = 1)
    (hh : ¬ (ownLeaf s k = true ∧ lookupHeld s k = true)) (h : ¬ (vaLine k.va ≠ 64 ∨ k.va % 64 + k.len ≤ 64))
    (hv : k.va + k.len ≤ 2 ^ 64) : ∃ vs w res t r d,
      WritesPieces s die k (reqSrc s die k / 2 ^ 14) (pieces k.va k.len) vs w res ∧
      exec (.write die k) s = .next t ∧ Answers w t d k r ∧ r.opc = 3 ∧
      (∀ a, res = .ok a → r.cause = 0) ∧ (∀ b, res = .error b → r.cause = b.cause) := by
  obtain ⟨vs, hvs⟩ := homeWrite_lines hs h hv (die := die)
  rcases hw : homeWrite s die k with ⟨w, b | a⟩
  · obtain ⟨t, r, ht, ha, ho, hr⟩ := exec_write_error hd hk hh hw
    rw [hw] at hvs
    refine ⟨vs, w, .error b, t, r, _, hvs, ht, ha, ho, by simp, ?_⟩
    rintro _ ⟨⟩
    exact hr
  · obtain ⟨t, r, ht, ha, ho, hr⟩ := exec_write_ok hd hk hh hw
    rw [hw] at hvs
    exact ⟨vs, w, .ok a, t, r, _, hvs, ht, ha, ho, fun _ _ => hr, by simp⟩

/-! Bank operations (R180, R331) -/

theorem two_pow_eight_mul (n : Nat) : 2 ^ (8 * n) = 256 ^ n := by rw [pow_mul]; rfl

theorem sext_eq_sgn {w v : Nat} (h : v < 2 ^ w) : sext w v = sgn w v := by
  unfold sext sgn
  rw [Nat.mod_eq_of_lt h]
  push_cast
  rfl

/-- What a bank operation other than fadd leaves fits its bytes, and is what R331 says. -/
theorem bankOp_eq {op n old v : Nat} (ho : old < 2 ^ (8 * n)) (hv : v < 2 ^ (8 * n)) (hop : op ≤ 6) (h1 : op ≠ 1) :
    bankOp op n old v % 256 ^ n = bankValue op n old v := by
  rw [← two_pow_eight_mul]
  match op with
  | 0 => exact Nat.mod_mod _ _
  | 1 => exact absurd rfl h1
  | 2 =>
    show (if sext (8 * n) old ≤ sext (8 * n) v then old else v) % _ = if sgn (8 * n) old ≤ sgn (8 * n) v then old else v
    rw [sext_eq_sgn ho, sext_eq_sgn hv]
    split
    · exact Nat.mod_eq_of_lt ho
    · exact Nat.mod_eq_of_lt hv
  | 3 =>
    show (if sext (8 * n) old ≤ sext (8 * n) v then v else old) % _ = if sgn (8 * n) old ≤ sgn (8 * n) v then v else old
    rw [sext_eq_sgn ho, sext_eq_sgn hv]
    split
    · exact Nat.mod_eq_of_lt hv
    · exact Nat.mod_eq_of_lt ho
  | 4 => exact Nat.mod_eq_of_lt (Nat.or_lt_two_pow ho hv)
  | 5 => exact Nat.mod_eq_of_lt (Nat.and_lt_two_pow _ hv)
  | 6 => exact (Nat.mod_mod _ _).trans (Nat.mod_eq_of_lt hv)
  | n + 7 => omega

/-- What fadd leaves is the rounded exact sum of two FP32 values. -/
theorem bankOp_fadd (n old v : Nat) : ∃ x fl, IsSum false [decFmt 1 old, decFmt 1 v] x fl ∧
    bankOp 1 n old v % 256 ^ 4 = (mmaRound false x).1 :=
  ⟨_, _, sumNum_isSum false _, Nat.mod_eq_of_lt (encIeeeR_fp32_lt _ _ _ _)⟩

theorem bankAt_ok {s u : State} {part va n op v from_ a : Nat} (hb : bankable (vaClass s.capSpad va) = true)
    (hl : locate s part va n true false false from_ = (u, .ok a)) :
    bankAt s part va n op v from_ =
      (relPut (storeAt u a n (bankOp op n (rdNat u a n) v)) a n (relAt u a n), .ok (rdNat u a n)) := by
  unfold bankAt; rw [hb, hl]; rfl

theorem bankAt_error {s u : State} {part va n op v from_ : Nat} {b : Bad} (hb : bankable (vaClass s.capSpad va) = true)
    (hl : locate s part va n true false false from_ = (u, .error b)) : bankAt s part va n op v from_ = (u, .error b) := by
  unfold bankAt; rw [hb, hl]; rfl

/-- Memory without a bank ALU, outside the translated ranges, answers with cause address. -/
theorem bankAt_else {s : State} {part va n op v from_ : Nat} (hb : bankable (vaClass s.capSpad va) = false)
    (ht : (vaClass s.capSpad va).translated = false) : ∃ b, bankAt s part va n op v from_ = (s, .error b) ∧ b.cause = 1 := by
  unfold bankAt bankElse
  rw [hb]
  cases hc : vaClass s.capSpad va with
  | host | dieLocal => rw [hc] at ht; cases ht
  | none | spad | clu | pool | eng => exact ⟨_, rfl, rfl⟩

/-- In a translated range the fault of the walk stands before it (R65, R180). -/
theorem bankAt_translated {s u : State} {part va n op v from_ : Nat} {r : Except Bad Nat}
    (hb : bankable (vaClass s.capSpad va) = false) (ht : (vaClass s.capSpad va).translated = true)
    (hl : locate s part va n false false false from_ = (u, r)) :
    ∃ b, bankAt s part va n op v from_ = (u, .error b) ∧ (∀ e, r = .error e → b = e) ∧ (∀ a, r = .ok a → b.cause = 1) := by
  unfold bankAt bankElse
  rw [hb]
  cases hc : vaClass s.capSpad va with
  | host | dieLocal => cases r <;> simp [hl]
  | none | spad | clu | pool | eng => rw [hc] at ht; cases ht

/-- A BANK_OPERATION that faults is answered with its fault. -/
theorem exec_bank_error {s u : State} {die : Nat} {k : Pkt} {b : Bad} (hd : die < 4) (hk : k.opc = 4)
    (hh : ¬ (ownLeaf s k = true ∧ lookupHeld s k = true))
    (hl : bankAt s k.part k.va k.want k.bop k.payload (reqSrc s die k / 2 ^ 14) = (u, .error b)) :
    ∃ t r, exec (.bankOperation die k) s = .next t ∧ Answers u t die k r ∧ r.opc = 5 ∧ r.cause = b.cause := by
  obtain ⟨r, ha, h1, h2, -⟩ := faultReply_answers u die k 5 b
  refine ⟨_, r, ?_, ha, h1, h2⟩
  rw [exec_bankOperation, execBankOperation, if_neg (by omega), atHome_free hh]
  simp only [hl]

/-- Elsewhere than at a bank ALU a BANK_OPERATION is answered with cause address, without effect (R180). -/
theorem exec_bank_else {s : State} {die : Nat} {k : Pkt} (hd : die < 4) (hk : k.opc = 4)
    (hh : ¬ (ownLeaf s k = true ∧ lookupHeld s k = true)) (hb : bankable (vaClass s.capSpad k.va) = false)
    (ht : (vaClass s.capSpad k.va).translated = false) :
    ∃ t r, exec (.bankOperation die k) s = .next t ∧ Answers s t die k r ∧ r.opc = 5 ∧ r.cause = 1 := by
  obtain ⟨b, hl, hz⟩ := bankAt_else hb ht
  obtain ⟨t, r, ht, ha, ho, hr⟩ := exec_bank_error hd hk hh hl
  exact ⟨t, r, ht, ha, ho, hr.trans hz⟩

/-- In a translated range the fault of the walk stands before cause address (R65, R180). -/
theorem exec_bank_translated {s : State} {die : Nat} {k : Pkt} (hd : die < 4) (hk : k.opc = 4)
    (hh : ¬ (ownLeaf s k = true ∧ lookupHeld s k = true)) (hb : bankable (vaClass s.capSpad k.va) = false)
    (ht : (vaClass s.capSpad k.va).translated = true) (u : State) :
    (∀ a, locate s k.part k.va k.want false false false (reqSrc s die k / 2 ^ 14) = (u, .ok a) →
      ∃ t r, exec (.bankOperation die k) s = .next t ∧ Answers u t die k r ∧ r.opc = 5 ∧ r.cause = 1) ∧
    (∀ b, locate s k.part k.va k.want false false false (reqSrc s die k / 2 ^ 14) = (u, .error b) →
      ∃ t r, exec (.bankOperation die k) s = .next t ∧ Answers u t die k r ∧ r.opc = 5 ∧ r.cause = b.cause) := by
  refine ⟨fun a hl => ?_, fun b hl => ?_⟩
  · obtain ⟨b, hbank, -, hz⟩ := bankAt_translated hb ht hl
    obtain ⟨t, r, ht, ha, ho, hr⟩ := exec_bank_error hd hk hh hbank
    exact ⟨t, r, ht, ha, ho, hr.trans (hz a rfl)⟩
  · obtain ⟨e, hbank, he, -⟩ := bankAt_translated hb ht hl
    exact exec_bank_error hd hk hh (he b rfl ▸ hbank)

/-- A BANK_OPERATION that is performed is answered with the old value, and leaves its result (R180, R331). -/
theorem exec_bank_ok {s u : State} (hs : s.Canon) {die a : Nat} {k : Pkt} (hd : die < 4) (hk : k.opc = 4)
    (hh : ¬ (ownLeaf s k = true ∧ lookupHeld s k = true)) (hb : bankable (vaClass s.capSpad k.va) = true)
    (hl : locate s k.part k.va k.want true false false (reqSrc s die k / 2 ^ 14) = (u, .ok a)) :
    ∃ w t r, exec (.bankOperation die k) s = .next t ∧ Answers w t die k r ∧ r.opc = 5 ∧ r.cause = 0 ∧
      r.payload = rdNat u a k.want ∧ Stores u w a k.want (bankOp k.bop k.want (rdNat u a k.want) k.payload % 256 ^ k.want) := by
  have hst := (Stores.storeAt ((locate_keeps hl).canon hs) a k.want (bankOp k.bop k.want (rdNat u a k.want) k.payload)).relPut
    a k.want (relAt u a k.want)
  rw [exec_bankOperation, execBankOperation, if_neg (by omega), atHome_free hh]
  simp only [bankAt_ok hb hl]
  -- what a release leaves is put where the VA lies, which changes no byte
  cases sramLoc s k.part (vaClass s.capSpad k.va) true with
  | error b =>
    obtain ⟨r, ha, h1, h2, -, h3, -⟩ := reply_answers _ die k { opc := 5, len := k.want, payload := rdNat u a k.want, vec := [] }
    exact ⟨_, _, r, rfl, ha, h1, h2, h3, hst⟩
  | ok c =>
    obtain ⟨r, ha, h1, h2, -, h3, -⟩ := reply_answers _ die k
      { opc := 5, len := k.want, payload := rdNat u a k.want, vec := relAt s c k.want }
    exact ⟨_, _, r, rfl, ha, h1, h2, h3, hst.relPut c k.want _⟩

/-- With an operand of its bytes, the result is that of R331. -/
theorem exec_bank_performed {s u : State} (hs : s.Canon) {die a : Nat} {k : Pkt} (hd : die < 4) (hk : k.opc = 4)
    (hh : ¬ (ownLeaf s k = true ∧ lookupHeld s k = true)) (hb : bankable (vaClass s.capSpad k.va) = true)
    (hop : k.bop ≤ 6) (hf : k.bop = 1 → k.want = 4) (hp : k.payload < 2 ^ (8 * k.want))
    (hl : locate s k.part k.va k.want true false false (reqSrc s die k / 2 ^ 14) = (u, .ok a)) :
    ∃ w t r, exec (.bankOperation die k) s = .next t ∧ Answers w t die k r ∧ r.opc = 5 ∧ r.cause = 0 ∧
      r.payload = rdNat u a k.want ∧ BytesKept u w a k.want ∧
      (k.bop ≠ 1 → rdNat w a k.want = bankValue k.bop k.want (rdNat u a k.want) k.payload) ∧
      (k.bop = 1 → ∃ x fl, IsSum false [decFmt 1 (rdNat u a 4), decFmt 1 k.payload] x fl ∧ rdNat w a 4 = (mmaRound false x).1) := by
  obtain ⟨w, t, r, ht, ha, ho, hz, hval, hst⟩ := exec_bank_ok hs hd hk hh hb hl
  have hold : rdNat u a k.want < 2 ^ (8 * k.want) := two_pow_eight_mul k.want ▸ rdNat_lt u a k.want
  refine ⟨w, t, r, ht, ha, ho, hz, hval, hst.kept, fun h1 => hst.value.trans (bankOp_eq hold hp hop h1), fun h1 => ?_⟩
  obtain ⟨x, fl, hx, hsum⟩ := bankOp_fadd 4 (rdNat u a 4) k.payload
  have hv := hst.value
  rw [h1, hf h1] at hv
  exact ⟨x, fl, hx, hv.trans hsum⟩

end Sys2Proof.Machine
end

section
/-! A reply at its requester (R55, R143, R188, R192, R208, R210, R331). -/

namespace Sys2Proof.Machine

/-! x registers and the destinations that are empty -/

theorem Ctx.rx_wx_same {c : Ctx} (h : c.x.Rises) {d : Nat} (hd : d ≠ 0) (v : W64) : (c.wx d v).rx d = v := by
  simp only [Ctx.wx, Ctx.rx, hd, if_false]
  exact SMap.get_put_same 0 h d v

theorem Ctx.rx_wx_other {c : Ctx} (h : c.x.Rises) {d e : Nat} (he : e ≠ d) (v : W64) : (c.wx d v).rx e = c.rx e := by
  unfold Ctx.wx
  split
  · rfl
  · simp only [Ctx.rx, SMap.get_put_other 0 h v he]

@[simp] theorem Ctx.isEmpty_mkFull_same (c : Ctx) (k : Nat) : (c.mkFull k).isEmpty k = false := by
  simp [Ctx.isEmpty, Ctx.mkFull]

theorem Ctx.isEmpty_mkFull_other (c : Ctx) {k j : Nat} (h : j ≠ k) : (c.mkFull k).isEmpty j = c.isEmpty j := by
  simp [Ctx.isEmpty, Ctx.mkFull, h]

/-- An x register written changes no other field of its context. -/
theorem Ctx.wx_eq (c : Ctx) (d : Nat) (v : W64) : c.wx d v = { c with x := (c.wx d v).x } := by
  unfold Ctx.wx; split <;> rfl

@[simp] theorem Ctx.isEmpty_wx (c : Ctx) (d : Nat) (v : W64) (k : Nat) : (c.wx d v).isEmpty k = c.isEmpty k := by
  rw [Ctx.wx_eq]; rfl

theorem xKey_injective {d e : Nat} (h : e ≠ d) : xKey e ≠ xKey d := by unfold xKey; omega

/-- An x register taken from a fill: full, but for x0, which keeps reading as zero (R198, R208). -/
def Ctx.fillX (c : Ctx) (d : Nat) (v : W64) : Ctx := if d = 0 then c else (c.mkFull (xKey d)).wx d v

/-- Beside x registers and the empty destinations no field changes. -/
theorem Ctx.fillX_eq (c : Ctx) (d : Nat) (v : W64) : c.fillX d v = { c with x := (c.fillX d v).x, empties := (c.fillX d v).empties } := by
  unfold Ctx.fillX
  split
  · rfl
  · rw [Ctx.wx_eq]; rfl

theorem Ctx.fillX_same {c : Ctx} (h : c.x.Rises) {d : Nat} (hd : d ≠ 0) (v : W64) :
    (c.fillX d v).rx d = v ∧ (c.fillX d v).isEmpty (xKey d) = false := by
  rw [Ctx.fillX, if_neg hd]
  exact ⟨Ctx.rx_wx_same (c := c.mkFull (xKey d)) h hd v, by simp⟩

theorem Ctx.fillX_other {c : Ctx} (h : c.x.Rises) {d e : Nat} (he : e ≠ d) (v : W64) :
    (c.fillX d v).rx e = c.rx e ∧ (c.fillX d v).isEmpty (xKey e) = c.isEmpty (xKey e) := by
  unfold Ctx.fillX
  split
  · exact ⟨rfl, rfl⟩
  · exact ⟨Ctx.rx_wx_other (c := c.mkFull (xKey d)) h he v,
      (Ctx.isEmpty_wx _ _ _ _).trans (Ctx.isEmpty_mkFull_other c (xKey_injective he))⟩

/-- What lands for an x register: its value, and its lineage. -/
theorem landWr_loadX (s : State) (ck : Nat) (c : Ctx) (d v : Nat) (l : W32) :
    ∃ lin, (loadWrs s ck (.x d) v l).foldl landWr (if d = 0 then c else c.mkFull (xKey d)) =
      { c.fillX d (BitVec.ofNat 64 v) with lin := lin } := by
  by_cases h : d = 0
  · refine ⟨c.lin, ?_⟩
    simp [h, loadWrs, landWr, Ctx.fillX, Ctx.wx, Ctx.setLin, xKey]
  · refine ⟨c.lin.ins (xKey d) l, ?_⟩
    have hk : xKey d ≠ 0x800 := by unfold xKey; omega
    simp [h, hk, loadWrs, landWr, Ctx.fillX, Ctx.setLin]
    simp [Ctx.wx, h, Ctx.mkFull]

/-- A completed fill of an x register lands: beside the register only its lineage, the input buffer and the fills change. -/
theorem landFill_x (s : State) (ck : Nat) {c : Ctx} {f : Fill} {d : Nat} (hd : f.dst = .x d)
    (hw : ∀ n o g a q, c.phase ≠ .waiting n o g a q) : ∃ lin ibuf, landFill s ck c f =
      { c.fillX d (BitVec.ofNat 64 (fillValue f)) with fills := c.fills.filter (fun g => g != f), lin := lin, ibuf := ibuf } := by
  have hx : (c.fillX d (BitVec.ofNat 64 (fillValue f))).phase = c.phase ∧ (c.fillX d (BitVec.ofNat 64 (fillValue f))).fills = c.fills := by
    rw [Ctx.fillX_eq]; exact ⟨rfl, rfl⟩
  unfold landFill
  rw [hd]
  simp only
  obtain ⟨lin, hl⟩ := landWr_loadX s ck c d (fillValue f)
    (foldLin f.k f.la (if f.gather then 0 else BitVec.ofNat 32 ((f.parts.head?.map (·.tag)).getD 0)) f.lc 0)
  have hkey : dstKey (.x d) = if d = 0 then none else some (xKey d) := rfl
  by_cases h : d = 0
  · rw [if_pos h] at hl
    simp only [hkey, if_pos h, hl, hx.1, hx.2]
    split
    · exact absurd ‹_› (hw _ _ _ _ _)
    · exact ⟨_, _, rfl⟩
  · rw [if_neg h] at hl
    simp only [hkey, if_neg h, hl, hx.1, hx.2]
    split
    · exact absurd ‹_› (hw _ _ _ _ _)
    · exact ⟨_, _, rfl⟩

/-- A fill whose one part has its reply (R208, R210). -/
def answeredFill (f : Fill) (p : FPart) (k : Pkt) : Fill :=
  { f with
    parts := [{ p with got := some (if k.cause = 0 then k.payload else 0), tag := k.tag }],
    bad := if k.cause ≠ 0 then some (k.cause, k.va, k.level, k.src / 2 ^ 14) else none }

/-- The context after the reply of a fill's one part. -/
theorem exec_readReply_single {s : State} {die : Nat} {k : Pkt} {c : Ctx} {f : Fill} {p : FPart} (hc : s.ctx? k.who = some c)
    (hf : c.fills = [f]) (hp : f.parts = [p]) (ho : p.got = none) (hr : p.rid = k.rid) (ha : f.acq = false) (hb : f.bad = none) :
    ∃ t : State, exec (.readReply die k) s = .next (t.setCtx k.who (let c' : Ctx := { c with fills := [answeredFill f p k] }
      if k.cause = 0 then landFill t k.who c' (answeredFill f p k) else c')) := by
  refine ⟨if k.cls = 1 then onReply s (srcTile (k.who / 2)) k.echo k.q else s, ?_⟩
  rw [exec_readReply, execReadReply, hc]
  simp only [hf]
  by_cases hz : k.cause = 0 <;> simp_all [answeredFill]

/-- The value of a fill of one part is the part's. -/
theorem fillValue_single {f : Fill} {p : FPart} {v : Nat} (hp : f.parts = [p]) (hv : p.got = some v) (ho : p.off = 0)
    (hc : f.cover = []) : fillValue f = v % 256 ^ p.len := by
  simp [fillValue, overlay, hp, hv, ho, hc]

/-- A reply without a fault fills its x register, unless that is x0, and ends the fill (R208). -/
theorem exec_readReply_value {s : State} {die : Nat} {k : Pkt} {c : Ctx} {f : Fill} {p : FPart} {d : Nat}
    (hc : s.ctx? k.who = some c) (hf : c.fills = [f]) (hp : f.parts = [p]) (ho : p.got = none) (hr : p.rid = k.rid)
    (hoff : p.off = 0) (hlen : p.len = f.size) (hd : f.dst = .x d) (hcov : f.cover = []) (ha : f.acq = false) (hb : f.bad = none)
    (hx : c.x.Rises) (hw : ∀ n o g a q, c.phase ≠ .waiting n o g a q) (hk : k.cause = 0) :
    ∃ t c', exec (.readReply die k) s = .next t ∧ t.ctx? k.who = some c' ∧ c'.fills = [] ∧
      (d ≠ 0 → c'.rx d = BitVec.ofNat 64 (k.payload % 256 ^ f.size) ∧ c'.isEmpty (xKey d) = false) ∧
      (∀ e, e ≠ d → c'.rx e = c.rx e ∧ c'.isEmpty (xKey e) = c.isEmpty (xKey e)) ∧
      c'.pend = c.pend ∧ c'.held = c.held ∧ c'.arch = c.arch := by
  obtain ⟨t, ht⟩ := exec_readReply_single (die := die) hc hf hp ho hr ha hb
  obtain ⟨lin, ibuf, hl⟩ := landFill_x t k.who (c := { c with fills := [answeredFill f p k] }) (f := answeredFill f p k) hd hw
  have hv : fillValue (answeredFill f p k) = k.payload % 256 ^ f.size := by
    rw [← hlen]
    exact fillValue_single (p := { p with got := some k.payload, tag := k.tag }) (by simp [answeredFill, hk]) rfl hoff hcov
  simp only [if_pos hk, hl, hv] at ht
  refine ⟨_, _, ht, State.ctx?_setCtx_same _ _ _, by simp,
    fun h0 => Ctx.fillX_same (c := { c with fills := [answeredFill f p k] }) hx h0 _,
    fun e he => Ctx.fillX_other (c := { c with fills := [answeredFill f p k] }) hx he _, ?_, ?_, ?_⟩ <;> rw [Ctx.fillX_eq]

/-- A reply with a fault leaves the register empty, and the fill keeps its cause, VA and level (R210). -/
theorem exec_readReply_fault {s : State} {die : Nat} {k : Pkt} {c : Ctx} {f : Fill} {p : FPart} (hc : s.ctx? k.who = some c)
    (hf : c.fills = [f]) (hp : f.parts = [p]) (ho : p.got = none) (hr : p.rid = k.rid) (ha : f.acq = false) (hb : f.bad = none)
    (hk : k.cause ≠ 0) :
    ∃ t c' g, exec (.readReply die k) s = .next t ∧ t.ctx? k.who = some c' ∧ c' = { c with fills := [g] } ∧
      g.bad = some (k.cause, k.va, k.level, k.src / 2 ^ 14) := by
  obtain ⟨t, ht⟩ := exec_readReply_single (die := die) hc hf hp ho hr ha hb
  simp only [if_neg hk] at ht
  exact ⟨_, _, _, ht, State.ctx?_setCtx_same _ _ _, rfl, if_pos hk⟩

/-! Committed accesses that are answered -/

/-- Without an access that waits to be sent, nothing is sent. -/
theorem pump_idle {s : State} {ck : Nat} {c : Ctx} (hc : s.ctx? ck = some c) (ho : c.out = []) : pump s ck = s := by
  rw [pump, State.ctx_of_ctx? hc, ho]; rfl

/-- A context that waits at no barrier does not arrive at one. -/
theorem tryArrive_idle {s : State} {ck : Nat} {c : Ctx} (hc : s.ctx? ck = some c)
    (hw : ∀ n o g a q, c.phase ≠ .waiting n o g a q) : tryArrive s ck = s := by
  unfold tryArrive
  rw [hc]
  simp only
  split
  · exact absurd ‹_› (hw _ _ _ _ _)
  · rfl

/-- What a context whose committed access has faulted is to do: its transfer where its commit waits for a verdict, else to be written
back, halted by a split or faulted (R40, R210). -/
def lostPhase : Phase → Phase
  | .commit e => .commit { e with lost := true }
  | .leaving 5 => .leaving 5
  | _ => .leaving 6

theorem lostPhase_not_waiting (p : Phase) (n o g : Nat) (a : Bool) (q : Nat) : lostPhase p ≠ .waiting n o g a q := by
  unfold lostPhase; split <;> simp

/-- An imprecise fault of a resident context (R210). -/
theorem imprecise_eq {s : State} {ck : Nat} {c : Ctx} (hc : s.ctx? ck = some c) (b : Bad) :
    imprecise s ck b = (emitFault s c.part (srcTile (ck / 2)) b).setCtx ck { c with held := [], phase := lostPhase c.phase } := by
  unfold imprecise
  rw [hc]
  rfl

/-- A committed access answered without a fault is outstanding no more. -/
theorem answered_ok {s : State} {ck : Nat} {c : Ctx} {k : Pkt} (ho : c.out = []) (hw : ∀ n o g a q, c.phase ≠ .waiting n o g a q)
    (hk : k.cause = 0) : (answered s ck c k).ctx? ck = some { c with outst := c.outst.filter fun o => o.rid != k.rid } := by
  unfold answered
  extract_lets t u v
  have hv : v.ctx? ck = some { c with outst := c.outst.filter fun o => o.rid != k.rid } := by
    simp only [v, hk, ne_eq, not_true_eq_false, if_false]
    exact State.ctx?_setCtx_same _ _ _
  rw [pump_idle hv ho, tryArrive_idle hv hw, hv]

/-- A committed access answered with a fault is outstanding no more, and its context is lost. -/
theorem answered_fault {s : State} {ck : Nat} {c : Ctx} {k : Pkt} (ho : c.out = []) (hk : k.cause ≠ 0) :
    (answered s ck c k).ctx? ck =
      some { c with outst := c.outst.filter fun o => o.rid != k.rid, held := [], phase := lostPhase c.phase } := by
  unfold answered
  extract_lets t u v
  have hv : v.ctx? ck = some { c with outst := c.outst.filter fun o => o.rid != k.rid, held := [], phase := lostPhase c.phase } := by
    simp only [v, hk, ne_eq, not_false_eq_true, if_true]
    rw [imprecise_eq (State.ctx?_setCtx_same _ _ _), State.ctx?_setCtx_same]
  rw [pump_idle hv ho, tryArrive_idle hv (lostPhase_not_waiting _), hv]

theorem exec_writeAcknowledge_found {s : State} {die : Nat} {k : Pkt} {c : Ctx} {o : Outst} (hw : k.who < 0x10000)
    (hc : s.ctx? k.who = some c) (ho : o ∈ c.outst) (hr : o.rid = k.rid) :
    exec (.writeAcknowledge die k) s = .next (answered s k.who c k) := by
  have hany : c.outst.any (·.rid == k.rid) = true := List.any_eq_true.2 ⟨o, ho, by simp [hr]⟩
  rw [exec_writeAcknowledge, execWriteAcknowledge, if_neg (by omega), hc]
  simp only [hany, if_true]

/-- A bank reply with a fault leaves its register (R210). -/
theorem exec_bankReply_fault {s : State} {die : Nat} {k : Pkt} {c : Ctx} {o : Outst} {d : Nat} (hw : k.who < 0x10000)
    (hc : s.ctx? k.who = some c) (ho : c.outst.find? (fun p => p.rid == k.rid) = some o) (hd : o.dst = some d) (hk : k.cause ≠ 0) :
    exec (.bankReply die k) s = .next (answered s k.who c k) := by
  rw [exec_bankReply, execBankReply, if_neg (by omega), hc]
  simp [ho, hd, hk]

/-- A bank reply fills its register with the old value (R331). -/
theorem exec_bankReply_value {s : State} {die : Nat} {k : Pkt} {c : Ctx} {o : Outst} {d : Nat} (hw : k.who < 0x10000)
    (hc : s.ctx? k.who = some c) (ho : c.outst.find? (fun p => p.rid == k.rid) = some o) (hd : o.dst = some d)
    (ha : o.acq = false) (hk : k.cause = 0) : exec (.bankReply die k) s =
      .next (answered s k.who ((c.mkFull (xKey d)).wx d (BitVec.ofNat 64 k.payload)) k) := by
  rw [exec_bankReply, execBankReply, if_neg (by omega), hc]
  simp [ho, hd, hk, ha]

/-- A bank reply of an acquire that may not complete waits (R143, R192). -/
theorem exec_bankReply_waits {s : State} {die : Nat} {k : Pkt} {c : Ctx} {o : Outst} (hw : k.who < 0x10000)
    (hc : s.ctx? k.who = some c) (ho : c.outst.find? (fun p => p.rid == k.rid) = some o) (ha : o.acq = true) (hk : k.cause = 0)
    (hr : acqReady s (srcTile (k.who / 2)) o.scope k.vec = false) : exec (.bankReply die k) s = .next (s.post (.bankReply die k)) := by
  rw [exec_bankReply, execBankReply, if_neg (by omega), hc]
  simp [ho, ha, hk, hr]

/-- A read reply of an acquire that may not complete waits (R143, R192). -/
theorem exec_readReply_waits {s : State} {die : Nat} {k : Pkt} {c : Ctx} {f : Fill} {p : FPart} (hc : s.ctx? k.who = some c)
    (hf : c.fills = [f]) (hp : p ∈ f.parts) (hr : p.rid = k.rid) (ho : p.got = none) (ha : f.acq = true) (hk : k.cause = 0)
    (hn : acqReady s (srcTile (k.who / 2)) f.scope k.vec = false) :
    exec (.readReply die k) s = .next (s.post (.readReply die k)) := by
  have hany : (f.parts.any fun p => p.rid == k.rid && p.got.isNone) = true :=
    List.any_eq_true.2 ⟨p, hp, by simp [hr, ho]⟩
  rw [exec_readReply, execReadReply, hc]
  simp [hf, hany, ha, hk, hn]

/-- Replies that name no access do not take place. -/
theorem exec_readReply_none {s : State} {die : Nat} {k : Pkt} {c : Ctx} (hc : s.ctx? k.who = some c)
    (h : ∀ f ∈ c.fills, ∀ p ∈ f.parts, p.rid ≠ k.rid) : exec (.readReply die k) s = .fault .notPossible := by
  have hnone : (c.fills.find? fun f => f.parts.any fun p => p.rid == k.rid && p.got.isNone) = none := by
    rw [List.find?_eq_none]
    intro f hf
    rw [List.any_eq_true]
    rintro ⟨p, hp, hr⟩
    exact h f hf p hp (by simpa using (Bool.and_eq_true_iff.1 hr).1)
  rw [exec_readReply, execReadReply, hc]
  simp only [hnone]

theorem exec_answer_none {s : State} {die : Nat} {k : Pkt} {c : Ctx} (hw : k.who < 0x10000) (hc : s.ctx? k.who = some c)
    (h : ∀ o ∈ c.outst, o.rid ≠ k.rid) : exec (.writeAcknowledge die k) s = .fault .notPossible ∧
      exec (.bankReply die k) s = .fault .notPossible := by
  have hany : c.outst.any (·.rid == k.rid) = false := by
    rw [List.any_eq_false]; intro o ho; simpa using h o ho
  have hnone : c.outst.find? (fun p => p.rid == k.rid) = none := by
    rw [List.find?_eq_none]; intro o ho; simpa using h o ho
  constructor
  · rw [exec_writeAcknowledge, execWriteAcknowledge, if_neg (by omega), hc]
    simp only [hany, Bool.false_eq_true, if_false]
  · rw [exec_bankReply, execBankReply, if_neg (by omega), hc]
    simp only [hnone]

end Sys2Proof.Machine
end

section
/-! Homes answer, and replies complete their access. -/

namespace Sys2Proof.Machine

/-- Settles O44: each access at its home through the one equation of locating it, storing and answering, a write of several lines by
induction over its pieces; each reply through what it finds at its requester. -/
theorem homesAnswerAndRepliesComplete : Obligations.HomesAnswerAndRepliesComplete := by
  unfold Obligations.HomesAnswerAndRepliesComplete
  constructor
  · -- at the home
    intro s die k hs hd
    rw [← reqSrc_die]
    intro by_ at_ from_ held
    refine ⟨exec_read_behind hd, requests_held hd,
      fun hk hb hh u => ⟨fun a hl => exec_read_ok hd hk hb hh hl, fun b hl => exec_read_error hd hk hb hh hl⟩, ?_⟩
    intro oneLine
    refine ⟨?oneLine, ?lines, ?bank⟩
    case oneLine =>
      intro hk hh h1 u
      exact ⟨fun b hl => exec_write_error hd hk hh ((homeWrite_oneLine h1).trans (homePut_error hl)),
        fun a hl => exec_write_oneLine hs hd hk hh h1 hl⟩
    case lines =>
      intro hk hh h1 hv
      obtain ⟨vs, w, res, t, r, d, hp, ht, ha, ho, hok, hbad⟩ := exec_write_lines hs hd hk hh h1 hv
      refine ⟨vs, w, t, r, d, ht, ha, ho, hp.head, hp.length, fun j v v' p hj hj' hp' => ?_, fun hl => ?_, fun hl => ?_⟩
      · obtain ⟨u, a, hl, hst⟩ := hp.step j v v' p hj hj' hp'
        exact ⟨u, a, hl, hst.kept, hst.value, hst.frame⟩
      · obtain ⟨hlast, a, ha⟩ := hp.whole hl
        exact ⟨hlast, hok a ha⟩
      · obtain ⟨v, p, b, hlast, hp', hl, hb⟩ := hp.stopped hl
        exact ⟨v, p, b, hlast, hp', hl, hbad b hb⟩
    case bank =>
      intro hk hh
      refine ⟨fun hb hop hf hp u => ⟨fun a hl => exec_bank_performed hs hd hk hh hb hop hf hp hl, fun b hl => ?_⟩,
        fun hb => ⟨exec_bank_else hd hk hh hb, exec_bank_translated hd hk hh hb⟩⟩
      obtain ⟨t, r, h⟩ := exec_bank_error hd hk hh (bankAt_error hb hl)
      exact ⟨t, r, h⟩
  · -- at the requester
    intro s die k c hw hc _
    refine ⟨?fill, ?acquireFill, ?acquireBank, ?bankFault, ?answered, exec_readReply_none hc, exec_answer_none hw hc⟩
    case fill =>
      intro f p d hf hp ho hr hoff hlen _ hdst hcov ha _ hb hx hw
      exact ⟨exec_readReply_value hc hf hp ho hr hoff hlen hdst hcov ha hb hx hw, exec_readReply_fault hc hf hp ho hr ha hb⟩
    case acquireFill =>
      intro f _ p hp hr hf ho ha hk hn
      exact exec_readReply_waits hc hf hp hr ho ha hk hn
    case acquireBank =>
      intro o ho ha hk hn
      exact exec_bankReply_waits hw hc ho ha hk hn
    case bankFault =>
      intro o d ho hd hout hk
      exact ⟨_, _, exec_bankReply_fault hw hc ho hd hk, answered_fault hout hk, rfl, rfl, rfl, rfl⟩
    case answered =>
      intro o ho hr hout hk hrun
      have hidle : ∀ n b g a q, c.phase ≠ .waiting n b g a q := by simp [hrun]
      refine ⟨⟨_, exec_writeAcknowledge_found hw hc ho hr, answered_ok hout hidle hk⟩,
        fun d hfind hd ha => ⟨_, exec_bankReply_value hw hc hfind hd ha hk, ?_⟩⟩
      rw [Ctx.wx_eq]
      exact answered_ok hout hidle hk

end Sys2Proof.Machine
end

section
/-! Reset values, and what a package reset keeps (R13, R20). -/

namespace Sys2Proof.Machine

theorem State.reset_canon : State.reset.Canon := ⟨SMap.wf_nil _, SMap.rises_nil⟩

/-- Settles O59: nothing is listed at reset, so every field is the default of its kind and a register reads as its table says; the
tables agree class by class. -/
theorem resetLeavesTheValuesOfTheSpec : Obligations.ResetLeavesTheValuesOfTheSpec := by
  unfold Obligations.ResetLeavesTheValuesOfTheSpec
  refine ⟨State.reset_canon, fun _ => rfl, rfl, rfl, rfl, rfl, rfl, rfl, rfl, rfl, rfl, rfl, rfl, rfl, rfl, rfl, rfl, rfl, rfl, rfl,
    fun _ => rfl, fun _ => rfl, fun _ => rfl, fun _ => rfl, fun cls num unit hn hu => ?_⟩
  have hreg : State.reset.reg cls num unit = resetOf (rkey cls num unit) := rfl
  rw [hreg]
  obtain ⟨hcls, hnum, -⟩ := rkey_parts (cls := cls) hn hu
  unfold resetOf
  simp only [hcls, show rkey cls num unit / 65536 % 65536 = num from hnum]
  clear hcls hnum hreg hn hu
  split
  case h_10 h1 h2 h3 h4 h5 h6 h9 h10 h11 =>
    simp only [imp_false] at h1 h2 h3 h4 h5 h6 h9 h10 h11
    simp [*]
  case h_6 =>
    split_ifs with hkm hctl
    · simp [hkm]
    · obtain rfl | rfl | rfl | rfl := hctl <;> rfl
    · simp only [not_or] at hctl
      simp [*]
  case h_4 =>
    by_cases hplc : 0x1014 ≤ num ∧ num ≤ 0x1017
    · obtain ⟨hlo, hhi⟩ := hplc
      interval_cases num <;> rfl
    · simp only [hplc, if_false]
      have h14 : num ≠ 0x1014 := by omega
      have h15 : num ≠ 0x1015 := by omega
      have h16 : num ≠ 0x1016 := by omega
      have h17 : num ≠ 0x1017 := by omega
      split_ifs <;> simp [*]
  all_goals split_ifs <;> simp [*]

theorem resetPackage_canon {s : State} (h : s.Canon) : (resetPackage s).Canon := ⟨SMap.Wf.filter h.mem _, SMap.rises_nil⟩

/-- Of memory a package reset keeps the host's bytes alone. -/
theorem rdByte_resetPackage {s : State} (h : s.Canon) (a : Nat) :
    rdByte (resetPackage s) a = if region 7 0 ≤ a ∧ a < region 8 0 then rdByte s a else 0 := by
  have hget := SMap.get_filter unwritten h.mem.1 (fun k => decide (region 7 0 ≤ k) && decide (k < region 8 0)) a
  simp only [Bool.and_eq_true, decide_eq_true_eq] at hget
  exact hget

/-- Settles O30: each of the three resets answers the one reset state, in which of memory only the host's is kept. -/
theorem packageResetsKeepOnlyWhatIsOutside : Obligations.PackageResetsKeepOnlyWhatIsOutside := by
  unfold Obligations.PackageResetsKeepOnlyWhatIsOutside
  intro s i hi
  have hexec : exec i s = .next (resetPackage s) := by
    obtain rfl | rfl | ⟨die, hdie, rfl⟩ := hi
    · exact exec_packageReset s
    · exact exec_powerLoss s
    · rw [exec_criticalTemperature, execCriticalTemperature, if_neg (by omega)]
  exact ⟨resetPackage s, hexec, rfl, fun hs => ⟨resetPackage_canon hs, rdByte_resetPackage hs⟩⟩

end Sys2Proof.Machine
end

section
/-! Power, the timestamp counter and refresh management (R15 to R22). -/

namespace Sys2Proof.Machine

/-! Power (R20 to R22) -/

theorem exec_supplySagStepUp_cluster (s : State) {cl : Nat} (h : cl < 64) : exec (.supplySagStepUp cl) s =
    .next ((if (s.cl cl).k = 0 then s.bump 2 0x806 cl else s).setCl cl { s.cl cl with k := min 8 ((s.cl cl).k + 1) }) := by
  rw [exec_supplySagStepUp, execSupplySagStepUp, if_neg (by omega)]

theorem exec_supplySagStepDown_cluster (s : State) {cl : Nat} (h : cl < 64) : exec (.supplySagStepDown cl) s =
    .next (s.setCl cl { s.cl cl with k := (s.cl cl).k - 1 }) := by
  rw [exec_supplySagStepDown, execSupplySagStepDown, if_neg (by omega)]

/-- PWR_CAP is altered by a die whose group holds package authority alone. -/
theorem exec_pwrCapWrite_die (s : State) (v : Nat) {die : Nat} (h : die < 4) : exec (.pwrCapWrite ⟨v, die⟩) s =
    .next (if hasAuthority s die then s.setN 9 0 0 (min (v % 2 ^ 64) 2200) else s) := by
  rw [exec_pwrCapWrite, execPwrCapWrite, if_neg (by simpa using h)]
  rfl

/-- A mean of the power changes the power stretch alone: below the cap it ends. -/
theorem powerMeasurement_stretch (s : State) (mean : Nat) : ∃ k, exec (.powerMeasurement mean) s = .next { s with powerK := k } ∧
    (mean < s.rn 9 0 0 → k = 0) ∧ (mean = s.rn 9 0 0 → k = s.powerK) := by
  rw [exec_powerMeasurement, execPowerMeasurement]
  obtain h | h | h := Nat.lt_trichotomy mean (s.rn 9 0 0)
  · exact ⟨0, by simp [h, Nat.lt_asymm h], fun _ => rfl, fun he => absurd he h.ne⟩
  · exact ⟨s.powerK, by simp [h], fun hl => absurd h hl.ne, fun _ => rfl⟩
  · exact ⟨Config.powerStretch s.tick, by simp [h], fun hl => absurd h (Nat.lt_asymm hl), fun he => absurd he h.ne'⟩

/-! The timestamp counter (R17, R18) -/

theorem Keeps.stamp {s t : State} (h : Keeps s t) (r : Rec) : Keeps s (stamp t r) := (h.records _ _ _ _ _ _).deliver _ _

theorem countStretch_keeps (s : State) : Keeps s (countStretch s) :=
  (Keeps.refl s).foldl (fun _ _ => Keeps.ite (fun _ => (Keeps.refl _).setN _ _ _ _) fun _ => Keeps.refl _) _

theorem releaseRecs_keeps (s : State) : Keeps s (releaseRecs s) := by
  unfold releaseRecs
  have hrings : Keeps s ((List.range 34).foldl flushRing s) := (Keeps.refl s).foldl (fun s r => (Keeps.refl s).flushRing r) _
  exact (hrings.records _ _ _ _ _ _).foldl
    (fun s r => Keeps.ite (fun _ => (Keeps.refl s).records _ _ _ _ _ _) fun _ => (Keeps.refl s).stamp r) _

/-- A fold of steps that leave a state as it is leaves it. -/
theorem foldl_fixed {α : Type} {f : State → α → State} {s : State} {l : List α} (h : ∀ x ∈ l, f s x = s) :
    l.foldl f s = s :=
  List.foldlRecOn (motive := (· = s)) l f rfl fun t ht x hx => by rw [ht, h x hx]

theorem countStretch_unstretched {s : State} (h : ∀ p ∈ s.clusters, p.2.k = 0) : countStretch s = s :=
  foldl_fixed fun p hp => if_neg (by rw [h p hp]; decide)

theorem releaseRecs_quiet {s : State} (hq : s.recq = []) (hr : ∀ r < 34, QuietRing s r) : releaseRecs s = s := by
  have hrings : (List.range 34).foldl flushRing s = s := foldl_fixed fun r h => flushRing_quiet (hr r (List.mem_range.1 h))
  simp only [releaseRecs, hrings, hq, List.foldl_nil]
  rw [← hq]

/-- A tick of the counter raises it by one, and does no more where no record waits and no cluster is stretched. -/
theorem tscTick_counts (s : State) : ∃ t, exec .tscTick s = .next t ∧ t.tsc = s.tsc + 1 ∧
    (s.recq = [] → (∀ r < 34, QuietRing s r) → (∀ p ∈ s.clusters, p.2.k = 0) → t = { s with tsc := s.tsc + 1 }) := by
  refine ⟨_, exec_tscTick s, ?_, fun hq hr hk => ?_⟩
  · rw [((countStretch_keeps _).trans (releaseRecs_keeps _)).frame]
  · rw [countStretch_unstretched (s := { s with tsc := s.tsc + 1 }) hk]
    exact releaseRecs_quiet hq hr

/-! Refresh management (R15, R16) -/

/-- Activations that do not bring a row's count to the threshold are counted. -/
theorem exec_refreshManagement_below {s : State} {stack row acts : Nat} (h : stack < 8)
    (hn : acts < max 1 (max 1 (s.rn 10 0 stack % 2 ^ 16) - SMap.get 0 s.rowActs (row * 8 + stack))) :
    exec (.refreshManagement stack row acts) s = .next { s with
      rowActs := SMap.put 0 s.rowActs (row * 8 + stack) (SMap.get 0 s.rowActs (row * 8 + stack) + acts) } := by
  rw [exec_refreshManagement, execRefreshManagement, if_neg (by omega)]
  simp only [rowCount, hn, if_true]

/-- Activations that bring it there count the times, raise the alert and leave the rest of the division. -/
theorem exec_refreshManagement_reached {s : State} {stack row acts thr need : Nat} (h : stack < 8)
    (ht : thr = max 1 (s.rn 10 0 stack % 2 ^ 16)) (hd : need = max 1 (thr - SMap.get 0 s.rowActs (row * 8 + stack)))
    (hn : need ≤ acts) : exec (.refreshManagement stack row acts) s = .next {
      s.setN 10 1 stack (s.rn 10 1 stack + (1 + (acts - need) / thr)) with
      alerts := if stack ∈ s.alerts then s.alerts else s.alerts ++ [stack],
      rowActs := SMap.put 0 s.rowActs (row * 8 + stack) ((acts - need) % thr) } := by
  have hq : ¬ 1 + (acts - need) / thr = 0 := by simp
  rw [exec_refreshManagement, execRefreshManagement, if_neg (by omega)]
  simp only [rowCount, ← ht, ← hd, Nat.not_lt.2 hn, hq, if_false, List.contains_iff_mem]
  rfl

/-- Settles O31: each event by its one equation. -/
theorem powerClockAndRefreshEvents : Obligations.PowerClockAndRefreshEvents := by
  unfold Obligations.PowerClockAndRefreshEvents
  intro s hs
  refine ⟨fun cl hcl => ?sag, fun cl hcl => exec_supplySagStepDown_cluster s hcl, fun v die hdie => ?cap, powerMeasurement_stretch s,
    tscTick_counts s, fun stack row acts hstack => ⟨exec_refreshManagement_below hstack, fun hn => ?reached⟩⟩
  case sag =>
    refine ⟨_, exec_supplySagStepUp_cluster s hcl, fun hk => if_neg hk, fun hk => ?_⟩
    rw [if_pos hk]
    exact State.setReg_regOnly hs _ _ _ _
  case cap =>
    rw [Writes, exec_pwrCapWrite_die s v hdie]
    refine ⟨fun ha => ⟨_, rfl, ?_⟩, fun ha => ?_⟩
    · rw [if_pos ((hasAuthority_iff s die).2 ha)]
      exact State.setReg_regOnly hs _ _ _ _
    · rw [if_neg (mt (hasAuthority_iff s die).1 ha)]
  case reached =>
    refine ⟨_, ?_, exec_refreshManagement_reached hstack rfl rfl hn⟩
    rw [State.setN, BitVec.ofNat_add, State.rn, BitVec.ofNat_toNat, BitVec.setWidth_eq]
    exact State.setReg_regOnly hs _ _ _ _

end Sys2Proof.Machine
end

section
/-! Notification records: when one is held back or held, the 32 bytes it is written as, and when it is lost (R18, R25, R26, R114 to
R116). -/

namespace Sys2Proof.Machine

/-! Where a record goes -/

theorem ringShut_iff (s : State) (r : Nat) : ringShut s r = true ↔ WayShut s r := by
  unfold ringShut WayShut
  cases s.ringPf r with
  | none => simp
  | some pf => simp [State.insecure]

/-- A source that has given a record at this count, or waits with one, is held back. -/
theorem emit_early {s : State} {src : Nat} (h : SMap.get 0 s.recAt src = s.tsc.toNat + 1 ∨ ∃ r ∈ s.recq, r.src = src)
    (ring typ hi dw2 dw3 : Nat) :
    emit s ring src typ hi dw2 dw3 = { s with recq := s.recq ++ [⟨ring, src, typ + hi * 2 ^ 8, dw2, dw3⟩] } := by
  rw [emit, if_pos (by simpa using h)]

/-- Any other source gives its record at this count. -/
theorem emit_timely {s : State} {src : Nat} (h : ¬ (SMap.get 0 s.recAt src = s.tsc.toNat + 1 ∨ ∃ r ∈ s.recq, r.src = src))
    (ring typ hi dw2 dw3 : Nat) : ∃ a, emit s ring src typ hi dw2 dw3 =
      deliver { s with recAt := a } ring [s.tsc.toNat, src + (typ + hi * 2 ^ 8) * 2 ^ 16, dw2, dw3] := by
  rw [emit, if_neg (by simpa using h)]
  exact ⟨_, rfl⟩

theorem lostDue_of_none {s : State} {r : Nat} (h : SMap.get 0 s.lost r = 0) : lostDue s r = false := by simp [lostDue, h]

theorem pushLost_of_none {s : State} {r : Nat} (h : SMap.get 0 s.lost r = 0) : pushLost s r = s := by
  simp [pushLost, lostDue_of_none h]

/-- A record is held where its way is shut, or behind earlier ones where none lost are to be reported. -/
theorem deliver_held {s : State} {r : Nat} (h : WayShut s r ∨ ((∃ x ∈ s.recHeld, x.1 = r) ∧ SMap.get 0 s.lost r = 0))
    (dws : List Nat) : deliver s r dws = holdRec s r dws := by
  unfold deliver
  rw [← ringShut_iff] at h
  split
  · rfl
  · rename_i hopen
    obtain ⟨hbehind, hlost⟩ := h.resolve_left hopen
    simp [pushLost_of_none hlost, hbehind]

/-- A record is written, or lost, where its way is open and nothing is before it. -/
theorem deliver_open {s : State} {r : Nat} (hway : ¬ WayShut s r) (hfirst : ¬ ∃ x ∈ s.recHeld, x.1 = r)
    (hlost : SMap.get 0 s.lost r = 0) (dws : List Nat) : deliver s r dws = pushRing s r dws := by
  unfold deliver
  rw [← ringShut_iff] at hway
  have hany : s.recHeld.any (·.1 == r) = false := by
    rw [List.any_eq_false]
    exact fun x hx he => hfirst ⟨x, hx, eq_of_beq he⟩
  simp only [hway, pushLost_of_none hlost, hany, lostDue_of_none hlost]
  rfl

/-! A record in its ring -/

/-- A number within one that was written. -/
theorem rdNat_wrNat_part {s : State} (h : Memory.wf s.mem) {a n v j m : Nat} (hm : j + m ≤ n) :
    rdNat (wrNat s a n v) (a + j) m = v / 256 ^ j % 256 ^ m := by
  induction m generalizing j with
  | zero => simp [rdNat, Nat.mod_one]
  | succ m ih =>
    rw [rdNat, rdByte_wrNat h (by omega), Nat.add_assoc, ih (by omega), BitVec.toNat_ofNat, pow_succ 256 j,
      ← Nat.div_div_eq_div_mul, pow_succ' 256 m, Nat.mod_mul]

/-- An element of a list packed into a number. -/
theorem packElems_elem (w : Nat) (l : List Nat) (i : Nat) : packElems w l / (2 ^ w) ^ i % 2 ^ w = l.getD i 0 % 2 ^ w := by
  induction l generalizing i with
  | nil => simp [packElems]
  | cons v l ih =>
    cases i with
    | zero => simp [packElems]
    | succ i =>
      rw [packElems, pow_succ', ← Nat.div_div_eq_div_mul, Nat.add_mul_div_left _ _ (Nat.two_pow_pos w),
        Nat.div_eq_of_lt (Nat.mod_lt _ (Nat.two_pow_pos w)), Nat.zero_add, ih, List.getD_cons_succ]

/-- A doubleword of a list of them that was written. -/
theorem rdNat_wrNat_packElems {s : State} (h : Memory.wf s.mem) {a n i : Nat} (l : List Nat) (hi : 8 * i + 8 ≤ n) :
    rdNat (wrNat s a n (packElems 64 l)) (a + 8 * i) 8 = l.getD i 0 % 2 ^ 64 := by
  rw [rdNat_wrNat_part h hi, Nat.pow_mul]
  exact packElems_elem 64 l i

/-- A fold that raises vectors changes them alone. -/
theorem foldl_raiseMsix (raised : State → Nat → Bool) (l : List Nat) (s : State) : ∃ m,
    l.foldl (fun s v => if raised s v then raiseMsix s (2 + v) else s) s = { s with msix := m } := by
  induction l generalizing s with
  | nil => exact ⟨_, rfl⟩
  | cons v l ih =>
    obtain ⟨m, hm⟩ := ih (if raised s v then raiseMsix s (2 + v) else s)
    refine ⟨m, hm.trans ?_⟩
    split <;> rfl

section

variable {r : Nat} {b c p k : Nat × Nat × Nat}

/-- The location of the next record of a ring (R114). -/
def recordAt (s : State) (b c p : Nat × Nat × Nat) : Nat :=
  region 7 (s.rn b.1 b.2.1 b.2.2 + 32 * (s.rn p.1 p.2.1 p.2.2 % 2 ^ (s.rn c.1 c.2.1 c.2.2 / 2 ^ 32 % 16)))

/-- A record written in its ring changes the 32 bytes at the next place, the producer count, and the vectors raised. -/
theorem ringPut_eq (h : State.ringRegs r = (b, c, p, k)) (s : State) (dws : List Nat) : ∃ m, ringPut s r dws =
    { (wrNat s (recordAt s b c p) 32 (packElems 64 dws)).setN p.1 p.2.1 p.2.2 (s.rn p.1 p.2.1 p.2.2 + 1) with msix := m } := by
  obtain ⟨b1, b2, b3⟩ := b
  obtain ⟨c1, c2, c3⟩ := c
  obtain ⟨p1, p2, p3⟩ := p
  unfold ringPut
  rw [h]
  dsimp only
  split
  · exact foldl_raiseMsix _ _ _
  · exact ⟨_, rfl⟩

theorem ringRoom_iff (h : State.ringRegs r = (b, c, p, k)) (s : State) : ringRoom s r = true ↔
    let logn := s.rn c.1 c.2.1 c.2.2 / 2 ^ 32 % 16
    4 ≤ logn ∧ (s.rn p.1 p.2.1 p.2.2 + 2 ^ 64 - s.rn k.1 k.2.1 k.2.2) % 2 ^ 64 < 2 ^ logn ∧ logn ≤ 15 := by
  obtain ⟨c1, c2, c3⟩ := c
  obtain ⟨p1, p2, p3⟩ := p
  obtain ⟨k1, k2, k3⟩ := k
  obtain ⟨b1, b2, b3⟩ := b
  unfold ringRoom
  rw [h]
  dsimp only
  rw [Bool.and_eq_true, Bool.and_eq_true, decide_eq_true_eq, decide_eq_true_eq, decide_eq_true_eq, and_right_comm, and_assoc]
  rfl

theorem State.setN_eq (s : State) (c n u v : Nat) : s.setN c n u v = { s with regs := (s.setN c n u v).regs } := rfl

/-- What a register reads as is in the register file alone. -/
theorem State.rn_of_regs {s t : State} (h : t.regs = s.regs) (c n u : Nat) : t.rn c n u = s.rn c n u := by
  rw [State.rn, State.reg, h, State.rn, State.reg]

/-- A record written in its ring: its doublewords stand at the next place, every other byte stays, and the producer count rises. -/
theorem ringPut_written (h : State.ringRegs r = (b, c, p, k)) {s t : State} (hs : s.Canon) {dws : List Nat}
    (ht : t = ringPut s r dws) :
    (∀ i < 4, rdNat t (recordAt s b c p + 8 * i) 8 = dws.getD i 0 % 2 ^ 64) ∧ BytesKept s t (recordAt s b c p) 32 ∧
      t.rn p.1 p.2.1 p.2.2 = (s.rn p.1 p.2.1 p.2.2 + 1) % 2 ^ 64 ∧ t = { s with mem := t.mem, regs := t.regs, msix := t.msix } := by
  obtain ⟨m, hm⟩ := ringPut_eq h s dws
  rw [← ht] at hm
  have hmem : t.mem = (wrNat s (recordAt s b c p) 32 (packElems 64 dws)).mem := by rw [hm, State.setN_mem]
  have hrise := (hs.wrNat (recordAt s b c p) 32 (packElems 64 dws)).regs
  refine ⟨fun i hi => ?_, fun x hx => ?_, ?_, ?_⟩
  · exact (rdNat_of_mem hmem _ _).trans (rdNat_wrNat_packElems hs.mem dws (by omega))
  · rw [rdByte, hmem]
    exact rdByte_wrNat_other hs.mem hx
  · exact (State.rn_of_regs (by rw [hm]) _ _ _).trans (State.rn_setN_same hrise _ _ _ (s.rn p.1 p.2.1 p.2.2 + 1))
  · have hw := wrNat_eq s (recordAt s b c p) 32 (packElems 64 dws)
    generalize wrNat s (recordAt s b c p) 32 (packElems 64 dws) = w at hm hw
    have hv := w.setN_eq p.1 p.2.1 p.2.2 (s.rn p.1 p.2.1 p.2.2 + 1)
    generalize w.setN p.1 p.2.1 p.2.2 (s.rn p.1 p.2.1 p.2.2 + 1) = v at hm hv
    rw [hm, hv, hw]

/-- A record lost is counted in LOST, in its 32 bits, and for the records-lost record. -/
theorem ringLose_counted (h : State.ringRegs r = (b, c, p, k)) {s t : State} (hs : s.Canon) (ht : t = ringLose s r) :
    t.rn c.1 c.2.1 c.2.2 = withBits (s.rn c.1 c.2.1 c.2.2) 31 0 (s.rn c.1 c.2.1 c.2.2 % 2 ^ 32 + 1) ∧
      t = { s with regs := t.regs, lost := SMap.put 0 s.lost r (SMap.get 0 s.lost r + 1) } := by
  obtain ⟨c1, c2, c3⟩ := c
  have heq : t = { s.setN c1 c2 c3 (setBits (s.rn c1 c2 c3) 31 0 (bits (s.rn c1 c2 c3) 31 0 + 1)) with
      lost := SMap.put 0 s.lost r (SMap.get 0 s.lost r + 1) } := by rw [ht, ringLose, h]
  have hlt : s.rn c1 c2 c3 < 2 ^ 64 := (s.reg c1 c2 c3).isLt
  have hctl := State.rn_setN_same hs.regs c1 c2 c3 (setBits (s.rn c1 c2 c3) 31 0 (bits (s.rn c1 c2 c3) 31 0 + 1))
  have hv := s.setN_eq c1 c2 c3 (setBits (s.rn c1 c2 c3) 31 0 (bits (s.rn c1 c2 c3) 31 0 + 1))
  generalize s.setN c1 c2 c3 (setBits (s.rn c1 c2 c3) 31 0 (bits (s.rn c1 c2 c3) 31 0 + 1)) = v at heq hctl hv
  refine ⟨((State.rn_of_regs (by rw [heq]) _ _ _).trans hctl).trans ?_, by rw [heq, hv]⟩
  simp only [setBits, withBits, bits]
  omega

end

/-- Settles O34: where a record goes by what stands before it in its ring, and what each of the ends leaves of the state. -/
theorem notificationRecordsReachTheirRing : Obligations.NotificationRecordsReachTheirRing := by
  unfold Obligations.NotificationRecordsReachTheirRing
  intro s ring src typ hi dw2 dw3 p k c b hs _ hsrc hregs hlt2 hlt3 hlt1 t ht value logn early behind room a
  have hsa : ∀ q, ({ s with recAt := q } : State).Canon := fun q => hs.of_eq rfl rfl
  refine ⟨fun he => ht.trans (emit_early he _ _ _ _ _), fun he hheld hfew => ?held, fun he hway hfirst hlost hroom => ?written,
    fun he hway hfirst hlost hroom => ?lost⟩
  all_goals
    obtain ⟨q, hq⟩ := emit_timely he ring typ hi dw2 dw3
    rw [hq] at ht
  case held =>
    have hheld := ht.trans ((deliver_held (s := { s with recAt := q }) hheld _).trans (if_pos hfew))
    rw [hheld]
  case written =>
    have hput := ht.trans ((deliver_open (s := { s with recAt := q }) hway hfirst hlost _).trans
      (if_pos ((ringRoom_iff hregs.symm _).2 hroom)))
    obtain ⟨hdws, hkept, hprod, hframe⟩ := ringPut_written hregs.symm (hsa q) hput
    have hplace : recordAt { s with recAt := q } b c p = a := rfl
    rw [hplace] at hdws hkept
    have hdw1 : (src + (typ + hi * 2 ^ 8) * 2 ^ 16) % 2 ^ 64 = src + typ * 2 ^ 16 + hi * 2 ^ 24 := by omega
    have hw0 := hdws 0 (by decide)
    have hw1 := hdws 1 (by decide)
    have hw2 := hdws 2 (by decide)
    have hw3 := hdws 3 (by decide)
    simp only [List.getD_cons_succ, List.getD_cons_zero, Nat.reduceMul, Nat.add_zero, Nat.mod_eq_of_lt s.tsc.isLt, hdw1,
      Nat.mod_eq_of_lt hlt2, Nat.mod_eq_of_lt hlt3] at hw0 hw1 hw2 hw3
    exact ⟨hw0, hw1, hw2, hw3, hkept, hprod, by rw [hframe]⟩
  case lost =>
    have hlose := ht.trans ((deliver_open (s := { s with recAt := q }) hway hfirst hlost _).trans
      (if_neg (mt (ringRoom_iff hregs.symm _).1 hroom)))
    obtain ⟨hcount, hframe⟩ := ringLose_counted hregs.symm (hsa q) hlose
    refine ⟨hcount, ?_⟩
    rw [hframe, hlost]

end Sys2Proof.Machine
end

section
/-! Writes of the place tables, of PART_CLMAP, HOLD and PRE (R113, R158, R159, R173). -/

namespace Sys2Proof.Machine

/-- An event that ends with one register set to a number writes that register. -/
theorem writes_setN {i : Instr} {s : State} (hs : s.Canon) {c n u v : Nat} {w : W64} (h : exec i s = .next (s.setN c n u v))
    (hw : BitVec.ofNat 64 v = w) : Writes i s c n u w :=
  ⟨_, h, hw ▸ State.setReg_regOnly hs c n u _⟩

/-- A number written as 64 bits is the register value of the number. -/
theorem ofNat_mod_64 (v : Nat) : BitVec.ofNat 64 (v % 2 ^ 64) = BitVec.ofNat 64 v := by
  refine BitVec.eq_of_toNat_eq ?_
  rw [BitVec.toNat_ofNat, BitVec.toNat_ofNat, Nat.mod_mod]

/-- A field within the 64 bits of a register is that of the number written. -/
theorem bits_mod_64 (v : Nat) {hi lo : Nat} (h : hi < 64) : bits (v % 2 ^ 64) hi lo = bits v hi lo := by
  refine Nat.eq_of_testBit_eq fun i => ?_
  simp only [bits, Nat.testBit_mod_two_pow, Nat.testBit_div_two_pow]
  by_cases hi' : i < hi + 1 - lo
  · simp [hi', show i + lo < 64 by omega]
  · simp [hi']

theorem busyPart_some_iff (s : State) (p : Nat) : busyPart s (some p) = true ↔ holdsWork s p := by
  simp only [busyPart, holdsWork, List.any_eq_true, Bool.and_eq_true, decide_eq_true_eq, Option.isNone_some, Bool.false_or, beq_iff_eq,
    Option.some.injEq]
  exact exists_congr fun l => and_congr_right fun _ => ⟨fun h => ⟨h.2.symm, h.1⟩, fun h => ⟨h.2, h.1.symm⟩⟩

theorem busyPart_none_iff (s : State) : busyPart s none = true ↔ ∃ p, holdsWork s p := by
  simp only [busyPart, holdsWork, List.any_eq_true, Bool.and_eq_true, decide_eq_true_eq, Option.isNone_none, Bool.true_or, and_true]
  exact ⟨fun ⟨l, h, hst⟩ => ⟨l.part, l, h, rfl, hst⟩, fun ⟨_, l, h, _, hst⟩ => ⟨l, h, hst⟩⟩

/-! PART_CLMAP -/

/-- PART_CLMAP is refused where another partition holds a cluster of the map, or the partition has a live context (R113). -/
theorem wrClmap_eq (s : State) (p v : Nat) : wrClmap s p v =
    if (∃ q < 32, q ≠ p ∧ (s.reg 4 0x1000 q).toNat &&& v % 2 ^ 32 ≠ 0) ∨ (∃ l ∈ s.live, l.part = p ∧ l.st ≤ 3) then s.setN 4 0x1001 p (withBits (s.rn 4 0x1001 p) 2 2 1)
    else s.setN 4 0x1000 p (v % 2 ^ 32) := by
  unfold wrClmap
  refine ite_congr (propext ?_) (fun _ => rfl) fun _ => rfl
  simp [livePart, State.rn]

/-! The place tables -/

/-- A PLD value is a permutation: each physical die is that of a logical one. -/
def PldFits (v : Nat) : Prop := ∀ d < 4, ∃ l < 4, v / 4 ^ l % 4 = d

/-- PLD is refused while the package has work, or where the value is no permutation (R159). -/
theorem wrPld_cases (s : State) (v : Nat) :
    ((∃ p, holdsWork s p) ∨ ¬ PldFits v → wrPld s v = (List.range 32).foldl setPlerr s) ∧
      ((∀ p, ¬ holdsWork s p) → PldFits v → wrPld s v = s.setN 5 0x2000 0 (v % 256)) := by
  have hb : ∀ l < 4, bits (v % 256) (2 * l + 1) (2 * l) = v / 4 ^ l % 4 := by
    intro l hl
    interval_cases l <;> simp only [bits] <;> omega
  have hperm : (∀ d < 4, ∃ l < 4, bits (v % 256) (2 * l + 1) (2 * l) = d) ↔ PldFits v :=
    forall₂_congr fun d _ => exists_congr fun l => and_congr_right fun hl => by rw [hb l hl]
  have hc : (busyPart s none = true ∨ (!(List.range 4).all fun d => (List.range 4).any fun l =>
      bits (v % 256) (2 * l + 1) (2 * l) == d) = true) ↔ (∃ p, holdsWork s p) ∨ ¬ PldFits v := by
    rw [← hperm, ← busyPart_none_iff]
    simp
  have hif : wrPld s v = if (busyPart s none || !(List.range 4).all fun d => (List.range 4).any fun l =>
      bits (v % 256) (2 * l + 1) (2 * l) == d) = true then (List.range 32).foldl setPlerr s else s.setN 5 0x2000 0 (v % 256) := rfl
  rw [← Bool.or_eq_true] at hc
  exact ⟨fun h => hif.trans (if_pos (hc.2 h)),
    fun h hf => hif.trans (if_neg fun h' => (hc.1 h').elim (fun ⟨p, hp⟩ => h p hp) fun h => h hf)⟩

/-- What a refusal of every partition leaves (log entry 15): PLERR of each is set, and the register file alone differs. -/
theorem foldl_setPlerr {s : State} (hs : s.Canon) (l : List Nat) (hl : l.Nodup) (h16 : ∀ p ∈ l, p < 2 ^ 16) :
    l.foldl setPlerr s = { s with regs := (l.foldl setPlerr s).regs } ∧
      (∀ p ∈ l, (l.foldl setPlerr s).rn 4 0x1005 p = withBits (s.rn 4 0x1005 p) 2 2 1) ∧
      ∀ c n u, (∀ p ∈ l, rkey c n u ≠ rkey 4 0x1005 p) → (l.foldl setPlerr s).reg c n u = s.reg c n u := by
  induction l generalizing s with
  | nil => exact ⟨rfl, by simp, fun _ _ _ _ => rfl⟩
  | cons q l ih =>
    obtain ⟨hq, hl⟩ := List.nodup_cons.1 hl
    obtain ⟨hq16, h16⟩ := List.forall_mem_cons.1 h16
    obtain ⟨hframe, hset, hother⟩ := ih (hs.setN 4 0x1005 q (setBits (s.rn 4 0x1005 q) 2 2 1)) hl h16
    have hne : ∀ p ∈ l, rkey 4 0x1005 p ≠ rkey 4 0x1005 q := fun p hp h => hq (by
      rw [← (rkey_inj h (by decide) (h16 p hp) (by decide) hq16).2.2]; exact hp)
    refine ⟨hframe, List.forall_mem_cons.2 ⟨?_, fun p hp => ?_⟩, fun c n u hk => ?_⟩
    · have hq := State.rn_setN_same hs.regs 4 0x1005 q (setBits (s.rn 4 0x1005 q) 2 2 1)
      have hlt := (s.reg 4 0x1005 q).isLt
      rw [Nat.mod_eq_of_lt (by simp only [setBits, bits, State.rn]; omega)] at hq
      exact (congrArg BitVec.toNat (hother _ _ _ fun p hp h => hne p hp h.symm)).trans hq
    · exact (hset p hp).trans (by rw [State.rn_setN_other hs.regs _ (hne p hp)])
    · obtain ⟨hkq, hk⟩ := List.forall_mem_cons.1 hk
      exact (hother c n u hk).trans (State.reg_setReg_other hs.regs _ hkq)

/-- The entries of a PLC_d value name clusters of the partition's map. -/
def PlcFits (s : State) (p d v : Nat) : Prop :=
  ∀ k < 16, (s.reg 4 0x1000 p).getLsbD ((s.physDie d * 16 + v / 16 ^ k % 16) / 2) = true

/-- PLC_d is refused while the partition has work, or where an entry names a cluster outside the partition's map (R159). -/
theorem wrPlc_cases (s : State) (p d v : Nat) :
    (holdsWork s p ∨ ¬ PlcFits s p d v → wrPlc s p d v = setPlerr s p) ∧
      (¬ holdsWork s p → PlcFits s p d v → wrPlc s p d v = s.setN 4 (0x1014 + d) p v) := by
  have hb : ∀ k, bits v (4 * k + 3) (4 * k) = v / 16 ^ k % 16 := fun k => by
    rw [bits, show 4 * k + 3 + 1 - 4 * k = 4 by omega, pow_mul]; rfl
  have hc : (busyPart s (some p) || (List.range 16).any fun c => !s.inMap p (s.physDie d * 16 + bits v (4 * c + 3) (4 * c))) = true ↔
      holdsWork s p ∨ ¬ PlcFits s p d v := by
    simp [PlcFits, State.inMap, State.rn, hb, busyPart_some_iff, BitVec.getLsbD]
  exact ⟨fun h => if_pos (hc.2 h), fun h hf => if_neg fun h' => (hc.1 h').elim h fun h => h hf⟩

theorem eraseDups_length_le {α : Type} [BEq α] [LawfulBEq α] (n : Nat) (l : List α) (h : l.length ≤ n) : l.eraseDups.length ≤ l.length := by
  induction n generalizing l with
  | zero => simp [List.length_eq_zero_iff.1 (Nat.le_zero.1 h)]
  | succ n ih =>
    cases l with
    | nil => simp
    | cons a l =>
      have hf := List.length_filter_le (fun b => !b == a) l
      have := ih (l.filter fun b => !b == a) (by simp only [List.length_cons] at h; omega)
      rw [List.eraseDups_cons, List.length_cons, List.length_cons]
      omega

/-- Erasing duplicates keeps the length of a list that has none, and of no other. -/
theorem eraseDups_length_eq_iff {α : Type} [BEq α] [LawfulBEq α] (l : List α) : l.eraseDups.length = l.length ↔ l.Nodup := by
  induction l with
  | nil => simp
  | cons a l ih =>
    rw [List.eraseDups_cons, List.length_cons, List.length_cons, Nat.add_right_cancel_iff, List.nodup_cons]
    by_cases ha : a ∈ l
    · have hlt : (l.filter fun b => !b == a).length < l.length :=
        List.length_filter_lt_length_iff_exists.2 ⟨a, ha, by simp⟩
      have := eraseDups_length_le _ _ (Nat.le_refl (l.filter fun b => !b == a).length)
      exact iff_of_false (by omega) fun h => h.1 ha
    · have hf : (l.filter fun b => !b == a) = l := List.filter_eq_self.2 fun b hb => by
        simpa using fun h : b = a => ha (h ▸ hb)
      rw [hf, ih]
      exact ⟨fun h => ⟨ha, h⟩, And.right⟩

/-- No two entries of a partition's tile place table name one tile. -/
theorem pltOnce_iff (s : State) (p : Nat) : pltOnce s p = true ↔
    ∀ g < 512, ∀ g' < g, ∀ t, s.physTile p g = some t → s.physTile p g' ≠ some t := by
  rw [pltOnce, beq_iff_eq, eraseDups_length_eq_iff, List.nodup_iff_pairwise_ne, List.pairwise_filterMap, List.pairwise_iff_getElem]
  simp only [List.getElem_range, List.length_range]
  refine ⟨fun h g hg g' hlt t ht ht' => h g' g (by omega) hg hlt t ht' t ht rfl, fun h g' g _ hg hlt t' ht' t ht he => ?_⟩
  exact h g hg g' hlt t ht (he ▸ ht')

/-- A conjunction of bits, taken apart at a place. -/
theorem and_split (w x y : Nat) : x &&& y = (x % 2 ^ w &&& y % 2 ^ w) + 2 ^ w * (x / 2 ^ w &&& y / 2 ^ w) := by
  rw [← Nat.and_mod_two_pow, ← Nat.and_div_two_pow]
  exact (Nat.mod_add_div _ _).symm

/-- The fields of an entry of the tile place table (R158). -/
theorem pltEntry_fields {e : Nat} (h : e < 2 ^ 16) : e - bits e 14 10 * 2 ^ 10 - bits e 3 3 * 8 = e &&& 0x83F7 := by
  have hmod : ∀ n x, x &&& (2 ^ n - 1) = x % 2 ^ n := fun n x => Nat.and_two_pow_sub_one_eq_mod x n
  have h3 := and_split 3 e 0x83F7
  have h4 := and_split 1 (e / 8) 0x107E
  have h10 := and_split 6 (e / 8 / 2) 0x83F
  have h15 := and_split 5 (e / 8 / 2 / 64) 0x20
  have ha := hmod 3 (e % 8)
  have hb := hmod 6 (e / 8 / 2 % 64)
  have hc := hmod 1 (e / 8 / 2 / 64 / 32)
  norm_num at h3 h4 h10 h15 ha hb hc
  simp only [bits]
  omega

/-- An entry as a write of a PLT register keeps it. -/
def pltKept (e : Nat) : Nat := e - bits e 14 10 * 2 ^ 10 - bits e 3 3 * 8

/-- What a write of a PLT register leaves of it: the fields of its four entries. -/
def pltValue (v : Nat) : Nat := packElems 16 ((List.range 4).map fun k => pltKept (bits v (16 * k + 15) (16 * k)))

theorem bits_entry (v k : Nat) : bits v (16 * k + 15) (16 * k) = v / 2 ^ (16 * k) % 2 ^ 16 := by
  rw [bits, show 16 * k + 15 + 1 - 16 * k = 16 by omega]

theorem pltValue_eq (v : Nat) : pltValue v = v &&& 0x83F783F783F783F7 := by
  have hkept : ∀ x, pltKept (x % 2 ^ 16) = x % 2 ^ 16 &&& 0x83F7 := fun x => pltEntry_fields (Nat.mod_lt _ (by decide))
  have hlt : ∀ x, x % 2 ^ 16 &&& 0x83F7 < 2 ^ 16 := fun x => Nat.and_lt_two_pow _ (by decide)
  have h0 := and_split 16 v 0x83F783F783F783F7
  have h1 := and_split 16 (v / 2 ^ 16) 0x83F783F783F7
  have h2 := and_split 16 (v / 2 ^ 32) 0x83F783F7
  have h3 := and_split 16 (v / 2 ^ 48) 0x83F7
  simp only [Nat.div_div_eq_div_mul, Nat.reduceMul, Nat.reduceDiv, Nat.reduceMod, Nat.reducePow, Nat.and_zero] at h0 h1 h2 h3 hkept hlt
  simp only [pltValue, List.map, bits_entry, List.range, List.range.loop, packElems, Nat.reduceMul, Nat.reducePow, hkept,
    Nat.mod_eq_of_lt (hlt _), Nat.div_one]
  omega

/-- Entry k of a PLT register after a write. -/
theorem bits_pltValue (v : Nat) {k : Nat} (hk : k < 4) :
    bits (pltValue v) (16 * k + 15) (16 * k) = pltKept (v / 2 ^ (16 * k) % 2 ^ 16) := by
  have hlt : pltKept (v / 2 ^ (16 * k) % 2 ^ 16) < 2 ^ 16 := by
    simp only [pltKept]; omega
  rw [bits_entry, pow_mul, pltValue, packElems_elem, ← pow_mul, List.getD_eq_getElem?_getD, List.getElem?_map, List.getElem?_range hk]
  simpa [bits_entry] using hlt

/-- The physical tile of a kept entry. -/
theorem entryTile_pltKept {e : Nat} (h : e < 2 ^ 16) (inMap : Nat → Bool) :
    (∀ t, entryTile (pltKept e) = some t → inMap (t / 8) = true) ↔ (2 ^ 15 ≤ e → inMap (e / 16 % 64) = true) := by
  have hk : pltKept e = e / 2 ^ 15 * 2 ^ 15 + e / 16 % 64 * 16 + e % 8 := by simp only [pltKept, bits]; omega
  have hclu : (bits (pltKept e) 9 8 * 16 + bits (pltKept e) 7 4) * 8 + bits (pltKept e) 2 0 = 8 * (e / 16 % 64) + e % 8 := by
    rw [hk]; simp only [bits]; omega
  have hv : (pltKept e).testBit 15 = decide (2 ^ 15 ≤ e) := by
    have h1 : (e / 2 ^ 15 * 2 ^ 15 + e / 16 % 64 * 16 + e % 8) / 2 ^ 15 = e / 2 ^ 15 := by omega
    rw [Nat.testBit_eq_decide_div_mod_eq, decide_eq_decide, hk, h1]; omega
  rw [entryTile, hclu, hv]
  by_cases h15 : 2 ^ 15 ≤ e
  · rw [decide_eq_true h15, if_pos rfl]
    have hdiv : (8 * (e / 16 % 64) + e % 8) / 8 = e / 16 % 64 := by omega
    exact ⟨fun h _ => hdiv ▸ h _ rfl, fun h t ht => by rw [← Option.some.inj ht, hdiv]; exact h h15⟩
  · rw [decide_eq_false h15]
    exact iff_of_true (by simp) fun h => absurd h h15

theorem pltInMap_iff (s : State) (p v : Nat) : pltInMap s p (pltValue v) = true ↔
    ∀ k < 4, 2 ^ 15 ≤ v / 2 ^ (16 * k) % 2 ^ 16 → (s.reg 4 0x1000 p).getLsbD (v / 2 ^ (16 * k) / 16 % 64 / 2) = true := by
  have hentry : ∀ k < 4, (∀ t, entryTile (bits (pltValue v) (16 * k + 15) (16 * k)) = some t → s.inMap p (t / 8) = true) ↔
      (2 ^ 15 ≤ v / 2 ^ (16 * k) % 2 ^ 16 → (s.reg 4 0x1000 p).getLsbD (v / 2 ^ (16 * k) / 16 % 64 / 2) = true) := fun k hk => by
    rw [bits_pltValue v hk, entryTile_pltKept (Nat.mod_lt _ (by decide)) (s.inMap p),
      show v / 2 ^ (16 * k) % 2 ^ 16 / 16 % 64 = v / 2 ^ (16 * k) / 16 % 64 by omega]
    rfl
  rw [pltInMap, List.all_eq_true]
  simp only [List.mem_filterMap, List.mem_range]
  exact ⟨fun h k hk => (hentry k hk).1 fun t ht => h t ⟨k, hk, ht⟩, fun h t ⟨k, hk, ht⟩ => (hentry k hk).2 (h k hk) t ht⟩

/-- The entries of a PLT value name clusters of the partition, and the table then names no tile twice. -/
def PltFits (s : State) (p n v : Nat) : Prop :=
  (∀ k < 4, 2 ^ 15 ≤ v / 2 ^ (16 * k) % 2 ^ 16 → (s.reg 4 0x1000 p).getLsbD (v / 2 ^ (16 * k) / 16 % 64 / 2) = true) ∧
    ∀ g < 512, ∀ g' < g, ∀ t, (s.setN 4 n p (pltValue v)).physTile p g = some t → (s.setN 4 n p (pltValue v)).physTile p g' ≠ some t

/-- PLT_d_c_h is refused while the partition has work, or where the value does not fit (R159). -/
theorem wrPlt_cases (s : State) (p n v : Nat) :
    (holdsWork s p ∨ ¬ PltFits s p n v → wrPlt s p n v = setPlerr s p) ∧
      (¬ holdsWork s p → PltFits s p n v → wrPlt s p n v = s.setN 4 n p (pltValue v)) := by
  have hc : (busyPart s (some p) || !pltInMap s p (pltValue v) || !pltOnce (s.setN 4 n p (pltValue v)) p) = true ↔
      holdsWork s p ∨ ¬ PltFits s p n v := by
    rw [PltFits, ← pltInMap_iff, ← pltOnce_iff, ← busyPart_some_iff]
    simp [or_assoc, imp_iff_not_or]
  have hif : wrPlt s p n v = if (busyPart s (some p) || !pltInMap s p (pltValue v) || !pltOnce (s.setN 4 n p (pltValue v)) p) = true
      then setPlerr s p else s.setN 4 n p (pltValue v) := rfl
  exact ⟨fun h => hif.trans (if_pos (hc.2 h)), fun h hf => hif.trans (if_neg fun h' => (hc.1 h').elim h fun h => h hf)⟩

/-- PRE marks the resident contexts of the partition. -/
theorem wrPre_eq (s : State) (p : Nat) : wrPre s p = { s with ctxs := s.ctxs.map fun e =>
    (e.1, if e.2.part = p then { e.2 with preempt := true } else e.2) } := by
  unfold wrPre
  congr 2
  funext e
  by_cases h : e.2.part = p <;> simp [h]

/-- Settles O32: each write by its one equation, a table's by whether its value fits. -/
theorem placeAndPartitionRegisterWrites : Obligations.PlaceAndPartitionRegisterWrites := by
  unfold Obligations.PlaceAndPartitionRegisterWrites
  intro s v hs
  have hplerr : ∀ {i : Instr} {p : Nat}, exec i s = .next (setPlerr s p) →
      Writes i s 4 0x1005 p (BitVec.ofNat 64 (withBits (s.rn 4 0x1005 p) 2 2 1)) := fun h => writes_setN hs h rfl
  have hplc : ∀ p < 32, ∀ d < 4, exec (.plcWrite p d v) s = .next (wrPlc s p d (v % 2 ^ 64)) := fun p hp d hd => by
    rw [exec_plcWrite, execPlcWrite, if_neg (by omega)]
  have hplt : ∀ p < 32, ∀ d < 4, ∀ c < 16, ∀ h < 2, exec (.pltWrite p d c h v) s =
      .next (wrPlt s p (0x1100 + 32 * d + 2 * c + h) (v % 2 ^ 64)) := fun p hp d hd c hc h hh => by
    rw [exec_pltWrite, execPltWrite, if_neg (by omega)]
  refine ⟨fun p hp => ?clmap, fun die hd => ?pld, fun p hp d hd c hc h hh hw => ?busy, fun p hp d hd hw => ?plc,
    fun p hp d hd c hc h hh hw => ?plt, fun p hp => ?hold, fun p hp => ?pre⟩
  case clmap =>
    have he : exec (.partClmapWrite p v) s = .next (wrClmap s p v) := by
      rw [exec_partClmapWrite, execPartClmapWrite, if_neg (by omega)]
    rw [wrClmap_eq] at he
    split
    case isTrue h => exact writes_setN hs (he.trans (by rw [if_pos h])) rfl
    case isFalse h => exact writes_setN hs (he.trans (by rw [if_neg h])) rfl
  case pld =>
    have he : exec (.pldWrite ⟨v, die⟩) s = .next (if hasAuthority s die then wrPld s v else s) := by
      rw [exec_pldWrite, execPldWrite, if_neg (by simpa using hd)]
    refine ⟨fun ha => ?_, fun ha hw hf => ?_, fun ha hr => ?_⟩
    · rw [he, if_neg (mt (hasAuthority_iff s die).1 ha)]
    · exact writes_setN hs (he.trans (by rw [if_pos ((hasAuthority_iff s die).2 ha), (wrPld_cases s v).2 hw hf])) rfl
    · rw [if_pos ((hasAuthority_iff s die).2 ha), (wrPld_cases s v).1 (hr.imp_right fun ⟨d, hd, h⟩ hf =>
        (hf d hd).elim fun l ⟨hl, e⟩ => h l hl e)] at he
      obtain ⟨hframe, hset, hother⟩ := foldl_setPlerr hs (List.range 32) List.nodup_range fun p hp =>
        (List.mem_range.1 hp).trans (by decide)
      refine ⟨_, he, hframe, fun p hp => hset p (List.mem_range.2 hp), hother _ _ _ fun p hp => ?_⟩
      have := List.mem_range.1 hp
      unfold rkey; omega
  case busy =>
    refine ⟨hplerr (i := .plcWrite p d v) ?_, hplerr (i := .pltWrite p d c h v) ?_⟩
    · rw [hplc p hp d hd, (wrPlc_cases s p d _).1 (.inl hw)]
    · rw [hplt p hp d hd c hc h hh, (wrPlt_cases s p _ _).1 (.inl hw)]
  case plc =>
    have hfits : PlcFits s p d (v % 2 ^ 64) ↔ PlcFits s p d v := forall₂_congr fun k hk => by
      rw [show v % 2 ^ 64 / 16 ^ k % 16 = v / 16 ^ k % 16 by interval_cases k <;> omega]
    refine ⟨fun hf => ?_, fun hf => ?_⟩
    · exact writes_setN hs ((hplc p hp d hd).trans (by rw [(wrPlc_cases s p d _).2 hw (hfits.2 hf)])) (ofNat_mod_64 v)
    · exact hplerr ((hplc p hp d hd).trans (by rw [(wrPlc_cases s p d _).1 (.inr (mt hfits.1 hf))]))
  case plt =>
    intro n w u fits
    have hval : BitVec.ofNat 64 (pltValue (v % 2 ^ 64)) = w := by
      exact (congrArg _ (pltValue_eq _)).trans (by rw [BitVec.ofNat_and, ofNat_mod_64]; rfl)
    have hfits : PltFits s p n (v % 2 ^ 64) ↔ fits := by
      rw [PltFits, State.setN, hval]
      refine and_congr_left fun _ => forall₂_congr fun k hk => ?_
      rw [show v % 2 ^ 64 / 2 ^ (16 * k) % 2 ^ 16 = v / 2 ^ (16 * k) % 2 ^ 16 by interval_cases k <;> omega,
        show v % 2 ^ 64 / 2 ^ (16 * k) / 16 % 64 = v / 2 ^ (16 * k) / 16 % 64 by interval_cases k <;> omega]
    refine ⟨fun hf => ?_, fun hf => ?_⟩
    · exact writes_setN hs ((hplt p hp d hd c hc h hh).trans (by rw [(wrPlt_cases s p _ _).2 hw (hfits.2 hf)])) hval
    · exact hplerr ((hplt p hp d hd c hc h hh).trans (by rw [(wrPlt_cases s p _ _).1 (.inr (mt hfits.1 hf))]))
  case hold =>
    exact writes_setN hs (by rw [exec_holdWrite, execHoldWrite, if_neg (by omega)]; rfl) rfl
  case pre =>
    rw [exec_preWrite, execPreWrite, if_neg (by omega), wrPre_eq]
    obtain h | h := Nat.mod_two_eq_zero_or_one v
    · simp [h]
    · simp [h]

end Sys2Proof.Machine
end

section
/-! Writes of the queue, function, seed and ring registers by the host (R25, R102, R104, R111, R114, R115). -/

namespace Sys2Proof.Machine

/-- A number with a field replaced: what lies above, the field, and what lies below. -/
theorem withBits_eq (w v hi lo : Nat) : withBits w hi lo v =
    2 ^ lo * (2 ^ (hi + 1 - lo) * (w / 2 ^ lo / 2 ^ (hi + 1 - lo)) + v % 2 ^ (hi + 1 - lo)) + w % 2 ^ lo := by
  have h1 := Nat.div_add_mod w (2 ^ lo)
  have h2 := Nat.div_add_mod (w / 2 ^ lo) (2 ^ (hi + 1 - lo))
  unfold withBits
  generalize 2 ^ (hi + 1 - lo) = m at h2 ⊢
  generalize w / 2 ^ lo = x at h1 h2 ⊢
  generalize w % 2 ^ lo = y at h1 ⊢
  generalize x / m = z at h2 ⊢
  generalize x % m = f at h2 ⊢
  subst h2
  rw [← h1, Nat.mul_add, Nat.mul_add, Nat.mul_comm f, Nat.mul_comm (v % m)]
  omega

/-- The bits of a number with a field replaced. -/
theorem testBit_withBits (w v : Nat) {hi lo : Nat} (h : lo ≤ hi) (i : Nat) :
    (withBits w hi lo v).testBit i = if lo ≤ i ∧ i ≤ hi then v.testBit (i - lo) else w.testBit i := by
  have hl := Nat.mod_lt w (Nat.two_pow_pos lo)
  have hm := Nat.mod_lt v (Nat.two_pow_pos (hi + 1 - lo))
  rw [withBits_eq, Nat.testBit_two_pow_mul_add _ hl, Nat.testBit_two_pow_mul_add _ hm, Nat.testBit_mod_two_pow,
    Nat.testBit_mod_two_pow, Nat.testBit_div_two_pow, Nat.testBit_div_two_pow]
  by_cases h1 : i < lo
  · simp [h1, Nat.not_le.2 h1]
  · by_cases h2 : i - lo < hi + 1 - lo
    · simp [h1, h2, show lo ≤ i ∧ i ≤ hi by omega]
    · rw [if_neg h1, if_neg h2, if_neg (by omega), show i - lo - (hi + 1 - lo) + (hi + 1 - lo) + lo = i by omega]

/-! Command queues -/

/-- The registers of a queue by its function and its place there. -/
theorem cq_eq (s : State) (vf : Nat) {q : Nat} (hq : q < 4) (k : Nat) : s.cq (vf * 4 + q) k = s.rn 6 (0x10 + 4 * q + k) vf := by
  rw [State.cq, show (vf * 4 + q) % 4 = q by omega, show (vf * 4 + q) / 4 = vf by omega]

/-- A stopped queue: ERR set and EN clear. -/
theorem stoppedCtl_eq (x : W64) : BitVec.ofNat 64 (setBits (setBits x.toNat 16 16 1) 4 4 0) = x &&& ~~~(0x10 : W64) ||| 0x10000 := by
  refine BitVec.eq_of_getLsbD_eq fun i hi => ?_
  rw [BitVec.getLsbD_ofNat, show setBits (setBits x.toNat 16 16 1) 4 4 0 = withBits (withBits x.toNat 16 16 1) 4 4 0 from rfl,
    testBit_withBits _ _ (Nat.le_refl 4), testBit_withBits _ _ (Nat.le_refl 16)]
  simp only [BitVec.getLsbD_or, BitVec.getLsbD_and, BitVec.getLsbD_not, hi, decide_true, Bool.true_and, Nat.zero_testBit]
  rw [show x.toNat.testBit i = x.getLsbD i from rfl]
  interval_cases i <;> simp

/-- A tail count that does not fit stops its queue (R102). -/
theorem wrCqTail_out {s : State} {vf q v : Nat} (hvf : vf < 512) (hq : q < 4) (hs : s.Canon)
    (h : v < s.rn 6 (0x13 + 4 * q) vf ∨ s.rn 6 (0x13 + 4 * q) vf + 2 ^ (s.rn 6 (0x11 + 4 * q) vf % 16) < v) :
    ∃ r, RegOnly s r 6 (0x11 + 4 * q) vf (s.reg 6 (0x11 + 4 * q) vf &&& ~~~(0x10 : W64) ||| 0x10000) ∧
      wrCqTail s vf q v = if (s.reg 6 0 vf).getLsbD 5 = true
        then emit r (s.rn 6 0 vf % 32) (srcNo (if vf < 256 then 0 else 2) 2 0) 2 0 (vf * 2 ^ 16 + q) v else r := by
  have hr := State.setReg_regOnly hs 6 (0x11 + 4 * q) vf (BitVec.ofNat 64 (setBits (setBits (s.rn 6 (0x11 + 4 * q) vf) 16 16 1) 4 4 0))
  refine ⟨s.setN 6 (0x11 + 4 * q) vf (setBits (setBits (s.rn 6 (0x11 + 4 * q) vf) 16 16 1) 4 4 0), ?_, ?_⟩
  · rw [← stoppedCtl_eq]; exact hr
  have hcp : 2 * queueCp (vf * 4 + q) = if vf < 256 then 0 else 2 := by
    rw [queueCp]; split <;> omega
  have hvfp : (s.setN 6 (0x11 + 4 * q) vf (setBits (setBits (s.rn 6 (0x11 + 4 * q) vf) 16 16 1) 4 4 0)).rn 6 0 vf = s.rn 6 0 vf :=
    State.rn_setN_other hs.regs _ fun h => absurd (rkey_inj h (by decide) (by omega) (by omega) (by omega)).2.1 (by omega)
  unfold wrCqTail
  simp only [cq_eq s vf hq, show 0x10 + 4 * q + 1 = 0x11 + 4 * q by omega, show 0x10 + 4 * q + 3 = 0x13 + 4 * q by omega, hcp, hvfp]
  have hout : v < s.rn 6 (0x13 + 4 * q) vf ∨ v - s.rn 6 (0x13 + 4 * q) vf > 2 ^ (s.rn 6 (0x11 + 4 * q) vf % 16) := by omega
  exact if_pos hout

/-- A tail count that fits is taken. -/
theorem wrCqTail_in {s : State} {vf q v : Nat} (hq : q < 4) (h : s.rn 6 (0x13 + 4 * q) vf ≤ v)
    (h' : v ≤ s.rn 6 (0x13 + 4 * q) vf + 2 ^ (s.rn 6 (0x11 + 4 * q) vf % 16)) : wrCqTail s vf q v = s.setN 6 (0x12 + 4 * q) vf v := by
  unfold wrCqTail
  simp only [cq_eq s vf hq, show 0x10 + 4 * q + 1 = 0x11 + 4 * q by omega, show 0x10 + 4 * q + 3 = 0x13 + 4 * q by omega]
  rw [if_neg (by omega)]

/-- CQ_CTL written: ERR and EN by their own rules (R102). -/
theorem wrCqCtl_eq (s : State) (vf : Nat) {q v err en : Nat} (hq : q < 4)
    (herr : err = if s.rn 6 (0x11 + 4 * q) vf / 2 ^ 16 % 2 = 1 ∧ v / 2 ^ 16 % 2 = 0 then 1 else 0)
    (hen : en = if v / 16 % 2 = 0 then 0
      else if err = 0 ∧ s.rn 6 (0x10 + 4 * q) vf % 128 = 0 ∧ 1 ≤ v % 16 ∧ v % 16 ≤ 12 then 1 else s.rn 6 (0x11 + 4 * q) vf / 16 % 2) :
    wrCqCtl s vf q v = s.setN 6 (0x11 + 4 * q) vf (err * 2 ^ 16 + v / 2 ^ 8 % 2 ^ 8 * 2 ^ 8 + en * 16 + v % 16) := by
  have hb : ((s.rn 6 (0x11 + 4 * q) vf).testBit 16 && !v.testBit 16) = decide (err = 1) := by
    rw [Nat.testBit_eq_decide_div_mod_eq, Nat.testBit_eq_decide_div_mod_eq, herr, ← decide_not, ← Bool.decide_and, decide_eq_decide]
    split <;> simp <;> omega
  have herr1 : err = 0 ∨ err = 1 := by rw [herr]; split <;> simp
  have hflag : flagIf (decide (err = 1)) (2 ^ 16) = err * 2 ^ 16 := by
    obtain h | h := herr1 <;> simp [h, flagIf]
  have hctl : (if v.testBit 4 = true then
      (if (decide (err = 1) || s.rn 6 (0x10 + 4 * q) vf % 128 != 0 || v % 16 == 0 || decide (v % 16 > 12)) = true
        then bits (s.rn 6 (0x11 + 4 * q) vf) 4 4 else 1) else 0) = en := by
    have hoff : (decide (err = 1) || s.rn 6 (0x10 + 4 * q) vf % 128 != 0 || v % 16 == 0 || decide (v % 16 > 12)) = true ↔
        ¬ (err = 0 ∧ s.rn 6 (0x10 + 4 * q) vf % 128 = 0 ∧ 1 ≤ v % 16 ∧ v % 16 ≤ 12) := by
      simp only [Bool.or_eq_true, decide_eq_true_eq, bne_iff_ne, beq_iff_eq, ne_eq]
      omega
    rw [hen, Nat.testBit_eq_decide_div_mod_eq]
    by_cases hv : v / 16 % 2 = 0
    · rw [if_pos hv, if_neg (by simp [hv])]
    · rw [if_neg hv, if_pos (by simpa using hv)]
      by_cases hon : err = 0 ∧ s.rn 6 (0x10 + 4 * q) vf % 128 = 0 ∧ 1 ≤ v % 16 ∧ v % 16 ≤ 12
      · rw [if_pos hon, if_neg (mt hoff.1 (not_not.2 hon))]
      · rw [if_neg hon, if_pos (hoff.2 hon)]
        rfl
  unfold wrCqCtl
  simp only [cq_eq s vf hq, show 0x10 + 4 * q + 1 = 0x11 + 4 * q by omega, Nat.add_zero, hb, hflag]
  rw [hctl]
  rfl

/-! Functions -/

/-- VF_PART is refused where a function of the other PF is bound to the partition (R111). -/
theorem wrVfPart_eq (s : State) (vf v : Nat) : wrVfPart s vf v =
    if v / 32 % 2 = 1 ∧ ∃ w < 512, w / 256 ≠ vf / 256 ∧ s.rn 6 0 w % 64 = 32 + v % 32
      then s.setN 4 0x1001 (v % 32) (setBits (s.rn 4 0x1001 (v % 32)) 2 2 1) else s.setN 6 0 vf (v % 64) := by
  unfold wrVfPart
  refine ite_congr (propext ?_) (fun _ => rfl) fun _ => rfl
  simp only [Bool.and_eq_true, List.any_eq_true, List.mem_range, bne_iff_ne, beq_iff_eq, Nat.testBit_eq_decide_div_mod_eq,
    decide_eq_true_eq, and_assoc]
  refine and_congr_right fun _ => exists_congr fun w => and_congr_right fun _ => and_congr_right fun _ => ?_
  omega

/-- PERR set. -/
theorem perr_eq (x : W64) : BitVec.ofNat 64 (setBits x.toNat 2 2 1) = x ||| 4 := by
  refine BitVec.eq_of_getLsbD_eq fun i hi => ?_
  rw [BitVec.getLsbD_ofNat, show setBits x.toNat 2 2 1 = withBits x.toNat 2 2 1 from rfl, testBit_withBits _ _ (Nat.le_refl 2)]
  simp only [BitVec.getLsbD_or, hi, decide_true, Bool.true_and]
  rw [show x.toNat.testBit i = x.getLsbD i from rfl]
  interval_cases i <;> simp

/-! Consumer counts -/

/-- The functions that own partitions are those that their registers name. -/
theorem pfOf_congr {s t : State} (h : ∀ v < 512, t.rn 6 0 v = s.rn 6 0 v) (p : Nat) : t.pfOf p = s.pfOf p := by
  refine congrArg (Option.map fun v => v / 256) (List.find?_congr fun v hv => ?_)
  simp only [h v (List.mem_range.1 hv)]

/-- Of a ring whose way is shut nothing is written (R25, R26). -/
theorem flushRing_shut {s : State} {r : Nat} (h : WayShut s r) : flushRing s r = s := by
  rw [flushRing, if_pos (by rw [(ringShut_iff s r).2 h, Bool.true_or])]

/-- A ring that holds nothing back, or whose way is shut, is left as it is. -/
theorem flushRing_idle {s : State} {r : Nat} (h : QuietRing s r ∨ WayShut s r) : flushRing s r = s :=
  h.elim flushRing_quiet flushRing_shut

/-- Which way a ring goes depends on the functions' registers, the links and the streams. -/
theorem wayShut_of_regs {s t : State} {r : Nat} (ht : t = { s with regs := t.regs }) (h : r < 32 → ∀ v < 512, t.rn 6 0 v = s.rn 6 0 v) :
    WayShut t r ↔ WayShut s r := by
  have hp : t.ringPf r = s.ringPf r := by
    unfold State.ringPf
    split
    · exact pfOf_congr (h ‹_›) r
    · rfl
  rw [WayShut, WayShut, hp, ht]

theorem quietRing_of_regs {s t : State} {r : Nat} (ht : t = { s with regs := t.regs }) : QuietRing t r ↔ QuietRing s r := by
  rw [ht]; rfl

/-- A value listed at a key where it stands already. -/
theorem SMap.ins_get {β : Type} {d : β} {m : SMap β} {i : Nat} (h : m.get d i ≠ d) : m.ins i (m.get d i) = m := by
  induction m with
  | nil => exact absurd rfl h
  | cons p m ih =>
    obtain ⟨k, w⟩ := p
    simp only [SMap.get, SMap.ins] at h ⊢
    by_cases h1 : i = k
    · simp [h1]
    · by_cases h2 : i < k
      · simp [h1, h2] at h
      · simp only [h1, h2, if_false] at h ⊢
        rw [ih h]

/-- A ring with room that holds back nothing but its lost records: the records-lost record is written, and their count is 0. -/
theorem flushRing_lost {s : State} {r : Nat} (hopen : ¬ WayShut s r) (hlost : SMap.get 0 s.lost r ≠ 0)
    (hgone : SMap.get 0 s.recGone r = 0) (hheld : ∀ x ∈ s.recHeld, x.1 ≠ r) (hroom : ringRoom s r = true)
    (hat : SMap.get 0 s.recAt (lostSrc s r) ≠ s.tsc.toNat + 1) : ∃ w : State, w = { s with recGone := w.recGone } ∧
      let u := ringPut w r [s.tsc.toNat, lostSrc s r + 4 * 2 ^ 16, SMap.get 0 s.lost r, 0]
      (flushRing s r).lost = SMap.put 0 s.lost r 0 ∧ (flushRing s r).regs = u.regs ∧ (flushRing s r).mem = u.mem := by
  have hput : SMap.put 0 s.lost r (SMap.get 0 s.lost r + 0) = s.lost := by
    rw [Nat.add_zero, SMap.put, if_neg hlost, SMap.ins_get hlost]
  have hnone : s.recHeld.filter (·.1 == r) = [] := List.filter_eq_nil_iff.2 fun x hx => by simpa using hheld x hx
  refine ⟨{ s with recGone := SMap.put 0 s.recGone r 0 }, rfl, ?_⟩
  have hpush : pushLost { s with recGone := SMap.put 0 s.recGone r 0 } r =
      { ringPut { s with recGone := SMap.put 0 s.recGone r 0 } r [s.tsc.toNat, lostSrc s r + 4 * 2 ^ 16, SMap.get 0 s.lost r, 0] with
        lost := SMap.put 0 s.lost r 0, recAt := SMap.put 0 s.recAt (lostSrc s r) (s.tsc.toNat + 1) } := by
    refine if_pos ?_
    have hdue : lostDue { s with recGone := SMap.put 0 s.recGone r 0 } r = true := by
      rw [lostDue, Bool.and_eq_true]
      exact ⟨by simpa using hlost, hroom⟩
    rw [hdue, Bool.true_and]
    exact bne_iff_ne.2 hat
  have hsome : (ringShut s r || ((0 : Nat) == 0 && SMap.get 0 s.lost r == 0 && s.recHeld.all (·.1 != r))) = false := by
    have h : ringShut s r = false := by rw [← Bool.not_eq_true, ringShut_iff]; exact hopen
    simp [h, hlost]
  unfold flushRing
  simp only [hsome, Bool.false_eq_true, if_false, hgone, hput]
  rw [hpush]
  split
  · exact ⟨rfl, rfl, rfl⟩
  · have hr : (ringPut { s with recGone := SMap.put 0 s.recGone r 0 } r [s.tsc.toNat, lostSrc s r + 4 * 2 ^ 16, SMap.get 0 s.lost r, 0]).recHeld =
        s.recHeld := by
      obtain ⟨m, hm⟩ := ringPut_eq (r := r) (Eq.refl (State.ringRegs r)) { s with recGone := SMap.put 0 s.recGone r 0 }
        [s.tsc.toNat, lostSrc s r + 4 * 2 ^ 16, SMap.get 0 s.lost r, 0]
      rw [hm, State.setN_recHeld, wrNat_recHeld]
    simp only [hr, hnone, List.foldl_nil, and_self]

/-- The registers of a partition's ring (R111). -/
theorem ringRegs_part {p : Nat} (hp : p < 32) : State.ringRegs p = ((4, 0x1002, p), (4, 0x1003, p), (8, 0, p), (8, 1, p)) := if_pos hp

/-- A record written in its ring changes no register but the producer count. -/
theorem ringPut_rn_other {r : Nat} {b c p k : Nat × Nat × Nat} (h : State.ringRegs r = (b, c, p, k)) {s : State} (hs : s.Canon)
    (dws : List Nat) {cls num unit : Nat} (hk : rkey cls num unit ≠ rkey p.1 p.2.1 p.2.2) :
    (ringPut s r dws).rn cls num unit = s.rn cls num unit := by
  obtain ⟨m, hm⟩ := ringPut_eq h s dws
  have hw : (wrNat s (recordAt s b c p) 32 (packElems 64 dws)).regs = s.regs := wrNat_regs _ _ _ _
  have hc := (hs.wrNat (recordAt s b c p) 32 (packElems 64 dws)).regs
  generalize wrNat s (recordAt s b c p) 32 (packElems 64 dws) = w at hm hw hc
  have hregs : (ringPut s r dws).regs = (w.setN p.1 p.2.1 p.2.2 (s.rn p.1 p.2.1 p.2.2 + 1)).regs := by rw [hm]
  exact (State.rn_of_regs hregs _ _ _).trans ((State.rn_setN_other hc _ hk).trans (State.rn_of_regs hw _ _ _))

/-- A consumer count frees room, and the records-lost record is written (R114). -/
theorem nrConsWrite_lost {s : State} (hs : s.Canon) {p v logn : Nat} (hv : v < 2 ^ 64) (hp : p < 32)
    (hgone : SMap.get 0 s.recGone p = 0) (hheld : ∀ x ∈ s.recHeld, x.1 ≠ p) (hopen : ¬ WayShut s p)
    (hat : SMap.get 0 s.recAt (srcNo (2 * (s.pfOf p).getD 0) 3 0) ≠ s.tsc.toNat + 1) (hlost : SMap.get 0 s.lost p ≠ 0)
    (hlt : SMap.get 0 s.lost p < 2 ^ 64) (hlogn : logn = s.rn 4 0x1003 p / 2 ^ 32 % 16) (h4 : 4 ≤ logn)
    (hroom : (s.rn 8 0 p + 2 ^ 64 - v) % 2 ^ 64 < 2 ^ logn) (h15 : logn ≤ 15) :
    let t := flushRing (s.setN 8 1 p v) p
    t.lost = SMap.put 0 s.lost p 0 ∧ t.rn 8 1 p = v ∧ t.rn 8 0 p = (s.rn 8 0 p + 1) % 2 ^ 64 ∧
      rdNat t (region 7 (s.rn 4 0x1002 p + 32 * (s.rn 8 0 p % 2 ^ logn)) + 16) 8 = SMap.get 0 s.lost p := by
  intro t
  have hne : ∀ {c n u : Nat}, c ≠ 8 ∨ n ≠ 1 → n < 65536 → u < 65536 → (s.setN 8 1 p v).rn c n u = s.rn c n u := fun h hn hu =>
    State.rn_setN_other hs.regs _ fun he => by
      obtain ⟨rfl, rfl, -⟩ := rkey_inj he hn hu (by decide) (by omega); simp at h
  have hpf : (s.setN 8 1 p v).pfOf p = s.pfOf p := pfOf_congr (fun w hw => hne (.inl (by decide)) (by decide) (by omega)) p
  have hsrc : lostSrc (s.setN 8 1 p v) p = srcNo (2 * (s.pfOf p).getD 0) 3 0 := by rw [lostSrc, if_pos hp, hpf]
  have hcons : (s.setN 8 1 p v).rn 8 1 p = v := (State.rn_setN_same hs.regs _ _ _ _).trans (Nat.mod_eq_of_lt hv)
  have hway : ¬ WayShut (s.setN 8 1 p v) p := by
    rw [wayShut_of_regs (s.setN_eq 8 1 p v) fun _ w hw => hne (.inl (by decide)) (by decide) (by omega)]; exact hopen
  have hr : ringRoom (s.setN 8 1 p v) p = true := by
    rw [ringRoom_iff (ringRegs_part hp)]
    simp only [hne (c := 4) (.inl (by decide)) (show 0x1003 < 65536 by decide) (show p < 65536 by omega),
      hne (c := 8) (.inr (by decide)) (show 0 < 65536 by decide) (show p < 65536 by omega), hcons, ← hlogn]
    exact ⟨h4, hroom, h15⟩
  obtain ⟨w, hw, hl, hregs, hmem⟩ := flushRing_lost hway (r := p) hlost hgone hheld hr (by rw [hsrc]; exact hat)
  have hwr : w.regs = (s.setN 8 1 p v).regs := by rw [hw]
  have hwc : w.Canon := (hs.setN 8 1 p v).of_eq (by rw [hw]) hwr
  obtain ⟨hdws, -, hprod, -⟩ := ringPut_written (ringRegs_part hp) hwc
    (Eq.refl (ringPut w p [(s.setN 8 1 p v).tsc.toNat, lostSrc (s.setN 8 1 p v) p + 4 * 2 ^ 16, SMap.get 0 (s.setN 8 1 p v).lost p, 0]))
  have hwn : ∀ c n u, w.rn c n u = (s.setN 8 1 p v).rn c n u := State.rn_of_regs hwr
  have h0 : w.rn 8 0 p = s.rn 8 0 p := (hwn _ _ _).trans (hne (.inr (by decide)) (by decide) (by omega))
  have hbase : w.rn 4 0x1002 p = s.rn 4 0x1002 p := (hwn _ _ _).trans (hne (.inl (by decide)) (by decide) (by omega))
  have hctl : w.rn 4 0x1003 p = s.rn 4 0x1003 p := (hwn _ _ _).trans (hne (.inl (by decide)) (by decide) (by omega))
  refine ⟨hl, ?_, ?_, ?_⟩
  · have hk : rkey 8 1 p ≠ rkey 8 0 p := by unfold rkey; omega
    rw [State.rn_of_regs hregs, ringPut_rn_other (ringRegs_part hp) hwc _ hk, hwn, hcons]
  · rw [State.rn_of_regs hregs, hprod, h0]
  · have h := hdws 2 (by decide)
    rw [recordAt, hbase, h0, hctl, ← hlogn] at h
    exact (rdNat_of_mem hmem _ _).trans (h.trans (Nat.mod_eq_of_lt hlt))

/-- Settles O35: each write by its one equation. -/
theorem commandQueueAndFunctionRegisterWrites : Obligations.CommandQueueAndFunctionRegisterWrites := by
  unfold Obligations.CommandQueueAndFunctionRegisterWrites
  intro s v hs hv
  have hmod : v % 2 ^ 64 = v := Nat.mod_eq_of_lt hv
  refine ⟨fun vf hvf q hq => ?queue, fun vf hvf => ?bind, fun pf hpf => ?ide, fun cp hcp => ?seed, fun p hp hq => ?cons,
    fun pf hpf hq => ?hvCons, fun p hp n logn hn hgone hheld hopen hat hn0 hlt hlogn h4 hroom h15 => ?lost⟩
  case queue =>
    have htail : exec (.cqTailWrite vf q v) s = .next (wrCqTail s vf q v) := by
      rw [exec_cqTailWrite, execCqTailWrite, if_neg (by omega), hmod]
    refine ⟨fun h h' => writes_setN hs (htail.trans (by rw [wrCqTail_in hq h h'])) rfl, fun h => ?_, fun err en herr hen => ?_⟩
    · obtain ⟨r, hr, he⟩ := wrCqTail_out hvf hq hs h
      rw [he] at htail
      exact ⟨r, hr, fun hb => htail.trans (by rw [if_neg (ne_true_of_eq_false hb)]), fun hb => htail.trans (by rw [if_pos hb])⟩
    · exact writes_setN hs (by rw [exec_cqCtlWrite, execCqCtlWrite, if_neg (by omega), hmod, wrCqCtl_eq s vf hq herr hen]) rfl
  case bind =>
    have he : exec (.vfPartWrite vf v) s = .next (wrVfPart s vf v) := by
      rw [exec_vfPartWrite, execVfPartWrite, if_neg (by omega)]
    rw [wrVfPart_eq] at he
    split
    case isTrue h => exact writes_setN hs (he.trans (by rw [if_pos h]; rfl)) (perr_eq _)
    case isFalse h => exact writes_setN hs (he.trans (by rw [if_neg h])) rfl
  case ide =>
    have he : exec (.pfIdectlWrite pf v) s = .next (wrIdectl s pf v) := by
      rw [exec_pfIdectlWrite, execPfIdectlWrite, if_neg (by omega)]
    have hc : (v % 2 = 1 ∧ (!s.streams.any fun x => x.1 == pf && x.2.2) = true) ↔ v % 2 = 1 ∧ ∀ x ∈ s.streams, x.1 = pf → x.2.2 = false := by
      simp
    split
    case isTrue h => rw [he, wrIdectl, if_pos (hc.2 h)]
    case isFalse h => exact writes_setN hs (he.trans (by rw [wrIdectl, if_neg (mt hc.1 h)])) rfl
  case seed =>
    refine ⟨_, State.setReg_regOnly hs _ _ _ _, ?_⟩
    rw [exec_cpLseedWrite, execCpLseedWrite, if_neg (by omega)]
    rfl
  case cons =>
    refine writes_setN hs ?_ rfl
    rw [exec_nrConsWrite, execNrConsWrite, if_neg (by omega), wrNrCons, flushRing_idle]
    exact hq.imp (quietRing_of_regs (s.setN_eq 8 1 p v)).2 (wayShut_of_regs (s.setN_eq 8 1 p v) fun _ w hw =>
      State.rn_setN_other hs.regs _ (by unfold rkey; omega)).2
  case hvCons =>
    refine writes_setN hs ?_ rfl
    rw [exec_hvNrConsWrite, execHvNrConsWrite, if_neg (by omega), wrHvCons, flushRing_idle]
    exact hq.imp (quietRing_of_regs (s.setN_eq 7 3 pf v)).2 (wayShut_of_regs (s.setN_eq 7 3 pf v) fun h => absurd h (by omega)).2
  case lost =>
    subst hn
    obtain ⟨h1, h2, h3, h4⟩ := nrConsWrite_lost hs hv hp hgone hheld hopen hat hn0 hlt hlogn h4 hroom h15
    refine ⟨_, ?_, h1, h2, h3, h4⟩
    rw [exec_nrConsWrite, execNrConsWrite, if_neg (by omega), wrNrCons]

end Sys2Proof.Machine
end

section
/-! Host requests at the BARs (R24, R25, R100, R101, R110 to R112). -/

namespace Sys2Proof.Machine

/-- What a request that is accepted does, by its function and BAR. -/
def barAccess (s : State) (f : Fn) (bar off size : Nat) (d : Option Nat) : State :=
  match f, bar with
  | .pf p, 0 => pfAccess s p off size d
  | .pf p, 2 => windowAccess s p off size d
  | .pf p, 6 => ideKm s p off d
  | .vf v, 0 => vfAccess s v off size d
  | _, _ => { s with resp := some none }

section

variable {s : State} {f : Fn} {bar off size : Nat} {d : Option Nat} {sec : Bool}

/-- A request on a link that is up is refused for want of a Secure stream, or is accepted (R25). -/
theorem exec_hostRequest_up (hf : fnOk f = true) (hup : Fn.pfNo f ∉ s.pfDown) (hn : 0 < size) :
    exec (.hostRequest ⟨f, bar, off, size, d, sec⟩) s = .next
      (if (s.reg 7 5 (Fn.pfNo f)).getLsbD 0 = true ∧ sec = false ∧ ¬ (f = .pf (Fn.pfNo f) ∧ bar = 0) then { s with resp := some none }
        else barAccess s f bar off size d) := by
  have hc : ((s.rn 7 5 (Fn.pfNo f)).testBit 0 && !sec && !(f == .pf (Fn.pfNo f) && bar == 0)) = true ↔
      (s.reg 7 5 (Fn.pfNo f)).getLsbD 0 = true ∧ sec = false ∧ ¬ (f = .pf (Fn.pfNo f) ∧ bar = 0) := by
    rw [Bool.and_eq_true, Bool.and_eq_true, and_assoc]
    simp [State.rn, BitVec.getLsbD, imp_iff_not_or]
  rw [exec_hostRequest, execHostRequest, if_neg (by simp [hf, hup, hn.ne'])]
  simp only [hc]
  split
  · rfl
  · -- the BARs that a function may have are 0, 2 and 6
    cases f <;> rcases bar with _ | _ | _ | _ | _ | _ | _ | bar <;> rfl

/-- A request at PF BAR0, or with REQ clear, or bound to a Secure stream, is accepted. -/
theorem exec_hostRequest_accepted (hf : fnOk f = true) (hup : Fn.pfNo f ∉ s.pfDown) (hn : 0 < size)
    (h : (s.reg 7 5 (Fn.pfNo f)).getLsbD 0 = false ∨ sec = true ∨ (f = .pf (Fn.pfNo f) ∧ bar = 0)) :
    exec (.hostRequest ⟨f, bar, off, size, d, sec⟩) s = .next (barAccess s f bar off size d) := by
  rw [exec_hostRequest_up hf hup hn, if_neg]
  rintro ⟨h1, h2, h3⟩
  simp only [h1, h2, Bool.true_eq_false, Bool.false_eq_true, false_or] at h
  exact h3 h

/-- At a BAR that the function has not, a request is answered with Unsupported Request (log entry 31). -/
theorem barAccess_none (h : bar ≠ 0) (h' : bar ≠ 2 ∧ bar ≠ 6 ∨ ∀ p, f ≠ .pf p) : barAccess s f bar off size d = { s with resp := some none } := by
  unfold barAccess
  split <;> simp_all

/-- What IDE_KM leaves of the streams of a link (log entry 105). -/
theorem ideKm_streams {pf n x : Nat} (hn : n < 8) : ∃ l, ideKm s pf n (some x) = { s with streams := l } ∧
    ∀ y, y ∈ l ↔ (x % 2 = 1 ∧ y = (pf, n, true)) ∨ (y ∈ s.streams ∧ ¬ (y.1 = pf ∧ y.2.1 = n)) := by
  have hrest : ∀ y, y ∈ (s.streams.filter fun x => !(x.1 == pf && x.2.1 == n)) ↔ y ∈ s.streams ∧ ¬ (y.1 = pf ∧ y.2.1 = n) := by
    simp [imp_iff_not_or]
  refine ⟨_, if_neg (by omega), fun y => ?_⟩
  split
  case isTrue h => rw [List.mem_append, hrest, List.mem_singleton, or_comm, and_iff_right h]
  case isFalse h => rw [hrest, or_iff_right fun hy => h hy.1]

end

section

variable {s : State} {v off size : Nat}

/-- A VF access that is not 8 bytes and aligned names nothing (R101). -/
theorem vfReg_misaligned (h : size ≠ 8 ∨ off % 8 ≠ 0) : vfReg s v off size = .bad := if_pos h

/-- The queue registers of a VF (R100, R101). -/
theorem vfReg_queue {q k : Nat} (hq : q < 4) (hk : k < 4) : vfReg s v (0x40 * q + 8 * k) 8 = .reg 6 (0x10 + 4 * q + k) v := by
  rw [vfReg, if_neg (by omega), if_pos (by omega), if_pos (by omega), show (0x40 * q + 8 * k) / 0x40 * 4 = 4 * q by omega,
    show (0x40 * q + 8 * k) % 0x40 / 8 = k by omega]

/-- NR_PROD of an unbound function names no ring. -/
theorem vfReg_unbound (h : (s.reg 6 0 v).getLsbD 5 = false) : vfReg s v 0x100 8 = .unbound := by
  have h' : (s.rn 6 0 v).testBit 5 = false := h
  simp [vfReg, h']

/-- What a VF access that names nothing does (R101). -/
theorem vfAccess_bad (h : vfReg s v off size = .bad) (x : Nat) :
    vfAccess s v off size (some x) = s.bump 6 2 v ∧ vfAccess s v off size none = answerHost (s.bump 6 2 v) 0 := by
  simp [vfAccess, h]

/-- What a VF access that names a register of its queues does. -/
theorem vfAccess_queue {num : Nat} (h : vfReg s v off size = .reg 6 num v) (x : Nat) :
    vfAccess s v off size (some x) = wrAny s 6 num v (x % 2 ^ 64) (2 * (v / 256)) ∧
      vfAccess s v off size none = answerHost s (rdAny s 6 num v) := by
  simp [vfAccess, h]

theorem vfAccess_unbound (h : vfReg s v off size = .unbound) : vfAccess s v off size none = answerHost s 0 := by
  simp [vfAccess, h]

/-- CQ_BASE takes the value. -/
theorem wrAny_cqBase (s : State) {q : Nat} (hq : q < 4) (unit v die : Nat) :
    wrAny s 6 (0x10 + 4 * q) unit v die = s.setN 6 (0x10 + 4 * q) unit v := by
  interval_cases q <;> rfl

/-- What a PF access below the dies' blocks does, by the register that it names (R112). -/
theorem pfAccess_unnamed {pf : Nat} (h : pfReg pf off size = none) (x : Nat) :
    pfAccess s pf off size (some x) = s ∧ pfAccess s pf off size none = answerHost s 0 := by
  simp [pfAccess, h]

theorem pfAccess_named {pf c n u : Nat} (hd : pfDie off = none) (h : pfReg pf off size = some (c, n, u)) (hc : c < 16) (x : Nat) :
    pfAccess s pf off size (some x) = wrAny s c n u (x % 256 ^ size) (2 * pf) ∧
      pfAccess s pf off size none = answerHost s (rdAny s c n u) := by
  simp [pfAccess, h, hd, Nat.not_le.2 hc]

/-- Registers of the functions read as stored. -/
theorem rdAny_vf (s : State) (num unit : Nat) : rdAny s 6 num unit = s.rn 6 num unit := by
  simp [rdAny, readReg]

/-- Offsets below the blocks of the dies lie in none (R112). -/
theorem pfDie_low (h : off < 0x400000) : pfDie off = none := if_neg (by omega)

theorem pfReg_misaligned (pf : Nat) (h : off < 0x400000) (h' : size ≠ 8 ∨ off % 8 ≠ 0) : pfReg pf off size = none := by
  rw [pfReg, pfDie_low h]
  exact if_pos h'

/-- The registers of a VF at PF BAR0. -/
theorem pfReg_vf (pf : Nat) {k : Nat} (hv : v < 512) (hk : k < 3) : pfReg pf (0x10000 + 0x100 * v + 8 * k) 8 = some (6, k, v) := by
  have hlow : ∀ {a b : Nat}, b ≤ 0x10000 → ¬ (a ≤ 0x10000 + 0x100 * v + 8 * k ∧ 0x10000 + 0x100 * v + 8 * k < b) := by omega
  rw [pfReg, pfDie_low (by omega)]
  dsimp only
  rw [if_neg (by omega), if_neg (by omega), if_neg (by omega), if_neg (by omega), if_neg (by omega), if_neg (by omega), if_neg (by omega),
    if_pos (by omega), if_pos (by omega), show (0x10000 + 0x100 * v + 8 * k) % 0x100 / 8 = k by omega,
    show (0x10000 + 0x100 * v + 8 * k - 0x10000) / 0x100 = v by omega]

/-- The registers of a partition at PF BAR0. -/
theorem pfReg_part (pf : Nat) {p num : Nat} (hp : p < 32) (hn : 0x1000 ≤ num) (hn' : num < 0x1200) :
    pfReg pf (0x40000 + 0x1000 * p + 8 * (num - 0x1000)) 8 = some (4, num, p) := by
  rw [pfReg, pfDie_low (by omega)]
  dsimp only
  rw [if_neg (by omega), if_neg (by omega), if_neg (by omega), if_neg (by omega), if_neg (by omega), if_neg (by omega), if_neg (by omega),
    if_neg (by omega), if_pos (by omega), show 0x1000 + (0x40000 + 0x1000 * p + 8 * (num - 0x1000)) % 0x1000 / 8 = num by omega,
    show (0x40000 + 0x1000 * p + 8 * (num - 0x1000) - 0x40000) / 0x1000 = p by omega]

end

/-- The plain registers of a partition lie in its block. -/
theorem plainRegs_part : ∀ e ∈ plainRegs, e.1 = 4 → 0x1000 ≤ e.2.1 ∧ e.2.1 < 0x1200 := by decide

/-- Settles O36: what a request does by whether it is accepted, then by the register that its offset names. -/
theorem hostRequestsAtTheBars : Obligations.HostRequestsAtTheBars := by
  unfold Obligations.HostRequestsAtTheBars
  rintro s f pf sec off size x hs hf rfl hup hn
  have hpf0 : ∀ off size d, f = .pf (Fn.pfNo f) → 0 < size →
      exec (.hostRequest ⟨f, 0, off, size, d, sec⟩) s = .next (pfAccess s (Fn.pfNo f) off size d) := fun off size d hpf hn => by
    rw [exec_hostRequest_accepted hf hup hn (.inr (.inr ⟨hpf, rfl⟩)), hpf]
    rfl
  refine ⟨fun d bar hreq hsec hb => ?refused, fun hok => ⟨fun d bar h0 hb hreq => ?none, fun n h8 hpf hreq => ?doe, fun v hv hbad => ?bad,
    fun v hv h8 q hq k hk hoff => ?queue, fun v hv h8 q hq hoff => ?base, fun v hv h8 hoff hun => ?unbound, fun hpf hoff hbad => ?unnamed,
    fun v hv hpf h8 k hk hoff => ?vfRead, fun p hp hpf h8 e he h4 hoff => ?part⟩⟩
  case refused =>
    rw [exec_hostRequest_up hf hup hn, if_pos ⟨hreq, hsec, by tauto⟩]
  case none =>
    rw [exec_hostRequest_accepted hf hup hn (hreq.imp_right .inl), barAccess_none h0]
    refine hb.imp_right fun h p hp => h ?_
    rw [hp]; rfl
  case doe =>
    obtain ⟨l, hl, hmem⟩ := ideKm_streams (s := s) (pf := Fn.pfNo f) (x := x) h8
    refine ⟨l, (exec_hostRequest_accepted hf hup hn (hreq.imp_right .inl)).trans ?_, hmem⟩
    rw [← hl, hpf]
    rfl
  case unnamed =>
    obtain ⟨hw, hr⟩ := pfAccess_unnamed (s := s) (pfReg_misaligned (Fn.pfNo f) hoff hbad) x
    refine ⟨(hpf0 off size _ hpf hn).trans ?_, (hpf0 off size _ hpf hn).trans ?_⟩
    · rw [hw]
    · rw [hr, answerHost]
  case vfRead =>
    subst h8 hoff
    rw [hpf0 _ _ _ hpf hn, (pfAccess_named (pfDie_low (by omega)) (pfReg_vf _ hv hk) (by decide) x).2, answerHost, rdAny_vf]
  case part =>
    obtain ⟨h1, h2⟩ := plainRegs_part e he h4
    have hplain := wrAny_plain s p (2 * Fn.pfNo f) (Nat.mod_lt x (y := 256 ^ 8) (by decide)) e he
    have hval : BitVec.ofNat 64 (x % 256 ^ 8 &&& e.2.2) = BitVec.ofNat 64 x &&& BitVec.ofNat 64 e.2.2 := by
      rw [BitVec.ofNat_and]
      exact congrArg (· &&& BitVec.ofNat 64 e.2.2) (ofNat_mod_64 x)
    rw [h4] at hplain
    refine writes_setN hs ((hpf0 _ _ _ hpf hn).trans (congrArg _ ?_)) hval
    rw [← hplain, h8, hoff]
    exact (pfAccess_named (pfDie_low (by omega)) (pfReg_part (Fn.pfNo f) hp h1 h2) (by decide) x).1
  -- a VF's request is accepted by REQ or its stream alone
  all_goals
    subst hv
    have hvf : ∀ d, exec (.hostRequest ⟨.vf v, 0, off, size, d, sec⟩) s = .next (vfAccess s v off size d) := fun d =>
      exec_hostRequest_accepted hf hup hn (hok.imp_right fun h => h.imp_right fun h => absurd h Fn.noConfusion)
  case bad =>
    obtain ⟨hw, hr⟩ := vfAccess_bad (s := s) (v := v) (vfReg_misaligned hbad) x
    exact ⟨_, State.setReg_regOnly hs 6 2 v _, (hvf _).trans (by rw [hw]; rfl), (hvf _).trans (by rw [hr]; rfl)⟩
  all_goals subst h8 hoff
  case queue =>
    rw [hvf, (vfAccess_queue (vfReg_queue hq hk) x).2, answerHost, rdAny_vf]
  case base =>
    refine writes_setN hs ((hvf _).trans ?_) (ofNat_mod_64 x)
    exact congrArg _ ((vfAccess_queue (vfReg_queue (k := 0) hq (by decide)) x).1.trans (wrAny_cqBase s hq _ _ _))
  case unbound =>
    rw [hvf, vfAccess_unbound (vfReg_unbound hun), answerHost]

end Sys2Proof.Machine
end

section
/-! Launch records: their turn, their checks and their completion (R39, R103, R106, R109, R120). -/

namespace Sys2Proof.Machine

variable {s : State} {r : LRec}

/-! Fields and turns -/

theorem dw_bits (r : LRec) (k : Nat) {hi lo : Nat} (h : hi < 64) : bits (r.dw k) hi lo = recField r k hi lo := by
  rw [LRec.dw, bits_mod_64 _ h, bits, recField, Nat.div_div_eq_div_mul, pow_add]

theorem dw_mod (r : LRec) (k n : Nat) (h : n < 64) : r.dw k % 2 ^ (n + 1) = recField r k n 0 := by
  have := dw_bits r k h (lo := 0)
  rwa [bits, pow_zero, Nat.div_one] at this

theorem flag_eq (r : LRec) : r.flag = recField r 8 63 0 := by rw [LRec.flag, LRec.dw, recField, Nat.add_zero]

theorem status_eq (r : LRec) : r.status = recField r 9 63 0 := by rw [LRec.status, LRec.dw, recField, Nat.add_zero]

/-- A record is in its turn (R103). -/
theorem recTurn_iff : recTurn s r = true ↔ Turn s r := by
  have hw : r.waits = true ↔ r.raw / 256 % 2 = 1 := by
    rw [LRec.waits, Nat.testBit_eq_decide_div_mod_eq, decide_eq_true_eq]
  unfold recTurn Turn
  simp only [Bool.and_eq_true, beq_iff_eq, Bool.not_eq_true', ← Bool.not_eq_true, hw, List.any_eq_true, bne_iff_ne]
  refine and_congr Iff.rfl ?_
  rw [not_and]
  refine imp_congr_right fun _ => ⟨fun h e he hq => ?_, fun h ⟨e, he, hq, hne⟩ => hne (h e he hq)⟩
  exact Classical.byContradiction fun hne => h ⟨e, he, hq, hne⟩

/-- The checks that every OPC makes (R105, R106). -/
theorem recBad_iff : recBad r = true ↔ ¬ wellFormedRec r := by
  unfold recBad wellFormedRec
  simp only [Bool.or_eq_true, bne_iff_ne, beq_iff_eq, decide_eq_true_eq]
  rw [dw_bits r 0 (by decide), dw_bits r 0 (by decide), dw_bits r 6 (by decide),
    dw_bits r 7 (by decide), dw_bits r 7 (by decide)]
  rw [show r.opc = recField r 0 7 0 from dw_mod r 0 7 (by decide), show r.flag % 8 = recField r 8 2 0 from dw_mod r 8 2 (by decide),
    show r.status % 8 = recField r 9 2 0 from dw_mod r 9 2 (by decide)]
  rw [show r.raw / 2 ^ 640 ≠ 0 ↔ ¬ r.raw < 2 ^ 640 from not_congr (Nat.div_eq_zero_iff_lt (Nat.two_pow_pos 640))]
  omega

theorem wholly_iff (part die : Nat) : wholly s part die = true ↔ ∀ c < 64, s.inMap part c = true → s.reach die (c / 16) = true := by
  simp [wholly, imp_iff_not_or]

/-! A record that is served -/

/-- A record with neither FLAG nor STATUS completes without a trace but the launch-refused record of a refusal (R109). -/
theorem finishRec_plain (hflag : recField r 8 63 0 = 0) (hstatus : recField r 9 63 0 = 0) :
    finishRec s r 1 = leftCp s r ∧ ∀ code, code ≠ 1 → code ≠ 5 → finishRec s r code =
      closeRec (emit (untake s r) (queuePart s r.queue) (srcNo (2 * queueCp r.queue) 2 0) 1 code
        (r.queue / 4 * 2 ^ 16 + r.queue % 4) r.head) r.queue r.head := by
  have hf : r.flag = 0 := (flag_eq r).trans hflag
  have hs : r.status = 0 := (status_eq r).trans hstatus
  refine ⟨?_, fun code h1 h5 => ?_⟩
  · simp only [finishRec, complete, hf, hs, true_or, if_true]
    rfl
  · simp only [finishRec, complete, hf, hs, true_or, if_true, h1, h5, or_self, if_false]

/-- A record that is taken waits for its turn, and is processed in it. -/
theorem onRecord_taken (h : r ∈ (s.cp (r.queue / 1024)).taken) (f : State → State) :
    (¬ Turn s r → onRecord s r true f = .next (s.post (recEvent r))) ∧ (Turn s r → onRecord s r true f = .next (f s)) := by
  have hc : ¬ ((!true) = true ∨ (!(s.cp (queueCp r.queue)).taken.contains r) = true) := by
    simpa [queueCp] using h
  unfold onRecord
  rw [if_neg hc]
  exact ⟨fun ht => if_neg (mt recTurn_iff.1 ht), fun ht => if_pos (recTurn_iff.2 ht)⟩

/-- What serving a record comes to, by its checks (R39, R106). -/
theorem serveRec_cases (bad : Bool) (f : State → Nat → Nat → State) :
    (bad = true → serveRec s r bad f = finishRec s r 4) ∧
      (bad = false → wholly s (queuePart s r.queue) (2 * queueCp r.queue) = false → serveRec s r bad f = finishRec s r 6) ∧
      (bad = false → wholly s (queuePart s r.queue) (2 * queueCp r.queue) = true →
        serveRec s r bad f = f s (queuePart s r.queue) (2 * queueCp r.queue)) := by
  refine ⟨?_, ?_, ?_⟩
  · rintro rfl; rfl
  · rintro rfl h; simp [serveRec, h]
  · rintro rfl h; simp [serveRec, h]

/-- The event that processes a record of each OPC, what it checks, and what it does where the checks pass (R106). -/
def IsRecordEvent (r : LRec) (i : Instr) : Prop :=
  i = .marker r ∧ recField r 0 7 0 = 4 ∨ i = .retire r ∧ recField r 0 7 0 = 3 ∨ i = .admitImage r ∧ recField r 0 7 0 = 2 ∨
    i = .launch r ∧ recField r 0 7 0 ≠ 2 ∧ recField r 0 7 0 ≠ 3 ∧ recField r 0 7 0 ≠ 4

theorem opc_eq (r : LRec) : r.opc = recField r 0 7 0 := dw_mod r 0 7 (by decide)

theorem image_mod (r : LRec) : r.image % 128 = recField r 1 6 0 := dw_mod r 1 6 (by decide)

theorem recEvent_eq {i : Instr} (hi : IsRecordEvent r i) : recEvent r = i := by
  have hopc : r.raw % 256 = recField r 0 7 0 := by simp [recField]
  unfold recEvent
  rw [hopc]
  obtain ⟨rfl, h⟩ | ⟨rfl, h⟩ | ⟨rfl, h⟩ | ⟨rfl, h2, h3, h4⟩ := hi
  · rw [h]; rfl
  · rw [h]; rfl
  · rw [h]; rfl
  · split
    · exact absurd ‹_› h2
    · exact absurd ‹_› h3
    · exact absurd ‹_› h4
    · rfl

/-- The images of a partition without those at an address (R120). -/
def withoutImage (s : State) (part base : Nat) : State :=
  { s with images := SMap.put [] s.images part ((SMap.get [] s.images part).filter fun im => im.base != base) }

theorem recBad_or_image : (recBad r || r.image % 128 != 0) = true ↔ ¬ wellFormedRec r ∨ recField r 1 6 0 ≠ 0 := by
  rw [Bool.or_eq_true, recBad_iff, bne_iff_ne, image_mod]

/-- A LAUNCH makes the checks of every OPC, and that of IMAGE. -/
theorem launchBad_of_bad (h : ¬ wellFormedRec r ∨ recField r 1 6 0 ≠ 0) : launchBad r = true := by
  rw [← recBad_or_image] at h
  simp only [launchBad, h, Bool.true_or]

/-- Each of the four events serves its record. -/
theorem exec_record {i : Instr} (hi : IsRecordEvent r i) : ∃ (bad : Bool) (f : State → Nat → Nat → State),
    (∀ s, exec i s = onRecord s r true fun s => serveRec s r bad f) ∧
      (bad = true ↔ ¬ wellFormedRec r ∨ (i ≠ .marker r ∧ recField r 1 6 0 ≠ 0) ∨ (i = .launch r ∧ launchBad r = true)) ∧
      (i = .marker r → f = fun s _ _ => finishRec s r 1) ∧
      (i = .retire r → f = fun s part _ => finishRec (withoutImage s part (recField r 1 63 0)) r 1) := by
  obtain ⟨rfl, h⟩ | ⟨rfl, h⟩ | ⟨rfl, h⟩ | ⟨rfl, h2, h3, h4⟩ := hi
  · refine ⟨recBad r, fun s _ _ => finishRec s r 1, fun s => ?_, recBad_iff.trans (by simp), fun _ => rfl, nofun⟩
    rw [exec_marker, execMarker, opc_eq, h]; rfl
  · refine ⟨_, fun s part _ => finishRec (withoutImage s part (recField r 1 63 0)) r 1, fun s => ?_, (recBad_or_image (r := r)).trans (by simp), nofun,
      fun _ => rfl⟩
    rw [exec_retire, execRetire, opc_eq, h]; rfl
  · obtain ⟨f, hf⟩ : ∃ f, ∀ s, execAdmit r s = onRecord s r (r.opc == 2) fun s => serveRec s r (recBad r || r.image % 128 != 0) f :=
      ⟨_, fun _ => rfl⟩
    refine ⟨_, f, fun s => ?_, (recBad_or_image (r := r)).trans (by simp), nofun, nofun⟩
    rw [exec_admitImage, hf, opc_eq, h]; rfl
  · refine ⟨launchBad r, fun s part die => doLaunch s r part die, fun s => ?_, ?_, nofun, nofun⟩
    · have hok : (!(2 ≤ r.opc && r.opc ≤ 4)) = true := by
        rw [opc_eq, Bool.not_eq_true', ← Bool.not_eq_true, Bool.and_eq_true, decide_eq_true_eq, decide_eq_true_eq]; omega
      rw [exec_launch, execLaunch, hok]
    · refine ⟨fun h => .inr (.inr ⟨rfl, h⟩), fun h => ?_⟩
      obtain h | ⟨-, h⟩ | ⟨-, h⟩ := h
      · exact launchBad_of_bad (.inl h)
      · exact launchBad_of_bad (.inr h)
      · exact h

/-! STATUS -/

theorem Keeps.locateFar {s t : State} (h : Keeps s t) (part va n : Nat) (wr ft cp : Bool) (from_ : Nat) :
    Keeps s (locateFar t part va n wr ft cp from_).1 := by
  unfold Machine.locateFar
  extract_lets u
  have hu : Keeps s u := Keeps.ite (fun _ => h.tables _ _ _) fun _ => h
  split
  · exact hu.locate _ _ _ _ _ _ _
  · exact (hu.cross _ _).locate _ _ _ _ _ _ _

/-- Locating an access from afar moves no exchange window. -/
theorem exchangeOf_locateFar {s u : State} {part va n from_ : Nat} {wr ft cp : Bool} {r : Except Bad Nat}
    (h : locateFar s part va n wr ft cp from_ = (u, r)) : exchangeOf u part va = exchangeOf s part va := by
  have hstall : ∀ (v : State) (b : Bool), exchangeOf { v with stalled := b } part va = exchangeOf v part va := fun _ _ => rfl
  have hcross : ∀ (v : State) (d f : Nat), exchangeOf (v.cross d f) part va = exchangeOf v part va := fun v d f => by
    unfold State.cross; split <;> rfl
  unfold locateFar at h
  extract_lets v at h
  have hv : exchangeOf v part va = exchangeOf s part va := by
    show exchangeOf (if _ then _ else _) part va = _
    split <;> rfl
  split at h
  · exact (exchangeOf_locate h).trans hv
  · exact (exchangeOf_locate h).trans ((hcross _ _ _).trans hv)

/-- A number read back from its bytes. -/
theorem leNat_leBytes (n v : Nat) : leNat (leBytes n v) = v % 256 ^ n := by
  induction n generalizing v with
  | zero => simp [leBytes, leNat, Nat.mod_one]
  | succ n ih =>
    have hcons : leBytes (n + 1) v = v % 256 :: leBytes n (v / 256) := by
      simp only [leBytes, List.range_succ_eq_map, List.map_cons, List.map_map, pow_zero, Nat.div_one]
      exact congrArg _ (List.map_congr_left fun i _ => by simp [pow_succ', Nat.div_div_eq_div_mul])
    rw [hcons, leNat, ih, pow_succ', Nat.mod_mul]

/-- A doubleword written by VA outside the exchange windows: 8 bytes at the location, in one access. -/
theorem vaWrite8_aligned {s u : State} {part va v src a : Nat} {cp : Bool} (hs : s.Canon) (h8 : va % 8 = 0) (hv : v < 2 ^ 64)
    (he : exchangeOf s part va = none) (hl : locateFar s part va 8 true false cp (src / 2 ^ 14) = (u, .ok a)) :
    ∃ t, vaWrite8 s part va v cp src = (t, none) ∧ Stores u t a 8 v := by
  have hout : ∀ {w : State}, exchangeOf w part va = none → outsideOf w part va src = none := fun h => by rw [outsideOf, h]; rfl
  have hu : exchangeOf u part va = none := (exchangeOf_locateFar hl).trans he
  have hcanon : u.Canon := (Keeps.fst_of_eq hl ((Keeps.refl s).locateFar _ _ _ _ _ _ _)).canon hs
  have hspan : writeSpan s part va src 8 = 8 := by
    rw [writeSpan, hout he]
    exact Nat.min_eq_left (by omega)
  have hle : leNat (leBytes 8 v) = v := (leNat_leBytes 8 v).trans (Nat.mod_eq_of_lt hv)
  have hput : putAt u part va src a 8 v 0 = (setTag (storeAt u a 8 v) a 0, true) := putAt_inside (hout hu) a 8 v 0
  refine ⟨setTag (storeAt u a 8 v) a 0, ?_, ?_⟩
  · have hlen : (leBytes 8 v).length = 8 := by simp [leBytes]
    have hne : (leBytes 8 v).isEmpty = false := by rw [List.isEmpty_eq_false_iff, ← List.length_pos_iff, hlen]; decide
    have htake : (leBytes 8 v).take 8 = leBytes 8 v := List.take_of_length_le (by omega)
    have hdrop : (leBytes 8 v).drop 8 = [] := List.drop_of_length_le (by omega)
    rw [vaWrite8, vaWrite, hlen]
    simp only [vaWriteFrom, hne, Bool.false_eq_true, if_false, hlen, hspan, hl, htake, hdrop, hle, hput, List.isEmpty_nil, if_true]
  · have h := (Stores.storeAt hcanon a 8 v).setTag a 0
    rwa [Nat.mod_eq_of_lt (show v < 256 ^ 8 by omega)] at h

/-- A record that completes with a STATUS word and no FLAG leaves status 1 there (R109). -/
theorem finishRec_status {s u : State} {a : Nat} (hs : s.Canon) (hflag : recField r 8 63 0 = 0) (h0 : recField r 9 63 0 ≠ 0)
    (h8 : recField r 9 2 0 = 0) (he : exchangeOf s (queuePart s r.queue) (recField r 9 63 0) = none)
    (hl : locateFar (untake s r) (queuePart s r.queue) (recField r 9 63 0) 8 true false true (2 * queueCp r.queue) = (u, .ok a)) :
    BytesKept u (finishRec s r 1) a 8 ∧ rdNat (finishRec s r 1) a 8 = 1 := by
  have hf : r.flag = 0 := (flag_eq r).trans hflag
  have hst := status_eq r
  have h8' : r.status % 8 = 0 := (dw_mod r 9 2 (by decide)).trans h8
  have hdie : srcNo (2 * queueCp r.queue) 2 0 / 2 ^ 14 = 2 * queueCp r.queue := by unfold srcNo; omega
  have hsu : (untake s r).Canon := hs.of_eq rfl rfl
  obtain ⟨t, hw, hstore⟩ := vaWrite8_aligned (src := srcNo (2 * queueCp r.queue) 2 0) (v := 1) hsu (hst ▸ h8') (by decide) he
    (by rw [hdie]; exact hl)
  have hfin : finishRec s r 1 = closeRec t r.queue r.head := by
    have hn : ¬ (r.status = 0 ∨ r.status % 8 ≠ 0) := by rw [h8']; simpa [hst] using h0
    simp only [finishRec, complete, hf, true_or, if_true]
    rw [if_neg hn]
    simp only [hst, Nat.zero_mod, Nat.zero_mul, Nat.add_zero, hw]
  have hmem : (finishRec s r 1).mem = t.mem := by rw [hfin]; rfl
  exact ⟨fun b hb => by rw [rdByte, hmem]; exact hstore.kept b hb, (rdNat_of_mem hmem a 8).trans hstore.value⟩

/-- Settles O39: whether a record's turn has come, then whether its checks pass, then how it completes. -/
theorem recordsAreCheckedAndCompleted : Obligations.RecordsAreCheckedAndCompleted := by
  unfold Obligations.RecordsAreCheckedAndCompleted
  intro s r i htaken hi part refused whole
  obtain ⟨bad, f, hexec, hbad, hmarker, hretire⟩ := exec_record hi
  obtain ⟨hwait, hrun⟩ := onRecord_taken htaken fun s => serveRec s r bad f
  obtain ⟨h4, h6, hserve⟩ := serveRec_cases (s := s) (r := r) bad f
  rw [← hexec] at hwait hrun
  have hpart : queuePart s r.queue = part := rfl
  have hwhole : wholly s (queuePart s r.queue) (2 * queueCp r.queue) = true ↔ whole := wholly_iff _ _
  have hgood : wellFormedRec r → (i ≠ .marker r → recField r 1 6 0 = 0) → (i = .launch r → launchBad r = false) → bad = false :=
    fun h1 h2 h3 => by
      rw [← Bool.not_eq_true, hbad]
      rintro (h | ⟨h, h'⟩ | ⟨h, h'⟩)
      · exact h h1
      · exact h' (h2 h)
      · rw [h3 h] at h'; cases h'
  refine ⟨fun ht => (hwait ht).trans (by rw [recEvent_eq hi]), fun ht => ⟨_, hrun ht⟩, fun ht hflag hstatus => ?plain,
    fun u a ht him hwf hwh hflag hstatus hs he hl => ?status⟩
  case plain =>
    obtain ⟨hone, hother⟩ := finishRec_plain (s := s) hflag hstatus
    refine ⟨fun him hwf hwh => ?_, fun hir hwf himg hwh => ?_, fun hwf => ?_, fun him himg => ?_, fun hwh hl hwf himg => ?_⟩
    · rw [hrun ht, hserve (hgood hwf (absurd him) (by rw [him]; nofun)) (hwhole.2 hwh), hmarker him, ← hone]
    · rw [hrun ht, hserve (hgood hwf (fun _ => himg) (by rw [hir]; nofun)) (hwhole.2 hwh), hretire hir]
      exact congrArg _ (finishRec_plain (s := withoutImage s part (recField r 1 63 0)) hflag hstatus).1
    · rw [hrun ht, h4 (hbad.2 (.inl hwf)), hother 4 (by decide) (by decide)]; rfl
    · rw [hrun ht, h4 (hbad.2 (.inr (.inl ⟨him, himg⟩))), hother 4 (by decide) (by decide)]; rfl
    · have hnl : (¬ wellFormedRec r ∨ recField r 1 6 0 ≠ 0) → i ≠ .launch r := fun h e => by
        rw [launchBad_of_bad h] at hl; exact absurd (hl e) (by decide)
      have hb : bad = false := by
        rw [← Bool.not_eq_true, hbad]
        rintro (h | ⟨h, h'⟩ | ⟨h, h'⟩)
        · exact h (hwf (hnl (.inl h)))
        · obtain ⟨e, -⟩ | ⟨e, -⟩ | ⟨e, -⟩ | ⟨e, -⟩ := hi
          · exact h e
          · exact h' (himg (.inr e))
          · exact h' (himg (.inl e))
          · exact hnl (.inr h') e
        · rw [hl h] at h'; cases h'
      rw [hrun ht, h6 hb (Bool.not_eq_true _ ▸ mt hwhole.1 hwh), hother 6 (by decide) (by decide)]; rfl
  case status =>
    obtain ⟨-, -, -, -, -, -, -, -, -, h8⟩ := id hwf
    obtain ⟨hkept, hval⟩ := finishRec_status hs hflag hstatus h8 he hl
    refine ⟨_, ?_, hval, hkept⟩
    rw [hrun ht, hserve (hgood hwf (absurd him) (by rw [him]; nofun)) (hwhole.2 hwh), hmarker him]

end Sys2Proof.Machine
end

section
/-! The records of link endpoints: a record after a write of it, and what is done at each end of a link (R27, R32, R42). -/

namespace Sys2Proof.Machine

variable {s t : State} {ep e : Nat}

/-! One endpoint's record -/

theorem State.link_setLink_same (h : s.links.Rises) (e : Nat) (v : Link) : (s.setLink e v).link e = v :=
  SMap.get_put_same _ h e v

theorem State.link_setLink_other (h : s.links.Rises) {e e' : Nat} (v : Link) (he : e' ≠ e) : (s.setLink e v).link e' = s.link e' :=
  SMap.get_put_other _ h v he

theorem State.link_of_links (h : t.links = s.links) (e : Nat) : t.link e = s.link e := by rw [State.link, h, State.link]

/-- The record of one endpoint is `m`; nothing else has changed but that events may have been posted. -/
structure LinkBecomes (s t : State) (ep : Nat) (m : Link) : Prop where
  frame : t = { s with links := t.links, events := t.events }
  rises : t.links.Rises
  same : t.link ep = m
  other : ∀ e, e ≠ ep → t.link e = s.link e

namespace LinkBecomes

variable {l m : Link}

theorem start (h : s.links.Rises) (ep : Nat) (m : Link) : LinkBecomes s (s.setLink ep m) ep m :=
  ⟨rfl, h.put ep m, State.link_setLink_same h ep m, fun _ => State.link_setLink_other h m⟩

theorem setLink (h : LinkBecomes s t ep l) (m : Link) : LinkBecomes s (t.setLink ep m) ep m :=
  ⟨by rw [h.frame]; rfl, h.rises.put ep m, State.link_setLink_same h.rises ep m,
   fun e he => (State.link_setLink_other h.rises m he).trans (h.other e he)⟩

theorem post (h : LinkBecomes s t ep m) (i : Instr) : LinkBecomes s (t.post i) ep m :=
  ⟨by rw [h.frame]; rfl, h.rises, h.same, h.other⟩

theorem regs (h : LinkBecomes s t ep m) : t.regs = s.regs := by rw [h.frame]

theorem tsc (h : LinkBecomes s t ep m) : t.tsc = s.tsc := by rw [h.frame]

theorem linksOnly (h : LinkBecomes s t ep m) (he : t.events = s.events) : t = { s with links := t.links } := by
  rw [h.frame, he]

end LinkBecomes

/-! The ends of a link -/

theorem mem_ends {ep e : Nat} : e ∈ ends ep ↔ IsEnd ep e := by
  unfold ends twin IsEnd
  split <;> [skip; split] <;> simp <;> omega

theorem twin_ne {ep e : Nat} (h : twin ep = some e) : e ≠ ep := by
  unfold twin at h
  split at h <;> [skip; split at h] <;> simp at h <;> omega

theorem twin_eq_some {ep e : Nat} : twin ep = some e ↔ IsEnd ep e ∧ e ≠ ep := by
  unfold twin IsEnd
  split <;> [skip; split] <;> simp <;> omega

theorem IsEnd.lt {ep e : Nat} (h : IsEnd ep e) (hep : ep < 16) : e < 16 := by
  unfold IsEnd at h; omega

theorem IsEnd.refl (ep : Nat) : IsEnd ep ep := .inl rfl

/-- One endpoint's record changes by `g`, its count of retrainings by `n`, and nothing else of the endpoints. -/
structure EndBecomes (s t : State) (e : Nat) (g : Link → Link) (n : W64) : Prop where
  frame : t = { s with links := t.links, regs := t.regs }
  links : t.links.Rises
  regs : t.regs.Rises
  same : t.link e = g (s.link e)
  other : ∀ e', e' ≠ e → t.link e' = s.link e'
  count : t.reg 11 4 e = s.reg 11 4 e + n
  counts : ∀ e' < 16, e' ≠ e → t.reg 11 4 e' = s.reg 11 4 e'

theorem EndBecomes.refl {g : Link → Link} {n : W64} (hl : s.links.Rises) (hr : s.regs.Rises) (h : s.link e = g (s.link e))
    (hn : n = 0) : EndBecomes s s e g n :=
  ⟨rfl, hl, hr, h, fun _ _ => rfl, hn ▸ (BitVec.add_zero _).symm, fun _ _ _ => rfl⟩

/-- A change that keeps the registers counts nothing. -/
theorem EndBecomes.of_setLink (hl : s.links.Rises) (hr : s.regs.Rises) (e : Nat) {g : Link → Link} {m : Link} (h : m = g (s.link e)) :
    EndBecomes s (s.setLink e m) e g 0 :=
  ⟨rfl, hl.put e m, hr, (State.link_setLink_same hl e m).trans h, fun _ => State.link_setLink_other hl m, (BitVec.add_zero _).symm,
   fun _ _ _ => rfl⟩

theorem EndBecomes.bump {g : Link → Link} {n : W64} (h : EndBecomes s t e g n) (he : e < 16) : EndBecomes s (t.bump 11 4 e) e g (n + 1) := by
  have hc : (t.bump 11 4 e).reg 11 4 e = t.reg 11 4 e + 1 := State.reg_setReg_same h.regs ..
  refine ⟨by rw [h.frame]; rfl, h.links, ?_, h.same, h.other, by rw [hc, h.count, BitVec.add_assoc], fun e' he' hne => ?_⟩
  · exact State.setReg_rises h.regs ..
  · have hk : rkey 11 4 e' ≠ rkey 11 4 e := fun hk => hne (rkey_inj hk (by omega) (by omega) (by omega) (by omega)).2.2
    exact (State.reg_setReg_other h.regs _ hk).trans (h.counts e' he' hne)

theorem EndBecomes.of_setLink_bump (hl : s.links.Rises) (hr : s.regs.Rises) (he : e < 16) {g : Link → Link} {m : Link}
    (h : m = g (s.link e)) : EndBecomes s ((s.bump 11 4 e).setLink e m) e g 1 := by
  have hb := (EndBecomes.of_setLink hl hr e h).bump he
  rwa [zero_add] at hb

/-- A change that an operation makes at one end after the other is made at every end of the link and nowhere else. -/
theorem foldl_ends {f : State → Nat → State} {g : Nat → Link → Link} {n : Nat → W64} (hl : s.links.Rises) (hr : s.regs.Rises)
    (hep : ep < 16)
    (hf : ∀ u e, IsEnd ep e → u.links.Rises → u.regs.Rises → u.tsc = s.tsc → u.link e = s.link e → EndBecomes u (f u e) e (g e) (n e)) :
    (ends ep).foldl f s = { s with links := ((ends ep).foldl f s).links, regs := ((ends ep).foldl f s).regs } ∧
    ∀ e, (IsEnd ep e → ((ends ep).foldl f s).link e = g e (s.link e) ∧ ((ends ep).foldl f s).reg 11 4 e = s.reg 11 4 e + n e) ∧
      (¬ IsEnd ep e → ((ends ep).foldl f s).link e = s.link e ∧ (e < 16 → ((ends ep).foldl f s).reg 11 4 e = s.reg 11 4 e)) := by
  have h₁ := hf s ep (.refl ep) hl hr rfl rfl
  have hother : ∀ e, ¬ IsEnd ep e → e ≠ ep := fun e he h => he (h ▸ .refl ep)
  cases ht : twin ep with
  | none =>
    have hone : ∀ e, IsEnd ep e → e = ep := fun e he => by
      have := mem_ends.2 he
      simpa [ends, ht] using this
    rw [ends, ht]
    refine ⟨h₁.frame, fun e => ⟨fun he => ?_, fun he => ⟨h₁.other e (hother e he), fun h16 => h₁.counts e h16 (hother e he)⟩⟩⟩
    rw [hone e he]
    exact ⟨h₁.same, h₁.count⟩
  | some e₂ =>
    obtain ⟨hend, hne⟩ := twin_eq_some.1 ht
    have htsc : (f s ep).tsc = s.tsc := by rw [h₁.frame]
    have h₂ := hf (f s ep) e₂ hend h₁.links h₁.regs htsc (h₁.other e₂ hne)
    have htwo : ∀ e, IsEnd ep e → e = ep ∨ e = e₂ := fun e he => by
      have := mem_ends.2 he
      simpa [ends, ht] using this
    have hfold : (ends ep).foldl f s = f (f s ep) e₂ := by rw [ends, ht]; rfl
    rw [hfold]
    refine ⟨by rw [h₂.frame, h₁.frame], fun e => ⟨fun he => ?_, fun he => ?_⟩⟩
    · rcases htwo e he with rfl | rfl
      · exact ⟨(h₂.other e hne.symm).trans h₁.same, (h₂.counts e hep hne.symm).trans h₁.count⟩
      · refine ⟨h₂.same.trans (by rw [h₁.other e hne]), h₂.count.trans ?_⟩
        rw [h₁.counts e (hend.lt hep) hne]
    · have hne₂ : e ≠ e₂ := fun h => he (h ▸ hend)
      exact ⟨(h₂.other e hne₂).trans (h₁.other e (hother e he)), fun h16 => (h₂.counts e h16 hne₂).trans (h₁.counts e h16 (hother e he))⟩

/-- The same, of a change that leaves the registers alone. -/
theorem endsBecome_foldl {f : State → Nat → State} {g : Link → Link} (hl : s.links.Rises) (hr : s.regs.Rises) (hep : ep < 16)
    (hf : ∀ u e, u.links.Rises → u.regs.Rises → u.tsc = s.tsc → u.link e = s.link e → EndBecomes u (f u e) e g 0)
    (hregs : ∀ u e, (f u e).regs = u.regs) : EndsBecome s ((ends ep).foldl f s) ep g := by
  obtain ⟨hframe, hends⟩ := foldl_ends (g := fun _ => g) (n := fun _ => 0) hl hr hep fun u e _ => hf u e
  have hfold : ∀ (l : List Nat) (u : State), (l.foldl f u).regs = u.regs := fun l => by
    induction l with
    | nil => exact fun _ => rfl
    | cons e l ih => exact fun u => (ih (f u e)).trans (hregs u e)
  refine ⟨hframe.trans (by rw [hfold]), fun e he => ((hends e).1 he).1, fun e he => ((hends e).2 he).1⟩

/-! Training (R32) -/

/-- An endpoint begins to retrain, one of a failed Jalcy-D link apart. -/
theorem trainEnd_becomes (hl : s.links.Rises) (hr : s.regs.Rises) (he : e < 16) :
    EndBecomes s (trainEnd s e) e (fun l => if l.st = 3 → 2 ≤ e % 4 then { l with st := 1, retryFails := 0 } else l)
      (if (s.link e).st = 3 → 2 ≤ e % 4 then 1 else 0) := by
  unfold trainEnd
  split
  next h => exact .refl hl hr (if_neg (by omega)).symm (if_neg (by omega))
  next h =>
    have hc : (s.link e).st = 3 → 2 ≤ e % 4 := by omega
    rw [if_pos hc]
    exact .of_setLink_bump hl hr he (if_pos hc).symm

theorem beginRetrain_trains (hl : s.links.Rises) (hr : s.regs.Rises) (hep : ep < 16) : Trains s (beginRetrain s ep) ep := by
  obtain ⟨hframe, hends⟩ := foldl_ends (f := trainEnd)
    (g := fun e l => if l.st = 3 → 2 ≤ e % 4 then { l with st := 1, retryFails := 0 } else l)
    (n := fun e => if (s.link e).st = 3 → 2 ≤ e % 4 then 1 else 0) hl hr hep fun u e he hul hur _ hue =>
      hue ▸ trainEnd_becomes hul hur (he.lt hep)
  refine ⟨hframe, fun e h16 => ⟨fun ⟨he, hst⟩ => ?_, fun hn => ?_⟩⟩
  · have h := (hends e).1 he
    rwa [if_pos hst, if_pos hst] at h
  · by_cases he : IsEnd ep e
    · have hst : ¬ ((s.link e).st = 3 → 2 ≤ e % 4) := fun hst => hn ⟨he, hst⟩
      have h := (hends e).1 he
      rw [if_neg hst, if_neg hst] at h
      exact ⟨h.1, h.2.trans (BitVec.add_zero _)⟩
    · exact ⟨((hends e).2 he).1, ((hends e).2 he).2 h16⟩

end Sys2Proof.Machine
end

section
/-! Flits sent, accepted, discarded and replayed (R28 to R32, R35, R42). -/

namespace Sys2Proof.Machine

variable {s t : State} {ep : Nat} {l : Link} {f : Flit}

/-! What is sent -/

/-- The header of a flit: KI, TYPE, SEQ, ACK, VC, CRD and CRDVC in their places (R28). -/
def headerOf (ki typ seq ack vc crd crdvc : Nat) : Nat :=
  ki * 2 ^ 63 + typ * 2 ^ 60 + seq * 2 ^ 48 + vc * 2 ^ 32 + (ack * 2 ^ 36 + crd * 2 ^ 22 + crdvc * 2 ^ 18)

theorem headerOf_fields {ki typ seq ack vc crd crdvc : Nat} (hk : ki < 2) (ht : typ < 8) (hs : seq < 4096) (ha : ack < 4096)
    (hv : vc < 16) (hc : crd < 1024) (hcv : crdvc < 16) :
    bits (headerOf ki typ seq ack vc crd crdvc) 63 63 = ki ∧ bits (headerOf ki typ seq ack vc crd crdvc) 62 60 = typ ∧
    bits (headerOf ki typ seq ack vc crd crdvc) 59 48 = seq ∧ bits (headerOf ki typ seq ack vc crd crdvc) 47 36 = ack ∧
    bits (headerOf ki typ seq ack vc crd crdvc) 35 32 = vc ∧ bits (headerOf ki typ seq ack vc crd crdvc) 17 0 = 0 := by
  simp only [bits, headerOf]
  refine ⟨?_, ?_, ?_, ?_, ?_, ?_⟩ <;> omega

@[simp] theorem makeFlit_hdr (k : Key) (ctr hdr body : Nat) : (makeFlit k ctr hdr body).hdr = hdr := rfl

/-- The acknowledgement and the credits that go back change only what is still to go back. -/
theorem backBits_eq (l : Link) : ∃ crd vc acked freed, crd < 1024 ∧ vc < 16 ∧
    backBits l = ((l.expect + 4095) % 4096 * 2 ^ 36 + crd * 2 ^ 22 + vc * 2 ^ 18, { l with acked := acked, freed := freed }) := by
  unfold backBits
  split
  next v hv =>
    have := List.mem_range.1 (List.mem_of_find?_eq_some hv)
    exact ⟨min 1023 (l.freed.getD v 0), v, _, _, by omega, by omega, rfl⟩
  next => exact ⟨0, 0, (l.expect + 4095) % 4096, l.freed, by omega, by omega, by simp⟩

/-- A new data or control flit takes the next SEQ and the next count of the selected key, and is held and sent. -/
theorem sendNew_eq (l : Link) (typ vc body : Nat) : ∃ crd crdvc acked freed, crd < 1024 ∧ crdvc < 16 ∧
    let k := keyAt l.tx l.txsel
    let f := makeFlit k k.ctr (headerOf l.txsel typ l.nextSeq ((l.expect + 4095) % 4096) vc crd crdvc) body
    sendNew l typ vc body = { l with
      acked := acked, freed := freed, nextSeq := (l.nextSeq + 1) % 4096, tx := l.tx.set l.txsel { k with ctr := k.ctr + 1 },
      credits := if typ ≤ 1 then l.credits.set vc (l.credits.getD vc 0 - 1) else l.credits,
      replay := l.replay ++ [⟨l.nextSeq, f⟩], sent := l.sent ++ [f] } := by
  obtain ⟨crd, crdvc, acked, freed, hc, hv, h⟩ := backBits_eq l
  exact ⟨crd, crdvc, acked, freed, hc, hv, by rw [sendNew, h]; rfl⟩

theorem keyAt_set_same {ks : List Key} {i : Nat} (h : i < ks.length) (k : Key) : keyAt (ks.set i k) i = k := by
  simp [keyAt, List.getD, h]

theorem keyAt_set_other {ks : List Key} {i j : Nat} (h : i ≠ j) (k : Key) : keyAt (ks.set i k) j = keyAt ks j := by
  simp [keyAt, List.getD, List.getElem?_set_ne h]

/-- Below 2^39 flits a key gives no record. -/
theorem keyLimits_below (h : (keyAt (s.link ep).tx (s.link ep).txsel).ctr < 2 ^ 39) : keyLimits s ep = s := by
  have h₁ : ¬ ((keyAt (s.link ep).tx (s.link ep).txsel).ctr ≥ 2 ^ 39 ∧ (!(s.link ep).warned) = true) := by omega
  have h₂ : ¬ ((keyAt (s.link ep).tx (s.link ep).txsel).ctr ≥ 2 ^ 40 ∧ (!(s.link ep).limit) = true) := by omega
  simp only [keyLimits, if_neg h₁, if_neg h₂]

theorem exec_dataFlitSend_data {vc body last : Nat} (hep : ep < 16) (hvc : vc < 8) (ht : (s.link ep).tail = none)
    (hc : canData s ep vc 1 = true) : exec (.dataFlitSend ep vc body last) s = .next (sendData s ep vc (body % 2 ^ 832) (last != 0)) := by
  rw [exec_dataFlitSend, execDataFlitSend, if_neg]
  simp [ht, hc]; omega

theorem dataFlit_sent (hl : s.links.Rises) (hep : ep < 16) (hlink : l = s.link ep) (hst : l.st = 2) {vc body last : Nat}
    (hvc : vc < 8) (htail : l.tail = none) (hsel : l.txsel < 2) (htx : l.tx.length = 2) (hen : s.rn 11 0 ep % 2 = 1)
    (hvalid : (keyAt l.tx l.txsel).valid = true) (hctr : (keyAt l.tx l.txsel).ctr + 1 < 2 ^ 39) (hcr : l.credits.getD vc 0 ≠ 0)
    (hroom : l.replay.length < 512) :
    ∃ f l', exec (.dataFlitSend ep vc body last) s = .next (s.setLink ep l') ∧ l'.nextSeq = (l.nextSeq + 1) % 4096 ∧
      keyAt l'.tx l.txsel = { keyAt l.tx l.txsel with ctr := (keyAt l.tx l.txsel).ctr + 1 } ∧
      l'.credits = l.credits.set vc (l.credits.getD vc 0 - 1) ∧ l'.replay = l.replay ++ [⟨l.nextSeq, f⟩] ∧ l'.sent = l.sent ++ [f] ∧
      f = makeFlit (keyAt l.tx l.txsel) (keyAt l.tx l.txsel).ctr f.hdr (body % 2 ^ 832) ∧
      (l.nextSeq < 4096 → l.expect < 4096 → bits f.hdr 63 63 = l.txsel ∧ bits f.hdr 62 60 = (if last = 0 then 0 else 1) ∧
        bits f.hdr 59 48 = l.nextSeq ∧ bits f.hdr 47 36 = (l.expect + 4095) % 4096 ∧ bits f.hdr 35 32 = vc ∧ bits f.hdr 17 0 = 0) := by
  have hcan : canData s ep vc 1 = true := by
    have : (keyAt l.tx l.txsel).ctr < 2 ^ 40 := by omega
    simp only [canData, canSend, ← hlink, Bool.and_eq_true, beq_iff_eq, decide_eq_true_eq]
    exact ⟨⟨⟨⟨⟨hst, hen⟩, hvalid⟩, this⟩, by omega⟩, hroom⟩
  have htyp : (if (last != 0) = true then 1 else 0) = (if last = 0 then 0 else 1) := by
    by_cases h : last = 0 <;> simp [h]
  have hle : (if last = 0 then 0 else 1) ≤ 1 := by split <;> omega
  generalize (if last = 0 then 0 else 1) = typ at htyp hle ⊢
  obtain ⟨crd, crdvc, acked, freed, hc, hv, hnew⟩ := sendNew_eq l typ vc (body % 2 ^ 832)
  have hkey : keyAt (sendNew l typ vc (body % 2 ^ 832)).tx l.txsel =
      { keyAt l.tx l.txsel with ctr := (keyAt l.tx l.txsel).ctr + 1 } := by
    rw [hnew]; exact keyAt_set_same (by omega) _
  have hsel' : (sendNew l typ vc (body % 2 ^ 832)).txsel = l.txsel := by rw [hnew]
  refine ⟨makeFlit (keyAt l.tx l.txsel) (keyAt l.tx l.txsel).ctr
      (headerOf l.txsel typ l.nextSeq ((l.expect + 4095) % 4096) vc crd crdvc) (body % 2 ^ 832),
    sendNew l typ vc (body % 2 ^ 832), ?_, by rw [hnew], hkey, ?_, by rw [hnew], by rw [hnew], rfl, fun hseq _ => ?_⟩
  · rw [exec_dataFlitSend_data hep hvc (hlink ▸ htail) hcan, sendData, htyp, ← hlink, keyLimits_below]
    rw [State.link_setLink_same hl, hsel', hkey]
    exact hctr
  · rw [hnew]; exact if_pos hle
  · rw [makeFlit_hdr]
    exact headerOf_fields hsel (by omega) hseq (Nat.mod_lt _ (by omega)) (by omega) hc hv

/-- An idle flit takes the next idle count of the selected key, where that is valid, and carries the retry request still owed. -/
theorem sendIdle_eq (l : Link) : ∃ f tx acked freed, sendIdle l = { l with tx := tx, acked := acked, freed := freed, sent := l.sent ++ [f] } ∧
    let body := match l.retry with
      | some q => 1 + q * 256
      | none => 0
    ((keyAt l.tx l.txsel).valid = true → f = makeFlit (keyAt l.tx l.txsel) (2 ^ 63 + (keyAt l.tx l.txsel).idle) f.hdr body) ∧
    ((keyAt l.tx l.txsel).valid = false → f.body = body ∧ f.tag = 0 ∧ f.hdr / 2 ^ 60 = 3) := by
  obtain ⟨crd, crdvc, acked, freed, hc, hv, h⟩ := backBits_eq l
  simp only [sendIdle, h]
  split
  next hk => exact ⟨_, _, acked, freed, rfl, fun _ => rfl, fun hn => absurd (hk.symm.trans hn) (by decide)⟩
  next hk =>
    refine ⟨_, l.tx, acked, freed, rfl, fun hy => absurd hy hk, fun _ => ⟨rfl, rfl, ?_⟩⟩
    simp only
    omega

theorem exec_idleFlitSend_up (hep : ep < 16) (hst : (s.link ep).st = 2) :
    exec (.idleFlitSend ep) s = .next (s.setLink ep (sendIdle (s.link ep))) := by
  have : listening s ep = true := by simp [listening, hep, hst]
  rw [exec_idleFlitSend, execIdleFlitSend, this]; rfl

/-! What is accepted (R30, R31, R42) -/

/-- The events of a data or control flit that is examined: of a data flit, of a control flit with a reserved code, of
old-key-retired. -/
def TakesFlit (ep : Nat) (f : Flit) (i : Instr) : Prop :=
  i = .dataFlitReceive ep f ∧ bits f.hdr 62 60 ≠ 2 ∧ bits f.hdr 62 60 ≠ 3 ∨
  (i = .controlFlitReceive ep f ∨ i = .oldKeyRetired ep f) ∧ bits f.hdr 62 60 = 2

theorem listening_iff : listening s ep = true ↔ ep < 16 ∧ (s.link ep).st = 2 := by simp [listening]

theorem examine_dup (h : bits f.hdr 59 48 ≠ l.expect) (hd : seqLe (bits f.hdr 59 48) ((l.expect + 4095) % 4096) = true) :
    examine l f = .dup := by rw [examine, if_pos h, if_pos hd]

theorem examine_gap (h : bits f.hdr 59 48 ≠ l.expect) (hd : seqLe (bits f.hdr 59 48) ((l.expect + 4095) % 4096) = false) :
    examine l f = .refused false := by rw [examine, if_pos h, if_neg (by simp [hd])]

theorem examine_malformed (h : bits f.hdr 59 48 = l.expect) (hm : 3 < bits f.hdr 62 60 ∨ 7 < bits f.hdr 35 32 ∨ bits f.hdr 17 0 ≠ 0) :
    examine l f = .refused false := by rw [examine, if_neg (not_not.2 h), if_pos hm]

theorem examine_formed (h : bits f.hdr 59 48 = l.expect) (ht : bits f.hdr 62 60 ≤ 3) (hv : bits f.hdr 35 32 ≤ 7)
    (hz : bits f.hdr 17 0 = 0) : examine l f =
      (openFlit (keyAt l.rx (bits f.hdr 63 63)) (keyAt l.rx (bits f.hdr 63 63)).ctr f).elim (.refused true) .body := by
  rw [examine, if_neg (not_not.2 h), if_neg (by omega)]
  cases openFlit (keyAt l.rx (bits f.hdr 63 63)) (keyAt l.rx (bits f.hdr 63 63)).ctr f with
  | none => rfl
  | some b => rfl

/-- A flit that is not accepted is discarded. -/
theorem exec_discard {i : Instr} {g : Got} (hep : ep < 16) (hst : (s.link ep).st = 2) (hi : TakesFlit ep f i)
    (hg : examine (s.link ep) f = g) (hb : ∀ b, g ≠ .body b) : exec i s = .next (discard s ep g) := by
  have hlis : listening s ep = true := listening_iff.2 ⟨hep, hst⟩
  rcases hi with ⟨rfl, h2, h3⟩ | ⟨rfl | rfl, h2⟩
  · rw [exec_dataFlitReceive, execDataFlitReceive, if_neg (by simp [hlis, h2, h3]), hg]
    cases g with
    | body b => exact absurd rfl (hb b)
    | dup => rfl
    | refused t => rfl
  · rw [exec_controlFlitReceive, execControlFlitReceive, if_neg (by simp [hlis, h2]), hg]
    cases g with
    | body b => exact absurd rfl (hb b)
    | dup => rfl
    | refused t => rfl
  · rw [exec_oldKeyRetired, execOldKeyRetired, if_neg (by simp [hlis, h2]), hg]
    cases g with
    | body b => exact absurd rfl (hb b)
    | dup => rfl
    | refused t => rfl

/-- An endpoint that asks for the expected SEQ again. -/
def Link.asking (l : Link) : Link :=
  { l with retry := some l.expect, retryFails := if l.retry = some l.expect then l.retryFails + 1 else 0 }

theorem askRetry_eq (s : State) (ep : Nat) : askRetry s ep =
    if (s.link ep).asking.retryFails ≥ 8 then beginRetrain (s.setLink ep (s.link ep).asking) ep
    else s.setLink ep (sendIdle (s.link ep).asking) := by
  simp only [askRetry, Link.asking, beq_iff_eq]
  rfl

/-- A retry request: at the eighth further one in a row the link trains, else an idle flit carries it at once. -/
theorem askRetry_asks (hl : s.links.Rises) (hr : s.regs.Rises) (hep : ep < 16) (h : s.link ep = l) :
    (l.asking.retryFails < 8 → askRetry s ep = s.setLink ep (sendIdle l.asking)) ∧
    (8 ≤ l.asking.retryFails → Trains (s.setLink ep l.asking) (askRetry s ep) ep) := by
  rw [askRetry_eq, h]
  refine ⟨fun hf => if_neg (by omega), fun hf => ?_⟩
  rw [if_pos hf]
  exact beginRetrain_trains (hl.put _ _) hr hep

/-- The acknowledgement and the credits of a flit that verified. -/
def Link.backed (l : Link) (now hdr : Nat) : Link :=
  { l with
    replay := l.replay.filter fun h => !seqLe h.seq (bits hdr 47 36), pkts := l.pkts.filter fun p => !seqLe p.1 (bits hdr 47 36),
    credits := (if bits hdr 21 18 < 8 then
      l.credits.set (bits hdr 21 18) (l.credits.getD (bits hdr 21 18) 0 + bits hdr 31 22) else l.credits),
    lastGood := now }

theorem applyBack_eq (s : State) (ep hdr : Nat) :
    applyBack s ep hdr = s.setLink ep (rollStep ((s.link ep).backed s.tsc.toNat hdr) (canSend s ep)) := rfl

theorem rollStep_idle (h : l.rolling = none) (ok : Bool) : rollStep l ok = l := by simp [rollStep, h]

theorem LinkBecomes.applyBack (h : LinkBecomes s t ep l) (hr : l.rolling = none) (hdr : Nat) :
    LinkBecomes s (applyBack t ep hdr) ep (l.backed s.tsc.toNat hdr) := by
  have hroll : (l.backed s.tsc.toNat hdr).rolling = none := hr
  rw [applyBack_eq, h.same, h.tsc, rollStep_idle hroll]
  exact h.setLink _

/-- The expected SEQ and the count of an accepted flit's slot have advanced. -/
def Link.advanced (l : Link) (f : Flit) : Link :=
  let k := keyAt l.rx (bits f.hdr 63 63)
  { l with
    expect := (l.expect + 1) % 4096, rx := l.rx.set (bits f.hdr 63 63) { k with ctr := k.ctr + 1 }, retry := none, retryFails := 0 }

theorem acceptSeq_eq (s : State) (ep : Nat) (f : Flit) :
    acceptSeq s ep f = applyBack (s.setLink ep ((s.link ep).advanced f)) ep f.hdr := rfl

theorem acceptSeq_becomes (hl : s.links.Rises) (h : s.link ep = l) (hr : l.rolling = none) (f : Flit) :
    LinkBecomes s (acceptSeq s ep f) ep ((l.advanced f).backed s.tsc.toNat f.hdr) := by
  have hroll : (l.advanced f).rolling = none := hr
  rw [acceptSeq_eq, h]
  exact (LinkBecomes.start hl ep _).applyBack hroll f.hdr

theorem applyBack_events (s : State) (ep hdr : Nat) : (applyBack s ep hdr).events = s.events := by
  rw [applyBack_eq, State.setLink_events]

theorem acceptSeq_events (s : State) (ep : Nat) (f : Flit) : (acceptSeq s ep f).events = s.events := by
  rw [acceptSeq_eq, applyBack_events, State.setLink_events]

/-- What accepting a flit makes of its endpoint, the packet that it ends apart. -/
structure AcceptsFlit (s t : State) (ep : Nat) (l : Link) (f : Flit) : Prop where
  frame : t = { s with links := t.links, events := t.events }
  other : ∀ e, e ≠ ep → t.link e = s.link e
  expect : (t.link ep).expect = (l.expect + 1) % 4096
  ctr : (keyAt (t.link ep).rx (bits f.hdr 63 63)).ctr = (keyAt l.rx (bits f.hdr 63 63)).ctr + 1
  retry : (t.link ep).retry = none
  replay : (t.link ep).replay = l.replay.filter fun h => !seqLe h.seq (bits f.hdr 47 36)
  good : (t.link ep).lastGood = s.tsc.toNat
  credits : (t.link ep).credits = (if bits f.hdr 21 18 < 8 then
    l.credits.set (bits f.hdr 21 18) (l.credits.getD (bits f.hdr 21 18) 0 + bits f.hdr 31 22) else l.credits)

/-- The endpoint of an accepted flit may differ further in its slots, where the count stays, its receive buffer and what it has to
give back. -/
theorem LinkBecomes.accepts {rx : List Key} {body : List (Nat × Nat)} {freed : List Nat}
    (h : LinkBecomes s t ep { (l.advanced f).backed s.tsc.toNat f.hdr with rx := rx, body := body, freed := freed })
    (hx : (keyAt rx (bits f.hdr 63 63)).ctr = (keyAt l.rx (bits f.hdr 63 63)).ctr + 1) : AcceptsFlit s t ep l f := by
  refine ⟨h.frame, h.other, ?_, ?_, ?_, ?_, ?_, ?_⟩ <;> rw [h.same]
  exacts [rfl, hx, rfl, rfl, rfl, rfl]

theorem ctr_advanced (hrx : l.rx.length = 2) (f : Flit) :
    (keyAt (l.advanced f).rx (bits f.hdr 63 63)).ctr = (keyAt l.rx (bits f.hdr 63 63)).ctr + 1 := by
  have hki : bits f.hdr 63 63 < l.rx.length := hrx ▸ Nat.mod_lt _ (by norm_num)
  exact congrArg Key.ctr (keyAt_set_same hki _)

theorem control_accepted {b : Nat} (hl : s.links.Rises) (hep : ep < 16) (hst : (s.link ep).st = 2) (h : s.link ep = l)
    (hroll : l.rolling = none) (hrx : l.rx.length = 2) (ht : bits f.hdr 62 60 = 2) (hb : b % 256 ≠ 2) (hg : examine l f = .body b) :
    ∃ t, exec (.controlFlitReceive ep f) s = .next t ∧ AcceptsFlit s t ep l f ∧ t.events = s.events := by
  have hlis : listening s ep = true := listening_iff.2 ⟨hep, hst⟩
  refine ⟨acceptSeq s ep f, ?_, (acceptSeq_becomes hl h hroll f).accepts (ctr_advanced hrx f), acceptSeq_events s ep f⟩
  rw [exec_controlFlitReceive, execControlFlitReceive, if_neg (by simp [hlis, ht]), h, hg]
  exact if_neg hb

theorem oldKeyRetired_accepted {b : Nat} (hl : s.links.Rises) (hep : ep < 16) (hst : (s.link ep).st = 2) (h : s.link ep = l)
    (hroll : l.rolling = none) (hrx : l.rx.length = 2) (ht : bits f.hdr 62 60 = 2) (hb : b % 256 = 2) (hg : examine l f = .body b) :
    ∃ t, exec (.oldKeyRetired ep f) s = .next t ∧ AcceptsFlit s t ep l f ∧ t.events = s.events ∧
      (keyAt (t.link ep).rx (b / 256 % 2)).valid = false := by
  have hlis : listening s ep = true := listening_iff.2 ⟨hep, hst⟩
  have hacc := acceptSeq_becomes hl h hroll f
  have hlen : b / 256 % 2 < (l.advanced f).rx.length := by
    rw [Link.advanced, List.length_set, hrx]; exact Nat.mod_lt _ (by omega)
  have hset := hacc.setLink { (l.advanced f).backed s.tsc.toNat f.hdr with
    rx := (l.advanced f).rx.set (b / 256 % 2) { keyAt (l.advanced f).rx (b / 256 % 2) with valid := false } }
  refine ⟨_, ?_, hset.accepts ?_, acceptSeq_events s ep f, ?_⟩
  · rw [exec_oldKeyRetired, execOldKeyRetired, if_neg (by simp [hlis, ht]), h, hg]
    simp only [hacc.same]
    exact if_neg (not_not.2 hb)
  · rw [← ctr_advanced hrx f]
    by_cases hi : b / 256 % 2 = bits f.hdr 63 63
    · rw [hi] at hlen ⊢; rw [keyAt_set_same hlen]
    · rw [keyAt_set_other hi]
  · rw [hset.same]; exact congrArg Key.valid (keyAt_set_same hlen _)

/-- The endpoint after an accepted data flit that does not end a packet: its body waits in the receive buffer. -/
def Link.gathered (l : Link) (now : Nat) (f : Flit) (b : Nat) : Link :=
  { (l.advanced f).backed now f.hdr with body := l.body ++ [(bits f.hdr 35 32, b)] }

/-- The flits of a channel that leave the receive buffer are those gathered of it since the up state was entered. -/
theorem length_buffered {body : List (Nat × Nat)} {vc b : Nat} (hvc : vc ≤ 7) :
    (((body ++ [(vc, b)]).filter fun q => q.1 % 8 == vc).filter fun q => decide (q.1 < 8)).length =
      (body.filter fun q => q.1 == vc).length + 1 := by
  have hp : ∀ q : Nat × Nat, (decide (q.1 < 8) && q.1 % 8 == vc) = (q.1 == vc) := fun q => by
    rw [Bool.eq_iff_iff]; simp only [Bool.and_eq_true, decide_eq_true_eq, beq_iff_eq]; omega
  rw [List.filter_filter, List.filter_congr fun q _ => hp q]
  simp

/-- A packet's last flit frees its channel's part of the receive buffer, and the packet goes on. -/
theorem linkDeliver_becomes (h : LinkBecomes s t ep l) (vc seq : Nat) :
    (∃ k, (linkDeliver t ep vc seq).events =
      t.events ++ [if ep % 4 < 2 then .jalcyDEndpointRewrite ep k else .portSwitchRoute (ep / 4) true k]) ∧
    LinkBecomes s (linkDeliver t ep vc seq) ep { l with
      body := l.body.filter (fun q => q.1 % 8 != vc),
      freed := l.freed.set vc (l.freed.getD vc 0 + ((l.body.filter fun q => q.1 % 8 == vc).filter fun q => decide (q.1 < 8)).length) } := by
  have hset := h.setLink { l with
    body := l.body.filter (fun q => q.1 % 8 != vc),
    freed := l.freed.set vc (l.freed.getD vc 0 + ((l.body.filter fun q => q.1 % 8 == vc).filter fun q => decide (q.1 < 8)).length) }
  unfold linkDeliver
  rw [h.same]
  split
  · exact ⟨⟨_, rfl⟩, hset.post _⟩
  · exact ⟨⟨_, rfl⟩, hset.post _⟩

theorem exec_dataFlitReceive_body {b : Nat} (hl : s.links.Rises) (hep : ep < 16) (hst : (s.link ep).st = 2) (h : s.link ep = l)
    (hroll : l.rolling = none) (ht : bits f.hdr 62 60 ≤ 1) (hg : examine l f = .body b) :
    ∃ u, LinkBecomes s u ep (l.gathered s.tsc.toNat f b) ∧ u.events = s.events ∧ exec (.dataFlitReceive ep f) s =
      .next (if bits f.hdr 62 60 = 1 then linkDeliver u ep (bits f.hdr 35 32) (bits f.hdr 59 48) else u) := by
  have hlis : listening s ep = true := listening_iff.2 ⟨hep, hst⟩
  have hn : ¬ ((!listening s ep) = true ∨ bits f.hdr 62 60 = 2 ∨ bits f.hdr 62 60 = 3) := by simp [hlis]; omega
  have hacc := acceptSeq_becomes hl h hroll f
  refine ⟨_, hacc.setLink (l.gathered s.tsc.toNat f b), acceptSeq_events s ep f, ?_⟩
  rw [exec_dataFlitReceive, execDataFlitReceive, if_neg hn, h, hg]
  simp only [hacc.same]
  rfl

theorem data_accepted {b : Nat} (hl : s.links.Rises) (hep : ep < 16) (hst : (s.link ep).st = 2) (h : s.link ep = l)
    (hroll : l.rolling = none) (hrx : l.rx.length = 2) (ht : bits f.hdr 62 60 ≤ 1) (hvc : bits f.hdr 35 32 ≤ 7)
    (hg : examine l f = .body b) :
    ∃ t, exec (.dataFlitReceive ep f) s = .next t ∧ AcceptsFlit s t ep l f ∧
      (bits f.hdr 62 60 = 0 → (t.link ep).body = l.body ++ [(bits f.hdr 35 32, b)]) ∧ (bits f.hdr 62 60 ≠ 1 → t.events = s.events) ∧
      (bits f.hdr 62 60 = 1 → l.freed.length = 8 → (∃ k, t.events = s.events ++
          [if ep % 4 < 2 then .jalcyDEndpointRewrite ep k else .portSwitchRoute (ep / 4) true k]) ∧
        (t.link ep).body = (l.body.filter fun q => q.1 % 8 != bits f.hdr 35 32) ∧ (t.link ep).freed = l.freed.set (bits f.hdr 35 32)
          (l.freed.getD (bits f.hdr 35 32) 0 + (l.body.filter fun q => q.1 == bits f.hdr 35 32).length + 1)) := by
  obtain ⟨u, hu, hev, hexec⟩ := exec_dataFlitReceive_body hl hep hst h hroll ht hg
  refine ⟨_, hexec, ?_⟩
  split
  next h1 =>
    obtain ⟨⟨k, hk⟩, hdel⟩ := linkDeliver_becomes hu (bits f.hdr 35 32) (bits f.hdr 59 48)
    refine ⟨hdel.accepts (ctr_advanced hrx f), fun h0 => by omega, fun hn => absurd h1 hn, fun _ _ => ⟨⟨k, hev ▸ hk⟩, ?_, ?_⟩⟩
    · have hlast : bits f.hdr 35 32 % 8 = bits f.hdr 35 32 := Nat.mod_eq_of_lt (by omega)
      rw [hdel.same]
      show List.filter _ (l.body ++ _) = _
      simp [List.filter_append, hlast]
    · rw [hdel.same]
      show l.freed.set _ (_ + (List.filter _ (List.filter _ (l.body ++ _))).length) = _
      rw [length_buffered hvc, Nat.add_assoc]
      rfl
  next h1 =>
    exact ⟨hu.accepts (ctr_advanced hrx f), fun _ => by rw [hu.same]; rfl, fun _ => hev, fun h => absurd h h1⟩

/-! Idle flits (R29 to R31, R42) -/

/-- An idle flit, whatever its code. -/
def TakesIdle (ep : Nat) (f : Flit) (b : Nat) (i : Instr) : Prop :=
  b % 256 ≠ 1 ∧ i = .idleFlitReceive ep f ∨ b % 256 = 1 ∧ i = .retryRequest ep f

/-- The held flits that an idle flit with body b asks to be sent again. -/
def askedAgain (b : Nat) (held : List HeldFlit) : List Flit :=
  if b % 256 = 1 then (held.filter fun h => seqLe (b / 256 % 4096) h.seq).map (·.flit) else []

theorem openIdle_unkeyed (h : ∀ k ∈ l.rx, k.valid = false) : openIdle l f = some (false, f.body, l) := by
  have : (!l.rx.any (·.valid)) = true := by simpa using h
  rw [openIdle, if_pos this]

theorem openIdle_keyed {k : Key} {c : Nat} (hv : ∃ m ∈ l.rx, m.valid = true) (hk : k = keyAt l.rx (bits f.hdr 63 63))
    (hc : c = k.idle + (bits f.hdr 59 48 + 4096 - k.idle % 4096) % 4096) :
    openIdle l f = (openFlit k (2 ^ 63 + c) f).map fun b => (true, b, { l with rx := l.rx.set (bits f.hdr 63 63) { k with idle := c + 1 } }) := by
  have : ¬ (!l.rx.any (·.valid)) = true := by simpa using hv
  subst hc hk
  rw [openIdle, if_neg this]

/-- A flit verifies under a valid slot alone. -/
theorem valid_of_openFlit {k : Key} {c b : Nat} (h : openFlit k c f = some b) : k.valid = true := by
  by_contra hk
  simp [openFlit, hk] at h

theorem keyAt_mem_of_valid {ks : List Key} {i : Nat} (h : (keyAt ks i).valid = true) : keyAt ks i ∈ ks := by
  rw [keyAt] at h ⊢
  by_cases hi : i < ks.length
  · rw [List.getD_eq_getElem _ _ hi]; exact List.getElem_mem hi
  · rw [List.getD_eq_default _ _ (by omega)] at h; exact absurd h (by decide)

theorem LinkBecomes.resend (h : LinkBecomes s t ep l) (q : Nat) : LinkBecomes s (resend t ep q) ep
    { l with sent := l.sent ++ (l.replay.filter fun h => seqLe q h.seq).map (·.flit) } := by
  rw [Sys2Proof.Machine.resend, h.same]
  exact h.setLink _

/-- An idle flit that is taken: its acknowledgement counts where it verified, and a retry request is answered. -/
theorem exec_idle_taken {i : Instr} {b : Nat} {ok : Bool} {m : Link} (hep : ep < 16) (hst : (s.link ep).st = 2)
    (ht : bits f.hdr 62 60 = 3) (hi : TakesIdle ep f b i) (ho : openIdle (s.link ep) f = some (ok, b, m)) :
    exec i s = .next (if b % 256 = 1 then
        resend (if ok then applyBack (s.setLink ep m) ep f.hdr else s.setLink ep m) ep (bits b 19 8)
      else if ok then applyBack (s.setLink ep m) ep f.hdr else s.setLink ep m) := by
  have hlis : listening s ep = true := listening_iff.2 ⟨hep, hst⟩
  rcases hi with ⟨hb, rfl⟩ | ⟨hb, rfl⟩
  · rw [exec_idleFlitReceive, execIdleFlitReceive, idleIn, if_neg (by simp [hlis, ht]), ho]
    simp [hb]
  · rw [exec_retryRequest, execRetryRequest, idleIn, if_neg (by simp [hlis, ht]), ho]
    simp [hb]

/-- What a taken idle flit makes of its endpoint. -/
theorem idle_becomes {i : Instr} {b : Nat} {m : Link} (he : exec i s = .next (if b % 256 = 1 then resend t ep (bits b 19 8) else t))
    (h : LinkBecomes s t ep m) (hev : t.events = s.events) :
    ∃ t, exec i s = .next t ∧ t = { s with links := t.links } ∧ t.link ep = { m with sent := m.sent ++ askedAgain b m.replay } ∧
      ∀ e, e ≠ ep → t.link e = s.link e := by
  refine ⟨_, he, ?_⟩
  split
  next hb =>
    have hr := h.resend (bits b 19 8)
    exact ⟨hr.linksOnly hev, by rw [hr.same, askedAgain, if_pos hb]; rfl, hr.other⟩
  next hb => exact ⟨h.linksOnly hev, by rw [h.same, askedAgain, if_neg hb, List.append_nil], h.other⟩

theorem idle_unkeyed {i : Instr} {b : Nat} (hl : s.links.Rises) (hep : ep < 16) (hst : (s.link ep).st = 2) (h : s.link ep = l)
    (ht : bits f.hdr 62 60 = 3) (hi : TakesIdle ep f b i) (hk : ∀ k ∈ l.rx, k.valid = false) (hb : f.body = b) :
    ∃ t, exec i s = .next t ∧ t = { s with links := t.links } ∧ t.link ep = { l with sent := l.sent ++ askedAgain b l.replay } ∧
      ∀ e, e ≠ ep → t.link e = s.link e := by
  have hopen : openIdle (s.link ep) f = some (false, b, l) := hb ▸ h.symm ▸ openIdle_unkeyed hk
  have he := exec_idle_taken hep hst ht hi hopen
  exact idle_becomes (t := s.setLink ep l) he (.start hl ep l) rfl

theorem idle_verified {i : Instr} {b c : Nat} {k : Key} (hl : s.links.Rises) (hep : ep < 16) (hst : (s.link ep).st = 2)
    (h : s.link ep = l) (ht : bits f.hdr 62 60 = 3) (hi : TakesIdle ep f b i) (hroll : l.rolling = none)
    (hk : k = keyAt l.rx (bits f.hdr 63 63)) (hc : c = k.idle + (bits f.hdr 59 48 + 4096 - k.idle % 4096) % 4096)
    (ho : openFlit k (2 ^ 63 + c) f = some b) :
    let m := Link.backed { l with rx := l.rx.set (bits f.hdr 63 63) { k with idle := c + 1 } } s.tsc.toNat f.hdr
    ∃ t, exec i s = .next t ∧ t = { s with links := t.links } ∧ t.link ep = { m with sent := m.sent ++ askedAgain b m.replay } ∧
      ∀ e, e ≠ ep → t.link e = s.link e := by
  have hvalid : (keyAt l.rx (bits f.hdr 63 63)).valid = true := hk ▸ valid_of_openFlit ho
  have hopen := openIdle_keyed ⟨_, keyAt_mem_of_valid hvalid, hvalid⟩ hk hc
  rw [ho] at hopen
  have he := exec_idle_taken hep hst ht hi (by rw [h]; exact hopen)
  have hset := LinkBecomes.start hl ep { l with rx := l.rx.set (bits f.hdr 63 63) { k with idle := c + 1 } }
  exact idle_becomes (t := applyBack (s.setLink ep _) ep f.hdr) he (hset.applyBack hroll f.hdr) rfl

/-- An idle flit whose tag fails is counted, and that is all. -/
theorem idle_unverified {k : Key} (hs : s.Canon) (hep : ep < 16) (hst : (s.link ep).st = 2) (h : s.link ep = l)
    (ht : bits f.hdr 62 60 = 3) (hv : ∃ m ∈ l.rx, m.valid = true) (hk : k = keyAt l.rx (bits f.hdr 63 63))
    (ho : openFlit k (2 ^ 63 + (k.idle + (bits f.hdr 59 48 + 4096 - k.idle % 4096) % 4096)) f = none) :
    Writes (.idleFlitReceive ep f) s 11 3 ep (s.reg 11 3 ep + 1) := by
  have hlis : listening s ep = true := listening_iff.2 ⟨hep, hst⟩
  have hopen := openIdle_keyed hv hk rfl
  rw [ho, Option.map_none, ← h] at hopen
  refine ⟨s.bump 11 3 ep, ?_, State.setReg_regOnly hs ..⟩
  rw [exec_idleFlitReceive, execIdleFlitReceive, idleIn, if_neg (by simp [hlis, ht]), hopen]
  rfl

/-- A flit in sequence that verifies is accepted, whichever of the three it is. -/
theorem flit_accepted {i : Instr} {b : Nat} (hl : s.links.Rises) (hep : ep < 16) (hst : (s.link ep).st = 2) (h : s.link ep = l)
    (hi : i = .dataFlitReceive ep f ∧ bits f.hdr 62 60 ≤ 1 ∨ i = .controlFlitReceive ep f ∧ bits f.hdr 62 60 = 2 ∧ b % 256 ≠ 2 ∨
        i = .oldKeyRetired ep f ∧ bits f.hdr 62 60 = 2 ∧ b % 256 = 2) (hrx : l.rx.length = 2) (hroll : l.rolling = none)
    (hvc : bits f.hdr 35 32 ≤ 7) (hg : bits f.hdr 62 60 ≤ 3 → examine l f = .body b) :
    ∃ t, exec i s = .next t ∧ t = { s with links := t.links, events := t.events } ∧ (∀ e, e ≠ ep → t.link e = s.link e) ∧
      (t.link ep).expect = (l.expect + 1) % 4096 ∧
      (keyAt (t.link ep).rx (bits f.hdr 63 63)).ctr = (keyAt l.rx (bits f.hdr 63 63)).ctr + 1 ∧ (t.link ep).retry = none ∧
      (t.link ep).replay = l.replay.filter (fun h => !seqLe h.seq (bits f.hdr 47 36)) ∧ (t.link ep).lastGood = s.tsc.toNat ∧
      (t.link ep).credits = (if bits f.hdr 21 18 < 8 then
        l.credits.set (bits f.hdr 21 18) (l.credits.getD (bits f.hdr 21 18) 0 + bits f.hdr 31 22) else l.credits) ∧
      (i = .oldKeyRetired ep f → (keyAt (t.link ep).rx (b / 256 % 2)).valid = false) ∧
      (bits f.hdr 62 60 = 0 → (t.link ep).body = l.body ++ [(bits f.hdr 35 32, b)]) ∧ (bits f.hdr 62 60 ≠ 1 → t.events = s.events) ∧
      (bits f.hdr 62 60 = 1 → l.freed.length = 8 → (∃ k, t.events = s.events ++
          [if ep % 4 < 2 then .jalcyDEndpointRewrite ep k else .portSwitchRoute (ep / 4) true k]) ∧
        (t.link ep).body = (l.body.filter fun q => q.1 % 8 != bits f.hdr 35 32) ∧ (t.link ep).freed = l.freed.set (bits f.hdr 35 32)
          (l.freed.getD (bits f.hdr 35 32) 0 + (l.body.filter fun q => q.1 == bits f.hdr 35 32).length + 1)) := by
  rcases hi with ⟨rfl, ht⟩ | ⟨rfl, ht, hb⟩ | ⟨rfl, ht, hb⟩
  · obtain ⟨t, he, a, hbody, hev, hlast⟩ := data_accepted hl hep hst h hroll hrx ht hvc (hg (by omega))
    exact ⟨t, he, a.frame, a.other, a.expect, a.ctr, a.retry, a.replay, a.good, a.credits, nofun, hbody, hev, hlast⟩
  · obtain ⟨t, he, a, hev⟩ := control_accepted hl hep hst h hroll hrx ht hb (hg (by omega))
    exact ⟨t, he, a.frame, a.other, a.expect, a.ctr, a.retry, a.replay, a.good, a.credits, nofun, fun h0 => by omega, fun _ => hev,
      fun h1 => by omega⟩
  · obtain ⟨t, he, a, hev, hcl⟩ := oldKeyRetired_accepted hl hep hst h hroll hrx ht hb (hg (by omega))
    exact ⟨t, he, a.frame, a.other, a.expect, a.ctr, a.retry, a.replay, a.good, a.credits, fun _ => hcl, fun h0 => by omega, fun _ => hev,
      fun h1 => by omega⟩

/-- A flit refused makes the endpoint ask again. -/
theorem refused_asks {i : Instr} {u : State} (hl : s.links.Rises) (hr : s.regs.Rises) (hep : ep < 16) (h : s.link ep = l)
    (he : exec i u = .next (askRetry s ep)) :
    (l.asking.retryFails < 8 → exec i u = .next (s.setLink ep (sendIdle l.asking))) ∧
    (8 ≤ l.asking.retryFails → ∃ t, exec i u = .next t ∧ Trains (s.setLink ep l.asking) t ep) := by
  obtain ⟨hfew, hmany⟩ := askRetry_asks hl hr hep h
  exact ⟨fun hf => he.trans (congrArg _ (hfew hf)), fun hf => ⟨_, he, hmany hf⟩⟩

/-- Settles O41: each flit by what `examine` or `openIdle` makes of it. -/
theorem linkFlitsAreSentAndAccepted : Obligations.LinkFlitsAreSentAndAccepted := by
  intro s ep l hs hl hep hlink hst
  have h : s.link ep = l := hlink.symm
  have hst' : (s.link ep).st = 2 := h ▸ hst
  refine ⟨fun vc body last hvc htail hsel htx _ hen hvalid hctr hcr hroom =>
    dataFlit_sent hl hep hlink hst hvc htail hsel htx hen hvalid hctr hcr hroom, ?_, ?_, ?_, ?_, ?_⟩
  · intro f b i hi hrx hroll hseq hvc hz ho
    have hbody : bits f.hdr 62 60 ≤ 3 → examine l f = .body b := fun ht => by
      rw [examine_formed hseq ht hvc hz]
      change openFlit (keyAt l.rx (bits f.hdr 63 63)) (keyAt l.rx (bits f.hdr 63 63)).ctr f = some b at ho
      rw [ho, Option.elim_some]
    exact flit_accepted hl hep hst' h hi hrx hroll hvc hbody
  · intro f i hi
    have htakes : TakesFlit ep f i := hi.imp_right fun hi => by tauto
    refine ⟨fun hne hdup => exec_discard (g := .dup) hep hst' htakes (h.symm ▸ examine_dup hne hdup) (by simp), fun hne hgap => ?_,
      fun hseq hm => ?_, fun hseq ht hv hz ho => ⟨s.bump 11 3 ep, State.setReg_regOnly hs .., ?_⟩⟩
    · exact refused_asks hl hs.regs hep h (exec_discard (g := .refused false) hep hst' htakes (h.symm ▸ examine_gap hne hgap) (by simp))
    · exact refused_asks hl hs.regs hep h (exec_discard (g := .refused false) hep hst' htakes (h.symm ▸ examine_malformed hseq hm) (by simp))
    · have hbad : examine l f = .refused true := by
        rw [examine_formed hseq ht hv hz]
        change openFlit (keyAt l.rx (bits f.hdr 63 63)) (keyAt l.rx (bits f.hdr 63 63)).ctr f = none at ho
        rw [ho, Option.elim_none]
      exact refused_asks (s := s.bump 11 3 ep) hl (State.setReg_rises hs.regs ..) hep h
        (exec_discard (g := .refused true) hep hst' htakes (h.symm ▸ hbad) (by simp))
  · intro f b i ht hi
    exact ⟨fun hk hb => idle_unkeyed hl hep hst' h ht hi hk hb,
      fun k c hroll hk hc ho => idle_verified hl hep hst' h ht hi hroll hk hc ho⟩
  · exact fun f k ht hv hk ho => idle_unverified hs hep hst' h ht hv hk ho
  · obtain ⟨f, tx, acked, freed, hid, hf⟩ := sendIdle_eq l
    exact ⟨_, f, exec_idleFlitSend_up hep hst', by rw [h, hid], by rw [h, hid], by rw [h, hid], by rw [h, hid], hf⟩

end Sys2Proof.Machine
end

section
/-! What leaves the records of the link endpoints alone: memory by VA, contexts that end, records, and the halt of a split ring (R39, R40). -/

namespace Sys2Proof.Machine

theorem Keeps.links {s t : State} (h : Keeps s t) : t.links = s.links := by rw [h.frame]

theorem locateFar_links (s : State) (part va n : Nat) (wr ft cp : Bool) (from_ : Nat) :
    (locateFar s part va n wr ft cp from_).1.links = s.links := ((Keeps.refl s).locateFar part va n wr ft cp from_).links

theorem storeAt_links (s : State) (a n v : Nat) : (storeAt s a n v).links = s.links := by
  rw [storeAt, setTag_links, wrNat_eq]

theorem finjAct_links (s : State) (c : Nat) : (finjAct s c).1.links = s.links := by
  unfold finjAct
  extract_lets r mode
  split_ifs <;> rfl

theorem putAt_links (s : State) (part va src a n v : Nat) (tag : W32) : (putAt s part va src a n v tag).1.links = s.links := by
  unfold putAt
  cases outsideOf s part va src with
  | none => exact (setTag_links ..).trans (storeAt_links ..)
  | some c =>
    dsimp only
    split_ifs
    · exact finjAct_links s c
    all_goals exact (setTag_links ..).trans ((storeAt_links ..).trans (finjAct_links s c))

theorem vaReadFrom_links (f : Nat) (s : State) (part va n : Nat) (ft : Bool) (from_ : Nat) :
    (vaReadFrom f s part va n ft from_).1.links = s.links := by
  induction f generalizing s va n with
  | zero => rfl
  | succ f ih =>
    have hloc := locateFar_links s part va (lineSpan va n) false ft false from_
    rw [vaReadFrom]
    split
    · rfl
    · dsimp only
      generalize locateFar s part va (lineSpan va n) false ft false from_ = p at hloc
      obtain ⟨u, b | a⟩ := p
      · exact hloc
      · have hrest := ih u (va + lineSpan va n) (n - lineSpan va n)
        dsimp only
        generalize vaReadFrom f u part (va + lineSpan va n) (n - lineSpan va n) ft from_ = q at hrest
        obtain ⟨w, b | l⟩ := q
        · exact hrest.trans hloc
        · exact hrest.trans hloc

theorem vaRead8_links (s : State) (part va from_ : Nat) : (vaRead8 s part va from_).1.links = s.links := by
  have h := vaReadFrom_links (8 / 64 + 2) s part va 8 false from_
  rw [vaRead8, vaRead]
  generalize vaReadFrom (8 / 64 + 2) s part va 8 false from_ = p at h
  obtain ⟨u, b | l⟩ := p
  · exact h
  · exact h

theorem vaWriteFrom_links (f : Nat) (s : State) (part va : Nat) (l : List Nat) (cp : Bool) (src : Nat) :
    (vaWriteFrom f s part va l cp src).1.links = s.links := by
  induction f generalizing s va l with
  | zero => rfl
  | succ f ih =>
    have hloc := locateFar_links s part va (writeSpan s part va src l.length) true false cp (src / 2 ^ 14)
    rw [vaWriteFrom]
    split
    · rfl
    · dsimp only
      generalize locateFar s part va (writeSpan s part va src l.length) true false cp (src / 2 ^ 14) = p at hloc
      obtain ⟨u, b | a⟩ := p
      · exact hloc
      · exact (ih ..).trans ((putAt_links ..).trans hloc)

theorem vaWrite8_links (s : State) (part va v : Nat) (cp : Bool) (src : Nat) : (vaWrite8 s part va v cp src).1.links = s.links :=
  vaWriteFrom_links ..

theorem foldl_links {α : Type} {f : State → α → State} (hf : ∀ s x, (f s x).links = s.links) (l : List α) (s : State) :
    (l.foldl f s).links = s.links := by
  induction l generalizing s with
  | nil => rfl
  | cons x l ih => exact (ih (f s x)).trans (hf s x)

theorem endContext_links (s : State) (part cr st status : Nat) : (endContext s part cr st status).links = s.links := by
  unfold endContext
  cases s.live? part cr with
  | none => rfl
  | some l =>
    dsimp only
    split
    · rfl
    · split_ifs <;> rfl

theorem unqueue_links (s : State) (clu part cr : Nat) : (unqueue s clu part cr).links = s.links := by
  unfold unqueue
  dsimp only
  split
  · rw [State.setCl_links]
    split_ifs
    · rfl
    · exact vaWrite8_links ..
  · rfl

theorem unqueueAll_links (s : State) (part cr : Nat) : (unqueueAll s part cr).links = s.links := by
  refine foldl_links (fun u p => ?_) _ s
  split_ifs
  · exact unqueue_links ..
  · rfl

theorem haltCtx_links (s : State) (l : Live) : (haltCtx s l).links = s.links := by
  unfold haltCtx
  split
  · rfl
  · have hq : (unqueueAll (dropWaiter s l.part l.cr) l.part l.cr).links = s.links := unqueueAll_links ..
    dsimp only
    rw [endContext_links]
    split
    · exact (vaWrite8_links ..).trans ((vaRead8_links ..).trans hq)
    · exact (vaRead8_links ..).trans hq

theorem emit_links (s : State) (ring src typ hi dw2 dw3 : Nat) : (emit s ring src typ hi dw2 dw3).links = s.links :=
  ((Keeps.refl s).emit ring src typ hi dw2 dw3).links

theorem emitHv_links (s : State) (die src typ hi dw2 dw3 : Nat) : (emitHv s die src typ hi dw2 dw3).links = s.links := by
  unfold emitHv
  dsimp only
  split_ifs
  · exact ((Keeps.refl s).ringLose _).links
  · exact emit_links ..

theorem splitCp_links (s : State) (die : Nat) : (splitCp s die).links = s.links := by
  unfold splitCp
  extract_lets mine hi ps hit ls src s₁ s₂
  have h₁ : s₁.links = s.links := foldl_links haltCtx_links ls s
  exact (emitHv_links ..).trans ((foldl_links (fun t p => emit_links ..) ps s₁).trans h₁)

theorem splitRing_links (s : State) : (splitRing s).links = s.links :=
  (foldl_links haltCtx_links _ _).trans ((splitCp_links ..).trans (splitCp_links ..))

end Sys2Proof.Machine
end

section
/-! Training, failure and the reports of failed links, keys and their selection (R32 to R38, R41, R42). -/

namespace Sys2Proof.Machine

variable {s t : State} {ep e : Nat} {l : Link}

/-! Failure (R32, R38, R41) -/

/-- The endpoint once it knows the last SEQ accepted, or that none can come. -/
def Link.reportedTo (l : Link) (last : Option Nat) : Link :=
  let keep := l.owed.filter fun p => match p.1, last with
    | some q, some a => !seqLe q a
    | _, _ => true
  { l with pkts := [], replay := [], tail := none, reported := true, reinject := keep.map (·.2) }

theorem reportIn_eq (s : State) (ep : Nat) (last : Option Nat) :
    reportIn s ep last = s.setLink ep ((s.link ep).reportedTo last) := rfl

/-- The packets that were not all accepted, in order, and the packet begun. -/
theorem reinject_reportedTo_some (l : Link) (a : Nat) : (l.reportedTo (some a)).reinject =
    (l.pkts.filter fun p => !seqLe p.1 a).map (·.2) ++ (l.tail.map (·.2.2)).toList := by
  cases ht : l.tail <;> simp [Link.reportedTo, Link.owed, ht, List.filter_append, List.filter_map, Function.comp_def]

theorem reinject_reportedTo_none (l : Link) : (l.reportedTo none).reinject =
    l.pkts.map (·.2) ++ (l.tail.map (·.2.2)).toList := by
  cases ht : l.tail <;> simp [Link.reportedTo, Link.owed, ht, List.filter_append, Function.comp_def]

/-- The endpoint marked failed. -/
def Link.marked (l : Link) (now : Nat) : Link := { l with st := 3, body := [], failedAt := now, reported := false }

/-- The endpoint marked failed; of a Jalcy-X port, with its packets to be sent toward the alternate. -/
def Link.failed (l : Link) (ep now : Nat) : Link :=
  if ep % 4 < 2 then l.marked now else (l.marked now).reportedTo none

theorem linkEvent_links (s : State) (ep ev slot dw3 : Nat) : (linkEvent s ep ev slot dw3).links = s.links := emitHv_links ..

theorem failLink_links (s : State) (ep : Nat) : (failLink s ep).links =
    if ep % 4 < 2 then (s.setLink ep ((s.link ep).marked s.tsc.toNat)).links
    else ((linkEvent (s.setLink ep ((s.link ep).marked s.tsc.toNat)) ep 1 0 0).setLink ep
      (((linkEvent (s.setLink ep ((s.link ep).marked s.tsc.toNat)) ep 1 0 0).link ep).reportedTo none)).links := by
  unfold failLink
  extract_lets l was u v w
  have hv : v.links = u.links := linkEvent_links ..
  have hw : w.links = u.links := by
    dsimp only [w]
    split
    · exact hv
    · exact hv
  split_ifs
  · exact (splitRing_links w).trans hw
  · exact hw
  · rfl

/-- A failure changes the record of its endpoint alone. -/
theorem failLink_link (hl : s.links.Rises) (ep : Nat) : (failLink s ep).links.Rises ∧
    (failLink s ep).link ep = (s.link ep).failed ep s.tsc.toNat ∧ ∀ e, e ≠ ep → (failLink s ep).link e = s.link e := by
  have hset := LinkBecomes.start hl ep ((s.link ep).marked s.tsc.toNat)
  have hev : (linkEvent (s.setLink ep ((s.link ep).marked s.tsc.toNat)) ep 1 0 0).links = _ := linkEvent_links ..
  have hlinks := failLink_links s ep
  by_cases h : ep % 4 < 2
  · rw [if_pos h] at hlinks
    rw [hlinks, Link.failed, if_pos h, State.link_of_links hlinks]
    exact ⟨hset.rises, hset.same, fun e he => (State.link_of_links hlinks e).trans (hset.other e he)⟩
  · rw [if_neg h, State.link_of_links hev, hset.same] at hlinks
    have hrises := hev ▸ hset.rises
    rw [hlinks, Link.failed, if_neg h, State.link_of_links hlinks]
    refine ⟨(LinkBecomes.start hrises ep _).rises, State.link_setLink_same hrises _ _, fun e he => ?_⟩
    rw [State.link_of_links hlinks, State.link_setLink_other hrises _ he, State.link_of_links hev]
    exact hset.other e he

theorem failed_st (l : Link) (ep now : Nat) : (l.failed ep now).st = 3 := by
  unfold Link.failed; split_ifs <;> rfl

theorem failed_jalcyD (h : ep % 4 < 2) (l : Link) (now : Nat) : l.failed ep now = l.marked now := if_pos h

theorem failed_jalcyX (h : 2 ≤ ep % 4) (l : Link) (now : Nat) : l.failed ep now = (l.marked now).reportedTo none := if_neg (by omega)

/-- An endpoint fails after its third failed retraining, or, where flits must verify, after 10^6 ticks without one. -/
theorem exec_linkFailed_due (hep : ep < 16) (h : s.link ep = l) (hst : l.st ≠ 3)
    (hdue : 3 ≤ l.retrainFails ∨ (l.st = 2 ∧ l.lastGood + 10 ^ 6 ≤ s.tsc.toNat ∧
        ((∃ m ∈ l.rx, m.valid = true) ∨ ∃ e, IsEnd ep e ∧ e ≠ ep ∧ (s.link e).st = 3))) :
    exec (.linkFailed ep) s = .next (failLink s ep) := by
  have hcond : l.retrainFails ≥ 3 ∨ linkLate s ep = true := hdue.imp_right fun ⟨hup, hlast, hhear⟩ => by
    have hmust : mustHear s ep = true := by
      rw [mustHear, h, Bool.or_eq_true]
      obtain hk | ⟨e, he, hne, hst3⟩ := hhear
      · exact .inl (List.any_eq_true.2 hk)
      · rw [twin_eq_some.2 ⟨he, hne⟩]
        exact .inr (beq_iff_eq.2 hst3)
    simp only [linkLate, h, hmust, hup, Bool.and_eq_true, decide_eq_true_eq]
    exact ⟨⟨rfl, trivial⟩, hlast⟩
  rw [exec_linkFailed, execLinkFailed, h]
  exact if_neg (by simp only [hst, hcond]; simp; omega)

/-! Training (R32, R37, R42) -/

/-- An endpoint that enters the up state. -/
theorem upEnd_becomes (hl : s.links.Rises) (hr : s.regs.Rises) (e : Nat) :
    EndBecomes s (upEnd s e) e (enteredUp s.tsc.toNat) 0 := .of_setLink hl hr e rfl

theorem linkUp_becomes (hl : s.links.Rises) (hr : s.regs.Rises) (hep : ep < 16) :
    EndsBecome s (linkUp s ep) ep (enteredUp s.tsc.toNat) :=
  endsBecome_foldl hl hr hep (fun _ e hul hur htsc _ => htsc ▸ upEnd_becomes hul hur e) fun _ _ => rfl

/-- No end of the link is marked failed. -/
theorem any_failed_false (h : ∀ e, IsEnd ep e → (s.link e).st ≠ 3) : (ends ep).any (fun e => (s.link e).st == 3) = false := by
  rw [List.any_eq_false]
  exact fun e he => by simpa using h e (mem_ends.1 he)

theorem getLsbD_zero_iff (s : State) (e : Nat) : (s.reg 11 0 e).getLsbD 0 = true ↔ s.rn 11 0 e % 2 = 1 := by
  rw [BitVec.getLsbD, Nat.testBit_zero, decide_eq_true_eq, State.rn]

theorem exec_jalcyLinkUp_up (hep : ep < 16) (hst : (s.link ep).st < 2) (hwhole : ∀ e, IsEnd ep e → (s.link e).st ≠ 3)
    (hen : ∀ e, IsEnd ep e → (s.reg 11 0 e).getLsbD 0 = true) : exec (.jalcyLinkUp ep) s = .next (linkUp s ep) := by
  have hany : (ends ep).any (fun e => (s.link e).st == 3 || s.rn 11 0 e % 2 == 0) = false := by
    rw [List.any_eq_false]
    intro e he
    have hon := (getLsbD_zero_iff s e).1 (hen e (mem_ends.1 he))
    simp [hwhole e (mem_ends.1 he), hon]
  rw [exec_jalcyLinkUp, execJalcyLinkUp, if_neg]
  rw [hany]
  simp; omega

theorem exec_linkRetrain_training (hep : ep < 16) (hst : (s.link ep).st = 1) (hwhole : ∀ e, IsEnd ep e → (s.link e).st ≠ 3)
    (ok : Bool) : exec (.linkRetrain ep ok) s = .next (if ok then linkUp s ep else (ends ep).foldl trainFail s) := by
  rw [exec_linkRetrain, execLinkRetrain, hst, any_failed_false hwhole, if_neg (by simp; omega)]
  rfl

/-- A retraining that fails, and is not the third in a row, begins another. -/
theorem trainFail_becomes (hl : s.links.Rises) (hr : s.regs.Rises) (he : e < 16) (hst : (s.link e).st ≠ 3)
    (hf : (s.link e).retrainFails < 2) :
    EndBecomes s (trainFail s e) e (fun m => { m with retrainFails := m.retrainFails + 1 }) 1 := by
  have hb := (EndBecomes.of_setLink (g := fun m => { m with retrainFails := m.retrainFails + 1 }) hl hr e rfl).bump he
  rw [zero_add] at hb
  rwa [trainFail, if_neg hst, if_neg (by omega)]

theorem trainFail_third (hst : (s.link e).st ≠ 3) (hf : 2 ≤ (s.link e).retrainFails) :
    trainFail s e = failLink (s.setLink e { s.link e with retrainFails := (s.link e).retrainFails + 1 }) e := by
  rw [trainFail, if_neg hst, if_pos (by omega)]

/-- What a failed retraining does at one end leaves the other end's record alone. -/
theorem trainFail_other (hl : s.links.Rises) {e e' : Nat} (he : e' ≠ e) : (trainFail s e).link e' = s.link e' := by
  have hset := LinkBecomes.start hl e { s.link e with retrainFails := (s.link e).retrainFails + 1 }
  unfold trainFail
  dsimp only
  split_ifs
  · exact hset.other e' he
  · exact ((failLink_link hset.rises e).2.2 e' he).trans (hset.other e' he)
  · exact hset.other e' he

/-- The third failed retraining in a row fails the endpoint. -/
theorem trainFail_fails (hl : s.links.Rises) (hst : (s.link ep).st ≠ 3) (hf : 2 ≤ (s.link ep).retrainFails) :
    (((ends ep).foldl trainFail s).link ep).st = 3 := by
  have hset := LinkBecomes.start hl ep { s.link ep with retrainFails := (s.link ep).retrainFails + 1 }
  obtain ⟨hrises, hsame, -⟩ := failLink_link hset.rises ep
  have hone : ((trainFail s ep).link ep).st = 3 := by rw [trainFail_third hst hf, hsame, failed_st]
  cases ht : twin ep with
  | none => rwa [ends, ht]
  | some e =>
    have hne := (twin_ne ht).symm
    have hfold : (ends ep).foldl trainFail s = trainFail (trainFail s ep) e := by rw [ends, ht]; rfl
    rw [hfold, trainFail_other _ hne, hone]
    rw [trainFail_third hst hf]
    exact hrises

/-! Key slots (R33, R35, R36) -/

theorem exec_keyLimitWarning_at (hep : ep < 16) (h : s.link ep = l) (hn : 2 ^ 39 ≤ (keyAt l.tx l.txsel).ctr) (hw : l.warned = false) :
    exec (.keyLimitWarning ep) s =
      .next (linkEvent (s.setLink ep { l with warned := true }) ep 2 l.txsel (keyAt l.tx l.txsel).ctr) := by
  have hc : ¬ (ep ≥ 16 ∨ (keyAt l.tx l.txsel).ctr < 2 ^ 39 ∨ l.warned = true) := by rw [hw]; simp; omega
  rw [exec_keyLimitWarning, execKeyLimitWarning, h]
  exact if_neg hc

theorem exec_keyLimit_at (hep : ep < 16) (h : s.link ep = l) (hn : 2 ^ 40 ≤ (keyAt l.tx l.txsel).ctr) (hw : l.limit = false) :
    exec (.keyLimit ep) s =
      .next (linkEvent (s.setLink ep { l with limit := true }) ep 3 l.txsel (keyAt l.tx l.txsel).ctr) := by
  have hc : ¬ (ep ≥ 16 ∨ (keyAt l.tx l.txsel).ctr < 2 ^ 40 ∨ l.limit = true) := by rw [hw]; simp; omega
  rw [exec_keyLimit, execKeyLimit, h]
  exact if_neg hc

/-- The slot that JLK_KLD loads from JLK_KDATA. -/
def Link.loaded (l : Link) : Key :=
  let d := fun (k : Nat) => (l.kdata.getD k 0).toNat
  { key := packElems 64 [d 0, d 1, d 2, d 3], salt := d 4 % 2 ^ 32, valid := true }

theorem loaded_key (l : Link) {j : Nat} (hj : j < 4) : l.loaded.key / 2 ^ (64 * j) % 2 ^ 64 = (l.kdata.getD j 0).toNat := by
  have hlt : ∀ k, (l.kdata.getD k 0).toNat % 2 ^ 64 = (l.kdata.getD k 0).toNat := fun k => Nat.mod_eq_of_lt (BitVec.isLt _)
  rw [pow_mul]
  refine (packElems_elem 64 _ j).trans ?_
  interval_cases j
  exacts [hlt 0, hlt 1, hlt 2, hlt 3]

theorem slotBusy_tx (l : Link) (i : Nat) :
    slotBusy l false i = true ↔ l.txsel = i ∨ ∃ h ∈ l.replay, h.flit.hdr / 2 ^ 63 % 2 = i := by
  simp [slotBusy]

theorem exec_jlkKldWrite_busy {v : Nat} {rx : Bool} (hep : ep < 16) (h : s.link ep = l) (hrx : v.testBit 1 = rx)
    (hbusy : slotBusy l rx (v % 2) = true) :
    exec (.jlkKldWrite ep v) s = .next ((s.setN 11 2 ep (v % 4)).setLink ep { l with keyerr := true }) := by
  have h' : (s.setN 11 2 ep (v % 4)).link ep = l := h
  rw [exec_jlkKldWrite, execJlkKldWrite, if_neg (by omega), loadKey]
  dsimp only
  rw [h', hrx, if_pos hbusy]

theorem exec_jlkKldWrite_loads {v : Nat} {rx : Bool} (hep : ep < 16) (h : s.link ep = l) (hrx : v.testBit 1 = rx)
    (hfree : ¬ slotBusy l rx (v % 2) = true) : exec (.jlkKldWrite ep v) s = .next ((s.setN 11 2 ep (v % 4)).setLink ep
      (if rx then { l with rx := l.rx.set (v % 2) l.loaded, lastGood := if l.rx.any (·.valid) then l.lastGood else s.tsc.toNat }
       else { l with tx := l.tx.set (v % 2) l.loaded })) := by
  have h' : (s.setN 11 2 ep (v % 4)).link ep = l := h
  rw [exec_jlkKldWrite, execJlkKldWrite, if_neg (by omega), loadKey]
  dsimp only
  rw [h', hrx, if_neg hfree]
  rfl

/-! The selected slot (R35) -/

/-- Another valid slot selected, with its counts at 0. -/
def Link.chosen (l : Link) (i : Nat) : Link :=
  { l with txsel := i, tx := l.tx.set i { keyAt l.tx i with ctr := 0, idle := 0 }, limit := false, warned := false }

theorem exec_txselWrite_eq (hep : ep < 16) (h : s.link ep = l) (v : Nat) : exec (.txselWrite ep v) s = .next (
    if (keyAt l.tx (v % 2)).valid = false ∨ l.rolling ≠ none then s.setLink ep { l with keyerr := true }
    else if v % 2 = l.txsel then s
    else s.setLink ep (rollStep { l.chosen (v % 2) with rolling := if (keyAt l.tx l.txsel).valid then some (l.txsel, none) else none }
      (l.st == 2 && s.rn 11 0 ep % 2 == 1))) := by
  have hc : ((!(keyAt l.tx (v % 2)).valid || l.rolling.isSome) = true) ↔ ((keyAt l.tx (v % 2)).valid = false ∨ l.rolling ≠ none) := by
    simp [Option.isSome_iff_ne_none]
  rw [exec_txselWrite, execTxselWrite, if_neg (by omega), setTxsel, h]
  simp only [hc]
  rfl

theorem rollStep_begun {l : Link} {old : Nat} (h : l.rolling = some (old, none)) (ok : Bool) : rollStep l ok =
    if ok && l.replay.length < 512 && l.replay.all (fun x => x.flit.hdr / 2 ^ 63 % 2 != old) then
      { sendNew l 2 0 (2 + old * 256) with rolling := some (old, some l.nextSeq) }
    else l := by
  simp only [rollStep, h]

theorem all_other_key {held : List HeldFlit} {old : Nat} : held.all (fun x => x.flit.hdr / 2 ^ 63 % 2 != old) = true ↔
    ¬ ∃ x ∈ held, x.flit.hdr / 2 ^ 63 % 2 = old := by
  simp only [List.all_eq_true, bne_iff_ne, not_exists, not_and, ne_eq]

theorem rollStep_waits {l : Link} {old : Nat} (h : l.rolling = some (old, none))
    (hheld : ∃ x ∈ l.replay, x.flit.hdr / 2 ^ 63 % 2 = old) (ok : Bool) : rollStep l ok = l := by
  rw [rollStep_begun h, if_neg]
  rw [Bool.and_eq_true, all_other_key]
  exact fun hc => hc.2 hheld

theorem rollStep_retires {l : Link} {old : Nat} (h : l.rolling = some (old, none)) (hroom : l.replay.length < 512)
    (hheld : ¬ ∃ x ∈ l.replay, x.flit.hdr / 2 ^ 63 % 2 = old) :
    rollStep l true = { sendNew l 2 0 (2 + old * 256) with rolling := some (old, some l.nextSeq) } := by
  rw [rollStep_begun h, if_pos]
  rw [Bool.and_eq_true, all_other_key, Bool.true_and, decide_eq_true_eq]
  exact ⟨hroom, hheld⟩

theorem lt_length_of_valid {ks : List Key} {i : Nat} (h : (keyAt ks i).valid = true) : i < ks.length := by
  by_contra hi
  rw [keyAt, List.getD_eq_default _ _ (by omega)] at h
  exact absurd h (by decide)

/-- With nothing held under the old key, old-key-retired is sent under the new one. -/
theorem rollStep_chosen {i : Nat} (hi : (keyAt l.tx i).valid = true) (hroom : l.replay.length < 512)
    (hheld : ¬ ∃ x ∈ l.replay, x.flit.hdr / 2 ^ 63 % 2 = l.txsel) :
    let k : Key := { keyAt l.tx i with ctr := 0, idle := 0 }
    ∃ m f, rollStep { l.chosen i with rolling := some (l.txsel, none) } true = m ∧ m.txsel = i ∧
      m.rolling = some (l.txsel, some l.nextSeq) ∧ m.nextSeq = (l.nextSeq + 1) % 4096 ∧ m.replay = l.replay ++ [⟨l.nextSeq, f⟩] ∧
      m.sent = l.sent ++ [f] ∧ f = makeFlit k 0 f.hdr (2 + l.txsel * 256) ∧ m.tx = l.tx.set i { k with ctr := 1 } := by
  intro k
  have hkey : keyAt (l.tx.set i k) i = k := keyAt_set_same (lt_length_of_valid hi) k
  obtain ⟨crd, crdvc, acked, freed, -, -, hnew⟩ := sendNew_eq { l.chosen i with rolling := some (l.txsel, none) } 2 0 (2 + l.txsel * 256)
  have hstep : rollStep { l.chosen i with rolling := some (l.txsel, none) } true = _ := rollStep_retires rfl hroom hheld
  rw [hnew] at hstep
  refine ⟨_, _, hstep, rfl, rfl, rfl, rfl, rfl, ?_, ?_⟩
  · show makeFlit (keyAt (l.tx.set i k) i) (keyAt (l.tx.set i k) i).ctr _ _ = _
    rw [hkey]; rfl
  · show (l.tx.set i k).set i { keyAt (l.tx.set i k) i with ctr := (keyAt (l.tx.set i k) i).ctr + 1 } = _
    rw [hkey, List.set_set]

/-- TXSEL of a valid slot while no rollover is under way. -/
theorem txselWrite_valid {v : Nat} (hep : ep < 16) (h : s.link ep = l) (hvalid : (keyAt l.tx (v % 2)).valid = true)
    (hroll : l.rolling = none) :
    (v % 2 = l.txsel → exec (.txselWrite ep v) s = .next s) ∧
    (v % 2 ≠ l.txsel →
      ((keyAt l.tx l.txsel).valid = false → exec (.txselWrite ep v) s = .next (s.setLink ep (l.chosen (v % 2)))) ∧
      ((keyAt l.tx l.txsel).valid = true → (∃ x ∈ l.replay, x.flit.hdr / 2 ^ 63 % 2 = l.txsel) →
        exec (.txselWrite ep v) s = .next (s.setLink ep { l.chosen (v % 2) with rolling := some (l.txsel, none) })) ∧
      ((keyAt l.tx l.txsel).valid = true → (¬ ∃ x ∈ l.replay, x.flit.hdr / 2 ^ 63 % 2 = l.txsel) → l.st = 2 →
        (s.reg 11 0 ep).getLsbD 0 = true → l.replay.length < 512 →
        ∃ m f k, exec (.txselWrite ep v) s = .next (s.setLink ep m) ∧ k = { keyAt l.tx (v % 2) with ctr := 0, idle := 0 } ∧
          m.txsel = v % 2 ∧ m.rolling = some (l.txsel, some l.nextSeq) ∧ m.nextSeq = (l.nextSeq + 1) % 4096 ∧
          m.replay = l.replay ++ [⟨l.nextSeq, f⟩] ∧ m.sent = l.sent ++ [f] ∧ f = makeFlit k 0 f.hdr (2 + l.txsel * 256) ∧
          m.tx = l.tx.set (v % 2) { k with ctr := 1 })) := by
  have hno : ¬ ((keyAt l.tx (v % 2)).valid = false ∨ l.rolling ≠ none) := by simp [hvalid, hroll]
  have hexec := exec_txselWrite_eq hep h v
  rw [if_neg hno] at hexec
  refine ⟨fun heq => by rw [hexec, if_pos heq], fun hne => ?_⟩
  rw [if_neg hne] at hexec
  refine ⟨fun hold => ?_, fun hold hheld => ?_, fun hold hheld hst hen hroom => ?_⟩
  · have hnone : { l.chosen (v % 2) with rolling := none } = l.chosen (v % 2) := by rw [← hroll]; rfl
    rw [hexec, hold, if_neg Bool.false_ne_true, hnone,
      rollStep_idle (show (l.chosen (v % 2)).rolling = none from hroll)]
  · have hwait := rollStep_waits (l := { l.chosen (v % 2) with rolling := some (l.txsel, none) }) rfl hheld
    rw [hexec, if_pos hold, hwait]
  · have hok : (l.st == 2 && s.rn 11 0 ep % 2 == 1) = true := by simp [hst, (getLsbD_zero_iff s ep).1 hen]
    obtain ⟨m, f, hm, hm'⟩ := rollStep_chosen hvalid hroom hheld
    exact ⟨m, f, _, by rw [hexec, if_pos hold, hok, hm], rfl, hm'⟩

/-! RETRAIN and EN (R37) -/

theorem exec_retrainWrite_ignored {v : Nat} (hep : ep < 16)
    (h : v % 2 = 0 ∨ ep % 4 < 2 ∨ (s.reg 11 0 ep).getLsbD 0 = false) : exec (.retrainWrite ep v) s = .next s := by
  have hn : ¬ (v % 2 = 1 ∧ ep % 4 ≥ 2 ∧ s.rn 11 0 ep % 2 = 1) := by
    rw [← getLsbD_zero_iff]
    rintro ⟨h₁, h₂, h₃⟩
    obtain h | h | h := h
    · omega
    · omega
    · exact absurd (h.symm.trans h₃) (by decide)
  rw [exec_retrainWrite, execRetrainWrite, if_neg (by omega), setRetrain, if_neg hn]

theorem retrainWrite_trains {v : Nat} (hl : s.links.Rises) (hr : s.regs.Rises) (hep : ep < 16) (h : s.link ep = l) (hv : v % 2 = 1)
    (hx : 2 ≤ ep % 4) (hen : (s.reg 11 0 ep).getLsbD 0 = true) : ∃ t, exec (.retrainWrite ep v) s = .next t ∧
      t.link ep = { l with st := 1, retryFails := 0, retrainFails := 0 } ∧ t.reg 11 4 ep = s.reg 11 4 ep + 1 := by
  have hends : ends ep = [ep] := by
    have ht : twin ep = none := by unfold twin; rw [if_neg (by omega), if_neg (by omega)]
    rw [ends, ht]; rfl
  have htrain : beginRetrain s ep = trainEnd s ep := by rw [beginRetrain, hends]; rfl
  have hb := trainEnd_becomes hl hr hep
  have hc : (s.link ep).st = 3 → 2 ≤ ep % 4 := fun _ => hx
  refine ⟨(trainEnd s ep).setLink ep { (trainEnd s ep).link ep with retrainFails := 0 }, ?_, ?_, ?_⟩
  · rw [exec_retrainWrite, execRetrainWrite, if_neg (by omega), setRetrain, if_pos ⟨hv, hx, (getLsbD_zero_iff s ep).1 hen⟩, htrain]
  · rw [State.link_setLink_same hb.links, hb.same, if_pos hc, h]
  · exact hb.count.trans (by rw [if_pos hc])

/-- EN = 0 forces an endpoint down that has not failed. -/
theorem downEnd_becomes (hl : s.links.Rises) (hr : s.regs.Rises) (e : Nat) :
    EndBecomes s (downEnd s e) e (fun m => if m.st = 3 then m else { m with st := 0, sent := [] }) 0 := by
  unfold downEnd
  dsimp only
  split
  next h => exact .refl hl hr (if_pos h).symm rfl
  next h => exact .of_setLink hl hr e (if_neg h).symm

theorem downEnd_regs (s : State) (e : Nat) : (downEnd s e).regs = s.regs := by
  unfold downEnd; dsimp only; split_ifs <;> rfl

/-! Reports (R38) -/

theorem exec_linkReport_at {k : Pkt} (hopc : k.opc = 9) (hd : k.payload / 2 ^ 12 % 4 = ep / 4)
    (hu : k.payload / 2 ^ 14 % 2 = ep % 4) : exec (.linkReport (ep / 4) k) s = .next (
      let u := if (s.link ep).st = 3 then s else failLink s ep
      if (u.link ep).reported then u else reportIn u ep (some (k.payload % 4096))) := by
  have hbits : bits k.payload 13 12 = ep / 4 := hd
  have hunit : ep / 4 * 4 + bits k.payload 14 14 = ep := by
    have : bits k.payload 14 14 = ep % 4 := hu
    omega
  rw [exec_linkReport, execLinkReport, if_neg (by rw [hbits]; omega), hunit]

theorem linkReport_reported {k : Pkt} (hl : s.links.Rises) (h : s.link ep = l) (hopc : k.opc = 9)
    (hd : k.payload / 2 ^ 12 % 4 = ep / 4) (hu : k.payload / 2 ^ 14 % 2 = ep % 4) (hst : l.st ≠ 3) :
    ∃ t, exec (.linkReport (ep / 4) k) s = .next t ∧ (t.link ep).st = 3 ∧ (t.link ep).reported = true ∧
      (t.link ep).reinject = (l.pkts.filter fun p => !seqLe p.1 (k.payload % 4096)).map (·.2) ++ (l.tail.map (·.2.2)).toList := by
  have hD : ep % 4 < 2 := by omega
  obtain ⟨hrises, hsame, -⟩ := failLink_link hl ep
  rw [failed_jalcyD hD, h] at hsame
  refine ⟨_, exec_linkReport_at hopc hd hu, ?_⟩
  dsimp only
  rw [h, if_neg hst, hsame, if_neg (show ¬ (l.marked s.tsc.toNat).reported = true from Bool.false_ne_true), reportIn_eq, hsame,
    State.link_setLink_same hrises]
  exact ⟨rfl, rfl, reinject_reportedTo_some (l.marked s.tsc.toNat) _⟩

/-- A retraining that fails at each end, at none for the third time in a row. -/
theorem trainFails_become (hl : s.links.Rises) (hr : s.regs.Rises) (hep : ep < 16) (hwhole : ∀ e, IsEnd ep e → (s.link e).st ≠ 3)
    (hf : ∀ e, IsEnd ep e → (s.link e).retrainFails < 2) :
    EndsBecome { s with regs := ((ends ep).foldl trainFail s).regs } ((ends ep).foldl trainFail s) ep
      (fun m => { m with retrainFails := m.retrainFails + 1 }) ∧
    ∀ e, IsEnd ep e → ((ends ep).foldl trainFail s).reg 11 4 e = s.reg 11 4 e + 1 := by
  obtain ⟨hframe, hends⟩ := foldl_ends (f := trainFail) (g := fun _ m => { m with retrainFails := m.retrainFails + 1 }) (n := fun _ => 1)
    hl hr hep fun u e he hul hur _ hue =>
      trainFail_becomes hul hur (he.lt hep) (hue.symm ▸ hwhole e he) (hue.symm ▸ hf e he)
  exact ⟨⟨hframe, fun e he => ((hends e).1 he).1, fun e he => ((hends e).2 he).1⟩, fun e he => ((hends e).1 he).2⟩

/-- The record of an endpoint that has failed, by the kind of its link. -/
theorem failed_fields (l : Link) (ep now : Nat) : (l.failed ep now).st = 3 ∧ (l.failed ep now).body = [] ∧
    (l.failed ep now).failedAt = now ∧
    (ep % 4 < 2 → (l.failed ep now).reported = false ∧ (l.failed ep now).pkts = l.pkts ∧ (l.failed ep now).tail = l.tail) ∧
    (2 ≤ ep % 4 → (l.failed ep now).reported = true ∧ (l.failed ep now).pkts = [] ∧ (l.failed ep now).replay = [] ∧
      (l.failed ep now).tail = none ∧ (l.failed ep now).reinject = l.pkts.map (·.2) ++ (l.tail.map (·.2.2)).toList) := by
  by_cases h : ep % 4 < 2
  · rw [failed_jalcyD h]
    exact ⟨rfl, rfl, rfl, fun _ => ⟨rfl, rfl, rfl⟩, fun hx => by omega⟩
  · rw [failed_jalcyX (by omega)]
    exact ⟨rfl, rfl, rfl, fun hd => absurd hd h, fun _ => ⟨rfl, rfl, rfl, rfl, reinject_reportedTo_none (l.marked now)⟩⟩

theorem jlkKldWrite_tx {v : Nat} (hep : ep < 16) (h : s.link ep = l) (hv : v / 2 % 2 = 0) :
    if l.txsel = v % 2 ∨ (∃ h ∈ l.replay, h.flit.hdr / 2 ^ 63 % 2 = v % 2) then
      exec (.jlkKldWrite ep v) s = .next ((s.setN 11 2 ep (v % 4)).setLink ep { l with keyerr := true })
    else ∃ k : Key, exec (.jlkKldWrite ep v) s = .next ((s.setN 11 2 ep (v % 4)).setLink ep { l with tx := l.tx.set (v % 2) k }) ∧
      k.valid = true ∧ k.ctr = 0 ∧ k.idle = 0 ∧ k.salt = (l.kdata.getD 4 0).toNat % 2 ^ 32 ∧
      ∀ j < 4, k.key / 2 ^ (64 * j) % 2 ^ 64 = (l.kdata.getD j 0).toNat := by
  have hdir : v.testBit 1 = false := by rw [Nat.testBit_succ, Nat.testBit_zero, hv]; rfl
  split
  next hbusy => exact exec_jlkKldWrite_busy hep h hdir ((slotBusy_tx l _).2 hbusy)
  next hfree => exact ⟨l.loaded, exec_jlkKldWrite_loads hep h hdir fun hb => hfree ((slotBusy_tx l _).1 hb), rfl, rfl, rfl, rfl,
      fun _ => loaded_key l⟩

theorem jlkKldWrite_rx {v : Nat} (hep : ep < 16) (h : s.link ep = l) (hv : v / 2 % 2 = 1) :
    if (keyAt l.rx (v % 2)).valid = true then
      exec (.jlkKldWrite ep v) s = .next ((s.setN 11 2 ep (v % 4)).setLink ep { l with keyerr := true })
    else ∃ k : Key, exec (.jlkKldWrite ep v) s = .next ((s.setN 11 2 ep (v % 4)).setLink ep { l with
        rx := l.rx.set (v % 2) k, lastGood := if ∃ m ∈ l.rx, m.valid = true then l.lastGood else s.tsc.toNat }) ∧
      k.valid = true ∧ k.ctr = 0 ∧ k.idle = 0 ∧ k.salt = (l.kdata.getD 4 0).toNat % 2 ^ 32 ∧
      ∀ j < 4, k.key / 2 ^ (64 * j) % 2 ^ 64 = (l.kdata.getD j 0).toNat := by
  have hdir : v.testBit 1 = true := by rw [Nat.testBit_succ, Nat.testBit_zero, hv]; rfl
  have hbusy : slotBusy l true (v % 2) = (keyAt l.rx (v % 2)).valid := rfl
  split
  next hb => exact exec_jlkKldWrite_busy hep h hdir (hbusy.trans hb)
  next hb =>
    have hload := exec_jlkKldWrite_loads hep h hdir (hbusy ▸ hb)
    rw [if_pos rfl] at hload
    simp only [List.any_eq_true] at hload
    exact ⟨l.loaded, hload, rfl, rfl, rfl, rfl, fun _ => loaded_key l⟩

theorem linkEnableWrite_ends {v : Nat} (hl : s.links.Rises) (hr : s.regs.Rises) (hep : ep < 16) :
    ∃ t, exec (.linkEnableWrite ep v) s = .next t ∧ (v % 2 = 1 → t = s.setN 11 0 ep (v % 2)) ∧
      (v % 2 = 0 → EndsBecome (s.setN 11 0 ep (v % 2)) t ep fun m => if m.st = 3 then m else { m with st := 0, sent := [] }) := by
  refine ⟨setEnable s ep v, ?_, fun hv => if_neg (by omega), fun hv => ?_⟩
  · rw [exec_linkEnableWrite, execLinkEnableWrite, if_neg (by omega)]
  · have hset : setEnable s ep v = (ends ep).foldl downEnd (s.setN 11 0 ep (v % 2)) := if_pos hv
    rw [hset]
    exact endsBecome_foldl hl (State.setReg_rises hr ..) hep (fun _ e hul hur _ _ => downEnd_becomes hul hur e) downEnd_regs

theorem linkReport_again {k : Pkt} (h : s.link ep = l) (hopc : k.opc = 9) (hd : k.payload / 2 ^ 12 % 4 = ep / 4)
    (hu : k.payload / 2 ^ 14 % 2 = ep % 4) (hst : l.st = 3) (hrep : l.reported = true) :
    exec (.linkReport (ep / 4) k) s = .next s := by
  rw [exec_linkReport_at hopc hd hu, h, if_pos hst]
  dsimp only
  rw [h, if_pos hrep]

theorem linkReport_first {k : Pkt} (h : s.link ep = l) (hopc : k.opc = 9) (hd : k.payload / 2 ^ 12 % 4 = ep / 4)
    (hu : k.payload / 2 ^ 14 % 2 = ep % 4) (hst : l.st = 3) (hrep : l.reported = false) :
    exec (.linkReport (ep / 4) k) s = .next (s.setLink ep { l with
      pkts := [], replay := [], tail := none, reported := true,
      reinject := (l.pkts.filter fun p => !seqLe p.1 (k.payload % 4096)).map (·.2) ++ (l.tail.map (·.2.2)).toList }) := by
  rw [exec_linkReport_at hopc hd hu, h, if_pos hst, ← reinject_reportedTo_some]
  dsimp only
  rw [h, hrep, if_neg Bool.false_ne_true, reportIn_eq, h]
  rfl

/-- Settles O42, clause by clause: training and failure at the ends of the link, the slots, the registers, the reports. -/
theorem linkKeysTrainingAndFailure : Obligations.LinkKeysTrainingAndFailure := by
  intro s ep v l hs hl hep hlink whole owed
  have h : s.link ep = l := hlink.symm
  have hr : s.regs.Rises := hs.regs
  refine ⟨fun hst hwhole hen => ⟨_, exec_jalcyLinkUp_up hep (h ▸ hst) hwhole hen, linkUp_becomes hl hr hep⟩,
    fun hst hwhole => ⟨_, exec_linkRetrain_training hep (h ▸ hst) hwhole true, linkUp_becomes hl hr hep⟩,
    fun hst hwhole hf => ⟨_, exec_linkRetrain_training hep (h ▸ hst) hwhole false, trainFails_become hl hr hep hwhole hf⟩,
    fun hst hwhole hf => ⟨_, exec_linkRetrain_training hep (h ▸ hst) hwhole false, trainFail_fails hl (hwhole ep (.refl ep)) (h ▸ hf)⟩,
    fun hst hdue => ⟨_, exec_linkFailed_due hep h hst hdue, ?_⟩,
    ?_,
    ⟨s.setN 11 2 ep (v % 4), State.setReg_regOnly hs .., jlkKldWrite_tx hep h, jlkKldWrite_rx hep h⟩,
    fun hno => (exec_txselWrite_eq hep h v).trans (congrArg _ (if_pos hno)), fun hvalid hroll => ?_,
    exec_retrainWrite_ignored hep, fun hv hx hen => retrainWrite_trains hl hr hep h hv hx hen,
    ?_,
    fun k hopc hd hu => ⟨linkReport_again h hopc hd hu, linkReport_first h hopc hd hu, linkReport_reported hl h hopc hd hu⟩⟩
  · rw [(failLink_link hl ep).2.1, h]
    exact failed_fields l ep _
  · rintro n rfl
    exact ⟨exec_keyLimitWarning_at hep h, exec_keyLimit_at hep h⟩
  · obtain ⟨hsame, hother⟩ := txselWrite_valid hep h hvalid hroll
    exact ⟨hsame, fun hne => (hother hne).1, fun hne => (hother hne).2.1, fun hne => (hother hne).2.2⟩
  · obtain ⟨t, ht⟩ := linkEnableWrite_ends (v := v) hl hr hep
    exact ⟨_, t, State.setReg_regOnly hs .., ht⟩

end Sys2Proof.Machine
end

section
/-! A walk over a link whose selected key slot is not valid (R34, R51, R133). -/

namespace Sys2Proof.Machine

/-- An endpoint that is up with a valid transmit slot that is not the selected one: its link is available for routing (R51), and takes
no data flit (R34). -/
def unselectedKey : Link := { st := 2, tx := [{}, { valid := true }] }

/-- The link between dies 0 and 1 has such ends, and the tables of partition 0 lie on die 1, their root all zero. -/
def farTables : State := ((State.reset.setLink 0 unselectedKey).setLink 5 unselectedKey).setN 4 0x1004 0 (2 ^ 37 + 1)

theorem farTables_canon : farTables.Canon := 
  (State.Canon.of_eq (t := (State.reset.setLink 0 unselectedKey).setLink 5 unselectedKey) State.reset_canon rfl rfl).setN ..

theorem farTables_root : rootOf farTables 0 = 2 ^ 37 := by decide

theorem rdNat_of_empty {s : State} (h : s.mem = []) (a : Nat) : rdNat s a 8 = 0 :=
  (rdNat_congr (t := State.reset) (b := 0) fun k _ => by rw [rdByte, h]; rfl).trans (by decide)

theorem farTables_empty (a : Nat) : deviceWord farTables a = 0 := rdNat_of_empty rfl _

/-- The walk of VA 0 reads the root table and no other. -/
theorem farTables_reaches {n t : Nat} (h : Reaches farTables 0 0 n t) : t = 2 ^ 37 := by
  cases n with
  | zero => exact h.trans farTables_root
  | succ n =>
    obtain ⟨u, -, hv, -⟩ := h
    rw [farTables_empty] at hv
    exact absurd hv (by decide)

theorem farTables_dies : walkDies farTables 0 (dirLevels 0) (2 ^ 37) = [1] := by
  have hempty : ∀ a, rdNat farTables (region 6 a) 8 = 0 := fun a => rdNat_of_empty rfl _
  simp [dirLevels, walkDies, hempty]

/-- The walk waits for the link, which takes no data flit. -/
theorem farTables_waits : (walkTlb farTables 0 0 0).1.stalled = true := by
  have hroot : bits (farTables.rn 4 0x1004 0) 38 13 * 8192 = 2 ^ 37 := by decide
  have hen : ¬ (!(farTables.rn 4 0x1004 0).testBit 0) = true := by decide
  have hcross : ((farTables.bump 3 0xC09 0).cross 0 1).stalled = true := by decide
  have hmem : ((farTables.bump 3 0xC09 0).cross 0 1).mem = [] := ((Keeps.refl _).cross 0 1).frame ▸ rfl
  rw [walkTlb]
  dsimp only
  rw [if_neg hen, hroot, farTables_dies, List.foldl_cons, List.foldl_nil]
  generalize (farTables.bump 3 0xC09 0).cross 0 1 = u at hcross hmem
  have hempty : ∀ a, rdNat u (region 6 a) 8 = 0 := fun a => rdNat_of_empty hmem _
  have hwalk : walkFrom u 0 (dirLevels 0) (2 ^ 37) = .error (2, 4) := by simp [dirLevels, walkFrom, hempty]
  rw [hwalk]
  split_ifs
  · exact hcross
  · exact hcross

theorem farTables_open : farTables.reach 0 1 = true ∧ ringDir farTables 0 1 ≠ 3 := by decide

theorem farTables_dirs {n t : Nat} (h : Reaches farTables 0 0 n t) : t / 2 ^ 37 = 1 := by
  rw [farTables_reaches h]; rfl

/-- Refutes O45: a way that the ring table calls open may still carry nothing, where the selected slot of an endpoint is not the valid
one; the walk then waits for the link (R34), and the fault that the statement gives does not come in this move. -/
theorem not_walksFillTheTlb : ¬ Obligations.WalksFillTheTlb := by
  intro h
  obtain ⟨hreach, hopen⟩ := farTables_open
  obtain ⟨-, hwalks⟩ := h.2 farTables 0 0 0 farTables_canon (by decide) (by decide) (by decide) (by decide) (by decide)
  obtain ⟨-, hall⟩ := hwalks (by decide) fun n t _ hr _ => farTables_dirs hr ▸ hopen
  obtain ⟨hdir, -⟩ := hall fun n t _ hr => (congrArg (farTables.reach 0) (farTables_dirs hr)).trans hreach
  obtain ⟨hfails, -⟩ := hdir 0 (2 ^ 37) _ _ 4 (by decide) farTables_root.symm rfl rfl rfl
  obtain ⟨⟨t, hexec, hframe, -⟩, -⟩ := hfails (by rw [farTables_empty])
  have hstall : t.stalled = false := by rw [hframe]; rfl
  have hwaits : exec (.tlbWalk 0 0 0) farTables = .next (walkTlb farTables 0 0 0).1 := by
    rw [exec_tlbWalk, execTlbWalk, if_neg (by decide)]
  rw [hwaits] at hexec
  injection hexec with ht
  rw [← ht, farTables_waits] at hstall
  exact absurd hstall (by decide)

end Sys2Proof.Machine
end

section
/-! The walk of the translation tables, entry by entry (R128, R130, R133). -/

namespace Sys2Proof.Machine

variable {s t : State} {part va : Nat}

/-! Entries -/

theorem deviceWord_eq (s : State) (a : Nat) : rdNat s (region 6 a) 8 = deviceWord s a := rfl

theorem deviceWord_lt (s : State) (a : Nat) : deviceWord s a < 2 ^ 64 := (rdNat_lt s _ 8).trans_eq (by norm_num)

theorem testBit_zero_iff (e : Nat) : e.testBit 0 = true ↔ e % 2 = 1 := by simp

theorem unpop_eq_false {dpa : Nat} : unpop dpa = false ↔ dpa % 2 ^ 37 < 0x1800000000 := by
  rw [unpop, decide_eq_false_iff_not]; omega

theorem indexAt_four (va : Nat) : indexAt va 4 = if va < 2 ^ 57 then bits va 56 48 else 512 + bits va 61 60 := by
  have h : indexAt va 4 = if va < 2 ^ 57 then va / 2 ^ 48 else 512 + va / 2 ^ 60 % 4 := rfl
  rw [h]
  unfold bits
  split_ifs
  · omega
  · rfl

theorem dirLevels_eq (va : Nat) : dirLevels va =
    [(4, indexAt va 4, 0), (3, indexAt va 3, 0), (2, indexAt va 2, 2), (1, indexAt va 1, 1)] := by
  rw [indexAt_four]; rfl

/-- What the walker asks of a directory entry that leads on. -/
theorem leads_fields {table ix next : Nat} (h : Leads s table ix next) : let e := deviceWord s (table + 8 * ix)
    e.testBit 0 = true ∧ e.testBit 1 = false ∧ bits e 63 39 = 0 ∧ bits e 11 2 = 0 ∧ bits e 38 12 * 4096 = next ∧ unpop next = false := by
  obtain ⟨hv, hz, hlt, rfl, hpop⟩ := h
  generalize deviceWord s (table + 8 * ix) = e at hv hz hlt hpop
  have hnext : bits e 38 12 * 4096 = e / 4096 * 4096 := by unfold bits; omega
  refine ⟨by rw [testBit_zero_iff]; omega, ?_, ?_, hz, hnext, unpop_eq_false.2 hpop⟩
  · rw [Nat.testBit_succ, Nat.testBit_zero]; simp; omega
  · unfold bits; omega

theorem leads_unique {table ix n₁ n₂ : Nat} (h₁ : Leads s table ix n₁) (h₂ : Leads s table ix n₂) : n₁ = n₂ := by
  obtain ⟨-, -, -, e₁, -⟩ := h₁
  obtain ⟨-, -, -, e₂, -⟩ := h₂
  exact e₁.trans e₂.symm

theorem reaches_unique {n t₁ t₂ : Nat} (h₁ : Reaches s part va n t₁) (h₂ : Reaches s part va n t₂) : t₁ = t₂ := by
  induction n generalizing t₁ t₂ with
  | zero => exact h₁.trans h₂.symm
  | succ n ih =>
    obtain ⟨u₁, hr₁, hl₁⟩ := h₁
    obtain ⟨u₂, hr₂, hl₂⟩ := h₂
    rw [ih hr₁ hr₂] at hl₁
    exact leads_unique hl₁ hl₂

/-! Tables -/

theorem walkFrom_leads {lv ix sz table next : Nat} {rest : List (Nat × Nat × Nat)} (h : Leads s table ix next) :
    walkFrom s va ((lv, ix, sz) :: rest) table = walkFrom s va rest next := by
  obtain ⟨h0, h1, h2, h3, h4, h5⟩ := leads_fields h
  simp only [walkFrom, deviceWord_eq, h0, h1, h2, h3, h4, h5]
  rfl

theorem walkDies_leads {lv ix sz table next : Nat} {rest : List (Nat × Nat × Nat)} (h : Leads s table ix next) :
    walkDies s va ((lv, ix, sz) :: rest) table = table / 2 ^ 37 :: walkDies s va rest next := by
  obtain ⟨h0, h1, h2, h3, h4, h5⟩ := leads_fields h
  simp only [walkDies, deviceWord_eq, h0, h1, h2, h3, h4, h5]
  rfl

/-- The tables that a walk of four levels reads. -/
theorem reaches_four {t : Nat} (h : Reaches s part va 4 t) : ∃ u₁ u₂ u₃, Leads s (rootOf s part) (indexAt va 4) u₁ ∧
    Leads s u₁ (indexAt va 3) u₂ ∧ Leads s u₂ (indexAt va 2) u₃ ∧ Leads s u₃ (indexAt va 1) t := by
  obtain ⟨u₃, ⟨u₂, ⟨u₁, ⟨u₀, rfl, h₁⟩, h₂⟩, h₃⟩, h₄⟩ := h
  exact ⟨u₁, u₂, u₃, h₁, h₂, h₃, h₄⟩

theorem walkFrom_reaches {t : Nat} (h : Reaches s part va 4 t) :
    walkFrom s va (dirLevels va) (rootOf s part) = walkFrom s va [] t := by
  obtain ⟨u₁, u₂, u₃, h₁, h₂, h₃, h₄⟩ := reaches_four h
  rw [dirLevels_eq, walkFrom_leads h₁, walkFrom_leads h₂, walkFrom_leads h₃, walkFrom_leads h₄]

/-- The dies of a walk that reaches the last table are those of the tables that it reads. -/
theorem mem_walkDies {t d : Nat} (h : Reaches s part va 4 t) : d ∈ walkDies s va (dirLevels va) (rootOf s part) ↔
    ∃ n u, n ≤ 4 ∧ Reaches s part va n u ∧ d = u / 2 ^ 37 := by
  obtain ⟨u₁, u₂, u₃, h₁, h₂, h₃, h₄⟩ := reaches_four h
  have r₀ : Reaches s part va 0 (rootOf s part) := rfl
  have r₁ : Reaches s part va 1 u₁ := ⟨_, r₀, h₁⟩
  have r₂ : Reaches s part va 2 u₂ := ⟨_, r₁, h₂⟩
  have r₃ : Reaches s part va 3 u₃ := ⟨_, r₂, h₃⟩
  rw [dirLevels_eq, walkDies_leads h₁, walkDies_leads h₂, walkDies_leads h₃, walkDies_leads h₄, walkDies]
  simp only [List.mem_cons, List.not_mem_nil, or_false]
  constructor
  · rintro (rfl | rfl | rfl | rfl | rfl)
    · exact ⟨0, _, by omega, r₀, rfl⟩
    · exact ⟨1, _, by omega, r₁, rfl⟩
    · exact ⟨2, _, by omega, r₂, rfl⟩
    · exact ⟨3, _, by omega, r₃, rfl⟩
    · exact ⟨4, _, by omega, h, rfl⟩
  · rintro ⟨n, u, hn, hr, rfl⟩
    interval_cases n
    · rw [reaches_unique hr r₀]; simp
    · rw [reaches_unique hr r₁]; simp
    · rw [reaches_unique hr r₂]; simp
    · rw [reaches_unique hr r₃]; simp
    · rw [reaches_unique hr h]; simp

/-! The walk reads memory alone -/

theorem walkDies_of_mem (h : t.mem = s.mem) (va : Nat) (l : List (Nat × Nat × Nat)) (table : Nat) :
    walkDies t va l table = walkDies s va l table := by
  induction l generalizing table with
  | nil => rfl
  | cons x l ih =>
    obtain ⟨lv, ix, sz⟩ := x
    simp only [walkDies, rdNat_of_mem h, ih]

theorem subsBad_of_mem (h : t.mem = s.mem) (a e : Nat) : subsBad t a e = subsBad s a e := by
  simp only [subsBad, subsOf, rdNat_of_mem h]

theorem walkFrom_of_mem (h : t.mem = s.mem) (va : Nat) (l : List (Nat × Nat × Nat)) (table : Nat) :
    walkFrom t va l table = walkFrom s va l table := by
  induction l generalizing table with
  | nil =>
    unfold walkFrom
    dsimp only
    rw [rdNat_of_mem h, subsBad_of_mem h]
  | cons x l ih =>
    obtain ⟨lv, ix, sz⟩ := x
    simp only [walkFrom, rdNat_of_mem h, ih]

/-! The last table's leaf -/

/-- A well-formed leaf of device memory is one that the walker takes and that is valid and not of host memory. -/
theorem deviceLeaf_iff {e : Nat} (he : e < 2 ^ 64) : deviceLeaf e ↔
    e.testBit 0 = true ∧ e.testBit 1 = true ∧ e.testBit 7 = false ∧ leafBad e 0 = false := by
  have hbit : ∀ k, e.testBit k = decide (e / 2 ^ k % 2 = 1) := fun k => Nat.testBit_eq_decide_div_mod_eq
  have hframe : bits (bits e 63 24) 22 0 * 2 ^ 16 % 2 ^ 37 = e / 2 ^ 24 * 2 ^ 16 % 2 ^ 37 := by unfold bits; omega
  simp only [deviceLeaf, leafBad, unpop, hframe, hbit, Bool.or_eq_false_iff, Bool.and_eq_false_iff, bne_eq_false_iff_eq,
    decide_eq_false_iff_not, decide_eq_true_eq, Bool.not_eq_false']
  unfold bits
  constructor
  · rintro ⟨hv, hz, hs, hlt, hpop⟩
    have h7 : ¬ e / 2 ^ 7 % 2 = 1 := by omega
    have h6 : ¬ e / 2 ^ 6 % 2 = 1 := by omega
    have hhigh : e / 2 ^ 47 % 2 ^ (63 + 1 - 47) = 0 := by omega
    exact ⟨by omega, by omega, h7, ⟨⟨⟨⟨⟨by omega, by omega⟩, h6⟩, by omega⟩, .inr ⟨hhigh, by omega⟩⟩, .inr ⟨trivial, h7⟩⟩,
      .inl (.inl trivial)⟩
  · rintro ⟨h0, h1, h7, h⟩
    omega

/-- The leaf that a walk through all four levels comes to: not a device leaf, and then no move of it; or one with its frame. -/
theorem walkFrom_leaf_moved {table leaf : Nat} (hl : leaf = table + 128 * (va / 2 ^ 16 % 32)) (h : deviceLeaf (deviceWord s leaf)) :
    walkFrom s va [] table = .ok (deviceWord s leaf, region 6 leaf, 0) := by
  obtain ⟨h0, h1, h7, hb⟩ := (deviceLeaf_iff (deviceWord_lt s leaf)).1 h
  have ha : region 6 (table + 128 * bits va 20 16) = region 6 leaf := by rw [hl]; rfl
  have hsub : subsBad s (region 6 leaf) (deviceWord s leaf) = false := by rw [subsBad, h7]; rfl
  unfold walkFrom
  dsimp only
  rw [ha, deviceWord_eq, h0, h1, hb, hsub]
  rfl

/-- A leaf that the walker takes as valid and not of host memory is a device leaf. -/
theorem deviceLeaf_of_walkFrom {table leaf e a sz : Nat} (hl : leaf = table + 128 * (va / 2 ^ 16 % 32))
    (h : walkFrom s va [] table = .ok (e, a, sz)) (h0 : e.testBit 0 = true) (h7 : e.testBit 7 = false) :
    deviceLeaf (deviceWord s leaf) := by
  have ha : region 6 (table + 128 * bits va 20 16) = region 6 leaf := by rw [hl]; rfl
  unfold walkFrom at h
  dsimp only at h
  rw [ha, deviceWord_eq] at h
  split_ifs at h with hv hbad
  injection h with h
  injection h with he _
  rw [← he] at h0 h7
  simp only [Bool.or_eq_true, not_or, Bool.not_eq_true, Bool.not_eq_false'] at hbad
  exact (deviceLeaf_iff (deviceWord_lt s leaf)).2 ⟨h0, hbad.1.1, h7, hbad.1.2⟩

end Sys2Proof.Machine
end

section
/-! Entries of the invalidation logs: what they remove, the pages that they move, and their result (R142 to R144). -/

namespace Sys2Proof.Machine

variable {s t u : State} {die a dw0 dw1 : Nat}

/-! What an entry may change besides the TLB and the counters -/

/-- t differs from s at most in memory, the register file and whether the move is put off. -/
structure Touches (s t : State) : Prop where
  frame : t = { s with mem := t.mem, regs := t.regs, stalled := t.stalled }
  canon : s.Canon → t.Canon

namespace Touches

theorem refl (s : State) : Touches s s := ⟨rfl, id⟩

theorem trans (h : Touches s t) (h' : Touches t u) : Touches s u := ⟨h'.frame.trans (by rw [h.frame]), h'.canon ∘ h.canon⟩

theorem cross (s : State) (d f : Nat) : Touches s (s.cross d f) := by
  unfold State.cross
  split_ifs
  · exact ⟨rfl, fun h => .of_eq h rfl rfl⟩
  · exact refl s

theorem wipe (s : State) (a n : Nat) : Touches s (wipe s a n) := ⟨rfl, fun h => h.wipe a n⟩

theorem wrByte (s : State) (a : Nat) (v : Byte) : Touches s (wrByte s a v) := ⟨rfl, fun h => h.wrByte a v⟩

theorem wrNat (s : State) (a n v : Nat) : Touches s (wrNat s a n v) := ⟨by rw [wrNat_eq], fun h => h.wrNat a n v⟩

theorem regs (s : State) (r : SMap W64) (h : s.Canon → State.Canon { s with regs := r }) : Touches s { s with regs := r } := ⟨rfl, h⟩

theorem bump (s : State) (c n v : Nat) : Touches s (s.bump c n v) := .regs s _ fun h => h.bump c n v

theorem foldl {α : Type} {f : State → α → State} (hf : ∀ s x, Touches s (f s x)) (l : List α) (s : State) : Touches s (l.foldl f s) := by
  induction l generalizing s with
  | nil => exact refl s
  | cons x l ih => exact (hf s x).trans (ih _)

theorem tlb (h : Touches s t) : t.tlb = s.tlb := by rw [h.frame]
theorem access (h : Touches s t) : t.access = s.access := by rw [h.frame]
theorem ctxs (h : Touches s t) : t.ctxs = s.ctxs := by rw [h.frame]
theorem images (h : Touches s t) : t.images = s.images := by rw [h.frame]
theorem links (h : Touches s t) : t.links = s.links := by rw [h.frame]

end Touches

theorem cross_mem (s : State) (d f : Nat) : (s.cross d f).mem = s.mem := by unfold State.cross; split_ifs <;> rfl

theorem cross_regs (s : State) (d f : Nat) : (s.cross d f).regs = s.regs := by unfold State.cross; split_ifs <;> rfl

/-- The tables and frames that a walk or a move crosses to leave memory and the registers as they are. -/
theorem foldl_cross (s : State) (die : Nat) (dies : List Nat) : let t := dies.foldl (fun t d => t.cross die d) s
    Touches s t ∧ t.mem = s.mem ∧ t.regs = s.regs := by
  refine ⟨.foldl (fun t d => .cross t die d) dies s, ?_, ?_⟩
  · induction dies generalizing s with
    | nil => rfl
    | cons d dies ih => exact (ih _).trans (cross_mem s die d)
  · induction dies generalizing s with
    | nil => rfl
    | cons d dies ih => exact (ih _).trans (cross_regs s die d)

theorem reach_of_links (h : t.links = s.links) (d f : Nat) : t.reach d f = s.reach d f := by
  simp only [State.reach, State.linkFailed, State.link, h]

/-! RESULT and INV_DONE (R143) -/

/-- An entry's RESULT is written and INV_DONE advances. -/
structure Finishes (s t : State) (die a res : Nat) : Prop where
  touches : Touches s t
  result : rdByte t (a + 8) = BitVec.ofNat 8 res
  done : t.reg 3 0xC07 die = s.reg 3 0xC07 die + 1
  other : ∀ b, b ≠ a + 8 → rdByte t b = rdByte s b

theorem invDone_finishes (hs : s.Canon) (die a res : Nat) : Finishes s (invDone s die a res) die a res := by
  have hmem : ∀ b, rdByte (invDone s die a res) b = rdByte (wrByte s (a + 8) (BitVec.ofNat 8 res)) b := fun b => by
    rw [invDone, rdByte, State.bump_mem, rdByte]
  refine ⟨(Touches.wrByte s _ _).trans (.bump _ _ _ _), (hmem _).trans (rdByte_wrByte_same hs.mem _ _), ?_,
    fun b hb => (hmem b).trans (rdByte_wrByte_other hs.mem _ hb)⟩
  rw [invDone, State.bump, State.reg_setReg_same (hs.wrByte _ _).regs, State.reg, wrByte_regs, State.reg]

/-- The same after a change that keeps memory and the registers. -/
theorem invDone_after (hs : s.Canon) (hm : u.mem = s.mem) (hr : u.regs = s.regs) (die a res : Nat) :
    rdByte (invDone u die a res) (a + 8) = BitVec.ofNat 8 res ∧ (invDone u die a res).reg 3 0xC07 die = s.reg 3 0xC07 die + 1 ∧
    ∀ b, b ≠ a + 8 → rdByte (invDone u die a res) b = rdByte s b := by
  have hf := invDone_finishes (State.Canon.of_eq hs hm hr) die a res
  have hreg : u.reg 3 0xC07 die = s.reg 3 0xC07 die := by rw [State.reg, State.reg, hr]
  exact ⟨hf.result, hreg ▸ hf.done, fun b hb => (hf.other b hb).trans (by rw [rdByte, hm, rdByte])⟩

/-! The entry that is applied next -/

theorem invNext_of_log (h : NextInLog s die a) :
    invNext s die = some (region 6 a, deviceWord s a, deviceWord s (a + 8)) := by
  obtain ⟨hlo, hhi, herr, hne, rfl⟩ := h
  have hne' : s.rn 3 0xC07 die ≠ s.rn 3 0xC06 die := fun he => hne (BitVec.eq_of_toNat_eq he)
  have hbit : (s.rn 3 0xC05 die).testBit 5 = false := by
    rw [Nat.testBit_eq_decide_div_mod_eq, decide_eq_false_iff_not]
    show ¬ (s.reg 3 0xC05 die).toNat / 2 ^ 5 % 2 = 1
    omega
  have hcond : ((s.rn 3 0xC05 die).testBit 5 || decide (s.rn 3 0xC05 die % 32 < 4) || decide (s.rn 3 0xC05 die % 32 > 16)
      || s.rn 3 0xC07 die == s.rn 3 0xC06 die) = false := by
    simp only [hbit, Bool.or_eq_false_iff, decide_eq_false_iff_not, beq_eq_false_iff_ne, ne_eq]
    exact ⟨⟨⟨trivial, Nat.not_lt.2 hlo⟩, Nat.not_lt.2 hhi⟩, hne'⟩
  unfold invNext
  dsimp only
  rw [hcond]
  rfl

/-- The zero fields of an entry's DW0 are zero, and its KIND and SIZE are ones that exist (R142). -/
def SoundEntry (dw0 : Nat) : Prop := bits dw0 15 12 = 0 ∧ bits dw0 7 5 = 0 ∧ bits dw0 9 8 ≠ 3 ∧ bits dw0 11 10 ≠ 3

theorem entryBad_iff (dw0 dw1 : Nat) :
    (bits dw0 15 12 != 0 || bits dw0 7 5 != 0 || bits dw0 11 10 == 3 || bits dw0 9 8 == 3 || bits dw1 23 8 != 0) = true ↔
      ¬ (SoundEntry dw0 ∧ bits dw1 23 8 = 0) := by
  simp only [SoundEntry, Bool.or_eq_true, bne_iff_ne, beq_iff_eq, ne_eq]
  tauto

theorem invKind_of_sound (hn : invNext s die = some (a, dw0, dw1)) (h : SoundEntry dw0) : invKind s die = some (bits dw0 11 10) := by
  obtain ⟨h1, h2, h3, h4⟩ := h
  have hcond : (bits dw0 15 12 != 0 || bits dw0 7 5 != 0 || bits dw0 11 10 == 3 || bits dw0 9 8 == 3) = false := by
    simp [h1, h2, h3, h4]
  unfold invKind
  rw [hn]
  dsimp only
  rw [hcond]
  rfl

theorem invApply_malformed (hn : invNext s die = some (a, dw0, dw1)) (h : ¬ (SoundEntry dw0 ∧ bits dw1 23 8 = 0)) (ok : Bool) :
    invApply s die ok = invDone s die a 3 := by
  unfold invApply
  rw [hn]
  exact if_pos ((entryBad_iff dw0 dw1).2 h)

/-- A well-formed entry is applied by its KIND. -/
theorem invApply_sound (hn : invNext s die = some (a, dw0, dw1)) (h : SoundEntry dw0) (hz : bits dw1 23 8 = 0) (ok : Bool) :
    invApply s die ok =
      if bits dw0 11 10 = 0 then invDone (invEntry s die (dw0 % 32) (dw0 / 2 ^ 16 * 2 ^ 16) (bits dw0 9 8) false) die a 1
      else if bits dw0 11 10 = 1 then invDone (invEntry s die (dw0 % 32) 0 0 true) die a 1
      else invMove s die a dw0 dw1 ok := by
  unfold invApply
  rw [hn]
  exact if_neg fun hb => (entryBad_iff dw0 dw1).1 hb ⟨h, hz⟩

/-- The event of an entry's KIND. -/
def EntryEvent (die kind : Nat) (i : Instr) (ok : Bool) : Prop :=
  i = .invalidatePage die ∧ kind = 0 ∨ i = .invalidatePartition die ∧ kind = 1 ∨ i = .movePage die ok ∧ kind = 2

/-- The event of a well-formed entry applies it, whether the copy of a move completes or not. -/
theorem exec_entry {i : Instr} {ok : Bool} (hd : die < 4) (hn : invNext s die = some (a, dw0, dw1)) (h : SoundEntry dw0)
    (hi : EntryEvent die (bits dw0 11 10) i ok) : ∃ ok', exec i s = .next (invApply s die ok') ∧ (bits dw0 11 10 = 2 → ok' = ok) := by
  have hk := invKind_of_sound hn h
  rcases hi with ⟨rfl, hkind⟩ | ⟨rfl, hkind⟩ | ⟨rfl, hkind⟩
  · exact ⟨true, if_pos ⟨hd, hkind ▸ hk⟩, fun h2 => by omega⟩
  · exact ⟨true, if_pos ⟨hd, hkind ▸ hk⟩, fun h2 => by omega⟩
  · exact ⟨ok, if_pos ⟨hd, hkind ▸ hk⟩, fun _ => rfl⟩

theorem sound_of_invKind {k : Nat} (hn : invNext s die = some (a, dw0, dw1)) (hk : invKind s die = some k) :
    SoundEntry dw0 ∧ bits dw0 11 10 = k := by
  unfold invKind at hk
  rw [hn] at hk
  dsimp only at hk
  split_ifs at hk with hbad
  injection hk with hk
  simp only [Bool.or_eq_true, bne_iff_ne, beq_iff_eq, ne_eq, not_or, not_not] at hbad
  obtain ⟨⟨⟨h1, h2⟩, h3⟩, h4⟩ := hbad
  exact ⟨⟨h1, h2, h4, h3⟩, hk⟩

/-- A die's own move applies its next entry. -/
theorem invMoveOf_applies (hd : die < 4) (hn : invNext s die = some (a, dw0, dw1)) :
    invMoveOf die s = .next (invApply s die true) := by
  unfold invMoveOf
  split
  next hk => exact if_pos ⟨hd, hk⟩
  next hk => exact if_pos ⟨hd, hk⟩
  next k h0 h1 hk =>
    obtain ⟨⟨-, -, -, h3⟩, hkind⟩ := sound_of_invKind hn hk
    have hlt : bits dw0 11 10 < 4 := Nat.mod_lt _ (by norm_num)
    have hk2 : k = 2 := by
      have h0' : k ≠ 0 := h0
      have h1' : k ≠ 1 := h1
      omega
    exact if_pos ⟨hd, hk2 ▸ hk⟩
  next => rfl

/-! Pages and partitions (R143) -/

theorem pageBytes_eq (size : Nat) : pageBytes size = sizeBytes size := rfl

theorem mem_tlb_page (e : Tlb) (die part va size : Nat) : e ∈ (invEntry s die part va size false).tlb ↔
    e ∈ s.tlb ∧ ¬ samePage e die part size va := by
  simp only [invEntry, List.mem_filter, samePage, pageBytes_eq, Bool.false_or, Bool.not_eq_true', ← Bool.not_eq_true,
    Bool.and_eq_true, beq_iff_eq, and_assoc, Bool.false_eq_true, if_false]

theorem mem_access_page (x : Access) (die part va size : Nat) : x ∈ (invEntry s die part va size false).access ↔
    x ∈ s.access ∧ ¬ countsIn x die part size va := by
  simp only [invEntry, List.mem_filter, countsIn, pageBytes_eq, Bool.not_eq_true', ← Bool.not_eq_true,
    Bool.and_eq_true, beq_iff_eq, and_assoc, Bool.false_eq_true, if_false]

theorem mem_tlb_partition (e : Tlb) (die part : Nat) : e ∈ (invEntry s die part 0 0 true).tlb ↔
    e ∈ s.tlb ∧ ¬ (e.die = die ∧ e.part = part) := by
  simp only [invEntry, List.mem_filter, Bool.true_or, Bool.and_true, Bool.not_eq_true', ← Bool.not_eq_true,
    Bool.and_eq_true, beq_iff_eq, if_true]

theorem invEntry_fields (s : State) (die part va size : Nat) (whole : Bool) : let u := invEntry s die part va size whole
    u.mem = s.mem ∧ u.regs = s.regs ∧ u.ctxs = s.ctxs ∧ u.images = s.images ∧ (whole = true → u.access = s.access) := by
  cases whole with
  | false => exact ⟨rfl, rfl, rfl, rfl, nofun⟩
  | true => exact ⟨rfl, rfl, rfl, rfl, fun _ => rfl⟩

/-! Moves (R144) -/

/-- The page's entries leave the TLB. -/
def dropPage (s : State) (die part va : Nat) : State :=
  { s with tlb := s.tlb.filter fun t => !(t.die == die && t.part == part && t.size == 0 && t.page == va / 2 ^ 16) }

theorem mem_tlb_dropPage (e : Tlb) (die part va : Nat) : e ∈ (dropPage s die part va).tlb ↔
    e ∈ s.tlb ∧ ¬ samePage e die part 0 va := by
  have hsize : sizeBytes 0 = 2 ^ 16 := rfl
  simp only [dropPage, List.mem_filter, samePage, hsize, Bool.not_eq_true', ← Bool.not_eq_true, Bool.and_eq_true, beq_iff_eq, and_assoc]

/-- The page of an entry's DW0. -/
def entryVa (dw0 : Nat) : Nat := dw0 / 2 ^ 16 * 2 ^ 16

/-- The walk of an entry's page. -/
def entryWalk (s : State) (dw0 : Nat) : Except (Nat × Nat) (Nat × Nat × Nat) :=
  walkFrom s (entryVa dw0) (dirLevels (entryVa dw0)) (rootOf s (dw0 % 32))

/-- The dies that a move needs: those of the leaf's frame, of the new frame and of the tables. -/
def moveDies (s : State) (dw0 dw1 lf : Nat) : List Nat :=
  bits lf 46 24 * 2 ^ 16 / 2 ^ 37 :: bits dw1 46 24 * 2 ^ 16 / 2 ^ 37 ::
    walkDies s (entryVa dw0) (dirLevels (entryVa dw0)) (rootOf s (dw0 % 32))

/-- What keeps a move from copying its page. -/
def moveFails (s : State) (die dw0 dw1 lf : Nat) (ok : Bool) : Bool :=
  !lf.testBit 0 || lf.testBit 7 || !ok || unpop (bits dw1 46 24 * 2 ^ 16) || (moveDies s dw0 dw1 lf).any fun d => !s.reach die d

/-- The page from one frame in another. -/
def copyPage (s : State) (src dst : Nat) : State :=
  (s.mem.filter fun c => src ≤ c.1 && c.1 < src + 2 ^ 16).foldl (fun s c => wrByte s (dst + (c.1 - src)) c.2) (wipe s dst (2 ^ 16))

/-- DW0 of a leaf with the new frame and the next SEQ (R144). -/
def movedLeaf (lf dw1 : Nat) : Nat := setBits (setBits lf 46 24 (bits dw1 46 24)) 15 8 (bits lf 15 8 + 1)

/-- The state of a move whose page's entries have left the TLB and whose tables are crossed to. -/
def walked (s : State) (die dw0 : Nat) : State :=
  (walkDies s (entryVa dw0) (dirLevels (entryVa dw0)) (rootOf s (dw0 % 32))).foldl (fun t d => t.cross die d)
    (dropPage s die (dw0 % 32) (entryVa dw0))

theorem walkDies_dropPage (s : State) (die part page va : Nat) (l : List (Nat × Nat × Nat)) (table : Nat) :
    walkDies (dropPage s die part page) va l table = walkDies s va l table :=
  walkDies_of_mem (s := s) (t := dropPage s die part page) rfl ..

theorem walked_touches (s : State) (die dw0 : Nat) : Touches (dropPage s die (dw0 % 32) (entryVa dw0)) (walked s die dw0) :=
  (foldl_cross _ die _).1

theorem walked_mem (s : State) (die dw0 : Nat) : (walked s die dw0).mem = s.mem := (foldl_cross _ die _).2.1

theorem walked_regs (s : State) (die dw0 : Nat) : (walked s die dw0).regs = s.regs := (foldl_cross _ die _).2.2

theorem walked_reach (s : State) (die dw0 d f : Nat) : (walked s die dw0).reach d f = s.reach d f :=
  reach_of_links (walked_touches s die dw0).links d f

theorem walkFrom_walked (s : State) (die dw0 : Nat) :
    walkFrom (walked s die dw0) (entryVa dw0) (dirLevels (entryVa dw0)) (rootOf s (dw0 % 32)) = entryWalk s dw0 :=
  walkFrom_of_mem (walked_mem s die dw0) ..

theorem moveFails_walked (s : State) (die dw0 dw1 lf : Nat) (ok : Bool) : moveFails s die dw0 dw1 lf ok =
    (!lf.testBit 0 || lf.testBit 7 || !ok || unpop (bits dw1 46 24 * 2 ^ 16) ||
      (bits lf 46 24 * 2 ^ 16 / 2 ^ 37 :: bits dw1 46 24 * 2 ^ 16 / 2 ^ 37 ::
        walkDies (dropPage s die (dw0 % 32) (entryVa dw0)) (entryVa dw0) (dirLevels (entryVa dw0)) (rootOf s (dw0 % 32))).any
        fun d => !(walked s die dw0).reach die d) := by
  simp only [moveFails, moveDies, walkDies_dropPage, walked_reach]

/-- A move that does not copy its page, or whose walk comes to no 64 KiB leaf, is abandoned. -/
theorem invMove_abandoned {ok : Bool} (h : ∀ lf la, entryWalk s dw0 = .ok (lf, la, 0) → moveFails s die dw0 dw1 lf ok = true) :
    invMove s die a dw0 dw1 ok = invDone (walked s die dw0) die a 2 := by
  have hw : walkFrom (walked s die dw0) (entryVa dw0) (dirLevels (entryVa dw0)) (rootOf s (dw0 % 32)) = entryWalk s dw0 :=
    walkFrom_walked s die dw0
  have hdef : walked s die dw0 = (walkDies (dropPage s die (dw0 % 32) (entryVa dw0)) (entryVa dw0) (dirLevels (entryVa dw0))
      (rootOf s (dw0 % 32))).foldl (fun t d => t.cross die d) (dropPage s die (dw0 % 32) (entryVa dw0)) := by
    rw [walkDies_dropPage, walked]
  unfold invMove
  extract_lets part va s₁ root dies s₂
  have hs₂ : s₂ = walked s die dw0 := hdef.symm
  have hwalk : walkFrom s₂ va (dirLevels va) root = entryWalk s dw0 := hs₂ ▸ hw
  rw [hwalk]
  clear_value s₂
  subst hs₂
  split
  next lf la hok =>
    have hf := h lf la hok
    rw [moveFails_walked] at hf
    exact if_pos hf
  next => rfl

/-- The frames of a move crossed to. -/
def reachedFrames (s : State) (die dw0 dw1 lf : Nat) : State :=
  ((walked s die dw0).cross die (bits lf 46 24 * 2 ^ 16 / 2 ^ 37)).cross die (bits dw1 46 24 * 2 ^ 16 / 2 ^ 37)

theorem reachedFrames_touches (s : State) (die dw0 dw1 lf : Nat) :
    Touches (dropPage s die (dw0 % 32) (entryVa dw0)) (reachedFrames s die dw0 dw1 lf) :=
  (walked_touches s die dw0).trans ((Touches.cross _ _ _).trans (.cross _ _ _))

theorem reachedFrames_mem (s : State) (die dw0 dw1 lf : Nat) : (reachedFrames s die dw0 dw1 lf).mem = s.mem := by
  rw [reachedFrames, cross_mem, cross_mem, walked_mem]

theorem reachedFrames_regs (s : State) (die dw0 dw1 lf : Nat) : (reachedFrames s die dw0 dw1 lf).regs = s.regs := by
  rw [reachedFrames, cross_regs, cross_regs, walked_regs]

/-- A move that does copy its page: the new frame, then DW0, then RESULT. -/
theorem invMove_moves {ok : Bool} {lf la : Nat} (hok : entryWalk s dw0 = .ok (lf, la, 0)) (h : moveFails s die dw0 dw1 lf ok = false) :
    invMove s die a dw0 dw1 ok = invDone (wrNat (copyPage (reachedFrames s die dw0 dw1 lf) (region 6 (bits lf 46 24 * 2 ^ 16))
      (region 6 (bits dw1 46 24 * 2 ^ 16))) la 8 (movedLeaf lf dw1)) die a 1 := by
  have hw : walkFrom (walked s die dw0) (entryVa dw0) (dirLevels (entryVa dw0)) (rootOf s (dw0 % 32)) = .ok (lf, la, 0) :=
    (walkFrom_walked s die dw0).trans hok
  have hdef : walked s die dw0 = (walkDies (dropPage s die (dw0 % 32) (entryVa dw0)) (entryVa dw0) (dirLevels (entryVa dw0))
      (rootOf s (dw0 % 32))).foldl (fun t d => t.cross die d) (dropPage s die (dw0 % 32) (entryVa dw0)) := by
    rw [walkDies_dropPage, walked]
  have hmem : (walked s die dw0).mem = (reachedFrames s die dw0 dw1 lf).mem := by rw [walked_mem, reachedFrames_mem]
  rw [moveFails_walked] at h
  unfold invMove
  extract_lets part va s₁ root dies s₂
  have hs₂ : s₂ = walked s die dw0 := hdef.symm
  have hwalk : walkFrom s₂ va (dirLevels va) root = .ok (lf, la, 0) := hs₂ ▸ hw
  rw [hwalk]
  clear_value s₂
  subst hs₂
  refine (if_neg (by rw [← Bool.not_eq_true] at h; exact h)).trans ?_
  dsimp only
  rw [hmem]
  rfl

/-! The copied page -/

/-- Cells of a frame written at their places in another, one after the other. -/
def writeCells (src dst : Nat) (cells : List Host.Cell) (u : State) : State :=
  cells.foldl (fun s c => wrByte s (dst + (c.1 - src)) c.2) u

theorem copyPage_eq (s : State) (src dst : Nat) : copyPage s src dst =
    writeCells src dst (s.mem.filter fun c => src ≤ c.1 && c.1 < src + 2 ^ 16) (wipe s dst (2 ^ 16)) := rfl

theorem writeCells_touches (src dst : Nat) (cells : List Host.Cell) (u : State) : Touches u (writeCells src dst cells u) :=
  .foldl (fun s _ => .wrByte s _ _) cells u

theorem rdByte_writeCells_outside {src dst b n : Nat} {cells : List Host.Cell} (hc : ∀ c ∈ cells, src ≤ c.1 ∧ c.1 < src + n)
    (hu : u.Canon) (hb : b < dst ∨ dst + n ≤ b) : rdByte (writeCells src dst cells u) b = rdByte u b := by
  induction cells generalizing u with
  | nil => rfl
  | cons c cells ih =>
    obtain ⟨hlo, hhi⟩ := hc c List.mem_cons_self
    have hne : b ≠ dst + (c.1 - src) := by omega
    exact (ih (fun d hd => hc d (List.mem_cons_of_mem c hd)) (hu.wrByte _ _)).trans (rdByte_wrByte_other hu.mem _ hne)

/-- A byte of the new frame is the cell's where one was copied there. -/
theorem rdByte_writeCells {src dst k : Nat} {cells : List Host.Cell} (hr : SMap.Rises cells) (hc : ∀ c ∈ cells, src ≤ c.1)
    (hu : u.Canon) : rdByte (writeCells src dst cells u) (dst + k) = SMap.get (rdByte u (dst + k)) cells (src + k) := by
  induction cells generalizing u with
  | nil => rfl
  | cons c cells ih =>
    obtain ⟨key, v⟩ := c
    obtain ⟨hlt, hrest⟩ := List.pairwise_cons.1 hr
    have hlo : src ≤ key := hc (key, v) List.mem_cons_self
    have hstep := ih hrest (fun d hd => hc d (List.mem_cons_of_mem _ hd)) (hu.wrByte (dst + (key - src)) v)
    refine hstep.trans ?_
    rw [SMap.get]
    by_cases heq : src + k = key
    · have hplace : dst + k = dst + (key - src) := by omega
      rw [if_pos heq, hplace, rdByte_wrByte_same hu.mem, heq]
      exact SMap.get_below _ _ _ fun p hp => hlt p hp
    · have hplace : dst + k ≠ dst + (key - src) := by omega
      rw [if_neg heq, rdByte_wrByte_other hu.mem _ hplace]
      split_ifs with hbelow
      · exact SMap.get_below _ _ _ fun p hp => hbelow.trans (hlt p hp)
      · rfl

theorem copyPage_touches (s : State) (src dst : Nat) : Touches s (copyPage s src dst) :=
  (Touches.wipe s _ _).trans (writeCells_touches ..)

theorem copyPage_regs (s : State) (src dst : Nat) : (copyPage s src dst).regs = s.regs := by
  have hw : ∀ (cells : List Host.Cell) (u : State), (writeCells src dst cells u).regs = u.regs := fun cells => by
    induction cells with
    | nil => exact fun _ => rfl
    | cons c cells ih => exact fun u => ih _
  exact hw _ _

theorem mem_pageCells {src : Nat} {c : Host.Cell} (h : c ∈ s.mem.filter fun c => src ≤ c.1 && c.1 < src + 2 ^ 16) :
    src ≤ c.1 ∧ c.1 < src + 2 ^ 16 := by
  obtain ⟨-, hc⟩ := List.mem_filter.1 h
  simpa only [Bool.and_eq_true, decide_eq_true_eq] using hc

theorem rdByte_copyPage_outside (hs : s.Canon) {src dst b : Nat} (hb : b < dst ∨ dst + 2 ^ 16 ≤ b) :
    rdByte (copyPage s src dst) b = rdByte s b := by
  rw [copyPage_eq, rdByte_writeCells_outside (fun _ => mem_pageCells) (hs.wipe _ _) hb, rdByte_wipe hs.mem, if_neg (by omega)]

theorem rdByte_copyPage (hs : s.Canon) {src dst k : Nat} (hk : k < 2 ^ 16) :
    rdByte (copyPage s src dst) (dst + k) = rdByte s (src + k) := by
  have hrises : SMap.Rises (s.mem.filter fun c => src ≤ c.1 && c.1 < src + 2 ^ 16) := List.Pairwise.filter _ hs.mem.1
  have hget := SMap.get_filter unwritten hs.mem.1 (fun i => decide (src ≤ i) && decide (i < src + 2 ^ 16)) (src + k)
  have hin : (decide (src ≤ src + k) && decide (src + k < src + 2 ^ 16)) = true := by simp; omega
  rw [copyPage_eq, rdByte_writeCells hrises (fun c hc => (mem_pageCells hc).1) (hs.wipe _ _), rdByte_wipe hs.mem, if_pos (by omega)]
  exact hget.trans (if_pos hin)

/-! The rewritten leaf -/

theorem movedLeaf_lt {lf dw1 : Nat} (h : lf < 2 ^ 47) : movedLeaf lf dw1 < 2 ^ 64 := by
  unfold movedLeaf setBits bits
  omega

theorem movedLeaf_eq (lf dw1 : Nat) : movedLeaf lf dw1 = withBits (withBits lf 46 24 (dw1 / 2 ^ 24)) 15 8 (lf / 2 ^ 8 + 1) := by
  unfold movedLeaf setBits withBits bits
  omega

/-- The frames and tables of a move can all be reached. -/
def MoveNear (s : State) (die part va src dst : Nat) : Prop :=
  s.reach die (src / 2 ^ 37) = true ∧ s.reach die (dst / 2 ^ 37) = true ∧
    ∀ n t, n ≤ 4 → Reaches s part va n t → s.reach die (t / 2 ^ 37) = true

theorem leafFrame_eq {lf : Nat} (h : deviceLeaf lf) : bits lf 46 24 * 2 ^ 16 = lf / 2 ^ 24 * 2 ^ 16 := by
  obtain ⟨-, -, -, hlt, -⟩ := h
  unfold bits; omega

/-- With a device leaf, a move fails where a die is out of reach or the new frame is unpopulated. -/
theorem moveFails_deviceLeaf {t lf : Nat} (hr : Reaches s (dw0 % 32) (entryVa dw0) 4 t) (hd : deviceLeaf lf) (hlf : lf < 2 ^ 64) :
    moveFails s die dw0 dw1 lf true = false ↔ dw1 / 2 ^ 24 % 2 ^ 23 * 2 ^ 16 % 2 ^ 37 < 0x1800000000 ∧
      MoveNear s die (dw0 % 32) (entryVa dw0) (lf / 2 ^ 24 * 2 ^ 16) (dw1 / 2 ^ 24 % 2 ^ 23 * 2 ^ 16) := by
  obtain ⟨h0, -, h7, -⟩ := (deviceLeaf_iff hlf).1 hd
  have hto : bits dw1 46 24 * 2 ^ 16 = dw1 / 2 ^ 24 % 2 ^ 23 * 2 ^ 16 := rfl
  simp only [moveFails, moveDies, h0, h7, leafFrame_eq hd, hto, Bool.or_eq_false_iff, unpop_eq_false, List.any_eq_false,
    List.mem_cons, mem_walkDies hr, Bool.not_eq_true', Bool.not_eq_false, MoveNear]
  constructor
  · rintro ⟨⟨-, hpop⟩, hall⟩
    exact ⟨hpop, hall _ (.inl rfl), hall _ (.inr (.inl rfl)), fun n u hn hu => hall _ (.inr (.inr ⟨n, u, hn, hu, rfl⟩))⟩
  · rintro ⟨hpop, hsrc, hdst, htab⟩
    refine ⟨⟨⟨⟨rfl, trivial⟩, rfl⟩, hpop⟩, ?_⟩
    rintro d (rfl | rfl | ⟨n, u, hn, hu, rfl⟩)
    · exact hsrc
    · exact hdst
    · exact htab n u hn hu

/-- The walk of an entry whose last table is reached. -/
theorem entryWalk_reaches {t : Nat} (h : Reaches s (dw0 % 32) (entryVa dw0) 4 t) : entryWalk s dw0 = walkFrom s (entryVa dw0) [] t :=
  walkFrom_reaches h

theorem moveFails_not_deviceLeaf {leaf lf la : Nat} (hw : WalksTo s (dw0 % 32) (entryVa dw0) leaf)
    (hd : ¬ deviceLeaf (deviceWord s leaf)) (hok : entryWalk s dw0 = .ok (lf, la, 0)) (ok : Bool) :
    moveFails s die dw0 dw1 lf ok = true := by
  obtain ⟨t, hr, hleaf⟩ := hw
  rw [entryWalk_reaches hr] at hok
  cases h0 : lf.testBit 0 with
  | false => simp [moveFails, h0]
  | true =>
    cases h7 : lf.testBit 7 with
    | true => simp [moveFails, h7]
    | false => exact absurd (deviceLeaf_of_walkFrom hleaf hok h0 h7) hd

/-- What the die's registers and memory show of an entry applied, with RESULT. -/
def EntryDone (s t : State) (die a res : Nat) : Prop :=
  rdByte t (region 6 (a + 8)) = BitVec.ofNat 8 res ∧ t.reg 3 0xC07 die = s.reg 3 0xC07 die + 1 ∧ t.ctxs = s.ctxs ∧ t.images = s.images

/-- An entry applied without a copy writes RESULT and no other byte. -/
theorem entryDone_of_kept (hs : s.Canon) (hm : u.mem = s.mem) (hr : u.regs = s.regs) (hc : u.ctxs = s.ctxs) (hi : u.images = s.images)
    (die a res : Nat) : EntryDone s (invDone u die (region 6 a) res) die a res ∧
      ∀ b, b ≠ region 6 (a + 8) → rdByte (invDone u die (region 6 a) res) b = rdByte s b := by
  obtain ⟨hres, hreg, hother⟩ := invDone_after hs hm hr die (region 6 a) res
  exact ⟨⟨hres, hreg, hc, hi⟩, hother⟩

/-- A move that copies: the new frame holds the page, the leaf names it, and no byte besides has changed. -/
theorem move_copies {leaf lf src dst : Nat} (hs : s.Canon) (hok : entryWalk s dw0 = .ok (lf, region 6 leaf, 0)) (hlf : lf < 2 ^ 47)
    (hfails : moveFails s die dw0 dw1 lf true = false) (hsrc : bits lf 46 24 * 2 ^ 16 = src) (hdst : bits dw1 46 24 * 2 ^ 16 = dst)
    (hleaf : leaf + 8 ≤ dst ∨ dst + 2 ^ 16 ≤ leaf) (ha : a + 16 ≤ dst ∨ dst + 2 ^ 16 ≤ a) (hla : leaf + 8 ≤ a ∨ a + 16 ≤ leaf) :
    let t := invMove s die (region 6 a) dw0 dw1 true
    EntryDone s t die a 1 ∧ Touches (dropPage s die (dw0 % 32) (entryVa dw0)) t ∧
      (∀ k < 2 ^ 16, rdByte t (region 6 dst + k) = rdByte s (region 6 src + k)) ∧
      rdNat t (region 6 leaf) 8 = movedLeaf lf dw1 ∧
      ∀ b, (b < region 6 dst ∨ region 6 dst + 2 ^ 16 ≤ b) → (b < region 6 leaf ∨ region 6 leaf + 8 ≤ b) → b ≠ region 6 (a + 8) →
        rdByte t b = rdByte s b := by
  rw [invMove_moves hok hfails, hsrc, hdst]
  have hu : (reachedFrames s die dw0 dw1 lf).Canon :=
    .of_eq hs (reachedFrames_mem s die dw0 dw1 lf) (reachedFrames_regs s die dw0 dw1 lf)
  have htu := reachedFrames_touches s die dw0 dw1 lf
  have hmem : ∀ b, rdByte (reachedFrames s die dw0 dw1 lf) b = rdByte s b := fun b => by
    rw [rdByte, reachedFrames_mem, rdByte]
  have hregs := reachedFrames_regs s die dw0 dw1 lf
  generalize reachedFrames s die dw0 dw1 lf = u at hu htu hmem hregs ⊢
  have hcopy := copyPage_touches u (region 6 src) (region 6 dst)
  have hleafw := Touches.wrNat (copyPage u (region 6 src) (region 6 dst)) (region 6 leaf) 8 (movedLeaf lf dw1)
  have hc := hcopy.canon hu
  have hfin := invDone_finishes (hleafw.canon hc) die (region 6 a) 1
  have htouch := htu.trans (hcopy.trans (hleafw.trans hfin.touches))
  have hreg : (wrNat (copyPage u (region 6 src) (region 6 dst)) (region 6 leaf) 8 (movedLeaf lf dw1)).reg 3 0xC07 die =
      s.reg 3 0xC07 die := by
    rw [State.reg, wrNat_regs, copyPage_regs, hregs, State.reg]
  have hpath : ∀ b, (b < region 6 leaf ∨ region 6 leaf + 8 ≤ b) → b ≠ region 6 (a + 8) →
      rdByte (invDone (wrNat (copyPage u (region 6 src) (region 6 dst)) (region 6 leaf) 8 (movedLeaf lf dw1)) die (region 6 a) 1) b =
        rdByte (copyPage u (region 6 src) (region 6 dst)) b := fun b hb hne =>
    (hfin.other b hne).trans (rdByte_wrNat_other hc.mem hb)
  refine ⟨⟨hfin.result, hreg ▸ hfin.done, htouch.ctxs, htouch.images⟩, htouch, fun k hk => ?_, ?_, fun b hd hl hne => ?_⟩
  · rw [hpath _ (by unfold region; omega) (by unfold region; omega), rdByte_copyPage hu hk, hmem]
  · have hread : rdNat (invDone (wrNat (copyPage u (region 6 src) (region 6 dst)) (region 6 leaf) 8 (movedLeaf lf dw1)) die
        (region 6 a) 1) (region 6 leaf) 8 = _ :=
      rdNat_congr fun k hk => hfin.other _ (by unfold region; omega)
    rw [hread, rdNat_wrNat hc.mem]
    exact Nat.mod_eq_of_lt ((movedLeaf_lt hlf).trans_eq (by norm_num))
  · rw [hpath b hl hne, rdByte_copyPage_outside hu hd, hmem]

/-- A move abandoned leaves DW0 and the frames; the page's entries have left the TLB. -/
theorem move_abandoned {ok : Bool} (hs : s.Canon)
    (h : ∀ lf la, entryWalk s dw0 = .ok (lf, la, 0) → moveFails s die dw0 dw1 lf ok = true) :
    let t := invMove s die (region 6 a) dw0 dw1 ok
    EntryDone s t die a 2 ∧ (∀ b, b ≠ region 6 (a + 8) → rdByte t b = rdByte s b) ∧
      Touches (dropPage s die (dw0 % 32) (entryVa dw0)) t := by
  have htouch := walked_touches s die dw0
  rw [invMove_abandoned h]
  obtain ⟨hdone, hother⟩ := entryDone_of_kept hs (walked_mem s die dw0) (walked_regs s die dw0) htouch.ctxs htouch.images die a 2
  exact ⟨hdone, hother, htouch.trans ((Touches.wrByte _ _ _).trans (.bump _ _ _ _))⟩

/-- A malformed entry has no effect but its RESULT. -/
theorem malformed_applied (hs : s.Canon) (die a : Nat) : let t := invDone s die (region 6 a) 3
    EntryDone s t die a 3 ∧ (∀ b, b ≠ region 6 (a + 8) → rdByte t b = rdByte s b) ∧ t.tlb = s.tlb ∧ t.access = s.access := by
  obtain ⟨hdone, hother⟩ := entryDone_of_kept hs rfl rfl rfl rfl die a 3
  exact ⟨hdone, hother, rfl, rfl⟩

/-- A step on a die's turn to apply its log makes that move. -/
theorem step_inval {u t : State} (hu : u = { s with turn := none, tick := s.tick + 1 }) (hturn : s.turn = some (.inval die))
    (ht : t.stalled = false) (h : invMoveOf die u = .next t) : step s = .next t := by
  have hmove : runMove (.inval die) u = .next t := h
  rw [step, nextMove, hturn, makeMove, ← hu, hmove]
  simp [ht]

/-- A malformed entry on the die's turn: RESULT 3 and nothing else. -/
theorem step_malformed (hs : s.Canon) (hd : die < 4) (hn : invNext s die = some (region 6 a, dw0, dw1))
    (hbad : ¬ (SoundEntry dw0 ∧ bits dw1 23 8 = 0)) (hturn : s.turn = some (.inval die)) (hst : s.stalled = false) :
    ∃ t, step s = .next t ∧ EntryDone s t die a 3 ∧ (∀ b, b ≠ region 6 (a + 8) → rdByte t b = rdByte s b) ∧ t.tlb = s.tlb ∧
      t.access = s.access := by
  obtain ⟨u, hu⟩ : ∃ u : State, u = { s with turn := none, tick := s.tick + 1 } := ⟨_, rfl⟩
  have hn' : invNext u die = some (region 6 a, dw0, dw1) := by rw [hu]; exact hn
  have happ := invMoveOf_applies hd hn'
  rw [invApply_malformed hn' hbad] at happ
  have hst' : (invDone u die (region 6 a) 3).stalled = false := by rw [hu]; exact hst
  have hres := malformed_applied (s := u) (by rw [hu]; exact ⟨hs.mem, hs.regs⟩) die a
  refine ⟨_, step_inval hu hturn hst' happ, ?_⟩
  rw [hu] at hres ⊢
  exact hres

theorem exec_malformed {i : Instr} {ok : Bool} (hs : s.Canon) (hd : die < 4) (hn : invNext s die = some (region 6 a, dw0, dw1))
    (hsound : SoundEntry dw0) (hz : bits dw1 23 8 ≠ 0) (hi : EntryEvent die (bits dw0 11 10) i ok) :
    ∃ t, exec i s = .next t ∧ EntryDone s t die a 3 ∧ (∀ b, b ≠ region 6 (a + 8) → rdByte t b = rdByte s b) ∧ t.tlb = s.tlb ∧
      t.access = s.access := by
  obtain ⟨ok', hexec, -⟩ := exec_entry hd hn hsound hi
  rw [invApply_malformed hn fun h => hz h.2] at hexec
  exact ⟨_, hexec, malformed_applied hs die a⟩

theorem exec_invalidatePage_applied (hs : s.Canon) (hd : die < 4) (hn : invNext s die = some (region 6 a, dw0, dw1))
    (hsound : SoundEntry dw0) (hz : bits dw1 23 8 = 0) (hk : bits dw0 11 10 = 0) :
    ∃ t, exec (.invalidatePage die) s = .next t ∧ EntryDone s t die a 1 ∧ (∀ b, b ≠ region 6 (a + 8) → rdByte t b = rdByte s b) ∧
      (∀ e, e ∈ t.tlb ↔ e ∈ s.tlb ∧ ¬ samePage e die (dw0 % 32) (bits dw0 9 8) (entryVa dw0)) ∧
      ∀ x, x ∈ t.access ↔ x ∈ s.access ∧ ¬ countsIn x die (dw0 % 32) (bits dw0 9 8) (entryVa dw0) := by
  obtain ⟨ok', hexec, -⟩ := exec_entry (ok := true) hd hn hsound (.inl ⟨rfl, hk⟩)
  rw [invApply_sound hn hsound hz, if_pos hk] at hexec
  obtain ⟨hm, hr, hc, hi, -⟩ := invEntry_fields s die (dw0 % 32) (entryVa dw0) (bits dw0 9 8) false
  obtain ⟨hdone, hother⟩ := entryDone_of_kept hs hm hr hc hi die a 1
  exact ⟨_, hexec, hdone, hother, fun e => mem_tlb_page e die _ _ _, fun x => mem_access_page x die _ _ _⟩

theorem exec_invalidatePartition_applied (hs : s.Canon) (hd : die < 4) (hn : invNext s die = some (region 6 a, dw0, dw1))
    (hsound : SoundEntry dw0) (hz : bits dw1 23 8 = 0) (hk : bits dw0 11 10 = 1) :
    ∃ t, exec (.invalidatePartition die) s = .next t ∧ EntryDone s t die a 1 ∧ (∀ b, b ≠ region 6 (a + 8) → rdByte t b = rdByte s b) ∧
      t.access = s.access ∧ ∀ e, e ∈ t.tlb ↔ e ∈ s.tlb ∧ ¬ (e.die = die ∧ e.part = dw0 % 32) := by
  obtain ⟨ok', hexec, -⟩ := exec_entry (ok := true) hd hn hsound (.inr (.inl ⟨rfl, hk⟩))
  rw [invApply_sound hn hsound hz, if_neg (by omega), if_pos hk] at hexec
  obtain ⟨hm, hr, hc, hi, hacc⟩ := invEntry_fields s die (dw0 % 32) 0 0 true
  obtain ⟨hdone, hother⟩ := entryDone_of_kept hs hm hr hc hi die a 1
  exact ⟨_, hexec, hdone, hother, hacc rfl, fun e => mem_tlb_partition e die _⟩

theorem exec_movePage_applied (hd : die < 4) (hn : invNext s die = some (region 6 a, dw0, dw1)) (hsound : SoundEntry dw0)
    (hz : bits dw1 23 8 = 0) (hk : bits dw0 11 10 = 2) (ok : Bool) :
    exec (.movePage die ok) s = .next (invMove s die (region 6 a) dw0 dw1 ok) := by
  obtain ⟨ok', hexec, hok⟩ := exec_entry (ok := ok) hd hn hsound (.inr (.inr ⟨rfl, hk⟩))
  rw [invApply_sound hn hsound hz, if_neg (by omega), if_neg (by omega), hok hk] at hexec
  exact hexec

/-- What a move makes of the TLB and the counters. -/
theorem moved_tables {t : State} (h : Touches (dropPage s die (dw0 % 32) (entryVa dw0)) t) : t.access = s.access ∧
    ∀ e, e ∈ t.tlb ↔ e ∈ s.tlb ∧ ¬ samePage e die (dw0 % 32) 0 (entryVa dw0) :=
  ⟨h.access, fun e => by rw [h.tlb, mem_tlb_dropPage]⟩

theorem entryWalk_deviceLeaf {leaf : Nat} (hw : WalksTo s (dw0 % 32) (entryVa dw0) leaf) (h : deviceLeaf (deviceWord s leaf)) :
    entryWalk s dw0 = .ok (deviceWord s leaf, region 6 leaf, 0) := by
  obtain ⟨t, hr, hleaf⟩ := hw
  rw [entryWalk_reaches hr, walkFrom_leaf_moved hleaf h]

/-- A leaf of another kind, a die out of reach or an unpopulated frame keeps a move from copying. -/
theorem move_fails {leaf : Nat} (hw : WalksTo s (dw0 % 32) (entryVa dw0) leaf)
    (hno : ¬ deviceLeaf (deviceWord s leaf) ∨
      ¬ MoveNear s die (dw0 % 32) (entryVa dw0) (deviceWord s leaf / 2 ^ 24 * 2 ^ 16) (dw1 / 2 ^ 24 % 2 ^ 23 * 2 ^ 16) ∨
      0x1800000000 ≤ dw1 / 2 ^ 24 % 2 ^ 23 * 2 ^ 16 % 2 ^ 37) (lf la : Nat) (hok : entryWalk s dw0 = .ok (lf, la, 0)) :
    moveFails s die dw0 dw1 lf true = true := by
  by_cases hleaf : deviceLeaf (deviceWord s leaf)
  · obtain ⟨t, hr, -⟩ := id hw
    rw [entryWalk_deviceLeaf hw hleaf] at hok
    simp only [Except.ok.injEq, Prod.mk.injEq] at hok
    obtain ⟨rfl, -⟩ := hok
    rw [← Bool.not_eq_false, moveFails_deviceLeaf hr hleaf (deviceWord_lt s leaf)]
    rintro ⟨hpop, hnear⟩
    obtain h | h | h := hno
    · exact h hleaf
    · exact h hnear
    · omega
  · exact moveFails_not_deviceLeaf hw hleaf hok true

theorem move_succeeds {leaf : Nat} (hw : WalksTo s (dw0 % 32) (entryVa dw0) leaf) (hleaf : deviceLeaf (deviceWord s leaf))
    (hnear : MoveNear s die (dw0 % 32) (entryVa dw0) (deviceWord s leaf / 2 ^ 24 * 2 ^ 16) (dw1 / 2 ^ 24 % 2 ^ 23 * 2 ^ 16))
    (hpop : dw1 / 2 ^ 24 % 2 ^ 23 * 2 ^ 16 % 2 ^ 37 < 0x1800000000) :
    entryWalk s dw0 = .ok (deviceWord s leaf, region 6 leaf, 0) ∧ moveFails s die dw0 dw1 (deviceWord s leaf) true = false := by
  obtain ⟨t, hr, -⟩ := id hw
  exact ⟨entryWalk_deviceLeaf hw hleaf, (moveFails_deviceLeaf hr hleaf (deviceWord_lt s leaf)).2 ⟨hpop, hnear⟩⟩

/-- A move whose walk ends at a leaf: abandoned where the leaf, a die or the new frame is not fit for it, else performed. -/
theorem exec_movePage_leaf {leaf lf src dst : Nat} (hs : s.Canon) (hd : die < 4) (hn : invNext s die = some (region 6 a, dw0, dw1))
    (hsound : SoundEntry dw0) (hz : bits dw1 23 8 = 0) (hk : bits dw0 11 10 = 2) (hwalk : WalksTo s (dw0 % 32) (entryVa dw0) leaf)
    (hlf : lf = deviceWord s leaf) (hsrc : src = lf / 2 ^ 24 * 2 ^ 16) (hdst : dst = dw1 / 2 ^ 24 % 2 ^ 23 * 2 ^ 16) :
    let moved := fun (t : State) => t.access = s.access ∧ ∀ e, e ∈ t.tlb ↔ e ∈ s.tlb ∧ ¬ samePage e die (dw0 % 32) 0 (entryVa dw0)
    (¬ deviceLeaf lf ∨ ¬ MoveNear s die (dw0 % 32) (entryVa dw0) src dst ∨ 0x1800000000 ≤ dst % 2 ^ 37 →
      ∃ t, exec (.movePage die true) s = .next t ∧ EntryDone s t die a 2 ∧ (∀ b, b ≠ region 6 (a + 8) → rdByte t b = rdByte s b) ∧
        moved t) ∧
    (deviceLeaf lf → MoveNear s die (dw0 % 32) (entryVa dw0) src dst → dst % 2 ^ 37 < 0x1800000000 → src ≠ dst →
      (∀ f, f = src ∨ f = dst → (leaf + 8 ≤ f ∨ f + 2 ^ 16 ≤ leaf) ∧ (a + 16 ≤ f ∨ f + 2 ^ 16 ≤ a)) →
      (leaf + 8 ≤ a ∨ a + 16 ≤ leaf) → ∃ t, exec (.movePage die true) s = .next t ∧ EntryDone s t die a 1 ∧ moved t ∧
        (∀ k < 2 ^ 16, rdByte t (region 6 dst + k) = rdByte s (region 6 src + k)) ∧
        rdNat t (region 6 leaf) 8 = withBits (withBits lf 46 24 (dw1 / 2 ^ 24)) 15 8 (lf / 2 ^ 8 + 1) ∧
        ∀ b, (b < region 6 dst ∨ region 6 dst + 2 ^ 16 ≤ b) → (b < region 6 leaf ∨ region 6 leaf + 8 ≤ b) → b ≠ region 6 (a + 8) →
          rdByte t b = rdByte s b) := by
  have hexec := exec_movePage_applied hd hn hsound hz hk true
  subst hsrc hdst
  refine ⟨fun hno => ?_, fun hleaf hnear hpop _ hapart hla => ?_⟩
  · rw [hlf] at hno
    obtain ⟨hdone, hother, htouch⟩ := move_abandoned hs (a := a) (move_fails hwalk hno)
    exact ⟨_, hexec, hdone, hother, moved_tables htouch⟩
  · obtain ⟨hdst, ha⟩ := hapart _ (.inr rfl)
    have hframe := leafFrame_eq hleaf
    obtain ⟨-, -, -, hlt, -⟩ := id hleaf
    rw [hlf] at hleaf hnear
    obtain ⟨hok, hfails⟩ := move_succeeds hwalk hleaf hnear hpop
    rw [← hlf] at hok hfails
    obtain ⟨hdone, htouch, hpage, hdw, hother⟩ := move_copies hs hok hlt hfails hframe rfl hdst ha hla
    exact ⟨_, hexec, hdone, moved_tables htouch, hpage, hdw.trans (movedLeaf_eq _ _), hother⟩

/-- Settles O46: the entry of the log as `invApply` takes it, by its KIND. -/
theorem invalidationEntriesAreApplied : Obligations.InvalidationEntriesAreApplied := by
  intro s die a dw0 dw1 part va kind size hs hd hlog hdw0 hdw1 hpart hva hkind hsize
  subst hpart hva hkind hsize
  intro done kept sound malformed moved given
  have hn := invNext_of_log hlog
  rw [← hdw0, ← hdw1] at hn
  have hsound : sound ↔ SoundEntry dw0 := Iff.rfl
  refine ⟨fun hturn hst hbad => step_malformed hs hd hn hbad hturn hst,
    fun hsd => ⟨fun i ok hi hz => exec_malformed hs hd hn hsd hz hi, fun hz =>
      ⟨fun hk => exec_invalidatePage_applied hs hd hn hsd hz hk, fun hk => exec_invalidatePartition_applied hs hd hn hsd hz hk,
        fun hk => ?_, ?_⟩⟩⟩
  · obtain ⟨hdone, hother, htouch⟩ := move_abandoned (dw1 := dw1) (die := die) (a := a) (ok := false) hs
      fun lf la (_ : entryWalk s dw0 = _) => by simp [moveFails]
    exact ⟨_, exec_movePage_applied hd hn hsd hz hk false, hdone, hother, moved_tables htouch⟩
  · exact fun leaf lf src dst hk hwalk hlf hsrc hdst => exec_movePage_leaf hs hd hn hsd hz hk hwalk hlf hsrc hdst

end Sys2Proof.Machine
end

section
/-! Packets sent over a link, flit by flit (R31, R36, R42, R47). -/

namespace Sys2Proof.Machine

/-! A key set twice -/

theorem SMap.del_ins_self {β : Type} (m : SMap β) (i : Nat) (v : β) : (m.ins i v).del i = m.del i := by
  induction m with
  | nil => simp [SMap.ins, SMap.del]
  | cons p t ih =>
    obtain ⟨k, x⟩ := p
    by_cases hk : i = k
    · simp [SMap.ins, SMap.del, hk]
    · by_cases hlt : i < k
      · simp [SMap.ins, SMap.del, hk, hlt]
      · simp [SMap.ins, SMap.del, hk, hlt, ih]

theorem SMap.del_below {β : Type} {m : SMap β} {i : Nat} (h : ∀ p ∈ m, i < p.1) : m.del i = m := by
  cases m with
  | nil => rfl
  | cons p t =>
    have hlt : i < p.1 := h p List.mem_cons_self
    simp [SMap.del, hlt.ne, hlt]

theorem SMap.ins_below {β : Type} {m : SMap β} {i : Nat} (h : ∀ p ∈ m, i < p.1) (v : β) : m.ins i v = (i, v) :: m := by
  cases m with
  | nil => rfl
  | cons p t =>
    have hlt : i < p.1 := h p List.mem_cons_self
    simp [SMap.ins, hlt.ne, hlt]

theorem SMap.ins_del_self {β : Type} {m : SMap β} (h : m.Rises) (i : Nat) (v : β) : (m.del i).ins i v = m.ins i v := by
  induction m with
  | nil => rfl
  | cons p t ih =>
    obtain ⟨k, x⟩ := p
    obtain ⟨hlt, hrest⟩ := List.pairwise_cons.1 h
    by_cases hk : i = k
    · subst hk
      simpa [SMap.ins, SMap.del] using SMap.ins_below (fun p hp => hlt p hp) v
    · by_cases hik : i < k
      · simp [SMap.ins, SMap.del, hk, hik]
      · simp [SMap.ins, SMap.del, hk, hik, ih hrest]

theorem SMap.del_del_self {β : Type} {m : SMap β} (h : m.Rises) (i : Nat) : (m.del i).del i = m.del i := by
  induction m with
  | nil => rfl
  | cons p t ih =>
    obtain ⟨k, x⟩ := p
    obtain ⟨hlt, hrest⟩ := List.pairwise_cons.1 h
    by_cases hk : i = k
    · subst hk
      simpa [SMap.del] using SMap.del_below (fun p hp => hlt p hp)
    · by_cases hik : i < k
      · simp [SMap.del, hk, hik]
      · simp [SMap.del, hk, hik, ih hrest]

theorem SMap.put_put {β : Type} [DecidableEq β] {d : β} {m : SMap β} (h : m.Rises) (i : Nat) (v w : β) :
    (m.put d i v).put d i w = m.put d i w := by
  unfold SMap.put
  split_ifs
  · exact SMap.del_del_self h i
  · exact SMap.del_ins_self m i v
  · exact SMap.ins_del_self h i w
  · exact SMap.ins_ins m i v w

theorem State.setLink_setLink {s : State} (h : s.links.Rises) (e : Nat) (v w : Link) : (s.setLink e v).setLink e w = s.setLink e w :=
  congrArg (fun m => { s with links := m }) (SMap.put_put h e v w)

/-! Flits of one packet -/

/-- The endpoint after flits have been sent on a channel: each took the next SEQ and the next count of the selected key. -/
structure SentFlits (l m : Link) (vc : Nat) (bs : List Nat) (fs : List HeldFlit) : Prop where
  length : fs.length = bs.length
  replay : m.replay = l.replay ++ fs
  sent : m.sent = l.sent ++ fs.map (·.flit)
  seq : m.nextSeq = if bs.length = 0 then l.nextSeq else (l.nextSeq + bs.length) % 4096
  credits : m.credits = l.credits.set vc (l.credits.getD vc 0 - bs.length)
  txsel : m.txsel = l.txsel
  key : keyAt m.tx l.txsel = { keyAt l.tx l.txsel with ctr := (keyAt l.tx l.txsel).ctr + bs.length }
  pkts : m.pkts = l.pkts
  flits : ∀ j f, fs[j]? = some f → f.seq % 4096 = (l.nextSeq + j) % 4096 ∧
    f.flit = makeFlit (keyAt l.tx l.txsel) ((keyAt l.tx l.txsel).ctr + j) f.flit.hdr (bs.getD j 0)

theorem set_getD_self {α : Type} {l : List α} {i : Nat} (h : i < l.length) (d : α) : l.set i (l.getD i d) = l := by
  rw [List.getD_eq_getElem _ _ h, List.set_getElem_self]

theorem getD_set_self {α : Type} {l : List α} {i : Nat} (h : i < l.length) (v d : α) : (l.set i v).getD i d = v := by
  rw [List.getD_eq_getElem _ _ (by simpa using h), List.getElem_set_self]

theorem SentFlits.none {l : Link} {vc : Nat} (hvc : vc < l.credits.length) : SentFlits l l vc [] [] :=
  ⟨rfl, (List.append_nil _).symm, (List.append_nil _).symm, rfl, (set_getD_self hvc 0).symm, rfl, rfl, rfl, nofun⟩

/-- One flit, and then others. -/
theorem SentFlits.cons {l m : Link} {typ vc b : Nat} {bs : List Nat} {fs : List HeldFlit} (ht : typ ≤ 1) (hvc : vc < l.credits.length)
    (hv : (keyAt l.tx l.txsel).valid = true) (h : SentFlits (sendNew l typ vc b) m vc bs fs) :
    ∃ f, SentFlits l m vc (b :: bs) (f :: fs) := by
  obtain ⟨crd, crdvc, acked, freed, -, -, hnew⟩ := sendNew_eq l typ vc b
  have hkey : keyAt (sendNew l typ vc b).tx l.txsel = { keyAt l.tx l.txsel with ctr := (keyAt l.tx l.txsel).ctr + 1 } := by
    rw [hnew]; exact keyAt_set_same (lt_length_of_valid hv) _
  have hsel : (sendNew l typ vc b).txsel = l.txsel := by rw [hnew]
  have hcred : (sendNew l typ vc b).credits = l.credits.set vc (l.credits.getD vc 0 - 1) := by rw [hnew]; exact if_pos ht
  have hseq : (sendNew l typ vc b).nextSeq = (l.nextSeq + 1) % 4096 := by rw [hnew]
  obtain ⟨h₁, h₂, h₃, h₄, h₅, h₆, h₇, h₈, h₉⟩ := h
  rw [hsel, hkey] at h₇ h₉
  refine ⟨⟨l.nextSeq, makeFlit (keyAt l.tx l.txsel) (keyAt l.tx l.txsel).ctr
      (headerOf l.txsel typ l.nextSeq ((l.expect + 4095) % 4096) vc crd crdvc) b⟩,
    by rw [List.length_cons, List.length_cons, h₁], ?_, ?_, ?_, ?_, h₆.trans hsel, ?_, ?_, fun j f hf => ?_⟩
  · rw [h₂, hnew, List.append_assoc]; rfl
  · rw [h₃, hnew, List.append_assoc]; rfl
  · rw [h₄, hseq, List.length_cons, if_neg (Nat.succ_ne_zero _)]
    by_cases hb : bs.length = 0
    · rw [if_pos hb, hb]
    · rw [if_neg hb, Nat.mod_add_mod, Nat.add_assoc, Nat.add_comm 1]
  · rw [h₅, hcred, getD_set_self hvc, List.set_set, List.length_cons, Nat.sub_sub, Nat.add_comm 1]
  · have hcount : (keyAt l.tx l.txsel).ctr + 1 + bs.length = (keyAt l.tx l.txsel).ctr + (bs.length + 1) := by omega
    exact h₇.trans (congrArg (fun n => { keyAt l.tx l.txsel with ctr := n }) hcount)
  · rw [h₈, hnew]
  · cases j with
    | zero =>
      obtain rfl := Option.some.inj hf
      exact ⟨rfl, rfl⟩
    | succ j =>
      obtain ⟨hs, hm⟩ := h₉ j f hf
      rw [hseq] at hs
      refine ⟨by rw [hs]; omega, hm.trans ?_⟩
      have hcount : (keyAt l.tx l.txsel).ctr + 1 + j = (keyAt l.tx l.txsel).ctr + (j + 1) := by omega
      rw [← hcount]
      rfl

/-- What an endpoint needs to send n flits on a channel. -/
structure CanSendFlits (s : State) (ep vc n : Nat) : Prop where
  up : (s.link ep).st = 2
  enabled : s.rn 11 0 ep % 2 = 1
  valid : (keyAt (s.link ep).tx (s.link ep).txsel).valid = true
  below : (keyAt (s.link ep).tx (s.link ep).txsel).ctr + n < 2 ^ 39
  credits : n ≤ (s.link ep).credits.getD vc 0
  room : (s.link ep).replay.length + n ≤ 512
  channel : vc < (s.link ep).credits.length

theorem CanSendFlits.canData {s : State} {ep vc n : Nat} (h : CanSendFlits s ep vc (n + 1)) : canData s ep vc 1 = true := by
  have hc : (keyAt (s.link ep).tx (s.link ep).txsel).ctr < 2 ^ 40 := by have := h.below; omega
  have h1 := h.credits
  have h2 := h.room
  simp only [Machine.canData, canSend, Bool.and_eq_true, beq_iff_eq, decide_eq_true_eq]
  exact ⟨⟨⟨⟨⟨h.up, h.enabled⟩, h.valid⟩, hc⟩, by omega⟩, by omega⟩

/-- The flits of a packet are all sent, where the key, the channel and the replay buffer take them. -/
theorem sendBodies_all {s : State} {ep vc : Nat} (hl : s.links.Rises) (k : Pkt) (bs : List Nat) (h : CanSendFlits s ep vc bs.length) :
    ∃ m fs, SentFlits (s.link ep) m vc bs fs ∧
      sendBodies s ep vc k bs = s.setLink ep { m with tail := none, pkts := m.pkts ++ [((m.nextSeq + 4095) % 4096, k)] } := by
  induction bs generalizing s with
  | nil => exact ⟨s.link ep, [], .none h.channel, rfl⟩
  | cons b bs ih =>
    obtain ⟨typ, hty, htyp⟩ : ∃ typ, (if bs.isEmpty then 1 else 0) = typ ∧ typ ≤ 1 := ⟨_, rfl, by split <;> omega⟩
    obtain ⟨crd, crdvc, acked, freed, -, -, hnew⟩ := sendNew_eq (s.link ep) typ vc b
    have hkey : keyAt (sendNew (s.link ep) typ vc b).tx (s.link ep).txsel =
        { keyAt (s.link ep).tx (s.link ep).txsel with ctr := (keyAt (s.link ep).tx (s.link ep).txsel).ctr + 1 } := by
      rw [hnew]; exact keyAt_set_same (lt_length_of_valid h.valid) _
    have hsel : (sendNew (s.link ep) typ vc b).txsel = (s.link ep).txsel := by rw [hnew]
    have hcred : (sendNew (s.link ep) typ vc b).credits =
        (s.link ep).credits.set vc ((s.link ep).credits.getD vc 0 - 1) := by rw [hnew]; exact if_pos htyp
    have hroom : (sendNew (s.link ep) typ vc b).replay.length = (s.link ep).replay.length + 1 := by
      rw [hnew, List.length_append]; rfl
    have hst : (sendNew (s.link ep) typ vc b).st = 2 := by rw [hnew]; exact h.up
    have hset := State.link_setLink_same hl ep (sendNew (s.link ep) typ vc b)
    have hrises := (LinkBecomes.start hl ep (sendNew (s.link ep) typ vc b)).rises
    have hbelow := h.below
    have hcr := h.credits
    have hrm := h.room
    rw [List.length_cons] at hbelow hcr hrm
    have hnext : CanSendFlits (s.setLink ep (sendNew (s.link ep) typ vc b)) ep vc bs.length := by
      refine ⟨?_, h.enabled, ?_, ?_, ?_, ?_, ?_⟩ <;> rw [hset]
      · exact hst
      · rw [hsel, hkey]; exact h.valid
      · rw [hsel, hkey]; show (keyAt (s.link ep).tx (s.link ep).txsel).ctr + 1 + bs.length < 2 ^ 39; omega
      · rw [hcred, getD_set_self h.channel]; omega
      · rw [hroom]; omega
      · rw [hcred, List.length_set]; exact h.channel
    obtain ⟨m, fs, hsent, hsend⟩ := ih hrises hnext
    rw [hset] at hsent
    obtain ⟨f, hall⟩ := hsent.cons htyp h.channel h.valid
    refine ⟨m, f :: fs, hall, ?_⟩
    have hlim : sendData s ep vc b bs.isEmpty = s.setLink ep (sendNew (s.link ep) typ vc b) := by
      rw [sendData, hty, keyLimits_below]
      rw [hset, hsel, hkey]
      show (keyAt (s.link ep).tx (s.link ep).txsel).ctr + 1 < 2 ^ 39
      omega
    rw [sendBodies, if_pos h.canData, hlim, hsend, State.setLink_setLink hl]

/-! A packet offered -/

theorem wireOf_length_pos (k : Pkt) : 0 < (wireOf k).length := by
  simp only [wireOf, List.length_map, List.length_range, flitsOf]
  omega

theorem linkSend_offered {s : State} (hl : s.links.Rises) (ep : Nat) (k : Pkt) : Offered s ep k (linkSend s ep k) := by
  obtain ⟨vc, hch⟩ : ∃ vc, k.cls % 4 * 2 + min k.hop 1 = vc := ⟨_, rfl⟩
  have hn := wireOf_length_pos k
  unfold Offered
  rw [hch, getLsbD_zero_iff]
  refine ⟨fun h => if_pos ?_, fun h hlim => ?_⟩
  · simp only [Machine.canData, canSend, Bool.or_eq_true, Bool.not_eq_true', ← Bool.not_eq_true, Bool.and_eq_true, beq_iff_eq,
      decide_eq_true_eq, Option.isSome_iff_ne_none, hch]
    by_contra hno
    obtain ⟨htail, hrest⟩ := not_or.1 hno
    obtain ⟨⟨⟨⟨⟨h₁, h₂⟩, h₃⟩, h₄⟩, h₅⟩, h₆⟩ := not_not.1 hrest
    exact h ⟨not_not.1 htail, h₁, h₂, h₃, h₄, h₅, h₆⟩
  · obtain ⟨htail, hst, hen, hvalid, -, hcred, hroom⟩ := h
    have hin : vc < (s.link ep).credits.length := by
      by_contra hout
      rw [List.getD_eq_default _ _ (Nat.le_of_not_lt hout)] at hcred
      omega
    have hcan : CanSendFlits s ep vc (wireOf k).length := ⟨hst, hen, hvalid, hlim, hcred, hroom, hin⟩
    obtain ⟨m, fs, hsent, hsend⟩ := sendBodies_all hl k (wireOf k) hcan
    have hseq := hsent.seq
    rw [if_neg hn.ne'] at hseq
    refine ⟨{ m with tail := none, pkts := m.pkts ++ [((m.nextSeq + 4095) % 4096, k)] }, fs, ?_, hsent.length, hsent.replay,
      hsent.sent, hseq, rfl, hsent.credits, hsent.key, ?_, hsent.flits⟩
    · rw [linkSend, hch, if_neg, hsend]
      have hctr : (keyAt (s.link ep).tx (s.link ep).txsel).ctr < 2 ^ 40 := by omega
      simp only [Machine.canData, canSend, htail, hst, hen, hvalid, hctr, hcred, hroom, beq_self_eq_true, decide_true, Bool.and_self,
        Option.isSome_none, Bool.not_true, Bool.or_self, Bool.false_eq_true, not_false_eq_true]
    · show m.pkts ++ [((m.nextSeq + 4095) % 4096, k)] = _
      rw [hsent.pkts, hseq]
      exact congrArg (fun n => (s.link ep).pkts ++ [(n, k)]) (Nat.mod_add_mod _ _ _)

end Sys2Proof.Machine
end

section
/-! The way of a packet through the network: the port to another chip, the turn at a switch, the injecting leaf (R41, R45, R48 to R51,
R54, R74). -/

namespace Sys2Proof.Machine

variable {s : State}

/-! The port to another chip -/

theorem testBit_iff (v i : Nat) : v.testBit i = true ↔ v / 2 ^ i % 2 = 1 := by
  rw [Nat.testBit_eq_decide_div_mod_eq, decide_eq_true_iff]

/-- The ports that NOC_XPORT names for a chip, as a condition. -/
theorem pickPort_eq (s : State) (die chip : Nat) : pickPort s die chip =
    if s.rn 13 (chip % 4096) die / 8 % 2 = 1 ∧ (s.link (portEp (s.rn 13 (chip % 4096) die % 8))).st ≠ 3 then
      some (s.rn 13 (chip % 4096) die % 8)
    else if s.rn 13 (chip % 4096) die / 128 % 2 = 1 ∧ (s.link (portEp (s.rn 13 (chip % 4096) die / 16 % 8))).st ≠ 3 then
      some (s.rn 13 (chip % 4096) die / 16 % 8)
    else none := by
  have h0 : ∀ v, bits v 2 0 = v % 8 := fun v => by simp [bits]
  have h4 : ∀ v, bits v 6 4 = v / 16 % 8 := fun v => by simp [bits]
  simp only [pickPort, h0, h4, Bool.and_eq_true, testBit_iff, bne_iff_ne]
  rfl

theorem pickPort_eq_some_iff {die chip p : Nat} : pickPort s die chip = some p ↔ PortTo s die chip p := by
  rw [pickPort_eq]
  obtain ⟨v, hv⟩ : ∃ v, s.rn 13 (chip % 4096) die = v := ⟨_, rfl⟩
  have hv' : (s.reg 13 (chip % 4096) die).toNat = v := hv
  simp only [PortTo, hv, hv', portEp]
  split_ifs with h₁ h₂
  · simp only [h₁, Option.some.injEq, ne_eq, not_false_eq_true, and_self, true_and, not_true_eq_false, false_and, or_false]
    exact eq_comm
  · simp only [h₁, h₂, Option.some.injEq, ne_eq, not_false_eq_true, true_and, false_and, false_or]
    exact eq_comm
  · refine ⟨nofun, ?_⟩
    rintro (⟨h, -⟩ | ⟨-, h, h', -⟩)
    · exact absurd h h₁
    · exact absurd ⟨h, h'⟩ h₂

theorem pickPort_eq_none_iff {die chip : Nat} : pickPort s die chip = none ↔ ∀ p, ¬ PortTo s die chip p := by
  rw [Option.eq_none_iff_forall_ne_some]
  exact forall_congr' fun p => not_congr pickPort_eq_some_iff

/-! The turn at a switch -/

theorem foldl_add_eq_sum {α : Type} (f : α → Nat) (l : List α) (a : Nat) : l.foldl (fun n x => n + f x) a = a + (l.map f).sum := by
  induction l generalizing a with
  | nil => rfl
  | cons x l ih => rw [List.foldl_cons, ih, List.map_cons, List.sum_cons, Nat.add_assoc]

theorem queued_eq (s : State) (die stage num port cls : Nat) : queued s die stage num port cls = flitsIn s die stage num port cls := by
  rw [queued, foldl_add_eq_sum, Nat.zero_add]
  rfl

/-- The least index where a function is least, as the fold finds it. -/
theorem foldl_least (n : Nat → Nat) (k : Nat) :
    let m := (List.range (k + 1)).foldl (fun b j => if n j < n b then j else b) 0
    m ≤ k ∧ ∀ j ≤ k, n m ≤ n j ∧ (n m = n j → m ≤ j) := by
  induction k with
  | zero => simp
  | succ k ih =>
    obtain ⟨hm, hall⟩ := ih
    rw [List.range_succ, List.foldl_append]
    generalize (List.range (k + 1)).foldl (fun b j => if n j < n b then j else b) 0 = m at hm hall
    simp only [List.foldl_cons, List.foldl_nil]
    split_ifs with hlt
    · refine ⟨le_refl _, fun j hj => ?_⟩
      rcases Nat.lt_or_ge k j with h | h
      · obtain rfl : j = k + 1 := by omega
        exact ⟨le_refl _, fun _ => le_refl _⟩
      · have := (hall j h).1
        omega
    · refine ⟨by omega, fun j hj => ?_⟩
      rcases Nat.lt_or_ge k j with h | h
      · obtain rfl : j = k + 1 := by omega
        omega
      · exact hall j h

theorem portOf_turnsTo (s : State) (die stage num : Nat) (k : Pkt) : TurnsTo s die stage num k (portOf s die stage num k) := by
  unfold TurnsTo portOf
  split
  · simp only [reduceIte, queued_eq]
    by_cases h₁ : k.turns % 16 < 4
    · simp only [if_pos h₁]
    by_cases h₂ : k.cls = 3 ∧ k.dep < 8
    · simp only [if_neg h₁, if_pos h₂]
    simp only [if_neg h₁, if_neg h₂]
    obtain ⟨hm, hall⟩ := foldl_least (fun j => flitsIn s die 1 (num / 4 * 4 + j) 4 k.cls) 3
    refine ⟨Nat.le_add_right _ _, Nat.add_lt_add_left (Nat.lt_succ_of_le hm) 4, fun j hj => ?_⟩
    rw [Nat.add_sub_cancel_left]
    exact hall j (Nat.le_of_lt_succ hj)
  · rfl
  · next h₀ h₁ => rw [if_neg h₀, if_neg h₁]

/-- A packet joins the queue of its turn, or waits where that has no room. -/
theorem enterSwitch_enters (hs : s.Canon) (die stage num : Nat) (k : Pkt) : Enters s (enterSwitch s die stage num k) die stage num k := by
  refine ⟨portOf s die stage num k, portOf_turnsTo s die stage num k, ?_⟩
  obtain ⟨p, hp⟩ : ∃ p, portOf s die stage num k = p := ⟨_, rfl⟩
  obtain ⟨n, hn⟩ : ∃ n, flitsIn s die stage num p k.cls = n := ⟨_, rfl⟩
  have hflits : n + flitsOf k = n + 1 + (k.len + 31) / 32 := (Nat.add_assoc _ _ _).symm
  simp only [hp, hn, enterSwitch, queued_eq, hflits]
  refine ⟨fun hfull => if_pos hfull, fun hroom => ⟨_, if_neg hroom, ?_⟩⟩
  simp only [Joins, hn]
  refine ⟨by omega, ?_⟩
  obtain ⟨thr, hthr⟩ : ∃ thr, s.rn 3 0xC00 die % 32 = thr := ⟨_, rfl⟩
  have hthr' : (s.reg 3 0xC00 die).toNat % 32 = thr := hthr
  rw [hthr, hthr']
  obtain ⟨mk, hmk⟩ : ∃ mk : Bool,
      (!k.mark && (decide (n > thr) || (thr == 31 && n + 1 + (k.len + 31) / 32 == 32))) = mk := ⟨_, rfl⟩
  have hmarks : (k.mark = false ∧ (thr < n ∨ (thr = 31 ∧ n + 1 + (k.len + 31) / 32 = 32))) ↔ mk = true := by
    rw [← hmk]; simp
  rw [hmk, hmarks]
  refine ⟨if mk = true then s.bump 3 0xC01 die else s, k.mark || mk, ?_, by rw [Bool.or_eq_true], fun h => if_neg h, fun h => ?_⟩
  · have hnet : (if mk = true then s.bump 3 0xC01 die else s).net = s.net := by split_ifs <;> simp
    rw [hnet]
  · rw [if_pos h]
    exact State.setReg_regOnly hs _ _ _ _

/-! The injecting leaf -/

theorem toDie_eq (s : State) (d f way : Nat) : toDie s d f way =
    if wayTo s d f way = 1 then .entry 15 else if wayTo s d f way = 2 then .entry 19
    else if s.reach d f = true then .hold else .fault 8 := rfl

/-- What injecting a packet does once its table entry is known. -/
def entered (s : State) (die leaf e : Nat) (k : Pkt) : Option State :=
  let v := (s.reg 12 (leaf * 64 + e) die).toNat
  if v < 2 ^ 63 then some (bounce s die k 1)
  else enterSwitch s die 0 leaf { k with
    turns := v % 2 ^ 32, tlen := v / 2 ^ 32 % 16,
    way := if (k.dchip ≠ s.ident.chip % 4096 ∨ k.ddie ≠ die) ∧ e = 15 then 1
      else if (k.dchip ≠ s.ident.chip % 4096 ∨ k.ddie ≠ die) ∧ e = 19 then 2 else 0 }

theorem inject_fault {die leaf c : Nat} {k : Pkt} (h : routeOf s die k = .fault c) : inject s die leaf k = some (bounce s die k c) := by
  rw [inject, h]

theorem inject_hold {die leaf : Nat} {k : Pkt} (h : routeOf s die k = .hold) : inject s die leaf k = none := by
  rw [inject, h]

theorem not_testBit_63_iff {v : Nat} (hv : v < 2 ^ 64) : (!v.testBit 63) = true ↔ v < 2 ^ 63 := by
  rw [Bool.not_eq_true', ← Bool.not_eq_true, testBit_iff]
  omega

theorem inject_entry {die leaf e : Nat} {k : Pkt} (h : routeOf s die k = .entry e) : inject s die leaf k = entered s die leaf e k := by
  obtain ⟨v, hv⟩ : ∃ v, s.rn 12 (leaf * 64 + e) die = v := ⟨_, rfl⟩
  have hv' : (s.reg 12 (leaf * 64 + e) die).toNat = v := hv
  have hlt : v < 2 ^ 64 := hv' ▸ BitVec.isLt _
  have hb : bits v 35 32 = v / 2 ^ 32 % 16 := rfl
  simp only [inject, h, entered, hv, hv', hb, not_testBit_63_iff hlt]

theorem entered_spec (hs : s.Canon) (die leaf e : Nat) (k : Pkt) :
    let v := (s.reg 12 (leaf * 64 + e) die).toNat
    (v < 2 ^ 63 → entered s die leaf e k = some (bounce s die k 1)) ∧
    (2 ^ 63 ≤ v → Enters s (entered s die leaf e k) die 0 leaf { k with
      turns := v % 2 ^ 32, tlen := v / 2 ^ 32 % 16,
      way := if (¬ k.dchip = s.ident.chip % 4096 ∨ k.ddie ≠ die) ∧ e = 15 then 1
        else if (¬ k.dchip = s.ident.chip % 4096 ∨ k.ddie ≠ die) ∧ e = 19 then 2 else 0 }) := by
  intro v
  refine ⟨fun h => if_pos h, fun h => ?_⟩
  have hno : ¬ v < 2 ^ 63 := Nat.not_lt.2 h
  rw [entered, if_neg hno]
  exact enterSwitch_enters hs die 0 leaf _

/-- The die to which a packet goes, on its way to its own or to that of the port of its chip. -/
def BoundFor (s : State) (die : Nat) (k : Pkt) (f : Nat) : Prop :=
  (k.dchip = s.ident.chip % 4096 ∧ f = k.ddie) ∨ (¬ k.dchip = s.ident.chip % 4096 ∧ ∃ p, PortTo s die k.dchip p ∧ f = p / 2)

theorem exists_boundFor {die : Nat} {k : Pkt} (h : ¬ (¬ k.dchip = s.ident.chip % 4096 ∧ ∀ p, ¬ PortTo s die k.dchip p)) :
    ∃ f, BoundFor s die k f := by
  by_cases hown : k.dchip = s.ident.chip % 4096
  · exact ⟨_, .inl ⟨hown, rfl⟩⟩
  · obtain ⟨p, hp⟩ := not_forall_not.1 fun hp => h ⟨hown, hp⟩
    exact ⟨_, .inr ⟨hown, p, hp, rfl⟩⟩

theorem routeOf_away {die f : Nat} {k : Pkt} (hk : ¬ (k.cls = 3 ∧ 12 ≤ k.dep)) (hf : BoundFor s die k f) (hne : f ≠ die) :
    routeOf s die k = toDie s die f k.way := by
  rcases hf with ⟨hown, rfl⟩ | ⟨hown, p, hp, rfl⟩
  · rw [routeOf, if_neg hk, if_neg (not_not.2 hown), if_pos hne]
  · rw [routeOf, if_neg hk, if_pos hown, pickPort_eq_some_iff.2 hp]
    exact if_neg hne

theorem routeOf_here {die : Nat} {k : Pkt} (hk : ¬ (k.cls = 3 ∧ 12 ≤ k.dep)) (hf : BoundFor s die k die) :
    ∃ e, routeOf s die k = .entry e ∧ (k.dchip = s.ident.chip % 4096 ∧ e = (if k.cls = 3 then 32 + k.dep else k.dep) ∨
      ¬ k.dchip = s.ident.chip % 4096 ∧ e = 11) := by
  rcases hf with ⟨hown, hdie⟩ | ⟨hown, p, hp, hdie⟩
  · refine ⟨_, ?_, .inl ⟨hown, rfl⟩⟩
    rw [routeOf, if_neg hk, if_neg (not_not.2 hown), if_neg (not_not.2 hdie.symm)]
    split_ifs <;> rfl
  · refine ⟨11, ?_, .inr ⟨hown, rfl⟩⟩
    rw [routeOf, if_neg hk, if_pos hown, pickPort_eq_some_iff.2 hp]
    exact if_pos hdie.symm

/-- Injecting a packet does what the rules say. -/
theorem inject_injected (hs : s.Canon) (die leaf : Nat) (k : Pkt) : Injected s die leaf k (inject s die leaf k) := by
  refine ⟨fun hr => inject_fault (if_pos hr), fun hk ⟨hown, hp⟩ => inject_fault ?_, fun hk hgo => ?_⟩
  · rw [routeOf, if_neg hk, if_pos hown, pickPort_eq_none_iff.2 hp]
  obtain ⟨f, hf⟩ := exists_boundFor hgo
  by_cases hhere : f = die
  · subst hhere
    obtain ⟨e, hroute, he⟩ := routeOf_here hk hf
    refine ⟨f, e, _, hf, rfl, fun h => absurd rfl h.1, .inl ⟨rfl, he⟩, fun _ => ?_⟩
    rw [inject_entry hroute]
    exact entered_spec hs f leaf e k
  have hroute := routeOf_away hk hf hhere
  rw [toDie_eq] at hroute
  by_cases h₁ : wayTo s die f k.way = 1
  · rw [if_pos h₁] at hroute
    refine ⟨f, 15, _, hf, rfl, fun h => absurd h₁ h.2.1, .inr (.inl ⟨hhere, .inl ⟨h₁, rfl⟩⟩), fun _ => ?_⟩
    rw [inject_entry hroute]
    exact entered_spec hs die leaf 15 k
  by_cases h₂ : wayTo s die f k.way = 2
  · rw [if_neg h₁, if_pos h₂] at hroute
    refine ⟨f, 19, _, hf, rfl, fun h => absurd h₂ h.2.2, .inr (.inl ⟨hhere, .inr ⟨h₂, rfl⟩⟩), fun _ => ?_⟩
    rw [inject_entry hroute]
    exact entered_spec hs die leaf 19 k
  rw [if_neg h₁, if_neg h₂] at hroute
  refine ⟨f, 0, _, hf, rfl, fun _ => ?_, .inr (.inr ⟨hhere, h₁, h₂⟩), fun h => absurd h (by tauto)⟩
  by_cases hreach : s.reach die f = true
  · rw [if_pos hreach] at hroute ⊢
    exact inject_hold hroute
  · rw [if_neg hreach] at hroute ⊢
    exact inject_fault hroute

end Sys2Proof.Machine
end

section
/-! Packets through the network: requests counted and injected, the port switch, the switches and endpoints, and what a failed
endpoint re-injects (R38, R41, R45 to R56, R74, R76, R239). -/

namespace Sys2Proof.Machine

variable {s : State} {die leaf : Nat} {k : Pkt}

/-! Requests -/

theorem isReq_iff (k : Pkt) : isReq k = true ↔ k.opc ∈ [0, 1, 4, 6, 8] := by
  simp only [isReq, Bool.or_eq_true, beq_iff_eq, List.mem_cons, List.not_mem_nil, or_false, or_assoc]

theorem noteReq_frame (s : State) (k : Pkt) (n : Nat) :
    noteReq s k n = { s with efts := (noteReq s k n).efts, seqrs := (noteReq s k n).seqrs } := by
  unfold noteReq
  split_ifs <;> rfl

/-- A request takes the next number of its requester, whose window counts it. -/
theorem countReq_of_isReq {r : State} {k' : Pkt} (h : countReq s k = (r, k')) (hk : isReq k = true) :
    k' = { k with q := (s.wins.get (64, 0, 0) (winKey k)).2.2 } ∧ r = { s with wins := r.wins, efts := r.efts, seqrs := r.seqrs } ∧
    r.wins = s.wins.put (64, 0, 0) (winKey k) ((s.wins.get (64, 0, 0) (winKey k)).1, (s.wins.get (64, 0, 0) (winKey k)).2.1,
      (s.wins.get (64, 0, 0) (winKey k)).2.2 + 1) := by
  simp only [countReq, if_pos hk, Prod.mk.injEq] at h
  obtain ⟨rfl, rfl⟩ := h
  rw [noteReq_frame]
  exact ⟨rfl, rfl, rfl⟩

theorem countReq_of_not_isReq {r : State} {k' : Pkt} (h : countReq s k = (r, k')) (hk : ¬ isReq k = true) : k' = k ∧ r = s := by
  rw [countReq, if_neg hk] at h
  simp only [Prod.mk.injEq] at h
  exact ⟨h.2.symm, h.1.symm⟩

theorem countReq_canon {r : State} {k' : Pkt} (hs : s.Canon) (h : countReq s k = (r, k')) : r.Canon := by
  by_cases hk : isReq k = true
  · obtain ⟨-, hr, -⟩ := countReq_of_isReq h hk
    exact hs.of_eq (by rw [hr]) (by rw [hr])
  · obtain ⟨-, rfl⟩ := countReq_of_not_isReq h hk
    exact hs

theorem exec_packetInject_waits (hd : die < 4) (hl : leaf < 8) (h : windowFull s k = true ∨ lookupHeld s k = true) :
    exec (.packetInject die leaf k) s = .next (s.post (.packetInject die leaf k)) := by
  rw [exec_packetInject, execPacketInject, if_neg (by omega)]
  exact if_pos (by simpa using h)

theorem exec_packetInject_own {r : State} {k' : Pkt} (hd : die < 4) (hl : leaf < 8) (hc : countReq s k = (r, k'))
    (hw : windowFull s k = false) (hh : lookupHeld s k = false) (ho : k.opc ∈ [0, 1, 4] ∧ ownLeaf s k = true) :
    exec (.packetInject die leaf k) s = .next (r.post (performed die k')) := by
  rw [exec_packetInject, execPacketInject, if_neg (by omega), hc, hw, hh]
  exact if_pos ho

theorem exec_packetInject_goes {r : State} {k' : Pkt} (hd : die < 4) (hl : leaf < 8) (hc : countReq s k = (r, k'))
    (hw : windowFull s k = false) (hh : lookupHeld s k = false) (ho : ¬ (k.opc ∈ [0, 1, 4] ∧ ownLeaf s k = true)) :
    exec (.packetInject die leaf k) s = .next ((inject r die leaf k').getD (s.post (.packetInject die leaf k))) := by
  rw [exec_packetInject, execPacketInject, if_neg (by omega), hc, hw, hh]
  exact if_neg ho

theorem countReq_opc {r : State} {k' : Pkt} (h : countReq s k = (r, k')) : k'.opc = k.opc := by
  by_cases hk : isReq k = true
  · rw [(countReq_of_isReq h hk).1]
  · rw [(countReq_of_not_isReq h hk).1]

/-! The port switch -/

theorem portOwes_iff (s : State) (die : Nat) : portOwes s die = true ↔
    (s.link (die * 4 + 2)).reinject ≠ [] ∨ (s.link (die * 4 + 3)).reinject ≠ [] := by
  simp [portOwes]

theorem exec_portSwitchRoute_in (hd : die < 4) (hown : k.dchip = s.ident.chip % 4096) :
    exec (.portSwitchRoute die true k) s = .next ((inject s die 2 { k with
      dep := if k.cls = 0 ∧ k.opc ∈ [0, 1, 4] then (endpointOf s k.part k.va).2 else k.dep,
      ddie := if k.opc = 3 ∨ k.opc = 7 then k.ddie else s.physDie k.ddie }).getD (s.post (.portSwitchRoute die true k))) := by
  rw [exec_portSwitchRoute, execPortSwitchRoute, if_neg (by omega), if_pos (by simpa using hown)]
  by_cases h₁ : k.cls = 0 ∧ k.opc ∈ [0, 1, 4]
  · by_cases h₂ : k.opc = 3 ∨ k.opc = 7
    · simp only [if_pos h₁, if_pos h₂]
    · simp only [if_pos h₁, if_neg h₂]
  · by_cases h₂ : k.opc = 3 ∨ k.opc = 7
    · simp only [if_neg h₁, if_pos h₂]
    · simp only [if_neg h₁, if_neg h₂]

theorem exec_portSwitchRoute_out {b : Bool} (hd : die < 4) (hown : ¬ k.dchip = s.ident.chip % 4096) :
    exec (.portSwitchRoute die b k) s = if portOwes s die = true then .next (s.post (.portSwitchRoute die b k))
      else .next ((pickPort s die k.dchip).elim (bounce s die k 8) fun p =>
        (portOut s die k p).getD (s.post (.portSwitchRoute die b k))) := by
  rw [exec_portSwitchRoute, execPortSwitchRoute, if_neg (by omega), if_neg (by simp [hown])]
  cases pickPort s die k.dchip <;> rfl

/-! The switches -/

theorem exec_switchTurn_eq {i : Nat} {h : Hop} (hi : s.net[i]? = some h) : exec (.switchTurn i) s =
    (hopNext { s with net := s.net.eraseIdx i } h).elim (.fault .notPossible) .next := by
  have hmove : hopMove s i = hopNext { s with net := s.net.eraseIdx i } h := by rw [hopMove, hi]
  rw [exec_switchTurn, execSwitchTurn, hmove]
  generalize hopNext { s with net := s.net.eraseIdx i } h = o
  cases o <;> rfl

theorem linkFailed_iff (hd : die < 4) {e : Nat} (he : e = 15 ∨ e = 19) :
    s.linkFailed (if e = 15 then die else (die + 3) % 4) = true ↔
      ∃ x, IsEnd (die * 4 + (if e = 15 then 0 else 1)) x ∧ (s.link x).st = 3 := by
  simp only [State.linkFailed, Bool.or_eq_true, beq_iff_eq]
  rcases he with rfl | rfl
  · simp only [reduceIte, IsEnd]
    constructor
    · rintro (h | h)
      · exact ⟨_, .inl rfl, h⟩
      · exact ⟨_, .inr (.inl ⟨by omega, by omega⟩), h⟩
    · rintro ⟨x, rfl | ⟨-, rfl⟩ | ⟨h, -⟩, hx⟩
      · exact .inl hx
      · have heq : (die * 4 + 0) / 4 = die := by omega
        rw [heq] at hx
        exact .inr hx
      · omega
  · have hback : ((die + 3) % 4 + 1) % 4 = die := by omega
    simp only [hback, IsEnd, if_neg (show ¬ 19 = 15 by decide)]
    constructor
    · rintro (h | h)
      · exact ⟨_, .inr (.inr ⟨by omega, by omega⟩), h⟩
      · exact ⟨_, .inl rfl, h⟩
    · rintro ⟨x, rfl | ⟨h, -⟩ | ⟨-, rfl⟩, hx⟩
      · exact .inr hx
      · omega
      · have heq : (die * 4 + 1) / 4 = die := by omega
        rw [heq] at hx
        exact .inl hx

/-- Whether a packet is bound for this die. -/
abbrev IsHere (s : State) (die : Nat) (k : Pkt) : Prop := k.dchip = s.ident.chip % 4096 ∧ k.ddie = die

theorem atEndpoint_report {e : Nat} (he : e = 15 ∨ e = 19) (h : IsHere s die k) (ho : k.opc = 9) :
    atEndpoint s die e k = some (s.post (.linkReport die k)) := by
  rw [atEndpoint, if_pos he]
  exact if_pos ⟨by simpa using h, ho⟩

theorem atEndpoint_ring {e : Nat} (he : e = 15 ∨ e = 19) (h : ¬ (IsHere s die k ∧ k.opc = 9)) : atEndpoint s die e k = atRing s die e k := by
  rw [atEndpoint, if_pos he]
  exact if_neg fun ⟨hh, ho⟩ => h ⟨by simpa using hh, ho⟩

theorem atEndpoint_port : atEndpoint s die 11 k = some (s.post
    (if IsHere s die k ∧ k.cls = 3 ∧ 8 ≤ k.dep ∧ k.dep < 12 then .eftPacketArrival die k.dep k else .portSwitchRoute die false k)) := by
  have hhere : (k.dchip == s.ident.chip % 4096 && k.ddie == die) = true ↔ IsHere s die k := by simp
  rw [atEndpoint, if_neg (by decide), if_pos rfl]
  simp only [hhere]
  split_ifs <;> rfl

theorem atEndpoint_other {e : Nat} (h15 : e ≠ 15) (h19 : e ≠ 19) (h11 : e ≠ 11) : atEndpoint s die e k = some
    (if e = 27 then (if k.opc = 6 then s.post (.collectiveData die k) else if k.opc = 3 then s.post (.answer die k)
      else if k.opc = 7 then s.post (.nack die k) else s)
    else if k.opc = 0 then s.post (.read die k) else if k.opc = 1 then s.post (.write die k)
    else if k.opc = 2 then s.post (.readReply die k) else if k.opc = 3 then s.post (.writeAcknowledge die k)
    else if k.opc = 4 then s.post (.bankOperation die k) else if k.opc = 5 then s.post (.bankReply die k) else s) := by
  rw [atEndpoint, if_neg (by omega), if_neg h11]
  split_ifs <;> rfl

theorem atRing_up (hl : s.links.Rises) (hd : die < 4) {e : Nat} (he : e = 15 ∨ e = 19)
    (h : ∀ x, IsEnd (die * 4 + (if e = 15 then 0 else 1)) x → (s.link x).st ≠ 3) :
    Offered s (die * 4 + (if e = 15 then 0 else 1)) k (atRing s die e k) := by
  have hno : ¬ s.linkFailed (if e = 15 then die else (die + 3) % 4) = true := fun hf => by
    obtain ⟨x, hx, h3⟩ := (linkFailed_iff hd he).1 hf
    exact h x hx h3
  rw [atRing, if_neg hno]
  exact linkSend_offered hl _ k

theorem atRing_failed (hd : die < 4) {e : Nat} (he : e = 15 ∨ e = 19)
    (h : ∃ x, IsEnd (die * 4 + (if e = 15 then 0 else 1)) x ∧ (s.link x).st = 3) :
    atRing s die e k = if (s.link (die * 4 + (if e = 15 then 0 else 1))).reported = true ∧
        (s.link (die * 4 + (if e = 15 then 0 else 1))).reinject = [] then inject s die (e / 4) { k with way := 0 } else none := by
  rw [atRing, if_pos ((linkFailed_iff hd he).2 h)]
  simp only [Bool.and_eq_true, List.isEmpty_iff]

theorem atEndpoint_ring_up (hl : s.links.Rises) (hd : die < 4) {e : Nat} (he : e = 15 ∨ e = 19) (hno : ¬ (IsHere s die k ∧ k.opc = 9))
    (h : ∀ x, IsEnd (die * 4 + (if e = 15 then 0 else 1)) x → (s.link x).st ≠ 3) :
    Offered s (die * 4 + (if e = 15 then 0 else 1)) k (atEndpoint s die e k) := by
  rw [atEndpoint_ring he hno]
  exact atRing_up hl hd he h

theorem atEndpoint_ring_waits (hd : die < 4) {e : Nat} (he : e = 15 ∨ e = 19) (hno : ¬ (IsHere s die k ∧ k.opc = 9))
    (h : ∃ x, IsEnd (die * 4 + (if e = 15 then 0 else 1)) x ∧ (s.link x).st = 3)
    (hw : (s.link (die * 4 + (if e = 15 then 0 else 1))).reported = false ∨
      (s.link (die * 4 + (if e = 15 then 0 else 1))).reinject ≠ []) : atEndpoint s die e k = none := by
  rw [atEndpoint_ring he hno, atRing_failed hd he h]
  refine if_neg fun ⟨hr, hn⟩ => hw.elim (fun hf => ?_) fun hne => hne hn
  rw [hf] at hr
  exact absurd hr (by decide)

theorem atEndpoint_ring_onward (hd : die < 4) {e : Nat} (he : e = 15 ∨ e = 19) (hno : ¬ (IsHere s die k ∧ k.opc = 9))
    (h : ∃ x, IsEnd (die * 4 + (if e = 15 then 0 else 1)) x ∧ (s.link x).st = 3)
    (hr : (s.link (die * 4 + (if e = 15 then 0 else 1))).reported = true)
    (hn : (s.link (die * 4 + (if e = 15 then 0 else 1))).reinject = []) :
    atEndpoint s die e k = inject s die (e / 4) { k with way := 0 } := by
  rw [atEndpoint_ring he hno, atRing_failed hd he h, if_pos ⟨hr, hn⟩]

/-! What a failed endpoint re-injects -/

theorem linkMove_reinjects {ep : Nat} {t : State} (hst : (s.link ep).st = 3) (hrep : (s.link ep).reported = true)
    (h : reinjectMove s ep = some t) : linkMove ep s = .next t := by
  have hno : noReport s ep = false := by simp [noReport, hrep]
  have hlate : linkLate s ep = false := by simp [linkLate, hst]
  rw [linkMove, hno, hlate, h]
  rfl

theorem step_reinjects {ep : Nat} {u t : State} (hu : u = { s with turn := none, tick := s.tick + 1 })
    (hturn : s.turn = some (.link ep)) (hst : (s.link ep).st = 3) (hrep : (s.link ep).reported = true)
    (h : reinjectMove u ep = some t) (ht : t.stalled = false) : step s = .next t := by
  have hlink : u.link ep = s.link ep := by rw [hu]; rfl
  have hmove : runMove (.link ep) u = .next t := linkMove_reinjects (hlink ▸ hst) (hlink ▸ hrep) h
  rw [step, nextMove, hturn, makeMove, ← hu, hmove]
  simp [ht]

theorem reinjectMove_eq {ep : Nat} {p : Pkt} {rest : List Pkt} (h : (s.link ep).reinject = p :: rest) : reinjectMove s ep =
    if ep % 4 < 2 then
      inject (s.setLink ep { s.link ep with reinject := rest }) (ep / 4) (if ep % 4 = 0 then 3 else 4) { p with way := 0 }
    else (pickPort s (ep / 4) p.dchip).elim (some (s.setLink ep { s.link ep with reinject := rest })) fun q =>
      portOut (s.setLink ep { s.link ep with reinject := rest }) (ep / 4) { p with way := 0 } q := by
  simp only [reinjectMove, h]
  split_ifs with hring
  · rfl
  · rfl
  · generalize pickPort s (ep / 4) p.dchip = o
    cases o <;> rfl

theorem reinjectMove_ring {ep : Nat} {p : Pkt} {rest : List Pkt} (h : (s.link ep).reinject = p :: rest) (hring : ep % 4 < 2) :
    reinjectMove s ep =
      inject (s.setLink ep { s.link ep with reinject := rest }) (ep / 4) (3 + ep % 4) { p with way := 0 } := by
  have hleaf : (if ep % 4 = 0 then 3 else 4) = 3 + ep % 4 := by split_ifs <;> omega
  rw [reinjectMove_eq h, if_pos hring, hleaf]

theorem reinjectMove_stranded {ep : Nat} {p : Pkt} {rest : List Pkt} (h : (s.link ep).reinject = p :: rest) (hport : 2 ≤ ep % 4)
    (hp : ∀ q, ¬ PortTo s (ep / 4) p.dchip q) :
    reinjectMove s ep = some (s.setLink ep { s.link ep with reinject := rest }) := by
  rw [reinjectMove_eq h, if_neg (Nat.not_lt.2 hport), pickPort_eq_none_iff.2 hp]
  rfl

theorem reinjectMove_port {ep q : Nat} {p : Pkt} {rest : List Pkt} (h : (s.link ep).reinject = p :: rest) (hport : 2 ≤ ep % 4)
    (hp : PortTo s (ep / 4) p.dchip q) (hq : q / 2 = ep / 4) :
    reinjectMove s ep = linkSend (s.setLink ep { s.link ep with reinject := rest }) (portEp q) { p with way := 0 } := by
  rw [reinjectMove_eq h, if_neg (Nat.not_lt.2 hport), pickPort_eq_some_iff.2 hp]
  exact if_pos hq

/-! The obligation: each instruction does what the rules say -/

theorem injected_waits {r : State} {i : Instr} {k' : Pkt} (hr : r.Canon)
    (h : exec i s = .next ((inject r die leaf k').getD (s.post i))) : ∃ o, Injected r die leaf k' o ∧ exec i s = .next (o.getD (s.post i)) :=
  ⟨_, inject_injected hr die leaf k', h⟩

theorem exec_jalcyDEndpointRewrite_goes {u : Nat} (hd : die < 4) (hu : u < 2) : exec (.jalcyDEndpointRewrite (die * 4 + u) k) s =
    .next ((inject s die (3 + u) { k with hop := min 3 (k.hop + 1) }).getD (s.post (.jalcyDEndpointRewrite (die * 4 + u) k))) := by
  have hdie : (die * 4 + u) / 4 = die := by omega
  have hleaf : (if (die * 4 + u) % 4 = 0 then 3 else 4) = 3 + u := by split_ifs <;> omega
  rw [exec_jalcyDEndpointRewrite, execJalcyDEndpointRewrite, if_neg (by omega)]
  simp only [hdie, hleaf]

theorem exec_portSwitchRoute_onward {b : Bool} {p : Nat} (hd : die < 4) (hown : ¬ k.dchip = s.ident.chip % 4096)
    (hp : PortTo s die k.dchip p) (howes : ¬ portOwes s die = true) :
    exec (.portSwitchRoute die b k) s = .next ((portOut s die k p).getD (s.post (.portSwitchRoute die b k))) := by
  rw [exec_portSwitchRoute_out hd hown, if_neg howes, pickPort_eq_some_iff.2 hp]
  rfl

theorem exec_portSwitchRoute_bounces {b : Bool} (hd : die < 4) (hown : ¬ k.dchip = s.ident.chip % 4096)
    (hp : ∀ p, ¬ PortTo s die k.dchip p) (howes : ¬ portOwes s die = true) :
    exec (.portSwitchRoute die b k) s = .next (bounce s die k 8) := by
  rw [exec_portSwitchRoute_out hd hown, if_neg howes, pickPort_eq_none_iff.2 hp]
  rfl

theorem exec_portSwitchRoute_next {b : Bool} (hd : die < 4) (hown : ¬ k.dchip = s.ident.chip % 4096) :
    ∃ t, exec (.portSwitchRoute die b k) s = .next t := by
  rw [exec_portSwitchRoute_out hd hown]
  split_ifs
  · exact ⟨_, rfl⟩
  · exact ⟨_, rfl⟩

theorem hopNext_leafUp {h : Hop} (hst : h.stage = 0) (hp : 4 ≤ h.port) :
    hopNext s h = enterSwitch s h.die 1 (h.num / 4 * 4 + (h.port - 4)) h.pkt := by
  rw [hopNext, if_pos hst, if_pos hp]

theorem hopNext_endpoint {h : Hop} (hst : h.stage = 0) (hp : h.port < 4) :
    hopNext s h = atEndpoint s h.die (h.num * 4 + h.port) h.pkt := by
  rw [hopNext, if_pos hst, if_neg (by omega)]

theorem hopNext_midUp {h : Hop} (hst : h.stage = 1) (hp : 4 ≤ h.port) : hopNext s h = enterSwitch s h.die 2 (h.num % 4) h.pkt := by
  rw [hopNext, if_neg (by omega), if_pos hst, if_pos hp]

theorem hopNext_midDown {h : Hop} (hst : h.stage = 1) (hp : h.port < 4) :
    hopNext s h = enterSwitch s h.die 0 (h.num / 4 * 4 + h.port) h.pkt := by
  rw [hopNext, if_neg (by omega), if_pos hst, if_neg (by omega)]

theorem hopNext_spineDown {h : Hop} (hst : h.stage = 2) (hp : h.port < 2) :
    hopNext s h = enterSwitch s h.die 1 (4 * h.port + h.num) h.pkt := by
  rw [hopNext, if_neg (by omega), if_neg (by omega), if_pos hp]

theorem hopNext_spineCore {h : Hop} (hst : h.stage = 2) (hp : 2 ≤ h.port) :
    hopNext s h = some (s.post (.eftPacketArrival h.die (2 * h.num + (h.port - 2)) h.pkt)) := by
  rw [hopNext, if_neg (by omega), if_neg (by omega), if_neg (by omega)]

/-- Settles O43: a hop goes where its switch's port leads, injecting follows the turn table, and links take what they have room for. -/
theorem packetsAreRoutedThroughTheNetwork : Obligations.PacketsAreRoutedThroughTheNetwork := by
  unfold Obligations.PacketsAreRoutedThroughTheNetwork
  intro s hs hl
  refine ⟨?_, ?_, ?_, ?_, ?_, ?_, ?_⟩
  · rintro die leaf u k k' i r hd hu (⟨rfl, hc, hleaf, hw, hh, ho⟩ | ⟨rfl, rfl, rfl, rfl⟩ | ⟨rfl, hown, rfl, rfl, rfl⟩ |
      ⟨⟨b, p, rfl, hown, hp, hne⟩, howes, rfl, rfl, rfl⟩)
    · exact injected_waits (countReq_canon hs hc) (exec_packetInject_goes hd hleaf hc hw hh ho)
    · exact injected_waits hs (exec_jalcyDEndpointRewrite_goes hd hu)
    · exact injected_waits hs (exec_portSwitchRoute_in hd hown)
    · refine injected_waits hs ?_
      rw [exec_portSwitchRoute_onward hd hown hp fun h => howes ((portOwes_iff _ _).1 h), portOut, if_neg hne]
  · intro die leaf k k' r hd hleaf hc hw hh ho
    have hopc := countReq_opc hc
    refine ⟨fun hk => ?_, fun hk => ?_, fun hk => ?_⟩ <;>
      rw [exec_packetInject_own hd hleaf hc hw hh ⟨by simp [hk], ho⟩, performed, hopc, hk] <;> rfl
  · intro k k' r hc
    refine ⟨fun hk hwins => ?_, fun hk => countReq_of_not_isReq hc fun h => hk ((isReq_iff k).1 h)⟩
    obtain ⟨hk', hr, hput⟩ := countReq_of_isReq hc ((isReq_iff k).2 hk)
    exact ⟨hk', hr, by rw [hput]; exact SMap.get_put_same _ hwins _ _⟩
  · exact fun die leaf k hd hleaf h => exec_packetInject_waits hd hleaf h
  · intro die b k hd hown
    refine ⟨exec_portSwitchRoute_next hd hown, fun howes => ?_, fun howes hp => ?_, fun p howes hp hhere => ?_⟩
    · rw [exec_portSwitchRoute_out hd hown, if_pos ((portOwes_iff s die).2 howes)]
    · exact exec_portSwitchRoute_bounces hd hown hp fun h => howes ((portOwes_iff s die).1 h)
    · refine ⟨_, linkSend_offered hl _ k, ?_⟩
      rw [exec_portSwitchRoute_onward hd hown hp fun h => howes ((portOwes_iff s die).1 h), portOut, if_pos hhere]
      rfl
  · intro i h u hi hu goes moves here
    have hgoes : ∀ o, hopNext u h = o → goes o := fun o ho => by
      have heq := exec_switchTurn_eq hi
      rw [← hu, ho] at heq
      cases o <;> exact heq
    have hcanon : u.Canon := hs.of_eq (by rw [hu]) (by rw [hu])
    have hrises : u.links.Rises := by rw [hu]; exact hl
    have hident : u.ident = s.ident := by rw [hu]
    have hlink : ∀ x, u.link x = s.link x := fun x => by rw [hu]; rfl
    have hhere : IsHere u h.die h.pkt ↔ here := by rw [IsHere, hident]
    have hmoves : ∀ stage num, hopNext u h = enterSwitch u h.die stage num h.pkt → moves stage num := fun stage num ho =>
      ⟨_, enterSwitch_enters hcanon h.die stage num h.pkt, hgoes _ ho⟩
    refine ⟨fun h₀ hp => hmoves _ _ (hopNext_leafUp h₀ hp), fun h₁ hp => hmoves _ _ (hopNext_midUp h₁ hp),
      fun h₁ hp => hmoves _ _ (hopNext_midDown h₁ hp), fun h₂ hp => hmoves _ _ (hopNext_spineDown h₂ hp),
      fun h₂ hp => hgoes _ (hopNext_spineCore h₂ hp), ?_⟩
    intro e hd h₀ hp he
    have hend : hopNext u h = atEndpoint u h.die e h.pkt := by rw [hopNext_endpoint h₀ hp, he]
    refine ⟨fun hring ep l hep hlk => ⟨fun hh ho => ?_, fun hno hup => ?_, fun hno hdown => ?_⟩, fun h11 => ?_, fun h15 h19 h11 => ?_⟩
    · exact hgoes _ (hend.trans (atEndpoint_report hring (hhere.2 hh) ho))
    · rw [← hhere] at hno
      subst hep
      simp only [← hlink] at hup
      exact ⟨_, atEndpoint_ring_up hrises hd hring hno hup, hgoes _ hend⟩
    · rw [← hhere] at hno
      subst hep hlk
      simp only [← hlink] at hdown ⊢
      exact ⟨fun hw => hgoes _ (hend.trans (atEndpoint_ring_waits hd hring hno hdown hw)), fun hr hn =>
        ⟨_, inject_injected hcanon h.die (e / 4) _, hgoes _ (hend.trans (atEndpoint_ring_onward hd hring hno hdown hr hn))⟩⟩
    · rw [h11] at hend
      rw [atEndpoint_port] at hend
      simp only [hhere] at hend
      exact hgoes _ hend
    · exact hgoes _ (hend.trans (atEndpoint_other h15 h19 h11))
  · intro ep l p rest hep hturn hlk hst hrep hre v
    obtain ⟨u, hu⟩ : ∃ u : State, u = { s with turn := none, tick := s.tick + 1 } := ⟨_, rfl⟩
    subst hlk
    have hlink : u.link ep = s.link ep := by rw [hu]; rfl
    have hv : v = u.setLink ep { u.link ep with reinject := rest } := by rw [hlink, hu]
    have hreu : (u.link ep).reinject = p :: rest := by rw [hlink]; exact hre
    have hport : ∀ q, PortTo u (ep / 4) p.dchip q ↔ PortTo s (ep / 4) p.dchip q := fun q => by rw [hu]; rfl
    have hcanon : v.Canon := hs.of_eq (by rw [hv, hu]; rfl) (by rw [hv, hu]; rfl)
    have hrises : v.links.Rises := by rw [hv, hu]; exact (LinkBecomes.start hl ep _).rises
    have hstep : ∀ o t, reinjectMove u ep = o → o = some t → t.stalled = false → step s = .next t := fun o t hmove ht =>
      step_reinjects hu hturn hst hrep (hmove.trans ht)
    refine ⟨fun hring => ?_, fun hx hst' hp => ?_, fun q hx hp hq => ?_⟩
    · exact ⟨_, inject_injected hcanon (ep / 4) (3 + ep % 4) _, fun t => hstep _ t (hv ▸ reinjectMove_ring hreu hring)⟩
    · exact hstep _ v (hv ▸ reinjectMove_stranded hreu hx fun q h => hp q ((hport q).1 h)) rfl hst'
    · exact ⟨_, linkSend_offered hrises _ _, fun t => hstep _ t (hv ▸ reinjectMove_port hreu hx ((hport q).2 hp) hq)⟩

end Sys2Proof.Machine
end

section
/-! A die's invalidation log applied up to INV_PROD (R143, R144). -/

namespace Sys2Proof.Machine

variable {s : State} {die a dw0 dw1 : Nat}

/-- An entry's effect leaves the registers, the contexts and the tags alone until its RESULT is written. -/
theorem invApply_done (hs : s.Canon) (hn : invNext s die = some (a, dw0, dw1)) (ok : Bool) : ∃ u res,
    invApply s die ok = invDone u die a res ∧ u.Canon ∧ u.regs = s.regs ∧ u.ctxs = s.ctxs ∧ u.tags = s.tags := by
  by_cases h : SoundEntry dw0 ∧ bits dw1 23 8 = 0
  case neg => exact ⟨s, 3, invApply_malformed hn h ok, hs, rfl, rfl, rfl⟩
  rw [invApply_sound hn h.1 h.2]
  split_ifs
  · exact ⟨_, 1, rfl, hs.of_eq rfl rfl, rfl, rfl, rfl⟩
  · exact ⟨_, 1, rfl, hs.of_eq rfl rfl, rfl, rfl, rfl⟩
  have hdrop : (dropPage s die (dw0 % 32) (entryVa dw0)).Canon := hs.of_eq rfl rfl
  by_cases hm : ∃ lf la, entryWalk s dw0 = .ok (lf, la, 0) ∧ moveFails s die dw0 dw1 lf ok = false
  · obtain ⟨lf, la, hw, hf⟩ := hm
    have ht := ((reachedFrames_touches s die dw0 dw1 lf).trans (copyPage_touches _ (region 6 (bits lf 46 24 * 2 ^ 16))
      (region 6 (bits dw1 46 24 * 2 ^ 16)))).trans (.wrNat _ la 8 (movedLeaf lf dw1))
    refine ⟨_, 1, invMove_moves hw hf, ht.canon hdrop, ?_, ht.ctxs, by rw [ht.frame]; rfl⟩
    rw [wrNat_regs, copyPage_regs, reachedFrames_regs]
  · have ht := walked_touches s die dw0
    refine ⟨_, 2, invMove_abandoned fun lf la hw => ?_, ht.canon hdrop, walked_regs s die dw0, ht.ctxs, by rw [ht.frame]; rfl⟩
    by_contra hf
    exact hm ⟨lf, la, hw, Bool.eq_false_iff.2 hf⟩

/-- An entry applied advances INV_DONE, and changes no other register, no context and no tag. -/
theorem invApply_advances (hs : s.Canon) (hn : invNext s die = some (a, dw0, dw1)) (ok : Bool) : let t := invApply s die ok
    t.Canon ∧ t.reg 3 0xC07 die = s.reg 3 0xC07 die + 1 ∧ (∀ n, rkey 3 n die ≠ rkey 3 0xC07 die → t.reg 3 n die = s.reg 3 n die) ∧
    t.ctxs = s.ctxs ∧ t.tags = s.tags := by
  obtain ⟨u, res, hdone, hu, hregs, hctxs, htags⟩ := invApply_done hs hn ok
  have hreg : ∀ n, u.reg 3 n die = s.reg 3 n die := fun n => by rw [State.reg, hregs, State.reg]
  have hfin := invDone_finishes hu die a res
  rw [hdone]
  refine ⟨hfin.touches.canon hu, hfin.done.trans (by rw [hreg]), fun n h => ?_, hfin.touches.ctxs.trans hctxs,
    (by rw [hfin.touches.frame] : _ = u.tags).trans htags⟩
  rw [invDone, State.bump, State.reg_setReg_other (hu.wrByte _ _).regs _ h, State.reg, wrByte_regs]
  exact hreg n

/-- A log that is stopped or applied has no next entry. -/
theorem invNext_none (h : s.rn 3 0xC05 die / 32 % 2 = 1 ∨ s.reg 3 0xC07 die = s.reg 3 0xC06 die) : invNext s die = none := by
  have hcond : ((s.rn 3 0xC05 die).testBit 5 || decide (s.rn 3 0xC05 die % 32 < 4) || decide (s.rn 3 0xC05 die % 32 > 16)
      || s.rn 3 0xC07 die == s.rn 3 0xC06 die) = true := by
    rcases h with h | h
    · have hbit : (s.rn 3 0xC05 die).testBit 5 = true := by
        rw [Nat.testBit_eq_decide_div_mod_eq, decide_eq_true_eq]; exact h
      simp only [hbit, Bool.true_or]
    · simp only [State.rn, h, beq_self_eq_true, Bool.or_true]
  unfold invNext
  dsimp only
  rw [hcond]
  rfl

theorem invRun_stopped (h : invNext s die = none) (f : Nat) : invRun f s die = s := by
  cases f with
  | zero => rfl
  | succ f => rw [invRun, h]; rfl

/-- A log that runs, with fuel for its entries, is applied up to INV_PROD. -/
theorem invRun_applies (f : Nat) (hs : s.Canon) (herr : s.rn 3 0xC05 die / 32 % 2 = 0) (hlo : 4 ≤ s.rn 3 0xC05 die % 32)
    (hhi : s.rn 3 0xC05 die % 32 ≤ 16) (hf : (s.reg 3 0xC06 die - s.reg 3 0xC07 die).toNat ≤ f) : let t := invRun f s die
    t.reg 3 0xC07 die = s.reg 3 0xC06 die ∧ t.ctxs = s.ctxs ∧ t.tags = s.tags := by
  induction f generalizing s with
  | zero =>
    refine ⟨?_, rfl, rfl⟩
    show s.reg 3 0xC07 die = s.reg 3 0xC06 die
    bv_omega
  | succ f ih =>
    by_cases he : s.reg 3 0xC07 die = s.reg 3 0xC06 die
    · rw [invRun, invNext_none (.inr he)]
      exact ⟨he, rfl, rfl⟩
    have hn := invNext_of_log ⟨hlo, hhi, herr, he, rfl⟩
    obtain ⟨hc, hdone, hreg, hctxs, htags⟩ := invApply_advances hs hn true
    have hctl := hreg 0xC05 (by unfold rkey; omega)
    have hprod := hreg 0xC06 (by unfold rkey; omega)
    rw [invRun, hn, if_neg (by simp)]
    obtain ⟨hend, hc', ht'⟩ := ih hc (by rw [State.rn, hctl]; exact herr) (by rw [State.rn, hctl]; exact hlo)
      (by rw [State.rn, hctl]; exact hhi) (by rw [hprod, hdone]; bv_omega)
    exact ⟨hend.trans hprod, hc'.trans hctxs, ht'.trans htags⟩

end Sys2Proof.Machine
end

section
/-! Writes of the registers of tiles, clusters and dies, and verdicts (R48, R56, R57, R143, R144, R177, R195, R236, R238, R240, R241). -/

namespace Sys2Proof.Machine

variable {s : State}

/-! Tiles and clusters -/

theorem namedBy_isEmpty_iff (s : State) (tile : Nat) : (namedBy s tile).isEmpty = true ↔ ∀ p < 32, ∀ g < 512, s.physTile p g ≠ some tile := by
  simp [namedBy, List.flatMap_eq_nil_iff, List.filter_eq_nil_iff]

/-- FINJ_CTL keeps bits 31:16 and 2:0 (R241). -/
theorem finjCtl_fields (v : Nat) : bits v 31 16 * 2 ^ 16 + v % 8 = v &&& 0xFFFF0007 := by
  have h16 := and_split 16 v 0xFFFF0007
  have hlo := Nat.and_two_pow_sub_one_eq_mod (v % 2 ^ 16) 3
  have hhi := Nat.and_two_pow_sub_one_eq_mod (v / 2 ^ 16) 16
  norm_num at h16 hlo hhi
  simp only [bits]
  omega

/-- An entry of a turn table keeps bits 63 and 35:0 (R48). -/
theorem nocTurn_fields {v : Nat} (h : v < 2 ^ 64) : v - bits v 62 36 * 2 ^ 36 = v &&& 0x8000000FFFFFFFFF := by
  have h36 := and_split 36 v 0x8000000FFFFFFFFF
  have h63 := and_split 27 (v / 2 ^ 36) 0x8000000
  have hlo := Nat.and_two_pow_sub_one_eq_mod (v % 2 ^ 36) 36
  have hhi := Nat.and_two_pow_sub_one_eq_mod (v / 2 ^ 36 / 2 ^ 27) 1
  norm_num at h36 h63 hlo hhi
  simp only [bits]
  omega

/-! Dies -/

/-- INV_PROD takes the value; an overrun sets INV_ERR (R144). -/
theorem wrInvProd_eq (hs : s.Canon) (die v : Nat) : wrInvProd s die v =
    if (v + 2 ^ 64 - s.rn 3 0xC07 die) % 2 ^ 64 > 2 ^ (s.rn 3 0xC05 die % 32)
    then (s.setN 3 0xC06 die v).setN 3 0xC05 die (withBits (s.rn 3 0xC05 die) 5 5 1) else s.setN 3 0xC06 die v := by
  have hctl : (s.setN 3 0xC06 die v).rn 3 0xC05 die = s.rn 3 0xC05 die := State.rn_setN_other hs.regs _ (by unfold rkey; omega)
  have hdone : (s.setN 3 0xC06 die v).rn 3 0xC07 die = s.rn 3 0xC07 die := State.rn_setN_other hs.regs _ (by unfold rkey; omega)
  unfold wrInvProd
  dsimp only
  rw [hctl, hdone]
  rfl

/-- The three turns that an entry of a core of a spine must hold (R48). -/
theorem turnsOf_spine {v e : Nat} (h : turnsOf v = [15, 15, 2 + e % 2]) : v / 2 ^ 32 % 16 = 3 ∧ v % 2 ^ 12 = (2 + e % 2) * 2 ^ 8 + 0xFF := by
  have hlen : bits v 35 32 = 3 := by
    have := congrArg List.length h
    simpa [turnsOf] using this
  rw [turnsOf, hlen] at h
  simp only [List.range, List.range.loop, List.map, List.cons.injEq, bits, and_true] at h
  norm_num at h
  rw [bits] at hlen
  exact ⟨hlen, by omega⟩

theorem turnOk_false {e v : Nat} (h : 8 < v / 2 ^ 32 % 16 ∨
    (32 ≤ e ∧ e < 40 ∧ (v / 2 ^ 32 % 16 ≠ 3 ∨ v % 2 ^ 12 ≠ (2 + e % 2) * 2 ^ 8 + 0xFF))) : turnOk e v = false := by
  rw [Bool.eq_false_iff]
  intro hok
  simp only [turnOk, Bool.and_eq_true, Bool.or_eq_true, decide_eq_true_eq, Bool.not_eq_true', Bool.and_eq_false_iff,
    decide_eq_false_iff_not, beq_iff_eq] at hok
  obtain ⟨⟨⟨hlen, -⟩, -⟩, hspine⟩ := hok
  rcases h with h | ⟨h1, h2, h⟩
  · rw [bits] at hlen; omega
  · rcases hspine with (h' | h') | hts
    · exact h' h1
    · exact h' h2
    · have := turnsOf_spine hts
      omega

/-! Contexts: the ring table and verdicts -/

/-- The entry of a live context replaced: every entry of that context is the new one. -/
theorem mem_setLive {l m : Live} (h : m ∈ (s.setLive l).live) (hp : m.part = l.part) (hc : m.cr = l.cr) : m = l := by
  obtain ⟨n, -, rfl⟩ := List.mem_map.1 h
  split_ifs with he
  · rfl
  · rw [if_neg he] at hp hc
    simp [hp, hc] at he

theorem live?_none {part cr : Nat} (h : s.live? part cr = none) (l : Live) (hl : l ∈ s.live) : ¬ (l.part = part ∧ l.cr = cr) := by
  have := List.find?_eq_none.1 h l hl
  simpa using this

theorem live?_key {part cr : Nat} {l : Live} (h : s.live? part cr = some l) : l.part = part ∧ l.cr = cr := by
  have := List.find?_some h
  simpa using this

/-- A verdict counts where it is the first after a seal fault (R236). -/
def VerdictCounts (c : Ctx) : Prop := c.verdict = false ∧ (c.arch.ecause.toNat % 256 = 0x14 ∨ c.arch.ecause.toNat % 256 = 0x15)

theorem verdict_eq {ck v : Nat} {c : Ctx} (h : s.ctx? ck = some c) (hv : v = 1 ∨ v = 2) :
    (¬ VerdictCounts c → verdict s ck v = s) ∧
    (VerdictCounts c → verdict s ck v =
      let u := s.setCtx ck { c with verdict := true }
      if v = 1 then u.setN 1 0x402 (ck / 2) (u.rn 1 0x402 (ck / 2) - 1) else sfcUp u (ck / 2) c.arch.epc.toNat) := by
  have hcond : (c.verdict || (c.arch.ecause.toNat % 256 != 0x14 && c.arch.ecause.toNat % 256 != 0x15) || (v != 1 && v != 2)) = true ↔
      ¬ VerdictCounts c := by
    have hv' : (v != 1 && v != 2) = false := by rcases hv with rfl | rfl <;> rfl
    simp only [VerdictCounts, hv', Bool.or_false, Bool.or_eq_true, Bool.and_eq_true, bne_iff_ne, not_and_or, Bool.not_eq_false, not_or, ne_eq]
  unfold verdict
  rw [h]
  dsimp only
  exact ⟨fun hc => if_pos (hcond.2 hc), fun hc => if_neg fun h' => hcond.1 h' hc⟩

/-- SFC written: the tile may note its cycle (R238). -/
theorem wrSfc_eq (s : State) (tile v : Nat) : ∃ m, wrSfc s tile v = ({ s with tiles := m } : State).setN 1 0x402 tile (v % 256) := by
  unfold wrSfc
  dsimp only
  split_ifs
  · exact ⟨_, rfl⟩
  · exact ⟨s.tiles, rfl⟩

/-- SFC raised: by one, to 255 at most; at AUTO_THR or above, which is not 0, a tile that has no autotomy to make is queued (R238). -/
theorem sfcUp_eq (hs : s.Canon) (tile va : Nat) : let n := min 255 (s.rn 1 0x402 tile + 1)
    ∃ m, let u := ({ s with tiles := m } : State).setN 1 0x402 tile n
      sfcUp s tile va = if s.rn 1 0x403 tile ≠ 0 ∧ n ≥ s.rn 1 0x403 tile ∧ !s.retiring tile
        then { u with autoq := queueAuto s.autoq ⟨s.tsc.toNat, tile, n⟩ }.post (.autotomy tile) else u := by
  intro n
  have hn : n % 256 = n := Nat.mod_eq_of_lt (by omega)
  obtain ⟨m, hm⟩ := wrSfc_eq (s.setTile tile { s.tile tile with failVa := va }) tile n
  rw [hn] at hm
  have hthr : (({ s.setTile tile { s.tile tile with failVa := va } with tiles := m } : State).setN 1 0x402 tile n).rn 1 0x403 tile =
      s.rn 1 0x403 tile := State.rn_setN_other (s := { s with tiles := m }) hs.regs _ (by unfold rkey; omega)
  refine ⟨m, ?_⟩
  unfold sfcUp
  dsimp only
  rw [show (s.setTile tile { s.tile tile with failVa := va }).rn 1 0x402 tile = s.rn 1 0x402 tile from rfl, hm, hthr]
  rfl

theorem mem_queueAuto (l : List AutoReq) (a : AutoReq) : a ∈ queueAuto l a := by simp [queueAuto]

theorem length_queueAuto (l : List AutoReq) (a : AutoReq) : (queueAuto l a).length = l.length + 1 := by
  have := List.length_eq_length_filter_add (l := l) fun b => decide (b.at_ < a.at_) || (b.at_ == a.at_ && decide (b.tile < a.tile))
  simp only [queueAuto, List.length_append, List.length_cons, List.length_nil]
  omega

theorem retiring_false {tile : Nat} (h : ∀ a ∈ s.autoq, a.tile ≠ tile) : s.retiring tile = false := by
  simpa [State.retiring] using h

/-- Settles O33: each write by its one equation; INV_KICK by the entries that its log still holds, and a verdict by whether it counts. -/
theorem tileClusterAndDieRegisterWrites : Obligations.TileClusterAndDieRegisterWrites := by
  unfold Obligations.TileClusterAndDieRegisterWrites
  intro s v hs
  refine ⟨fun tile ht => ?slottab, fun cl hc => ?lseed, fun tile ht h => ?retired, fun tile ht h hv => ?named, fun cl hc => ?finj,
    fun p hp g hg => ?barg, fun die hd => ?prod, fun die hd h => ?stopped, fun die hd herr hlo hhi hf => ?kick, fun die hd => ?winmin,
    fun die hd leaf hl e he => ?turn, fun ck c hc => ?rtb, fun ck i hi c hc => ?verdict⟩
  case slottab =>
    exact ⟨_, State.setReg_regOnly hs _ _ _ _, by rw [exec_slottabWrite, execSlottabWrite, if_neg (by omega)]; rfl⟩
  case lseed =>
    exact ⟨_, State.setReg_regOnly hs _ _ _ _, by rw [exec_cardLseedWrite, execCardLseedWrite, if_neg (by omega)]; rfl⟩
  case retired =>
    refine writes_setN hs ?_ rfl
    rw [exec_retiredWrite, execRetiredWrite, if_neg (by omega), wrRetired, if_neg]
    rintro ⟨hv, hn⟩
    rcases h with h | h
    · simp [(namedBy_isEmpty_iff s tile).2 h] at hn
    · omega
  case named =>
    obtain ⟨p, hp, g, hg, he⟩ := h
    rw [exec_retiredWrite, execRetiredWrite, if_neg (by omega), wrRetired, if_pos]
    refine ⟨hv, ?_⟩
    rw [Bool.not_eq_true', Bool.eq_false_iff]
    exact fun hn => (namedBy_isEmpty_iff s tile).1 hn p hp g hg he
  case finj =>
    refine ⟨_, State.setReg_regOnly hs _ _ _ _, ?_⟩
    rw [exec_finjCtlWrite, execFinjCtlWrite, if_neg (by omega), wrFinj, finjCtl_fields]
    rfl
  case barg =>
    have hctl : exec (.bargCtlWrite p g v) s = .next (wrBargCtl s p g v) := by
      rw [exec_bargCtlWrite, execBargCtlWrite, if_neg (by omega)]
    have hclu : exec (.bargCluWrite p g v) s = .next (wrBargClu s p g (v % 2 ^ 64)) := by
      rw [exec_bargCluWrite, execBargCluWrite, if_neg (by omega)]
    split
    case isTrue h => exact ⟨hctl.trans (by rw [wrBargCtl]; exact congrArg _ (if_pos h)), hclu.trans (by rw [wrBargClu]; exact congrArg _ (if_pos h))⟩
    case isFalse h =>
      refine ⟨writes_setN hs (hctl.trans (by rw [wrBargCtl]; exact congrArg _ (if_neg h))) ?_,
        writes_setN hs (hclu.trans (by rw [wrBargClu]; exact congrArg _ (if_neg h))) (ofNat_mod_64 v)⟩
      simp only [bits, Nat.testBit_eq_decide_div_mod_eq, Bool.and_eq_true, decide_eq_true_eq, Nat.pow_zero, Nat.div_one, and_assoc]
  case prod =>
    have he : exec (.invProdWrite die v) s = .next (wrInvProd s die (v % 2 ^ 64)) := by
      rw [exec_invProdWrite, execInvProdWrite, if_neg (by omega)]
    have hlt := (s.reg 3 0xC07 die).isLt
    have hover : (v % 2 ^ 64 + 2 ^ 64 - s.rn 3 0xC07 die) % 2 ^ 64 = (v + 2 ^ 64 - s.rn 3 0xC07 die) % 2 ^ 64 := by
      unfold State.rn; omega
    rw [wrInvProd_eq hs, hover] at he
    split
    case isTrue h =>
      rw [if_pos h] at he
      refine ⟨_, he, rfl, ?_, ?_⟩
      · rw [State.setN, State.reg_setReg_other (hs.setN _ _ _ _).regs _ (by unfold rkey; omega), State.setN,
          State.reg_setReg_same hs.regs, ofNat_mod_64]
      · rw [State.rn_setN_same (hs.setN _ _ _ _).regs]
        have := (s.reg 3 0xC05 die).isLt
        unfold withBits State.rn
        omega
    case isFalse h => exact writes_setN hs (he.trans (by rw [if_neg h])) (ofNat_mod_64 v)
  case stopped =>
    rw [exec_invKickWrite, execInvKickWrite, if_neg (by omega), invAll, invRun_stopped (invNext_none h)]
  case kick =>
    refine ⟨_, by rw [exec_invKickWrite, execInvKickWrite, if_neg (by omega)], ?_⟩
    exact invRun_applies (2 ^ 16) hs herr hlo hhi (hf.trans (Nat.pow_le_pow_right (by norm_num) hhi))
  case winmin => exact writes_setN hs (by rw [exec_nocWinminWrite, execNocWinminWrite, if_neg (by omega)]) rfl
  case turn =>
    have hexec : exec (.nocTurnWrite die leaf e v) s = .next (wrTurn s die leaf e (v % 2 ^ 64)) := by
      rw [exec_nocTurnWrite, execNocTurnWrite, if_neg (by omega)]
    refine ⟨fun h => ?_, fun h1 h2 h => ?_, fun h => ?_⟩
    · rw [hexec, wrTurn, turnOk_false (.inl (by omega))]; rfl
    · rw [hexec, wrTurn, turnOk_false (.inr ⟨h1, h2, by omega⟩)]; rfl
    · refine writes_setN hs (hexec.trans (by rw [wrTurn, if_pos h])) ?_
      rw [nocTurn_fields (Nat.mod_lt _ (by norm_num)), BitVec.ofNat_and, ofNat_mod_64]
      rfl
  case rtb =>
    have hexec : exec (.collRtbWrite ck v) s = .next (match s.live? c.part c.cr with
        | some l => (s.setCtx ck { c with arch := { c.arch with collRtb := BitVec.ofNat 64 v } }).setLive { l with rtbBad := false, rtb := v % 2 ^ 64 }
        | none => s.setCtx ck { c with arch := { c.arch with collRtb := BitVec.ofNat 64 v } }) := by
      rw [exec_collRtbWrite, execCollRtbWrite, hc]
      rfl
    cases hl : s.live? c.part c.cr with
    | none =>
      rw [hl] at hexec
      exact ⟨s.live, hexec, fun e he hp hcr => absurd ⟨hp, hcr⟩ (live?_none hl e he), fun _ => rfl⟩
    | some l =>
      rw [hl] at hexec
      obtain ⟨hp, hcr⟩ := live?_key hl
      refine ⟨_, hexec, fun e he hp' hcr' => ?_, nofun⟩
      have := mem_setLive he (hp'.trans hp.symm) (hcr'.trans hcr.symm)
      exact this ▸ ⟨rfl, rfl⟩
  case verdict =>
    obtain ⟨w, hw, hexec, hremote, hlocal⟩ : ∃ w, (w = 1 ∨ w = 2) ∧ exec i s = .next (verdict s ck w) ∧
        (i = .verdictRemote ck → w = 1) ∧ (i = .verdictLocal ck → w = 2) := by
      rcases hi with rfl | rfl
      · exact ⟨1, .inl rfl, rfl, fun _ => rfl, nofun⟩
      · exact ⟨2, .inr rfl, rfl, nofun, fun _ => rfl⟩
    obtain ⟨hskip, htake⟩ := verdict_eq hc hw
    refine ⟨_, hexec, fun h => hskip fun ⟨h1, h2⟩ => ?_, fun h1 h2 => ?_⟩
    · rcases h with h | h
      · simp [h1] at h
      · omega
    have hs' : (s.setCtx ck { c with verdict := true }).Canon := hs.setCtx ck _
    have hctx : (s.setCtx ck { c with verdict := true }).ctx? ck = some { c with verdict := true } := State.ctx?_setCtx_same _ _ _
    rw [htake ⟨h1, h2⟩]
    rcases hw with rfl | rfl
    · rw [if_pos rfl]
      exact ⟨hctx, fun _ => State.reg_setReg_same hs'.regs _ _ _ _, fun h => absurd (hlocal h) (by decide)⟩
    rw [if_neg (by decide)]
    obtain ⟨m, hup⟩ := sfcUp_eq hs' (ck / 2) c.arch.epc.toNat
    have hreg := State.reg_setReg_same (s := { s.setCtx ck { c with verdict := true } with tiles := m }) hs'.regs 1 0x402 (ck / 2)
    rw [hup]
    split_ifs with hreach
    · refine ⟨hctx, fun h => absurd (hremote h) (by decide), fun _ => ⟨hreg _, fun _ _ _ => ⟨mem_queueAuto _ _, length_queueAuto _ _, rfl⟩, ?_⟩⟩
      rintro (h | h)
      · exact absurd h hreach.1
      · exact absurd h (Nat.not_lt.2 hreach.2.1)
    · refine ⟨hctx, fun h => absurd (hremote h) (by decide), fun _ => ⟨hreg _, fun hne hle hq => absurd ⟨hne, hle, ?_⟩ hreach, fun _ => ⟨rfl, rfl⟩⟩⟩
      exact congrArg not (retiring_false hq)

end Sys2Proof.Machine
end

section
/-! A load behind a stopped invalidation log, with registers out of order (R143, R144). -/

namespace Sys2Proof.Machine

/-- The registers out of key order: the log of die 0 is stopped with an entry to apply, its INV_DONE reads 0, and a second INV_DONE of 1
stands behind the count of TLB walks, which is at its greatest. Partition 0 has its tables at the start of HBM, and its logical tile 0
is tile 0. -/
def hiddenDone : SMap W64 :=
  [(rkey 3 0xC05 0, 36), (rkey 3 0xC06 0, 1), (rkey 3 0xC09 0, 2 ^ 64 - 1), (rkey 3 0xC07 0, 1), (rkey 4 0x1004 0, 1),
    (rkey 4 0x1100 0, 0x8000)]

/-- A context queued in cluster 0, its CR at 2^30 and unwritten. The first table points at itself, then names a page of 2^30 bytes. -/
def queuedBehindLog : State :=
  { State.reset with
    regs := hiddenDone, mem := [(region 6 0, 1), (region 6 8, 3), (region 6 10, 0x20)],
    clusters := [(0, { contq := [(0, 2 ^ 30)] })],
    live := [{ part := 0, cr := 2 ^ 30, ctxno := 0, g := 0, any := false, launch := 0, bgrp := 0, foot := 0, st := 0, first := true,
               link := 0, args := 0, rank := 0, rtbBad := false }] }

/-- The state that reads the CR: the context is off its queue. -/
def takenBehindLog : State := dropWaiter (unqueue queuedBehindLog 0 0 (2 ^ 30)) 0 (2 ^ 30)

theorem queuedBehindLog_loads : canLoad queuedBehindLog 0 0 = true := by decide +kernel

theorem queuedBehindLog_picks : loadPick queuedBehindLog 0 0 = some (0, 2 ^ 30) := by decide +kernel

theorem queuedBehindLog_stuck : LogStuck queuedBehindLog 0 := by unfold LogStuck; decide +kernel

/-- The acquire of the CR: its walk counts the register of walks round to 0, and the second INV_DONE comes to light. -/
def acquiredCr : State × Except Bad Nat := acqRead8 takenBehindLog 0 (2 ^ 30 + 8) (srcTile 0) 3

theorem acquiredCr_reads : acquiredCr.2.toOption = some 2097155 := by decide +kernel

theorem acquiredCr_goesOn : acquiredCr.1.stalled = false := by decide +kernel

theorem acquiredCr_words : (vaRead acquiredCr.1 0 (2 ^ 30) 64 0).2.toOption.isSome = true := by decide +kernel

theorem eq_pair_of_toOption {α β ε : Type} {x : α × Except ε β} {v : β} (h : x.2.toOption = some v) : x = (x.1, .ok v) := by
  obtain ⟨a, _ | b⟩ := x
  · cases h
  · cases h; rfl

/-- Refutes O49: where registers do not stand in key order, the walk of the CR's page counts the walks of the die round to 0, that
register leaves the list, and an INV_DONE that stood behind it is read in place of 0: the log that was stuck when the load began is
done when the acquire asks, and the load does not wait. -/
theorem not_contextsAreLoadedAndWrittenBack : ¬ Obligations.ContextsAreLoadedAndWrittenBack := by
  intro h
  obtain ⟨hloads, -⟩ := h queuedBehindLog .nil
  obtain ⟨part, cr, hpick, -, hload⟩ := hloads 0 (by decide) 0 (by decide) queuedBehindLog_loads
  obtain ⟨rfl, rfl⟩ : 0 = part ∧ 2 ^ 30 = cr := by simpa [queuedBehindLog_picks] using hpick
  obtain ⟨l, hl⟩ := Option.isSome_iff_exists.mp acquiredCr_words
  obtain ⟨hwaits, -⟩ := hload acquiredCr.1 _ 2097155 l _ (eq_pair_of_toOption acquiredCr_reads) (eq_pair_of_toOption hl) fun _ => rfl
  have hstalled : acquiredCr.1.stalled = true := hwaits ⟨0, by decide, queuedBehindLog_stuck⟩
  exact absurd (hstalled.symm.trans acquiredCr_goesOn) (by decide)

end Sys2Proof.Machine
end

section
/-! An eft core's state, and the kernels that its registers describe (R75, R77, R78, R81, R83). -/

namespace Sys2Proof.Machine

variable {s t : State} {u k : Nat} {p : Pkt}

/-! The state of a core -/

theorem State.eft_setEft_same (h : s.efts.Rises) (u : Nat) (e : Eft) : (s.setEft u e).eft u = e :=
  SMap.get_put_same (d := ({} : Eft)) h u e

/-- A state whose cores are those of s but for one that is replaced. -/
theorem State.efts_of_put (h : s.efts.Rises) {f : Eft} (ht : t.efts = s.efts.put {} u f) : t.eft u = f ∧ ∀ w, w ≠ u → t.eft w = s.eft w := by
  refine ⟨?_, fun w hw => ?_⟩ <;> rw [State.eft, ht]
  · exact SMap.get_put_same {} h u f
  · exact SMap.get_put_other {} h f hw

theorem State.setEft_setEft (h : s.efts.Rises) (u : Nat) (e f : Eft) : (s.setEft u e).setEft u f = s.setEft u f := by
  simp only [State.setEft, SMap.put_put h]

theorem State.setEft_rises (h : s.efts.Rises) (u : Nat) (e : Eft) : (s.setEft u e).efts.Rises := SMap.Rises.put h u e

/-! Which kernel takes a packet -/

theorem takesFlow_iff : (kernOn s u k && decide ((kernFlow s u k).1 ≤ p.flow) && decide (p.flow ≤ (kernFlow s u k).2)
    && kernPart s u k == p.part) = true ↔ TakesFlow s u k p := by
  simp [kernOn, kernFlow, kernPart, State.kctl, State.rn, TakesFlow, bits, Nat.testBit_eq_decide_div_mod_eq, and_assoc]

theorem matchKern_eq_some : matchKern s u p = some k ↔ KernelOf s u k p := by
  simp only [matchKern, List.find?_range_eq_some, List.mem_range, Bool.not_eq_true', ← Bool.not_eq_true, takesFlow_iff, KernelOf]
  tauto

theorem matchKern_eq_none : matchKern s u p = none ↔ NoKernel s u p := by
  simp only [matchKern, List.find?_range_eq_none, Bool.not_eq_true', ← Bool.not_eq_true, takesFlow_iff, NoKernel]

/-- Only the registers say which kernel takes a packet. -/
theorem matchKern_congr (h : t.regs = s.regs) : matchKern t u p = matchKern s u p := by
  simp only [matchKern, kernOn, kernFlow, kernPart, State.kctl, State.rn, State.reg, h]
  rfl

theorem slotWord_eq (s : State) (u k : Nat) (p : Pkt) : 16 * slotOf s u k p = slotWord s u k p := by
  simp [slotOf, slotWord, kernSlot, kernFlow, State.rn, bits]

theorem armed_iff : armed s u (slotOf s u k p) = true ↔ eFlow s u (slotWord s u k p) / 2 ^ 31 % 2 = 1 := by
  rw [armed, slotWord_eq, testBit_iff]; rfl

theorem dis_iff : (s.kctl u k).testBit 19 = true ↔ (s.reg 14 (3 * k) u).toNat / 2 ^ 19 % 2 = 1 := testBit_iff ..

theorem eftRoom_iff : eftRoom s u = true ↔ (s.eft u).outb.length + 20 ≤ 64 := decide_eq_true_iff

theorem answers_iff (x a : Pkt) : answers x a = true ↔ AnswerOf x a := by
  simp [answers, AnswerOf, bits, and_assoc]

/-! What TRAPACT does -/

theorem onward_eq (w : Nat) : onward w = onwardOf w := rfl

theorem epOk_iff (ep : Nat) : epOk ep = true ↔ onwardOk ep := by simp [epOk, onwardOk]

theorem forwards_iff : ((s.kctl u k).testBit 17 && epOk (onward (nth (headWords p) 5)).2.2) = true ↔ Forwards s u k p := by
  rw [Bool.and_eq_true, testBit_iff, epOk_iff, onward_eq]; rfl

theorem actRoom_iff : actRoom s u k p = true ↔ ¬ (Forwards s u k p ∧ 64 ≤ (s.eft u).outb.length) := by
  rw [actRoom, Bool.or_eq_true, Bool.not_eq_true', ← Bool.not_eq_true, forwards_iff, decide_eq_true_iff, ← not_le]
  tauto

theorem eftOut_leaves (s : State) (u : Nat) (r : Run) (to_ : Nat × Nat × Nat) :
    eftLeaves s u r to_.1 to_.2.1 to_.2.2 (eftOut s u r.h r.win to_ r.pkt) := by
  simp [eftLeaves, eftOut, State.chipNo, srcEft, bits, nth]
  rfl

theorem trapAct_acts (s : State) (u k : Nat) (p : Pkt) : TrapActs s (trapAct s u k p) u k p := by
  refine ⟨fun h => ⟨_, eftOut_leaves .., ?_⟩, fun h => ?_⟩
  · rw [trapAct, if_pos (forwards_iff.mpr h)]
    rfl
  · rw [trapAct, if_neg (mt forwards_iff.mp h)]
    rfl

/-! The start of a run -/

/-- The run of kernel k that a packet starts sees what R81 gives it; only the core's run has changed. -/
theorem startRun_starts (ht : t.efts.Rises) (hf : t.reg 14 (3 * k + 1) u = s.reg 14 (3 * k + 1) u) :
    RunStarts s (startRun t u k p) u k p := by
  have hrun := State.eft_setEft_same ht u
  refine ⟨_, congrArg Eft.run (hrun _), rfl, rfl, rfl, rfl, rfl, rfl, rfl, ?_, ?_, ?_, ?_, ?_⟩
  · have hf' : t.rn 14 (3 * k + 1) u = (s.reg 14 (3 * k + 1) u).toNat := congrArg _ hf
    simp [eReg, slotOf, kernSlot, kernFlow, bits, hf', Nat.mul_comm _ 64]
  · simp [eReg]
  · simp [eReg]
  · intro n hn h
    interval_cases n <;> simp_all [eReg]
  · intro n hn
    interval_cases n <;> rfl

theorem startRun_efts (t : State) (u k : Nat) (p : Pkt) : ∃ r, (startRun t u k p) = t.setEft u { t.eft u with run := some r } := ⟨_, rfl⟩

end Sys2Proof.Machine
end

section
/-! What a core takes next, and what an answer does to a packet that it holds (R70, R71, R75, R80, R83, R84, R85, R86). -/

namespace Sys2Proof.Machine

variable {s : State} {u k : Nat} {p : Pkt} {x : Parked} {rest : List Pkt}

/-! A replay: the oldest ready parked packet -/

section
variable (hrun : (s.eft u).run = none) (hx : (s.eft u).park.find? (·.ready) = some x)
include hrun hx

theorem eftTake_ready_unmatched (hn : NoKernel s u x.pkt) : eftTake s u false =
    some (coreAnswers ((s.setEft u { s.eft u with park := (s.eft u).park.eraseP (·.ready) }).bump 14 0x30 u) u x.pkt 7) := by
  rw [eftTake]
  simp only [hrun, hx, matchKern_eq_none.mpr hn]
  rfl

theorem eftTake_ready_stopped (hk : KernelOf s u k x.pkt) (hd : (s.reg 14 (3 * k) u).toNat / 2 ^ 19 % 2 = 1) : eftTake s u false =
    if actRoom s u k x.pkt then some (trapAct (s.setEft u { s.eft u with park := (s.eft u).park.eraseP (·.ready) }) u k x.pkt) else none := by
  rw [eftTake]
  simp only [hrun, hx, matchKern_eq_some.mpr hk, dis_iff.mpr hd]
  rfl

theorem eftTake_ready_unarmed (hk : KernelOf s u k x.pkt) (hd : ¬ (s.reg 14 (3 * k) u).toNat / 2 ^ 19 % 2 = 1)
    (ha : ¬ eFlow s u (slotWord s u k x.pkt) / 2 ^ 31 % 2 = 1) : eftTake s u false =
    some (s.setEft u { s.eft u with park := (s.eft u).park.map fun y => if sameFlow y.pkt x.pkt then { y with ready := false } else y }) := by
  rw [eftTake]
  simp only [hrun, hx, matchKern_eq_some.mpr hk, Bool.eq_false_iff.mpr (mt dis_iff.mp hd), Bool.eq_false_iff.mpr (mt armed_iff.mp ha)]
  rfl

theorem eftTake_ready_armed (hk : KernelOf s u k x.pkt) (hd : ¬ (s.reg 14 (3 * k) u).toNat / 2 ^ 19 % 2 = 1)
    (ha : eFlow s u (slotWord s u k x.pkt) / 2 ^ 31 % 2 = 1) : eftTake s u false =
    if eftRoom s u then some (startRun (s.setEft u { s.eft u with park := (s.eft u).park.eraseP (·.ready) }) u k x.pkt) else none := by
  rw [eftTake]
  simp only [hrun, hx, matchKern_eq_some.mpr hk, Bool.eq_false_iff.mpr (mt dis_iff.mp hd), armed_iff.mpr ha]
  cases eftRoom s u <;> rfl

end

/-! Without a replay: the packet that has waited longest -/

/-- The slot of a packet is armed (R85). -/
def setArm (s : State) (u k : Nat) (p : Pkt) : State :=
  s.setFlow u (slotWord s u k p) (setBits (eFlow s u (slotWord s u k p)) 31 31 1)

/-- The slot is armed, and the parked packets of the flow are ready. -/
def armedBy (s : State) (u k : Nat) (p : Pkt) (rest : List Pkt) : State :=
  (setArm s u k p).setEft u
    { s.eft u with waiting := rest, park := (s.eft u).park.map fun y => if sameFlow y.pkt p then { y with ready := true } else y }

theorem State.flow_eq (s : State) (u w : Nat) : s.flow u w = eFlow s u w := rfl

theorem setEft_setFlow (s : State) (u w v x : Nat) (e : Eft) : (s.setEft x e).setFlow u w v = (s.setFlow u w v).setEft x e := by
  simp only [State.setFlow, State.setN, State.setReg, State.setEft]

theorem find_ready_none (hidle : ∀ x ∈ (s.eft u).park, x.ready = false) : (s.eft u).park.find? (·.ready) = none := by
  rw [List.find?_eq_none]
  intro x h
  rw [hidle x h]
  exact Bool.false_ne_true

section
variable (hrun : (s.eft u).run = none) (hidle : ∀ x ∈ (s.eft u).park, x.ready = false) (hw : (s.eft u).waiting = p :: rest)
include hrun hidle hw

theorem eftTake_waiting_unmatched (hn : NoKernel s u p) : eftTake s u (p.opc == 8) =
    some (coreAnswers ((s.setEft u { s.eft u with waiting := rest }).bump 14 0x30 u) u p 7) := by
  rw [eftTake]
  simp only [hrun, find_ready_none hidle, hw, bne_self_eq_false, matchKern_eq_none.mpr hn]
  rfl

theorem eftTake_waiting_stopped (hk : KernelOf s u k p) (hd : (s.reg 14 (3 * k) u).toNat / 2 ^ 19 % 2 = 1) : eftTake s u (p.opc == 8) =
    if actRoom s u k p then some (trapAct (s.setEft u { s.eft u with waiting := rest }) u k p) else none := by
  rw [eftTake]
  simp only [hrun, find_ready_none hidle, hw, bne_self_eq_false, matchKern_eq_some.mpr hk, dis_iff.mpr hd]
  rfl

theorem eftTake_waiting_unarmed (hk : KernelOf s u k p) (hd : ¬ (s.reg 14 (3 * k) u).toNat / 2 ^ 19 % 2 = 1) (ho : p.opc ≠ 8)
    (ha : ¬ eFlow s u (slotWord s u k p) / 2 ^ 31 % 2 = 1) : eftTake s u (p.opc == 8) =
    some (eftParkPkt (s.setEft u { s.eft u with waiting := rest }) u p) := by
  rw [eftTake]
  simp only [hrun, find_ready_none hidle, hw, bne_self_eq_false, matchKern_eq_some.mpr hk, Bool.eq_false_iff.mpr (mt dis_iff.mp hd),
    Bool.eq_false_iff.mpr (mt armed_iff.mp ha), beq_eq_false_iff_ne.mpr ho]
  rfl

theorem eftTake_waiting_full (hk : KernelOf s u k p) (hd : ¬ (s.reg 14 (3 * k) u).toNat / 2 ^ 19 % 2 = 1)
    (ha : p.opc = 8 ∨ eFlow s u (slotWord s u k p) / 2 ^ 31 % 2 = 1) (hr : ¬ (s.eft u).outb.length + 20 ≤ 64) :
    eftTake s u (p.opc == 8) = none := by
  have hgo : (!(p.opc == 8) && !armed s u (slotOf s u k p)) = false := by
    rcases ha with h | h
    · rw [beq_iff_eq.mpr h]; rfl
    · rw [armed_iff.mpr h, Bool.not_true, Bool.and_false]
  rw [eftTake]
  simp only [hrun, find_ready_none hidle, hw, bne_self_eq_false, matchKern_eq_some.mpr hk, Bool.eq_false_iff.mpr (mt dis_iff.mp hd),
    hgo, Bool.eq_false_iff.mpr (mt eftRoom_iff.mp hr)]
  rfl

theorem eftTake_waiting_runs (hk : KernelOf s u k p) (hd : ¬ (s.reg 14 (3 * k) u).toNat / 2 ^ 19 % 2 = 1) (ho : p.opc ≠ 8)
    (ha : eFlow s u (slotWord s u k p) / 2 ^ 31 % 2 = 1) (hr : (s.eft u).outb.length + 20 ≤ 64) : eftTake s u (p.opc == 8) =
    some (startRun (s.setEft u { s.eft u with waiting := rest }) u k p) := by
  rw [eftTake]
  simp only [hrun, find_ready_none hidle, hw, bne_self_eq_false, matchKern_eq_some.mpr hk, Bool.eq_false_iff.mpr (mt dis_iff.mp hd),
    armed_iff.mpr ha, eftRoom_iff.mpr hr, beq_eq_false_iff_ne.mpr ho]
  rfl

theorem eftTake_waiting_arms (hs : s.efts.Rises) (hk : KernelOf s u k p) (hd : ¬ (s.reg 14 (3 * k) u).toNat / 2 ^ 19 % 2 = 1)
    (ho : p.opc = 8) (hr : (s.eft u).outb.length + 20 ≤ 64) : eftTake s u (p.opc == 8) =
    some (startRun (armedBy s u k p rest) u k p) := by
  have hflow : ∀ {w v : Nat}, (s.setFlow u w v).efts.Rises := fun {w v} => by rw [State.setFlow, State.setN_efts]; exact hs
  rw [eftTake]
  simp only [hrun, find_ready_none hidle, hw, bne_self_eq_false, matchKern_eq_some.mpr hk, Bool.eq_false_iff.mpr (mt dis_iff.mp hd),
    eftRoom_iff.mpr hr, ho, beq_self_eq_true, slotWord_eq, reduceIte, Bool.not_true, Bool.false_and, Bool.false_eq_true, if_true,
    setEft_setFlow, State.eft_setEft_same hflow, State.setEft_setEft hflow, Option.isSome_none,
    armedBy, setArm, State.flow_eq]

end

/-! Packets held -/

/-- What waits to be sent of a held packet goes with it (R86). -/
theorem freeSent_events (s : State) (u : Nat) (x : Sent) (i : Instr) : i ∈ (freeSent s u x).events ↔ i ∈ s.events ∧
    ¬ ∃ d l k, i = .packetInject d l k ∧ isReq k = true ∧ k.src = srcEft u ∧ k.rid = x.pkt.rid := by
  rw [show (freeSent s u x).events = s.events.filter _ from rfl, List.mem_filter]
  refine and_congr_right fun _ => ?_
  split
  · simp only [Instr.packetInject.injEq, Bool.not_eq_true', Bool.eq_false_iff]
    constructor
    · rintro h ⟨d, l, k, ⟨rfl, rfl, rfl⟩, hreq, hsrc, hrid⟩
      exact h (by rw [hreq, hsrc, hrid, beq_self_eq_true, beq_self_eq_true]; rfl)
    · intro h hc
      rw [Bool.and_eq_true, Bool.and_eq_true, beq_iff_eq, beq_iff_eq] at hc
      exact h ⟨_, _, _, ⟨rfl, rfl, rfl⟩, hc.1.1, hc.1.2, hc.2⟩
  · next h =>
    simp only [true_iff]
    rintro ⟨d, l, k, rfl, -⟩
    exact h d l k rfl

/-- The record of a packet that is lost is all that follows its release (R86). -/
theorem sendLost_eq (s : State) (u : Nat) (x : Sent) : sendLost s u x = emit (freeSent s u x) x.part (srcEft u) 0x40
    (5 + 0xFF * 2 ^ 8 + x.kern * 2 ^ 16 + x.part * 2 ^ 19 + (s.reg 14 (3 * x.kern) u).toNat / 2 ^ 20 % 2 ^ 4 * 2 ^ 24)
    ((headOf x.pkt).getD 1 0) (x.job % 2 ^ 16 * 2 ^ 48) := by
  have h : bits ((freeSent s u x).kctl u x.kern) 23 20 % 16 = (s.reg 14 (3 * x.kern) u).toNat / 2 ^ 20 % 2 ^ 4 := Nat.mod_mod _ 16
  rw [sendLost, trapRec, h]
  simp only [flagIf, Nat.zero_mod, zero_mul, zero_add, add_zero, Nat.reduceMod, Bool.false_eq_true, if_false]

/-- An answer leaves the window of its sender and NOC_WINMIN other values. -/
theorem onReply_frame (s : State) (key : Nat) (echo : Bool) (q : Nat) : onReply s key echo q =
    { s with wins := (onReply s key echo q).wins, regs := (onReply s key echo q).regs } := by
  unfold onReply
  dsimp only
  split <;> split_ifs <;> rfl

theorem onReply_efts (s : State) (key : Nat) (echo : Bool) (q : Nat) : (onReply s key echo q).efts = s.efts := by rw [onReply_frame]

theorem onReply_events (s : State) (key : Nat) (echo : Bool) (q : Nat) : (onReply s key echo q).events = s.events := by rw [onReply_frame]

theorem onReply_tsc (s : State) (key : Nat) (echo : Bool) (q : Nat) : (onReply s key echo q).tsc = s.tsc := by rw [onReply_frame]

theorem find_first {α : Type} {q : α → Bool} {l m : List α} {x : α} (hl : ∀ y ∈ l, ¬ q y = true) (hx : q x = true) :
    (l ++ x :: m).find? q = some x :=
  List.find?_eq_some_iff_append.mpr ⟨hx, l, m, rfl, fun y hy => by simpa using hl y hy⟩

end Sys2Proof.Machine
end

section
/-! The registers of kernels: loading, verification, disabling, and the windows on code and flow state (R78, R79, R80). -/

namespace Sys2Proof.Machine

variable {s t : State} {u k : Nat}

/-! Registers of different number are different -/

theorem rkey_num_ne {c a b n : Nat} (h : a ≠ b) : rkey c a n ≠ rkey c b n := by unfold rkey; omega

/-! EFT_KCTL as written -/

theorem putKctl_fields (hs : s.regs.Rises) (u k v : Nat) {ro en : Nat} (hro : ro < 2 ^ 6) (hen : en < 2) :
    let w := ((putKctl s u k v ro en).reg 14 (3 * k) u).toNat
    (w % 2 ^ 9 = v % 2 ^ 9 ∧ w / 2 ^ 9 % 2 ^ 7 = 0 ∧ w / 2 ^ 17 % 2 = v / 2 ^ 17 % 2 ∧ w / 2 ^ 24 = v / 2 ^ 24 % 2 ^ 21) ∧
    w / 2 ^ 16 % 2 = en ∧ w / 2 ^ 18 % 2 ^ 6 = ro := by
  have h : ((putKctl s u k v ro en).reg 14 (3 * k) u).toNat = _ := State.rn_setN_same hs 14 (3 * k) u _
  dsimp only
  rw [h]
  norm_num [bits]
  omega

theorem putKctl_other (hs : s.regs.Rises) (u k v ro en : Nat) {c n w : Nat} (h : rkey c n w ≠ rkey 14 (3 * k) u) :
    (putKctl s u k v ro en).reg c n w = s.reg c n w := State.reg_setReg_other hs _ h

theorem putKctl_regs (s : State) (u k v ro en : Nat) : putKctl s u k v ro en = { s with regs := (putKctl s u k v ro en).regs } := rfl

theorem putKctl_eft (s : State) (u k v ro en w : Nat) : (putKctl s u k v ro en).eft w = s.eft w := by
  rw [State.eft, putKctl, State.setN_efts, State.eft]

theorem zeroSlots_regs (s : State) (u lo hi : Nat) : zeroSlots s u lo hi = { s with regs := (zeroSlots s u lo hi).regs } := rfl

theorem regs_frame {m : State} {r r' : SMap W64} (ht : t = { s with regs := r }) (hm : m = { t with regs := r' }) :
    m = { s with regs := m.regs } := by
  subst hm ht
  rfl

/-! Verification -/

theorem wordOk_iff (len i w : Nat) : wordOk len i w = true ↔
    ∃ j, decodeEft w = some j ∧ ∀ o, j = .eftBf o ∨ j = .eftBfn o ∨ j = .eftJ o → i + o < len := by
  unfold wordOk
  split
  · next h => simp [h]
  · next o h => simp [h]
  · next o h => simp [h]
  · next o h => simp [h]
  · next j hbf hbfn hj h =>
    refine iff_of_true rfl ⟨j, h, ?_⟩
    rintro o (rfl | rfl | rfl)
    · exact absurd rfl (hbf o)
    · exact absurd rfl (hbfn o)
    · exact absurd rfl (hj o)

theorem isEnding_iff (w : Nat) : isEnding w = true ↔ ∃ i, decodeEft w = some i ∧
    (i ∈ [Instr.eftFwd, .eftDrop, .eftNack, .eftPark, .eftDone] ∨ (∃ a o, i = .eftMcast a o) ∨ ∃ c, i = .eftTrap c) := by
  unfold isEnding
  split
  case h_8 hfwd hmcast hdrop hnack hpark hdone htrap =>
    refine iff_of_false Bool.false_ne_true ?_
    rintro ⟨i, hi, h | ⟨a, o, rfl⟩ | ⟨c, rfl⟩⟩
    · simp only [List.mem_cons, List.not_mem_nil, or_false] at h
      rcases h with rfl | rfl | rfl | rfl | rfl <;> contradiction
    · exact hmcast a o hi
    · exact htrap c hi
  all_goals simp_all

theorem rangesMeet_iff (a b : Nat × Nat) : (!rangesMeet a b) = true ↔ a.2 < b.1 ∨ b.2 < a.1 := by
  simp only [rangesMeet, Bool.not_and, Bool.or_eq_true, Bool.not_eq_true', decide_eq_false_iff_not]
  omega

theorem kernFlow_eq (s : State) (u k : Nat) : kernFlow s u k = (s.rn 14 (3 * k + 1) u % 2 ^ 16, s.rn 14 (3 * k + 1) u / 2 ^ 32 % 2 ^ 16) := by
  simp [kernFlow, bits]

theorem kernSlot_eq (s : State) (u k : Nat) : kernSlot s u k = (s.rn 14 (3 * k + 2) u % 2 ^ 10, s.rn 14 (3 * k + 2) u / 2 ^ 16 % 2 ^ 10) := by
  simp [kernSlot, bits]

/-- A kernel's ranges and those of another enabled kernel are apart (R79). -/
theorem rangesApart_iff (s : State) (u k j : Nat) :
    (j == k || !kernOn s u j || (!rangesMeet (kernFlow s u k) (kernFlow s u j) && !rangesMeet (kernSlot s u k) (kernSlot s u j))) = true ↔
    (j ≠ k → s.rn 14 (3 * j) u / 2 ^ 16 % 2 = 1 →
      ((kernFlow s u k).2 < (kernFlow s u j).1 ∨ (kernFlow s u j).2 < (kernFlow s u k).1) ∧
      ((kernSlot s u k).2 < (kernSlot s u j).1 ∨ (kernSlot s u j).2 < (kernSlot s u k).1)) := by
  rw [Bool.or_eq_true, Bool.or_eq_true, Bool.and_eq_true, rangesMeet_iff, rangesMeet_iff, beq_iff_eq, Bool.not_eq_true', ← Bool.not_eq_true,
    kernOn, testBit_iff, State.kctl, or_assoc, or_iff_not_imp_left, or_iff_not_imp_left, not_not]

/-- The checks of a kernel are those of R79, of the length that its EFT_KCTL holds. -/
theorem kernOk_iff (s : State) (u k : Nat) : kernOk s u k = true ↔ Verified s u k (s.kctl u k) := by
  rw [kernOk]
  simp only [Bool.and_eq_true, List.all_eq_true, List.mem_range, wordOk_iff, isEnding_iff, rangesApart_iff, decide_eq_true_eq, and_assoc,
    Verified]
  simp only [kernFlow_eq, kernSlot_eq]
  refine and_congr_right fun h1 => and_congr_right fun _ => and_congr Iff.rfl (and_congr ?_ Iff.rfl)
  rw [show 256 * k + s.kctl u k % 512 - 1 = 256 * k + (s.kctl u k % 2 ^ 9 - 1) by omega]
  rfl

/-- Of EFT_KCTL only the length is checked. -/
theorem verified_congr (h : ∀ n, n ≠ 3 * k → t.reg 14 n u = s.reg 14 n u) (hk : k < 8) {v w : Nat} (hv : w % 2 ^ 9 = v % 2 ^ 9) :
    Verified t u k w ↔ Verified s u k v := by
  have hrn : ∀ n, n ≠ 3 * k → t.rn 14 n u = s.rn 14 n u := fun n hn => congrArg _ (h n hn)
  have hword : ∀ j, t.rn 14 (0x1000 + (256 * k + j)) u = s.rn 14 (0x1000 + (256 * k + j)) u := fun j => hrn _ (by omega)
  have hflow : ∀ j, t.rn 14 (3 * j + 1) u = s.rn 14 (3 * j + 1) u := fun j => hrn _ (by omega)
  have hslot : ∀ j, t.rn 14 (3 * j + 2) u = s.rn 14 (3 * j + 2) u := fun j => hrn _ (by omega)
  have hon : ∀ j, (j ≠ k → t.rn 14 (3 * j) u / 2 ^ 16 % 2 = 1 → ((s.rn 14 (3 * k + 1) u / 2 ^ 32 % 2 ^ 16 < s.rn 14 (3 * j + 1) u % 2 ^ 16 ∨
      s.rn 14 (3 * j + 1) u / 2 ^ 32 % 2 ^ 16 < s.rn 14 (3 * k + 1) u % 2 ^ 16) ∧
      (s.rn 14 (3 * k + 2) u / 2 ^ 16 % 2 ^ 10 < s.rn 14 (3 * j + 2) u % 2 ^ 10 ∨
      s.rn 14 (3 * j + 2) u / 2 ^ 16 % 2 ^ 10 < s.rn 14 (3 * k + 2) u % 2 ^ 10))) ↔ _ :=
    fun j => imp_congr_right fun hj => by rw [hrn (3 * j) (by omega)]
  simp only [Verified, hword, hflow, hslot, hv, hon]

/-! The slot range set to zero -/

theorem zeroSlots_rises (hs : s.regs.Rises) (u lo hi : Nat) : (zeroSlots s u lo hi).regs.Rises := hs.filter _

theorem zeroSlots_zero (hs : s.regs.Rises) {u lo hi w : Nat} (hu : u < 2 ^ 16) (hhi : hi < 2 ^ 10) (hlow : 16 * lo ≤ w)
    (hw : w < 16 * (hi + 1)) : eFlow (zeroSlots s u lo hi) u w = 0 := by
  have h1 : rkey 14 (0x4000 + w) u % 65536 = u := by unfold rkey; omega
  have h2 : rkey 14 (0x4000 + w) u / 2 ^ 32 = 14 := by unfold rkey; omega
  have h3 : rkey 14 (0x4000 + w) u / 65536 % 65536 = 0x4000 + w := by unfold rkey; omega
  rw [eFlow, State.rn, State.reg, zeroSlots, SMap.get_filter _ hs (fun i => !(i % 65536 == u && i / 2 ^ 32 == 14
    && decide (0x4000 + 16 * lo ≤ i / 65536 % 65536) && decide (i / 65536 % 65536 < 0x4000 + 16 * (hi + 1))))]
  rw [if_neg (by simp only [h1, h2, h3]; simp; omega), resetOf, h2]
  rfl

theorem zeroSlots_other (hs : s.regs.Rises) {u lo hi c n w : Nat} (hu : u < 2 ^ 16) (hhi : hi < 2 ^ 10)
    (h : ∀ m, 16 * lo ≤ m → m < 16 * (hi + 1) → rkey c n w ≠ rkey 14 (0x4000 + m) u) : (zeroSlots s u lo hi).reg c n w = s.reg c n w := by
  rw [State.reg, zeroSlots, SMap.get_filter _ hs (fun i => !(i % 65536 == u && i / 2 ^ 32 == 14
    && decide (0x4000 + 16 * lo ≤ i / 65536 % 65536) && decide (i / 65536 % 65536 < 0x4000 + 16 * (hi + 1)))), if_pos]
  · rfl
  generalize rkey c n w = i at h
  rw [Bool.not_eq_true', Bool.eq_false_iff]
  intro hc
  simp only [Bool.and_eq_true, beq_iff_eq, decide_eq_true_eq] at hc
  obtain ⟨⟨⟨h1, h2⟩, h3⟩, h4⟩ := hc
  exact h (i / 65536 % 65536 - 0x4000) (by omega) (by omega) (by unfold rkey; omega)

/-! Writes of EFT_KCTL -/

theorem wrKctl_enables {v : Nat} (hv : v / 2 ^ 16 % 2 = 1) (ho : (s.reg 14 (3 * k) u).toNat / 2 ^ 16 % 2 = 0) : wrKctl s u k v =
    if kernOk (putKctl s u k v (bits (s.kctl u k) 23 18) 0) u k then
      putKctl (zeroSlots (putKctl s u k v (bits (s.kctl u k) 23 18) 0) u (kernSlot (putKctl s u k v (bits (s.kctl u k) 23 18) 0) u k).1
        (kernSlot (putKctl s u k v (bits (s.kctl u k) 23 18) 0) u k).2) u k v 0 1
    else putKctl (putKctl s u k v (bits (s.kctl u k) 23 18) 0) u k v (setBits (bits (s.kctl u k) 23 18) 0 0 1) 0 := by
  have ho' : (s.kctl u k).testBit 16 = false := Bool.eq_false_iff.mpr (mt (testBit_iff _ _).mp (by rw [State.kctl, State.rn, ho]; decide))
  rw [wrKctl]
  simp only [(testBit_iff v 16).mpr hv, ho', Bool.not_false, Bool.and_true, if_true]

theorem wrKctl_disables {v : Nat} (hv : v / 2 ^ 16 % 2 = 0) (ho : (s.reg 14 (3 * k) u).toNat / 2 ^ 16 % 2 = 1) : wrKctl s u k v =
    if (s.eft u).run.isSome then s.setEft u { s.eft u with stopping := (s.eft u).stopping ++ [k + 8 * v] } else disableKern s u k v := by
  have ho' : (s.kctl u k).testBit 16 = true := (testBit_iff _ _).mpr ho
  have hv' : v.testBit 16 = false := Bool.eq_false_iff.mpr (mt (testBit_iff _ _).mp (by rw [hv]; decide))
  rw [wrKctl]
  simp only [hv', ho', Bool.not_false, Bool.not_true, Bool.and_true, Bool.and_false, Bool.false_eq_true, if_false, if_true]

/-- EFT_KCTL while a kernel is verified: the fields of the value, and EN still 0. -/
def loaded (s : State) (u k v : Nat) : State := putKctl s u k v (bits (s.kctl u k) 23 18) 0

theorem loaded_rises (hs : s.regs.Rises) (u k v : Nat) : (loaded s u k v).regs.Rises := State.setReg_rises hs ..

theorem loaded_other (hs : s.regs.Rises) (u k v : Nat) {c n w : Nat} (h : rkey c n w ≠ rkey 14 (3 * k) u) :
    (loaded s u k v).reg c n w = s.reg c n w := putKctl_other hs u k v _ _ h

theorem readOnly_lt (s : State) (u k : Nat) : bits (s.kctl u k) 23 18 < 2 ^ 6 := bits_lt _ rfl

theorem kernOk_loaded (hs : s.regs.Rises) (hk : k < 8) (u v : Nat) : kernOk (loaded s u k v) u k = true ↔ Verified s u k v :=
  (kernOk_iff ..).trans (verified_congr (fun _ hn => loaded_other hs u k v (rkey_num_ne hn)) hk
    (putKctl_fields hs u k v (readOnly_lt s u k) (by decide)).1.1)

theorem kernSlot_loaded (hs : s.regs.Rises) (u k v : Nat) : kernSlot (loaded s u k v) u k =
    ((s.reg 14 (3 * k + 2) u).toNat % 2 ^ 10, (s.reg 14 (3 * k + 2) u).toNat / 2 ^ 16 % 2 ^ 10) := by
  rw [kernSlot_eq, State.rn, loaded_other hs u k v (rkey_num_ne (by omega))]

section
variable {v : Nat} (hs : s.regs.Rises) (hk : k < 8) (hv : v / 2 ^ 16 % 2 = 1) (ho : (s.reg 14 (3 * k) u).toNat / 2 ^ 16 % 2 = 0)
include hs hk hv ho

theorem wrKctl_of_verified (hver : Verified s u k v) : wrKctl s u k v = putKctl (zeroSlots (loaded s u k v) u
    ((s.reg 14 (3 * k + 2) u).toNat % 2 ^ 10) ((s.reg 14 (3 * k + 2) u).toNat / 2 ^ 16 % 2 ^ 10)) u k v 0 1 := by
  rw [wrKctl_enables hv ho, ← loaded, if_pos ((kernOk_loaded hs hk u v).mpr hver), kernSlot_loaded hs]

theorem wrKctl_of_unverified (hver : ¬ Verified s u k v) :
    wrKctl s u k v = putKctl (loaded s u k v) u k v (setBits (bits (s.kctl u k) 23 18) 0 0 1) 0 := by
  rw [wrKctl_enables hv ho, ← loaded, if_neg (mt (kernOk_loaded hs hk u v).mp hver)]

/-- A kernel that passes the checks of R79 is enabled: its slot range is zero, and no other register has changed. -/
theorem wrKctl_verified (hu : u < 2 ^ 16) (hver : Verified s u k v) : let t := wrKctl s u k v
    let slo := (s.reg 14 (3 * k + 2) u).toNat % 2 ^ 10
    let shi := (s.reg 14 (3 * k + 2) u).toNat / 2 ^ 16 % 2 ^ 10
    (t.reg 14 (3 * k) u).toNat / 2 ^ 16 % 2 ^ 8 = 1 + 2 * (v / 2 ^ 17 % 2) ∧
    (∀ w, 16 * slo ≤ w → w < 16 * (shi + 1) → eFlow t u w = 0) ∧
    ∀ c n w, (∀ m, 16 * slo ≤ m → m < 16 * (shi + 1) → rkey c n w ≠ rkey 14 (0x4000 + m) u) → rkey c n w ≠ rkey 14 (3 * k) u →
      t.reg c n w = s.reg c n w := by
  intro t slo shi
  have hl := loaded_rises hs u k v
  have hz := zeroSlots_rises hl u slo shi
  have hshi : shi < 2 ^ 10 := Nat.mod_lt _ (by norm_num)
  have ht : t = putKctl (zeroSlots (loaded s u k v) u slo shi) u k v 0 1 := wrKctl_of_verified hs hk hv ho hver
  rw [ht]
  refine ⟨?_, fun w hlo hhi => ?_, fun c n w hflow hne => ?_⟩
  · obtain ⟨⟨-, -, htraps, -⟩, hen, hro⟩ := putKctl_fields hz u k v (ro := 0) (en := 1) (by norm_num) (by norm_num)
    generalize ((putKctl (zeroSlots (loaded s u k v) u slo shi) u k v 0 1).reg 14 (3 * k) u).toNat = x at *
    omega
  · rw [eFlow, State.rn, putKctl_other hz u k v 0 1 (rkey_num_ne (by omega))]
    exact zeroSlots_zero hl hu hshi hlo hhi
  · rw [putKctl_other hz u k v 0 1 hne, zeroSlots_other hl hu hshi hflow, loaded_other hs u k v hne]

/-- A kernel that does not pass stays disabled, with LDERR. -/
theorem wrKctl_unverified (hver : ¬ Verified s u k v) : let t := wrKctl s u k v
    (t.reg 14 (3 * k) u).toNat / 2 ^ 16 % 2 = 0 ∧ (t.reg 14 (3 * k) u).toNat / 2 ^ 18 % 2 = 1 ∧
    (t.reg 14 (3 * k) u).toNat / 2 ^ 19 % 2 ^ 5 = (s.reg 14 (3 * k) u).toNat / 2 ^ 19 % 2 ^ 5 ∧
    ∀ c n w, rkey c n w ≠ rkey 14 (3 * k) u → t.reg c n w = s.reg c n w := by
  intro t
  have hl := loaded_rises hs u k v
  have hlt := readOnly_lt s u k
  have hro : setBits (bits (s.kctl u k) 23 18) 0 0 1 = bits (s.kctl u k) 23 18 / 2 * 2 + 1 := by
    generalize bits (s.kctl u k) 23 18 = b
    simp only [setBits, bits]
    norm_num
    omega
  have hbits : bits (s.kctl u k) 23 18 = (s.reg 14 (3 * k) u).toNat / 2 ^ 18 % 2 ^ 6 := rfl
  obtain ⟨-, hen, hput⟩ := putKctl_fields hl u k v (ro := setBits (bits (s.kctl u k) 23 18) 0 0 1) (en := 0) (by omega) (by norm_num)
  have ht : t = putKctl (loaded s u k v) u k v (setBits (bits (s.kctl u k) 23 18) 0 0 1) 0 := wrKctl_of_unverified hs hk hv ho hver
  rw [ht]
  refine ⟨hen, ?_, ?_, fun c n w hne => ?_⟩
  · omega
  · omega
  · rw [putKctl_other hl u k v _ 0 hne, loaded_other hs u k v hne]

theorem wrKctl_enables_given : let w := ((wrKctl s u k v).reg 14 (3 * k) u).toNat
    w % 2 ^ 9 = v % 2 ^ 9 ∧ w / 2 ^ 9 % 2 ^ 7 = 0 ∧ w / 2 ^ 17 % 2 = v / 2 ^ 17 % 2 ∧ w / 2 ^ 24 = v / 2 ^ 24 % 2 ^ 21 := by
  have hl := loaded_rises hs u k v
  by_cases hver : Verified s u k v
  · rw [wrKctl_of_verified hs hk hv ho hver]
    exact (putKctl_fields (zeroSlots_rises hl ..) u k v (by norm_num) (by norm_num)).1
  · rw [wrKctl_of_unverified hs hk hv ho hver]
    refine (putKctl_fields hl u k v ?_ (by norm_num)).1
    have hlt := readOnly_lt s u k
    generalize bits (s.kctl u k) 23 18 = b at hlt
    simp only [setBits, bits]
    norm_num
    omega

theorem wrKctl_frame : wrKctl s u k v = { s with regs := (wrKctl s u k v).regs } := by
  by_cases hver : Verified s u k v
  · exact regs_frame (regs_frame (putKctl_regs s u k v _ 0) (zeroSlots_regs ..))
      ((wrKctl_of_verified hs hk hv ho hver).trans (putKctl_regs ..))
  · exact regs_frame (putKctl_regs s u k v _ 0) ((wrKctl_of_unverified hs hk hv ho hver).trans (putKctl_regs ..))

end

/-! Parked packets of a kernel that is disabled -/

/-- What a core sends to refuse a packet (R86). -/
def refusal (s : State) (u : Nat) (p : Pkt) : Instr :=
  .packetInject (u / 12) (eftLeaf u) (answerPkt s (u / 12) (srcEft u) (u % 12) p 7 0)

theorem foldl_refuses (l : List Parked) (s : State) (u : Nat) : l.foldl (fun t x => eftAnswer t u x.pkt 7) s =
    { s with events := s.events ++ l.map fun x => refusal s u x.pkt } := by
  induction l generalizing s with
  | nil => simp
  | cons x l ih =>
    rw [List.foldl_cons, ih]
    simp only [eftAnswer, State.post, List.append_assoc, List.map_cons]
    rfl

/-- The parked packets of kernel k are gone, and their senders refused. -/
def unparked (s : State) (u k : Nat) : State :=
  { s.setEft u { s.eft u with park := (s.eft u).park.filter fun x => !(matchKern s u x.pkt == some k) } with
    events := s.events ++ ((s.eft u).park.filter fun x => matchKern s u x.pkt == some k).map fun x => refusal s u x.pkt }

theorem unparked_regs (s : State) (u k : Nat) : (unparked s u k).regs = s.regs := rfl

theorem unparked_efts (s : State) (u k : Nat) : (unparked s u k).efts =
    s.efts.put {} u { s.eft u with park := (s.eft u).park.filter fun x => !(matchKern s u x.pkt == some k) } := rfl

theorem disableKern_eq (s : State) (u k v : Nat) : disableKern s u k v = putKctl (unparked s u k) u k v (bits (s.kctl u k) 23 18) 0 := by
  rw [disableKern, flushPark, foldl_refuses]
  rfl

theorem disableKern_eft (s : State) (u k v w : Nat) : (disableKern s u k v).eft w = (unparked s u k).eft w := by
  rw [disableKern_eq, putKctl_eft]

theorem disableKern_events (s : State) (u k v : Nat) : (disableKern s u k v).events = s.events ++
    ((s.eft u).park.filter fun x => matchKern s u x.pkt == some k).map fun x => refusal s u x.pkt := by
  rw [disableKern_eq, putKctl, State.setN_events]
  rfl

/-- A write that clears EN: the fields of the value, EN 0, the read-only bits as they were; no other register has changed (R78). -/
theorem disableKern_fields (hs : s.regs.Rises) (u k v : Nat) : let t := disableKern s u k v
    let w := (t.reg 14 (3 * k) u).toNat
    (w % 2 ^ 9 = v % 2 ^ 9 ∧ w / 2 ^ 9 % 2 ^ 7 = 0 ∧ w / 2 ^ 17 % 2 = v / 2 ^ 17 % 2 ∧ w / 2 ^ 24 = v / 2 ^ 24 % 2 ^ 21) ∧
    w / 2 ^ 16 % 2 = 0 ∧ w / 2 ^ 18 % 2 ^ 6 = (s.reg 14 (3 * k) u).toNat / 2 ^ 18 % 2 ^ 6 ∧
    ∀ c n w, rkey c n w ≠ rkey 14 (3 * k) u → t.reg c n w = s.reg c n w := by
  have hs' : (unparked s u k).regs.Rises := hs
  rw [disableKern_eq]
  obtain ⟨hgiven, hen, hro⟩ := putKctl_fields hs' u k v (readOnly_lt s u k) (show 0 < 2 by norm_num)
  exact ⟨hgiven, hen, hro, fun c n w hne => putKctl_other hs' u k v _ 0 hne⟩

theorem takesParked_iff (s : State) (u k : Nat) (x : Parked) : (matchKern s u x.pkt == some k) = true ↔ KernelOf s u k x.pkt :=
  beq_iff_eq.trans matchKern_eq_some

/-- The kernel's parked packets are gone (R80). -/
theorem disableKern_park (hr : s.efts.Rises) (v : Nat) (x : Parked) :
    x ∈ ((disableKern s u k v).eft u).park ↔ x ∈ (s.eft u).park ∧ ¬ KernelOf s u k x.pkt := by
  rw [disableKern_eft, (State.efts_of_put hr (unparked_efts s u k)).1, List.mem_filter, Bool.not_eq_true', ← Bool.not_eq_true, takesParked_iff]

/-- Their senders are refused (R80). -/
theorem refusal_mem {x : Parked} (hx : x ∈ (s.eft u).park) (hk : KernelOf s u k x.pkt) :
    ∀ i ∈ (coreAnswers { s with events := [] } u x.pkt 7).events,
      i ∈ ((s.eft u).park.filter fun x => matchKern s u x.pkt == some k).map fun x => refusal s u x.pkt := by
  intro i hi
  obtain rfl : i = refusal s u x.pkt := List.mem_singleton.mp hi
  exact List.mem_map.mpr ⟨x, List.mem_filter.mpr ⟨hx, (takesParked_iff s u k x).mpr hk⟩, rfl⟩

/-! The windows on code and flow state -/

theorem flowHeld_iff (s : State) (u w : Nat) : flowHeld s u w = true ↔ ∃ j < 8, (s.reg 14 (3 * j) u).toNat / 2 ^ 16 % 2 = 1 ∧
    (s.reg 14 (3 * j + 2) u).toNat % 2 ^ 10 ≤ w / 16 ∧ w / 16 ≤ (s.reg 14 (3 * j + 2) u).toNat / 2 ^ 16 % 2 ^ 10 := by
  simp [flowHeld, kernOn, kernSlot, State.kctl, State.rn, bits, Nat.testBit_eq_decide_div_mod_eq, and_assoc]

theorem kernOn_iff : kernOn s u k = true ↔ (s.reg 14 (3 * k) u).toNat / 2 ^ 16 % 2 = 1 := testBit_iff ..

end Sys2Proof.Machine
end

section
/-! Packets reach an eft core, are parked, armed and run; kernels are verified, enabled and disabled (R70 to R86). -/

namespace Sys2Proof.Machine

variable {s : State} {die core u k v : Nat} {p : Pkt} {x : Sent}

/-! Arrivals -/

section
variable (hd : die < 4) (hc : core < 12) (hu : u = die * 12 + core) (hcls : p.cls = 3)
include hd hc hu hcls

theorem exec_eftPacketArrival_answer (h : p.opc = 3 ∨ p.opc = 7) : exec (.eftPacketArrival die core p) s = .next (eftAnswered s u p) := by
  rw [exec_eftPacketArrival, execEftPacketArrival, if_neg (by omega), hu]
  exact if_pos h

theorem exec_eftPacketArrival_other (h : p.opc ∉ [3, 6, 7, 8]) : exec (.eftPacketArrival die core p) s = .next (s.bump 14 0x30 u) := by
  simp only [List.mem_cons, List.not_mem_nil, or_false, not_or] at h
  obtain ⟨h3, h6, h7, h8⟩ := h
  rw [exec_eftPacketArrival, execEftPacketArrival, if_neg (by omega), hu]
  exact (if_neg (by omega)).trans (if_pos ⟨h6, h8⟩)

theorem exec_eftPacketArrival_data (h : p.opc ∈ [6, 8]) : exec (.eftPacketArrival die core p) s = .next
    (if (matchKern s u p).isNone then coreAnswers (s.bump 14 0x30 u) u p 7
      else s.setEft u { s.eft u with waiting := (s.eft u).waiting ++ [p] }) := by
  simp only [List.mem_cons, List.not_mem_nil, or_false] at h
  rw [exec_eftPacketArrival, execEftPacketArrival, if_neg (by omega), hu]
  refine ((if_neg (by omega)).trans (if_neg (by omega))).trans ?_
  split_ifs <;> rfl

end

/-! Answers of a packet that is held -/

theorem eftAnswered_none (h : ∀ x ∈ (s.eft u).outb, ¬ AnswerOf x.pkt p) : eftAnswered s u p = s := by
  have hf : (s.eft u).outb.find? (fun x => answers x.pkt p) = none :=
    List.find?_eq_none.mpr fun x hx => mt (answers_iff _ _).mp (h x hx)
  rw [eftAnswered]
  simp only [hf]

theorem retryWait_succ (n : Nat) : retryWait (n + 1) = 1000 * min (2 ^ n) 256 := by rw [retryWait, Nat.add_sub_cancel]

section
variable (hx : (s.eft u).outb.find? (fun x => answers x.pkt p) = some x)
include hx

theorem eftAnswered_releases (h : p.opc = 3) : eftAnswered s u p = freeSent (onReply s (srcEft u) p.echo x.pkt.q) u x := by
  rw [eftAnswered]
  simp only [hx, h, if_true]

theorem eftAnswered_refused (h : p.opc = 7) (hr : p.reason = 1) :
    eftAnswered s u p = sendLost (onReply s (srcEft u) p.echo x.pkt.q) u x := by
  rw [eftAnswered]
  simp only [hx]
  rw [if_neg (by omega), if_pos hr]

theorem eftAnswered_schedules (h : p.opc = 7) (hr : p.reason ≠ 1) : eftAnswered s u p = (onReply s (srcEft u) p.echo x.pkt.q).setEft u
    { s.eft u with outb := (s.eft u).outb.map fun y => if y.pkt.rid = x.pkt.rid then
      { x with tries := x.tries + 1, due := (onReply s (srcEft u) p.echo x.pkt.q).tsc.toNat + retryWait (x.tries + 1) } else y } := by
  rw [eftAnswered]
  simp only [hx]
  rw [if_neg (by omega), if_neg hr]

theorem eftAnswered_retries (h : p.opc = 7) (hr : p.reason ≠ 1) : eftAnswered s u p = (onReply s (srcEft u) p.echo x.pkt.q).setEft u
    { s.eft u with outb := (s.eft u).outb.map fun y => if y.pkt.rid = x.pkt.rid
      then { x with tries := x.tries + 1, due := s.tsc.toNat + 1000 * min (2 ^ x.tries) 256 } else y } := by
  rw [eftAnswered_schedules hx h hr, onReply_tsc, retryWait_succ]

end

/-- A packet released after an answer: the core holds it no longer, and what of it waits to be sent is gone. -/
theorem freeSent_answered (s : State) (u key : Nat) (echo : Bool) (q : Nat) (x : Sent) : let t := freeSent (onReply s key echo q) u x
    t.efts = s.efts.put {} u { s.eft u with outb := (s.eft u).outb.filter fun y => y.pkt.rid != x.pkt.rid } ∧
    ∀ i, i ∈ t.events ↔ i ∈ s.events ∧ ¬ ∃ d l k, i = .packetInject d l k ∧ isReq k = true ∧ k.src = srcEft u ∧ k.rid = x.pkt.rid := by
  refine ⟨?_, fun i => ?_⟩
  · rw [freeSent]
    simp only [State.setEft_efts, State.eft, onReply_efts]
  · rw [freeSent_events, onReply_events]

theorem onReply_setEft_efts (s : State) (u key : Nat) (echo : Bool) (q : Nat) (f : Eft) :
    ((onReply s key echo q).setEft u f).efts = s.efts.put {} u f := by rw [State.setEft_efts, onReply_efts]

theorem sendLost_efts (s : State) (u : Nat) (x : Sent) : (sendLost s u x).efts = (freeSent s u x).efts := by
  rw [sendLost_eq, ((Keeps.refl _).emit ..).frame]

theorem sendLost_events (s : State) (u : Nat) (x : Sent) : (sendLost s u x).events = (freeSent s u x).events := by
  rw [sendLost_eq, ((Keeps.refl _).emit ..).frame]

/-! Taking -/

section
variable (hd : die < 4) (hc : core < 12) (hu : u = die * 12 + core)
include hd hc hu

theorem exec_eftRun_takes {t : State} (h : eftTake s u false = some t) : exec (.eftRun die core) s = .next t := by
  rw [exec_eftRun, execEftRun, if_neg (by omega), ← hu, h]

theorem exec_eftRun_stays (h : eftTake s u false = none) : exec (.eftRun die core) s = .fault .notPossible := by
  rw [exec_eftRun, execEftRun, if_neg (by omega), ← hu, h]

/-- The move by which a core takes the packet that has waited longest. -/
theorem exec_waiting_takes {rest : List Pkt} {t : State} (hw : (s.eft u).waiting = p :: rest) (h : eftTake s u (p.opc == 8) = some t) :
    exec (if p.opc = 8 then .arm die core p else .eftRun die core) s = .next t := by
  by_cases h8 : p.opc = 8
  · have hhead : ¬ (s.eft u).waiting.head? ≠ some p := by rw [hw]; simp
    rw [beq_iff_eq.mpr h8] at h
    rw [if_pos h8, exec_arm, execArm, ← hu, if_neg (by rw [not_or, not_or]; exact ⟨by omega, by omega, hhead⟩), h]
  · rw [beq_eq_false_iff_ne.mpr h8] at h
    rw [if_neg h8, exec_eftRun_takes hd hc hu h]

theorem exec_waiting_stays {rest : List Pkt} (hw : (s.eft u).waiting = p :: rest) (h : eftTake s u (p.opc == 8) = none) :
    exec (if p.opc = 8 then .arm die core p else .eftRun die core) s = .fault .notPossible := by
  by_cases h8 : p.opc = 8
  · have hhead : ¬ (s.eft u).waiting.head? ≠ some p := by rw [hw]; simp
    rw [beq_iff_eq.mpr h8] at h
    rw [if_pos h8, exec_arm, execArm, ← hu, if_neg (by rw [not_or, not_or]; exact ⟨by omega, by omega, hhead⟩), h]
  · rw [beq_eq_false_iff_ne.mpr h8] at h
    rw [if_neg h8, exec_eftRun_stays hd hc hu h]

end

/-- A packet that no kernel takes is counted, and its sender refused. -/
theorem counted_regOnly (hs : s.Canon) (e : Eft) (u : Nat) :
    RegOnly (s.setEft u e) ((s.setEft u e).bump 14 0x30 u) 14 0x30 u (s.reg 14 0x30 u + 1) :=
  State.setReg_regOnly (s := s.setEft u e) ⟨hs.mem, hs.regs⟩ ..

/-- A run that starts changes its core's run alone, of a state whose registers of flow ranges are those of s. -/
theorem startRun_makes (hr : s.efts.Rises) {t : State} {f : Eft} (ht : t.efts = s.efts.put {} u f)
    (hreg : t.reg 14 (3 * k + 1) u = s.reg 14 (3 * k + 1) u) : let m := startRun t u k p
    (m.eft u = { f with run := (m.eft u).run } ∧ RunStarts s m u k p ∧ m = { t with efts := m.efts }) ∧
    ∀ w, w ≠ u → m.eft w = s.eft w := by
  have hrt : t.efts.Rises := ht ▸ SMap.Rises.put hr u f
  obtain ⟨r, hstart⟩ := startRun_efts t u k p
  have hf := (State.efts_of_put hr ht).1
  have hefts : (startRun t u k p).efts = s.efts.put {} u { f with run := some r } := by
    rw [hstart, State.setEft_efts, ht, SMap.put_put hr, hf]
  obtain ⟨hsame, hother⟩ := State.efts_of_put hr hefts
  exact ⟨⟨by rw [hsame], startRun_starts hrt hreg, rfl⟩, hother⟩

theorem setArm_reg_other (hs : s.Canon) {c n w : Nat} (h : rkey c n w ≠ rkey 14 (0x4000 + slotWord s u k p) u) :
    (setArm s u k p).reg c n w = s.reg c n w := State.reg_setReg_other hs.regs _ h

theorem setArm_efts (s : State) (u k : Nat) (p : Pkt) : (setArm s u k p).efts = s.efts := State.setN_efts ..

theorem setArm_flow (hs : s.Canon) : eFlow (setArm s u k p) u (slotWord s u k p) = eFlow s u (slotWord s u k p) % 2 ^ 31 + 2 ^ 31 := by
  rw [eFlow, setArm, State.setFlow, State.rn_setN_same hs.regs, setBits, bits]
  generalize eFlow s u (slotWord s u k p) = w
  norm_num
  omega

theorem setFlow_frame (s : State) (u w v : Nat) : s.setFlow u w v = { s with regs := (s.setFlow u w v).regs } := rfl

theorem setArm_frame (s : State) (u k : Nat) (p : Pkt) : setArm s u k p = { s with regs := (setArm s u k p).regs } :=
  setFlow_frame ..

theorem sameFlow_iff (a b : Pkt) : sameFlow a b = true ↔ a.flow = b.flow ∧ a.part = b.part := by simp [sameFlow]

theorem map_sameFlow (l : List Parked) (p : Pkt) (b : Bool) :
    (l.map fun y => if sameFlow y.pkt p then { y with ready := b } else y) =
      l.map fun y => if y.pkt.flow = p.flow ∧ y.pkt.part = p.part then { y with ready := b } else y :=
  List.map_congr_left fun _ _ => if_congr (sameFlow_iff _ _) rfl rfl

end Sys2Proof.Machine
end

section
/-! The next packet of a core, taken; packets that are held; kernels loaded (R71, R79 to R86): the cases of the statement. -/

namespace Sys2Proof.Machine

variable {s : State} {die core u k v : Nat} {p : Pkt} {x : Sent}

theorem eftParkPkt_room (h : (s.eft u).park.length < 16) :
    eftParkPkt s u p = s.setEft u { s.eft u with park := (s.eft u).park ++ [⟨p, s.tsc.toNat, false⟩] } := by
  rw [eftParkPkt]
  exact if_pos h

theorem eftParkPkt_full (h : 16 ≤ (s.eft u).park.length) : eftParkPkt s u p = coreAnswers s u p 7 := by
  rw [eftParkPkt]
  exact if_neg (not_lt.mpr h)

theorem eftsRegs_frame {s t m : State} {e e' : SMap Eft} {r : SMap W64} (ht : t = { s with efts := e, regs := r })
    (hm : m = { t with efts := e' }) : m = { s with efts := m.efts, regs := m.regs } := by
  subst hm ht
  rfl

theorem armedBy_efts (s : State) (u k : Nat) (p : Pkt) (rest : List Pkt) : (armedBy s u k p rest).efts = s.efts.put {} u
    { s.eft u with waiting := rest, park := (s.eft u).park.map fun y => if y.pkt.flow = p.flow ∧ y.pkt.part = p.part then { y with ready := true } else y } := by
  rw [armedBy, State.setEft_efts, setArm_efts, map_sameFlow]

theorem armedBy_frame (s : State) (u k : Nat) (p : Pkt) (rest : List Pkt) : armedBy s u k p rest =
    { s with efts := (armedBy s u k p rest).efts, regs := (setArm s u k p).regs } := by
  have h := setArm_frame s u k p
  rw [armedBy]
  generalize setArm s u k p = a at h
  rw [h]
  rfl

theorem armedBy_reg (s : State) (u k : Nat) (p : Pkt) (rest : List Pkt) (c n w : Nat) :
    (armedBy s u k p rest).reg c n w = (setArm s u k p).reg c n w := by
  rw [State.reg, armedBy, State.setEft_regs, State.reg]

theorem startRun_reg (s : State) (u k : Nat) (p : Pkt) (c n w : Nat) : (startRun s u k p).reg c n w = s.reg c n w := rfl

/-- An arm packet of a kernel with room sets ARM, makes the parked packets of its flow ready, and runs (R83, R85). -/
theorem run_of_armPacket (hs : s.Canon) (hr : s.efts.Rises) (hk : k < 8) (rest : List Pkt) : let t := startRun (armedBy s u k p rest) u k p
    (t.eft u = { s.eft u with waiting := rest, run := (t.eft u).run, park := (s.eft u).park.map fun y =>
      if y.pkt.flow = p.flow ∧ y.pkt.part = p.part then { y with ready := true } else y } ∧ RunStarts s t u k p ∧
    t = { s with efts := t.efts, regs := t.regs } ∧ eFlow t u (slotWord s u k p) = eFlow s u (slotWord s u k p) % 2 ^ 31 + 2 ^ 31 ∧
    ∀ c n w, rkey c n w ≠ rkey 14 (0x4000 + slotWord s u k p) u → t.reg c n w = s.reg c n w) ∧
    ∀ w, w ≠ u → t.eft w = s.eft w := by
  intro t
  have hreg : (armedBy s u k p rest).reg 14 (3 * k + 1) u = s.reg 14 (3 * k + 1) u  := by
    rw [armedBy_reg]
    exact setArm_reg_other hs (rkey_num_ne (by omega))
  obtain ⟨⟨hsame, hstart, hframe⟩, hother⟩ := startRun_makes (p := p) hr (armedBy_efts s u k p rest) hreg
  have htreg : ∀ c n w, t.reg c n w = (setArm s u k p).reg c n w := fun _ _ _ => (startRun_reg ..).trans (armedBy_reg ..)
  refine ⟨⟨hsame, hstart, eftsRegs_frame (armedBy_frame s u k p rest) hframe, ?_, fun c n w h => ?_⟩, hother⟩
  · rw [eFlow, State.rn, htreg]
    exact setArm_flow hs
  · rw [htreg]
    exact setArm_reg_other hs h

section
variable (hd : die < 4) (hc : core < 12) (hu : u = die * 12 + core)
include hd hc hu

theorem exec_eftRetry_due {j : Nat} (hx : (s.eft u).outb[j]? = some x) (hdue : x.due ≠ 0) (ht : x.due ≤ s.tsc.toNat) :
    exec (.eftRetry die core j) s =
      .next ((s.setEft u { s.eft u with outb := (s.eft u).outb.set j { x with due := 0 } }).post (.packetInject die (eftLeaf u) x.pkt)) := by
  have hretry : retryDue s x = true := by simp [retryDue, hdue, ht]
  rw [exec_eftRetry, execEftRetry, ← hu]
  simp only [hx, hretry]
  exact if_neg (by simp; omega)

theorem exec_eftSendLost_late {j : Nat} (hx : (s.eft u).outb[j]? = some x) (ht : x.at_ + (s.reg 4 0x1008 x.part).toNat ≤ s.tsc.toNat) :
    exec (.eftSendLost die core j) s = .next (sendLost s u x) := by
  have hlate : sendLate s x = true := decide_eq_true ht
  rw [exec_eftSendLost, execEftSendLost, ← hu]
  simp only [hx, hlate]
  exact if_neg (by simp; omega)

theorem exec_eftKernelEnable_writes (hk : k < 8) (hv : v / 2 ^ 16 % 2 = 1) (ho : (s.reg 14 (3 * k) u).toNat / 2 ^ 16 % 2 = 0) :
    exec (.eftKernelEnable die core k v) s = .next (wrKctl s u k v) := by
  have hon : kernOn s u k = false := Bool.eq_false_iff.mpr (mt kernOn_iff.mp (by omega))
  rw [exec_eftKernelEnable, execEftKernelEnable, ← hu]
  exact if_neg (by rw [hon, (testBit_iff v 16).mpr hv]; simp; omega)

theorem exec_eftKernelDisable_writes (hk : k < 8) (hv : v / 2 ^ 16 % 2 = 0) (ho : (s.reg 14 (3 * k) u).toNat / 2 ^ 16 % 2 = 1) :
    exec (.eftKernelDisable die core k v) s = .next (wrKctl s u k v) := by
  have hv' : v.testBit 16 = false := Bool.eq_false_iff.mpr (mt (testBit_iff v 16).mp (by omega))
  rw [exec_eftKernelDisable, execEftKernelDisable, ← hu]
  exact if_neg (by rw [kernOn_iff.mpr ho, hv']; simp; omega)

theorem exec_eftImemWrite_writes {w : Nat} (hw : w < 2048) : exec (.eftImemWrite die core w v) s = .next (wrImem s u w v) := by
  rw [exec_eftImemWrite, execEftImemWrite, ← hu]
  exact if_neg (by omega)

theorem exec_eftFlowwinAccess_reads {w : Nat} (hw : w < 16384) :
    exec (.eftFlowwinAccess die core w none) s = .next { s with resp := some (some (rdFlowwin s u w)) } := by
  rw [exec_eftFlowwinAccess, execEftFlowwinAccess, ← hu]
  exact if_neg (by omega)

theorem exec_eftFlowwinAccess_writes {w : Nat} (hw : w < 16384) :
    exec (.eftFlowwinAccess die core w (some v)) s = .next (wrFlowwin s u w v) := by
  rw [exec_eftFlowwinAccess, execEftFlowwinAccess, ← hu]
  exact if_neg (by omega)

end

end Sys2Proof.Machine
end

section
/-! Packets reach an eft core, are parked, armed and run; kernels are verified, enabled and disabled (R70 to R86). -/

namespace Sys2Proof.Machine

/-- Settles O54: each case of the statement is one way through what a core takes, what an answer does, or what a register write does. -/
theorem kernelsReceiveParkRunAndLoad : Obligations.KernelsReceiveParkRunAndLoad := by
  refine ⟨?_, ?_⟩
  · intro s die core u p hs hr hd hc hu e kctl arm room makes without
    refine ⟨fun hcls => ⟨fun ho => ?_, fun ho hn => ?_, fun ho k hk => ?_, fun ho hall => ?_, fun l m x hout hl hx => ?_⟩,
      fun hrun hidle rest hw => ?_, fun hrun x hx => ?_, fun j x hx => ?_⟩
    · exact ⟨_, exec_eftPacketArrival_other hd hc hu hcls ho, State.setReg_regOnly hs ..⟩
    · refine ⟨_, State.setReg_regOnly hs 14 0x30 u _, ?_⟩
      rw [exec_eftPacketArrival_data hd hc hu hcls ho, matchKern_eq_none.mpr hn]
      rfl
    · rw [exec_eftPacketArrival_data hd hc hu hcls ho, matchKern_eq_some.mpr hk]
      rfl
    · rw [exec_eftPacketArrival_answer hd hc hu hcls (by simpa using ho), eftAnswered_none hall]
    · have hfind : (s.eft u).outb.find? (fun x => answers x.pkt p) = some x := hout ▸
        find_first (q := fun x => answers x.pkt p) (fun y hy => mt (answers_iff ..).mp (hl y hy)) ((answers_iff ..).mpr hx)
      obtain ⟨hefts, hevents⟩ := freeSent_answered s u (srcEft u) p.echo x.pkt.q x
      refine ⟨fun ho => ?_, fun ho hreason => ?_⟩
      · have hexec := exec_eftPacketArrival_answer (s := s) hd hc hu hcls (ho.imp_right And.left)
        rcases ho with ho | ⟨ho, hreason⟩
        · rw [eftAnswered_releases hfind ho] at hexec
          obtain ⟨hsame, hother⟩ := State.efts_of_put hr hefts
          exact ⟨_, hexec, ⟨hsame, hevents⟩, hother⟩
        · rw [eftAnswered_refused hfind ho hreason] at hexec
          obtain ⟨hsame, hother⟩ := State.efts_of_put hr ((sendLost_efts ..).trans hefts)
          exact ⟨_, hexec, ⟨hsame, fun i => by rw [sendLost_events]; exact hevents i⟩, hother⟩
      · have hexec := exec_eftPacketArrival_answer (s := s) hd hc hu hcls (.inr ho)
        rw [eftAnswered_retries hfind ho hreason] at hexec
        obtain ⟨hsame, hother⟩ := State.efts_of_put hr (onReply_setEft_efts s u (srcEft u) p.echo x.pkt.q _)
        exact ⟨_, hexec, hsame, hother⟩
    · extract_lets i s'
      have htakes : ∀ {t : State}, eftTake s u (p.opc == 8) = some t → exec i s = .next t := exec_waiting_takes hd hc hu hw
      have hstays : eftTake s u (p.opc == 8) = none → exec i s = .fault .notPossible := exec_waiting_stays hd hc hu hw
      refine ⟨fun hn => ⟨_, counted_regOnly hs _ u, htakes (eftTake_waiting_unmatched hrun hidle hw hn)⟩,
        fun k hk => ⟨fun hdis => ⟨fun hroom => ?_, fun hf hfull => ?_⟩, fun hdis => ?_⟩⟩
      · have htake := eftTake_waiting_stopped hrun hidle hw hk hdis
        rw [if_pos (actRoom_iff.mpr hroom)] at htake
        exact ⟨_, htakes htake, trapAct_acts s' u k p⟩
      · have htake := eftTake_waiting_stopped hrun hidle hw hk hdis
        rw [if_neg (mt actRoom_iff.mp (not_not.mpr ⟨hf, hfull⟩))] at htake
        exact hstays htake
      · have hd0 : ¬ (s.reg 14 (3 * k) u).toNat / 2 ^ 19 % 2 = 1 := fun h => absurd (hdis.symm.trans h) (by decide)
        have hsame' := State.eft_setEft_same hr u { e with waiting := rest }
        have harm : arm k p = 0 → ¬ eFlow s u (slotWord s u k p) / 2 ^ 31 % 2 = 1 := fun ha h => absurd (ha.symm.trans h) (by decide)
        refine ⟨fun ho ha hpark => ?_, fun ho ha hpark => ?_, fun ho ha hroom => ?_, fun ho hroom => ?_, fun ha hroom => ?_⟩
        · have htake := eftTake_waiting_unarmed hrun hidle hw hk hd0 ho (harm ha)
          rw [eftParkPkt_room (by rw [hsame']; exact hpark), State.setEft_setEft hr, hsame'] at htake
          obtain ⟨hsame, hother⟩ := State.efts_of_put (t := s.setEft u _) hr rfl
          exact ⟨_, htakes htake, ⟨hsame, rfl⟩, hother⟩
        · have htake := eftTake_waiting_unarmed hrun hidle hw hk hd0 ho (harm ha)
          rw [eftParkPkt_full (by rw [hsame']; exact hpark)] at htake
          exact htakes htake
        · have htake := eftTake_waiting_runs hrun hidle hw hk hd0 ho ha hroom
          obtain ⟨hmakes, hother⟩ := startRun_makes (p := p) (k := k) hr (t := s') rfl rfl
          exact ⟨_, htakes htake, hmakes, hother⟩
        · have htake := eftTake_waiting_arms hrun hidle hw hr hk hd0 ho hroom
          obtain ⟨hmakes, hother⟩ := run_of_armPacket (p := p) hs hr hk.1 rest
          exact ⟨_, htakes htake, hmakes, hother⟩
        · exact hstays (eftTake_waiting_full hrun hidle hw hk hd0 ha hroom)
    · intro s'
      refine ⟨fun hn => ⟨_, counted_regOnly hs _ u, exec_eftRun_takes hd hc hu (eftTake_ready_unmatched hrun hx hn)⟩,
        fun k hk => ⟨fun hdis => ⟨fun hroom => ?_, fun hf hfull => ?_⟩, fun hdis ha hroom => ?_, fun hdis ha hroom => ?_, fun hdis ha => ?_⟩⟩
      · have htake := eftTake_ready_stopped hrun hx hk hdis
        rw [if_pos (actRoom_iff.mpr hroom)] at htake
        exact ⟨_, exec_eftRun_takes hd hc hu htake, trapAct_acts s' u k x.pkt⟩
      · have htake := eftTake_ready_stopped hrun hx hk hdis
        rw [if_neg (mt actRoom_iff.mp (not_not.mpr ⟨hf, hfull⟩))] at htake
        exact exec_eftRun_stays hd hc hu htake
      all_goals have hd0 : ¬ (s.reg 14 (3 * k) u).toNat / 2 ^ 19 % 2 = 1 := fun h => absurd (hdis.symm.trans h) (by decide)
      · have htake := eftTake_ready_armed hrun hx hk hd0 ha
        rw [if_pos (eftRoom_iff.mpr hroom)] at htake
        obtain ⟨hmakes, hother⟩ := startRun_makes (p := x.pkt) (k := k) hr (t := s') rfl rfl
        exact ⟨_, exec_eftRun_takes hd hc hu htake, hmakes, hother⟩
      · have htake := eftTake_ready_armed hrun hx hk hd0 ha
        rw [if_neg (mt eftRoom_iff.mp hroom)] at htake
        exact exec_eftRun_stays hd hc hu htake
      · have htake := eftTake_ready_unarmed hrun hx hk hd0 fun h => absurd (ha.symm.trans h) (by decide)
        rw [map_sameFlow] at htake
        exact exec_eftRun_takes hd hc hu htake
    · refine ⟨fun hdue ht => exec_eftRetry_due hd hc hu hx hdue ht, fun hlate => ⟨s.setEft u _, freeSent s u x, rfl, freeSent_events s u x, rfl, ?_⟩⟩
      rw [exec_eftSendLost_late hd hc hu hx hlate, sendLost_eq]
  · intro s die core u k v hs hr hd hc hu e kctl slo shi given
    have hu16 : u < 2 ^ 16 := by omega
    refine ⟨fun hk hv ho => ⟨wrKctl s u k v, exec_eftKernelEnable_writes hd hc hu hk hv ho, ?_⟩,
      fun hk hv ho => ⟨fun r hrun => ?_, fun hrun => ?_⟩, fun w hw => ⟨fun hon => ?_, fun hoff => ?_⟩, fun w hw => ⟨fun h => ?_, fun h => ?_⟩⟩
    · refine ⟨wrKctl_frame hs.regs hk hv ho, ?_, fun hver => ?_, fun hver => ?_⟩
      · exact wrKctl_enables_given hs.regs hk hv ho
      · obtain ⟨hfields, hzero, hother⟩ := wrKctl_verified hs.regs hk hv ho hu16 hver
        exact ⟨hfields, fun w => hzero w, hother⟩
      · exact wrKctl_unverified hs.regs hk hv ho hver
    · rw [exec_eftKernelDisable_writes hd hc hu hk hv ho, wrKctl_disables hv ho, if_pos (by rw [show (s.eft u).run = _ from hrun]; rfl)]
    · obtain ⟨hgiven, hen, hro, hother⟩ := disableKern_fields hs.regs u k v
      refine ⟨disableKern s u k v, _, ?_, disableKern_events s u k v, hgiven, hen, hro, disableKern_park hr v,
        fun x hx hk => refusal_mem hx hk, hother⟩
      rw [exec_eftKernelDisable_writes hd hc hu hk hv ho, wrKctl_disables hv ho, if_neg (by rw [show (s.eft u).run = none from hrun]; decide)]
    · rw [exec_eftImemWrite_writes hd hc hu hw, wrImem, if_pos (kernOn_iff.mpr hon)]
    · exact writes_setN hs ((exec_eftImemWrite_writes hd hc hu hw).trans
        (by rw [wrImem, if_neg (mt kernOn_iff.mp fun h => absurd (hoff.symm.trans h) (by decide))])) rfl
    · have hheld := (flowHeld_iff s u w).mpr h
      exact ⟨by rw [exec_eftFlowwinAccess_reads hd hc hu hw, rdFlowwin, if_pos hheld],
        by rw [exec_eftFlowwinAccess_writes hd hc hu hw, wrFlowwin, if_pos hheld]⟩
    · have hfree := mt (flowHeld_iff s u w).mp h
      exact ⟨by rw [exec_eftFlowwinAccess_reads hd hc hu hw, rdFlowwin, if_neg hfree]; rfl,
        writes_setN hs ((exec_eftFlowwinAccess_writes hd hc hu hw).trans (by rw [wrFlowwin, if_neg hfree, State.setFlow])) rfl⟩

end Sys2Proof.Machine
end

section
/-! The lottery of the card arbiters (R104, R170). -/

namespace Sys2Proof.Machine

/-! The generator -/

theorem draw_eq {x : Nat} (h0 : 0 < x) (h : x < 2 ^ 32) : draw x = (xorshift32 (BitVec.ofNat 32 x)).toNat := by
  have hx : x % 4294967296 = x := Nat.mod_eq_of_lt h
  simp [draw, xorshift, xorshift32, Nat.pos_iff_ne_zero.mp h0, hx, Nat.shiftLeft_eq, Nat.shiftRight_eq_div_pow]

/-! The draw among n contenders -/

section
variable {n : Nat}

/-- The contender that stands i places after the last winner. -/
theorem turn_of_place {last q : Nat} (hq : q < n) : (last + 1 + (q + n - last % n - 1) % n) % n = q := by
  have hr : last % n < n := Nat.mod_lt _ (by omega)
  rw [add_assoc, ← Nat.mod_add_mod]
  rcases Nat.lt_or_ge (last % n) q with h | h
  · rw [show q + n - last % n - 1 = (q - last % n - 1) + n by omega, Nat.add_mod_right, Nat.mod_eq_of_lt (a := q - last % n - 1) (by omega),
      show last % n + (1 + (q - last % n - 1)) = q by omega, Nat.mod_eq_of_lt hq]
  · rw [Nat.mod_eq_of_lt (a := q + n - last % n - 1) (by omega), show last % n + (1 + (q + n - last % n - 1)) = q + n by omega,
      Nat.add_mod_right, Nat.mod_eq_of_lt hq]

theorem place_of_turn {last i : Nat} (hi : i < n) : ((last + 1 + i) % n + n - last % n - 1) % n = i := by
  have hr : last % n < n := Nat.mod_lt _ (by omega)
  rw [add_assoc, ← Nat.mod_add_mod]
  rcases Nat.lt_or_ge (last % n + (1 + i)) n with h | h
  · rw [Nat.mod_eq_of_lt h, show last % n + (1 + i) + n - last % n - 1 = i + n by omega, Nat.add_mod_right, Nat.mod_eq_of_lt hi]
  · rw [show last % n + (1 + i) = last % n + (1 + i) - n + n by omega, Nat.add_mod_right, Nat.mod_eq_of_lt (a := last % n + (1 + i) - n) (by omega),
      show last % n + (1 + i) - n + n - last % n - 1 = i by omega, Nat.mod_eq_of_lt hi]

theorem foldl_take_tickets (tk : Nat → Nat) {q : Nat} (h : q ≤ n) :
    (((List.range n).map tk).take q).foldl (· + ·) 0 = ((List.range q).map tk).sum := by
  rw [← List.map_take, List.take_range, min_eq_left h, List.sum_eq_foldl]

/-- Without tickets the next contender after the last winner wins. -/
theorem drawWinner_next (run : Nat → Bool) (tk : Nat → Nat) (x last : Nat) (hrun : ∃ q < n, run q = true)
    (h0 : ((List.range n).map tk).sum = 0) : let w := drawWinner ((List.range n).map tk) ((List.range n).map run) x last
    run w = true ∧ w < n ∧ ∀ k < n, run k = true → (w + n - last % n - 1) % n ≤ (k + n - last % n - 1) % n := by
  have htotal : ((List.range n).map tk).foldl (· + ·) 0 = 0 := List.sum_eq_foldl.symm.trans h0
  have hget : ∀ q < n, ((List.range n).map run).getD q false = run q := fun q hq => by
    rw [List.getD_eq_getElem?_getD, List.getElem?_map, List.getElem?_range hq]; rfl
  rw [drawWinner]
  simp only [List.length_map, List.length_range, htotal, if_true]
  cases hfind : ((List.range n).map fun i => (last + 1 + i) % n).find? fun q => ((List.range n).map run).getD q false with
  | none =>
    obtain ⟨q, hq, hr⟩ := hrun
    rw [List.find?_eq_none] at hfind
    have hmem : q ∈ (List.range n).map fun i => (last + 1 + i) % n :=
      List.mem_map.mpr ⟨(q + n - last % n - 1) % n, List.mem_range.mpr (Nat.mod_lt _ (by omega)), turn_of_place hq⟩
    exact absurd ((hget q hq).trans hr) (hfind q hmem)
  | some w =>
    rw [List.find?_map, Option.map_eq_some_iff] at hfind
    obtain ⟨i, hi, rfl⟩ := hfind
    rw [List.find?_range_eq_some] at hi
    obtain ⟨hr, hi, hleast⟩ := hi
    rw [List.mem_range] at hi
    have hw : (last + 1 + i) % n < n := Nat.mod_lt _ (by omega)
    rw [Option.getD_some, place_of_turn hi]
    refine ⟨(hget _ hw).symm.trans hr, hw, fun k hk hkr => not_lt.mp fun hlt => ?_⟩
    have := hleast _ hlt
    rw [Function.comp_apply, turn_of_place hk, hget k hk, hkr] at this
    exact absurd this (by decide)

/-- With tickets the least whose running total exceeds the draw wins. -/
theorem drawWinner_ticket (run : Nat → Bool) (tk : Nat → Nat) (x last : Nat) (h0 : ((List.range n).map tk).sum ≠ 0) :
    let w := drawWinner ((List.range n).map tk) ((List.range n).map run) x last
    let r := x % ((List.range n).map tk).sum
    w < n ∧ r < ((List.range (w + 1)).map tk).sum ∧ ∀ k < w, ((List.range (k + 1)).map tk).sum ≤ r := by
  have htotal : ((List.range n).map tk).foldl (· + ·) 0 = ((List.range n).map tk).sum := List.sum_eq_foldl.symm
  rw [drawWinner]
  simp only [List.length_map, List.length_range, htotal, if_neg h0]
  cases hfind : (List.range n).find? fun q =>
      decide ((((List.range n).map tk).take (q + 1)).foldl (· + ·) 0 > x % ((List.range n).map tk).sum) with
  | none =>
    rw [List.find?_eq_none] at hfind
    cases n with
    | zero => exact absurd rfl h0
    | succ n =>
      have hlast := hfind n (List.mem_range.mpr (Nat.lt_succ_self n))
      rw [decide_eq_true_iff, foldl_take_tickets tk le_rfl] at hlast
      exact absurd (Nat.mod_lt x (Nat.pos_of_ne_zero h0)) hlast
  | some w =>
    rw [List.find?_range_eq_some] at hfind
    obtain ⟨hw, hlt, hleast⟩ := hfind
    rw [List.mem_range] at hlt
    rw [decide_eq_true_iff, foldl_take_tickets tk hlt] at hw
    refine ⟨hlt, hw, fun k hk => ?_⟩
    have := hleast k hk
    rw [Bool.not_eq_true', decide_eq_false_iff_not, foldl_take_tickets tk (Nat.lt_trans hk hlt)] at this
    exact not_lt.mp this

/-- The winner of a draw among contenders some of which can run (R104). -/
theorem drawWinner_wins (run : Nat → Bool) (tk : Nat → Nat) (x last : Nat) (hrun : ∃ q < n, run q = true) :
    Wins n (fun q => run q = true) tk x last (drawWinner ((List.range n).map tk) ((List.range n).map run) x last) := by
  unfold Wins
  dsimp only
  split_ifs with h0
  · exact drawWinner_next run tk x last hrun h0
  · exact drawWinner_ticket run tk x last h0

/-- Where only contenders that can run have tickets, the winner can run. -/
theorem Wins.runs {run : Nat → Prop} {tk : Nat → Nat} {x last w : Nat} (h : Wins n run tk x last w) (htk : ∀ q, tk q ≠ 0 → run q) :
    run w ∧ w < n := by
  unfold Wins at h
  dsimp only at h
  split_ifs at h with h0
  · exact ⟨h.1, h.2.1⟩
  · obtain ⟨hw, hlt, hbelow⟩ := h
    refine ⟨htk w fun hzero => ?_, hw⟩
    rw [List.range_succ (n := w), List.map_append, List.sum_append, List.map_singleton, List.sum_singleton, hzero, add_zero] at hlt
    cases w with
    | zero => exact absurd hlt (Nat.not_lt_zero _)
    | succ w => exact absurd (hbelow w (Nat.lt_succ_self w)) (not_le.mpr hlt)

end

end Sys2Proof.Machine
end

section
/-! Cards enter the window of their cluster and are drawn (R167, R168, R170). -/

namespace Sys2Proof.Machine

variable {s : State} {cl id kind : Nat} {k : Card}

/-! Clusters -/

theorem State.cl_setCl_same (hs : s.clusters.Rises) (c : Nat) (v : Cluster) : (s.setCl c v).cl c = v :=
  SMap.get_put_same (d := ({} : Cluster)) hs c v

/-! Entry -/

theorem overlaps_iff (a b c d : Nat) : overlaps a b c d = true ↔ a < b ∧ c < d ∧ a < d ∧ c < b := by
  simp only [overlaps, Bool.and_eq_true, decide_eq_true_eq, and_assoc]

theorem canEnter_iff (s : State) (cl : Nat) (k : Card) : canEnter s cl k = true ↔ k.st = .posted ∧
    ((s.cl cl).cards.filter Card.inWindow).length < 64 ∧ ∀ m ∈ (s.cl cl).cards, m.id < k.id → m.st ≠ .posted := by
  simp only [canEnter, Bool.and_eq_true, beq_iff_eq, decide_eq_true_eq, List.all_eq_true, Bool.or_eq_true, bne_iff_ne, and_assoc,
    ge_iff_le, ← not_lt, imp_iff_not_or]

section
variable (hk : s.card? cl id = some k)
include hk

theorem exec_cardWindowEntry_waits (hst : k.st = .posted) (h : ¬ canEnter s cl k = true) :
    exec (.cardWindowEntry cl id) s = .next (s.post (.cardWindowEntry cl id)) := by
  rw [exec_cardWindowEntry, execCardWindowEntry]
  simp only [hk, Bool.eq_false_iff.mpr h, hst]
  rfl

theorem exec_cardWindowEntry_ill (h : canEnter s cl k = true) (hill : k.ill = true) : exec (.cardWindowEntry cl id) s =
    .next ((s.setCard cl { k with st := .finished 0x19 0 }).post (.cardDone cl id)) := by
  rw [exec_cardWindowEntry, execCardWindowEntry]
  simp only [hk, h, hill]
  rfl

/-- The earlier cards of a card's context in the window, not ill-formed, whose extents meet its own (R168). -/
def cardHits (s : State) (cl : Nat) (k : Card) : List Card :=
  (s.cl cl).cards.filter fun e => e.part == k.part && e.cr == k.cr && e.id < k.id && e.inWindow && !e.ill
    && (overlaps k.rlo k.rhi e.wlo e.whi || overlaps k.wlo k.whi e.rlo e.rhi || overlaps k.wlo k.whi e.wlo e.whi)

theorem exec_cardWindowEntry_enters (h : canEnter s cl k = true) (hill : k.ill = false) : exec (.cardWindowEntry cl id) s =
    .next (s.setCard cl { k with st := .windowed, edges := (cardHits s cl k).map (·.id) }) := by
  rw [exec_cardWindowEntry, execCardWindowEntry]
  simp only [hk, h, hill]
  rfl

end

theorem mem_cardHits (s : State) (cl : Nat) (k e : Card) : e ∈ cardHits s cl k ↔ e ∈ (s.cl cl).cards ∧ e.part = k.part ∧ e.cr = k.cr ∧
    e.id < k.id ∧ e.inWindow = true ∧ e.ill = false ∧ ((k.rlo < k.rhi ∧ e.wlo < e.whi ∧ k.rlo < e.whi ∧ e.wlo < k.rhi) ∨
      (k.wlo < k.whi ∧ e.rlo < e.rhi ∧ k.wlo < e.rhi ∧ e.rlo < k.whi) ∨ (k.wlo < k.whi ∧ e.wlo < e.whi ∧ k.wlo < e.whi ∧ e.wlo < k.whi)) := by
  simp only [cardHits, List.mem_filter, Bool.and_eq_true, Bool.or_eq_true, beq_iff_eq, decide_eq_true_eq, Bool.not_eq_true', overlaps_iff,
    and_assoc, or_assoc]

/-! Draws -/

/-- The card that stands first for a queue: ready, of the kind that is drawn (R170). -/
def firstReady (s : State) (cl kind q : Nat) : Option Card :=
  (s.cl cl).cards.find? fun m => m.kind == kind && m.queue == q && cardReady s cl m

theorem firstReady_isSome (h : k ∈ (s.cl cl).cards) (hready : cardReady s cl k = true) (hkind : k.kind = kind) :
    (firstReady s cl kind k.queue).isSome = true := by
  rw [firstReady, List.find?_isSome]
  exact ⟨k, h, by rw [hready, hkind, beq_self_eq_true, beq_self_eq_true]; rfl⟩

theorem card_mem (hk : s.card? cl id = some k) : k ∈ (s.cl cl).cards ∧ k.id = id :=
  ⟨List.mem_of_find?_eq_some hk, by simpa using List.find?_some hk⟩

theorem mem_freeEngines (s : State) (cl kind e : Nat) : e ∈ freeEngines s cl kind ↔
    e < (if kind = 0 then 2 else 1) ∧ ∀ m ∈ (s.cl cl).cards, m.kind = kind → m.st ≠ .running e := by
  simp only [freeEngines, List.mem_filter, List.mem_range, Bool.not_eq_true', List.any_eq_false, Bool.and_eq_true, beq_iff_eq, not_and, ne_eq]

/-- What a draw of a kind among n queues picks. -/
def drawn (n : Nat) (s : State) (cl kind : Nat) : Nat :=
  drawWinner ((List.range n).map fun q => ((firstReady s cl kind q).map (·.prio)).getD 0)
    ((List.range n).map fun q => (firstReady s cl kind q).isSome) (draw ((s.cl cl).gens.getD kind 1)) ((s.cl cl).last.getD kind 15)

theorem freeEngines_setCl (hs : s.clusters.Rises) (cl kind : Nat) (g l : List Nat) :
    freeEngines (s.setCl cl { s.cl cl with gens := g, last := l }) cl kind = freeEngines s cl kind := by
  rw [freeEngines, State.cl_setCl_same hs, freeEngines]

theorem exec_cardDraw_draws {n : Nat} (hn : n = 16) (hs : s.clusters.Rises) (hkind : kind < 3) (hc : canDraw s cl kind = true) {m : Card}
    (hm : firstReady s cl kind (drawn n s cl kind) = some m) :
    exec (.cardDraw cl kind) s = .next ((s.setCl cl { s.cl cl with
      gens := (s.cl cl).gens.set kind (draw ((s.cl cl).gens.getD kind 1)), last := (s.cl cl).last.set kind (drawn n s cl kind) }).setCard cl
        { m with st := .running ((freeEngines s cl kind).headD 0) }) := by
  subst hn
  rw [exec_cardDraw, execCardDraw, if_neg (by rw [hc]; simp; omega)]
  simp only [drawn, firstReady] at hm ⊢
  simp only [hm]
  rw [freeEngines_setCl hs]

section
variable (hk : s.card? cl id = some k) (hof : kind = k.kind) (hready : cardReady s cl k = true)
include hk hof hready

/-- The draw picks as R104 says. -/
theorem drawn_wins {n : Nat} (hqueue : ∀ m ∈ (s.cl cl).cards, m.queue < n) : Wins n (fun q => (firstReady s cl kind q).isSome = true)
    (fun q => ((firstReady s cl kind q).map (·.prio)).getD 0) (draw ((s.cl cl).gens.getD kind 1)) ((s.cl cl).last.getD kind 15)
    (drawn n s cl kind) := by
  have hmem := (card_mem hk).1
  exact drawWinner_wins (fun q => (firstReady s cl kind q).isSome) _ _ _ ⟨k.queue, hqueue k hmem, firstReady_isSome hmem hready hof.symm⟩

/-- What it picks has a ready card. -/
theorem drawn_ready {n : Nat} (hqueue : ∀ m ∈ (s.cl cl).cards, m.queue < n) : ∃ m, firstReady s cl kind (drawn n s cl kind) = some m := by
  have hwins := drawn_wins hk hof hready hqueue
  refine Option.isSome_iff_exists.mp (hwins.runs fun q hq => ?_).1
  cases hf : firstReady s cl kind q with
  | none => rw [hf] at hq; exact absurd rfl hq
  | some m => rfl

/-- An arbiter with a free engine and a ready card draws, for a free engine. -/
theorem canDraw_free (hfree : ∃ e < (if kind = 0 then 2 else 1), ∀ m ∈ (s.cl cl).cards, m.kind = kind → m.st ≠ .running e) :
    canDraw s cl kind = true ∧ (freeEngines s cl kind).headD 0 ∈ freeEngines s cl kind := by
  obtain ⟨hmem, -⟩ := card_mem hk
  obtain ⟨e, he⟩ := hfree
  rw [← mem_freeEngines] at he
  have hany : ((s.cl cl).cards.any fun k => k.kind == kind && cardReady s cl k) = true :=
    List.any_eq_true.mpr ⟨k, hmem, by rw [hready, hof, beq_self_eq_true]; rfl⟩
  rw [canDraw, hany, Bool.and_true, Bool.not_eq_true', List.isEmpty_eq_false_iff]
  refine ⟨List.ne_nil_of_mem he, ?_⟩
  cases hl : freeEngines s cl kind with
  | nil => rw [hl] at he; cases he
  | cons a l => exact List.mem_cons_self

end

end Sys2Proof.Machine
end

section
/-! Where a bank operation reaches its location: on what that depends, and what leaves it as it is (R125, R127, R180). -/

namespace Sys2Proof.Machine

variable {s t u : State} {part va n : Nat}

/-! Registers above one that is set, in any order of the file -/

theorem SMap.get_del_above {β : Type} (d : β) (m : SMap β) {i j : Nat} (h : i < j) : (m.del i).get d j = m.get d j := by
  induction m with
  | nil => rfl
  | cons p m ih =>
    obtain ⟨k, v⟩ := p
    unfold SMap.del
    split_ifs with h1 h2
    · rw [SMap.get, if_neg (by omega), if_neg (by omega)]
    · rfl
    · rw [SMap.get, SMap.get, ih]

theorem State.reg_setReg_above {c n u c' n' u' : Nat} (v : W64) (h : rkey c n u < rkey c' n' u') :
    (s.setReg c n u v).reg c' n' u' = s.reg c' n' u' := by
  rw [State.reg, State.setReg_regs]
  split
  · exact SMap.get_del_above _ _ h
  · exact SMap.get_ins_other _ _ _ (Nat.ne_of_gt h)

/-! The ways from an agent to a memory that is not translated -/

/-- The chip's identity, its links, the images and the registers of the classes from 4 on: what place an address has and who reaches it. -/
structure SameWays (s t : State) : Prop where
  ident : t.ident = s.ident
  links : t.links = s.links
  images : t.images = s.images
  reg : ∀ c n w, 4 ≤ c → t.reg c n w = s.reg c n w

namespace SameWays

theorem refl (s : State) : SameWays s s := ⟨rfl, rfl, rfl, fun _ _ _ _ => rfl⟩

theorem symm (h : SameWays s t) : SameWays t s := ⟨h.ident.symm, h.links.symm, h.images.symm, fun c n w hc => (h.reg c n w hc).symm⟩

theorem trans (h : SameWays s t) (h' : SameWays t u) : SameWays s u :=
  ⟨h'.ident.trans h.ident, h'.links.trans h.links, h'.images.trans h.images, fun c n w hc => (h'.reg c n w hc).trans (h.reg c n w hc)⟩

theorem of_eq (hi : t.ident = s.ident) (hl : t.links = s.links) (hm : t.images = s.images) (hr : t.regs = s.regs) : SameWays s t :=
  ⟨hi, hl, hm, fun c n w _ => by rw [State.reg, State.reg, hr]⟩

theorem rn (h : SameWays s t) {c n w : Nat} (hc : 4 ≤ c) : t.rn c n w = s.rn c n w := congrArg _ (h.reg c n w hc)

theorem capSpad (h : SameWays s t) : t.capSpad = s.capSpad := by rw [State.capSpad, h.ident, State.capSpad]

theorem physDie (h : SameWays s t) (d : Nat) : t.physDie d = s.physDie d := by rw [State.physDie, h.rn (by decide), State.physDie]

theorem inMap (h : SameWays s t) (p c : Nat) : t.inMap p c = s.inMap p c := by rw [State.inMap, h.rn le_rfl, State.inMap]

theorem physTile (h : SameWays s t) (p g : Nat) : t.physTile p g = s.physTile p g := by
  rw [State.physTile, State.pltEntry, h.rn le_rfl]; rfl

theorem physClu (h : SameWays s t) (p d c : Nat) : t.physClu p d c = s.physClu p d c := by
  rw [State.physClu, h.physDie, h.rn le_rfl, State.physClu]

theorem reach (h : SameWays s t) (d f : Nat) : t.reach d f = s.reach d f := by
  have hl : ∀ ep, t.link ep = s.link ep := fun ep => by rw [State.link, h.links, State.link]
  have hf : ∀ i, t.linkFailed i = s.linkFailed i := fun i => by rw [State.linkFailed, hl, hl, State.linkFailed]
  simp only [State.reach, hf]

theorem inImage (h : SameWays s t) (part va n : Nat) : inImage t part va n = inImage s part va n := by
  rw [Machine.inImage, h.images, Machine.inImage]

end SameWays

theorem cross_sameWays (s : State) (d f : Nat) : SameWays s (s.cross d f) := by
  rw [State.cross]
  split_ifs
  · exact .of_eq rfl rfl rfl rfl
  · exact .refl s

/-- A reply gives its window other values, and may lower NOC_WINMIN of its die. -/
theorem onReply_cases (s : State) (key : Nat) (echo : Bool) (q : Nat) : ∃ w, onReply s key echo q = { s with wins := w } ∨
    ∃ v, onReply s key echo q = State.setN { s with wins := w } 3 0xC02 (key % 2 ^ 16 / 2 ^ 14) v := by
  obtain ⟨v, w, h⟩ : ∃ v w, onReply s key echo q = if v < State.rn { s with wins := w } 3 0xC02 (key % 2 ^ 16 / 2 ^ 14)
      then State.setN { s with wins := w } 3 0xC02 (key % 2 ^ 16 / 2 ^ 14) v else { s with wins := w } := ⟨_, _, rfl⟩
  refine ⟨w, ?_⟩
  rw [h]
  split_ifs
  · exact .inr ⟨v, rfl⟩
  · exact .inl rfl

theorem onReply_sameWays (s : State) (key : Nat) (echo : Bool) (q : Nat) : SameWays s (onReply s key echo q) := by
  obtain ⟨w, h | ⟨v, h⟩⟩ := onReply_cases s key echo q
  · rw [h]
    exact .of_eq rfl rfl rfl rfl
  · rw [h]
    have hw : SameWays s { s with wins := w } := .of_eq rfl rfl rfl rfl
    refine hw.trans ⟨State.setN_ident .., State.setN_links .., State.setN_images .., fun c n u hc => State.reg_setReg_above _ ?_⟩
    unfold rkey
    omega

theorem engReq_eq (s : State) (cl part e va : Nat) : ∃ w b q, engReq s cl part e va = onReply { s with wins := w } (engKey cl e) b q :=
  ⟨_, _, _, rfl⟩

/-- A request that an engine makes leaves the ways as they are. -/
theorem engReq_sameWays (s : State) (cl part e va : Nat) : SameWays s (engReq s cl part e va) := by
  obtain ⟨w, b, q, h⟩ := engReq_eq s cl part e va
  have hw : SameWays s { s with wins := w } := .of_eq rfl rfl rfl rfl
  rw [h]
  exact hw.trans (onReply_sameWays ..)

theorem engReqs_one (s : State) (cl : Nat) (k : Card) (va : Nat) : engReqs s cl k [va] = engReq s cl k.part k.eng va := rfl

/-! Bank operations -/

/-- A bank operation of an agent of a die on n bytes at a VA reaches its location (R119, R127, R180). -/
structure BankReaches (s : State) (part va n from_ : Nat) : Prop where
  bank : bankable (vaClass s.capSpad va) = true
  image : inImage s part va n = false
  place : ∃ a, sramLoc s part (vaClass s.capSpad va) true = .ok a
  way : s.reach (from_ % 4) (s.physDie (bits va 61 60)) = true

theorem sramLoc_ok_congr (h : SameWays s t) (part : Nat) {cls : VaClass} (hb : bankable cls = true) :
    (∃ a, sramLoc s part cls true = .ok a) → ∃ a, sramLoc t part cls true = .ok a := by
  rintro ⟨a, ha⟩
  cases cls with
  | clu d c o =>
    simp only [sramLoc] at ha ⊢
    rw [h.physClu, h.inMap]
    split_ifs at ha ⊢
    exact ⟨_, rfl⟩
  | pool d o =>
    simp only [sramLoc] at ha ⊢
    rw [h.rn le_rfl, h.physDie]
    split_ifs at ha ⊢
    exact ⟨_, rfl⟩
  | none | host | spad | eng | dieLocal => exact absurd hb Bool.false_ne_true

theorem BankReaches.congr {from_ : Nat} (h : SameWays s t) (hb : BankReaches s part va n from_) : BankReaches t part va n from_ := by
  have hcls : vaClass t.capSpad va = vaClass s.capSpad va := by rw [h.capSpad]
  exact ⟨hcls ▸ hb.bank, (h.inImage ..).trans hb.image, hcls ▸ sramLoc_ok_congr h part hb.bank hb.place,
    by rw [h.reach, h.physDie]; exact hb.way⟩

theorem translated_of_bankable {cls : VaClass} (h : bankable cls = true) : cls.translated = false := by
  cases cls with
  | host | dieLocal => exact absurd h Bool.false_ne_true
  | none | spad | clu | pool | eng => rfl

theorem storeAt_frame (s : State) (a n v : Nat) : storeAt s a n v =
    { s with mem := (storeAt s a n v).mem, tags := (storeAt s a n v).tags, relVec := (storeAt s a n v).relVec } := by
  rw [storeAt, setTag_eq, wrNat_eq]

theorem storeAt_sameWays (s : State) (a n v : Nat) : SameWays s (storeAt s a n v) := by
  refine .of_eq ?_ ?_ ?_ ?_ <;> rw [storeAt_frame]

theorem locate_bank {from_ : Nat} (hbank : bankable (vaClass s.capSpad va) = true) (cp : Bool) :
    locate s part va n true false cp from_ = if !cp && inImage s part va n then (s, .error { cause := 0xB, die := from_ % 4, va := va })
      else match sramLoc s part (vaClass s.capSpad va) true with
        | .error b => (s, .error { b with va := va, die := if b.cause = 1 then from_ % 4 else b.die })
        | .ok a => if s.reach (from_ % 4) (s.physDie (bits va 61 60)) then (s, .ok a)
          else (s, .error { cause := 8, die := from_ % 4, va := va }) := by
  rw [locate]
  simp only [translated_of_bankable hbank]
  rfl

/-- A bank operation that reaches its location is performed there, and the ways stay. -/
theorem bankAt_reaches {from_ : Nat} (hb : BankReaches s part va n from_) (op v : Nat) :
    ∃ u old, bankAt s part va n op v from_ = (u, .ok old) ∧ SameWays s u := by
  obtain ⟨hbank, himage, ⟨a, ha⟩, hway⟩ := hb
  have hloc : locate s part va n true false false from_ = (s, .ok a) := by
    rw [locate_bank hbank, himage, ha]
    exact if_pos hway
  rw [bankAt]
  simp only [hbank, hloc]
  exact ⟨_, _, rfl, (storeAt_sameWays ..).trans (.of_eq rfl rfl rfl rfl)⟩

theorem bankAt_fails {from_ : Nat} (hb : ¬ BankReaches s part va n from_) (op v : Nat) :
    ∃ u bad, bankAt s part va n op v from_ = (u, .error bad) := by
  rw [bankAt]
  by_cases hbank : bankable (vaClass s.capSpad va) = true
  · obtain ⟨u, bad, hloc⟩ : ∃ u bad, locate s part va n true false false from_ = (u, .error bad) := by
      rw [locate_bank hbank]
      by_cases himage : inImage s part va n = true
      · exact ⟨_, _, if_pos himage⟩
      · rw [Bool.eq_false_iff.mpr himage]
        cases ha : sramLoc s part (vaClass s.capSpad va) true with
        | error b => exact ⟨_, _, rfl⟩
        | ok a => exact ⟨_, _, if_neg fun hway => hb ⟨hbank, Bool.eq_false_iff.mpr himage, ⟨a, ha⟩, hway⟩⟩
    simp only [hbank, hloc]
    exact ⟨_, _, rfl⟩
  · simp only [Bool.eq_false_iff.mpr hbank]
    exact ⟨_, _, rfl⟩

/-- The agent's die crosses to the home first. -/
theorem bankFar_eq (s : State) (part va n op v from_ : Nat) : ∃ t, SameWays s t ∧ bankFar s part va n op v from_ = bankAt t part va n op v from_ := by
  rw [bankFar]
  split
  · exact ⟨s, .refl s, rfl⟩
  · exact ⟨_, cross_sameWays .., rfl⟩

theorem bankFar_reaches {from_ : Nat} (hb : BankReaches s part va n from_) (op v : Nat) :
    ∃ u old, bankFar s part va n op v from_ = (u, .ok old) ∧ SameWays s u := by
  obtain ⟨t, ht, h⟩ := bankFar_eq s part va n op v from_
  obtain ⟨u, old, hu, hways⟩ := bankAt_reaches (hb.congr ht) op v
  exact ⟨u, old, h.trans hu, ht.trans hways⟩

theorem bankFar_fails {from_ : Nat} (hb : ¬ BankReaches s part va n from_) (op v : Nat) :
    ∃ u bad, bankFar s part va n op v from_ = (u, .error bad) := by
  obtain ⟨t, ht, h⟩ := bankFar_eq s part va n op v from_
  rw [h]
  exact bankAt_fails (fun hb' => hb (hb'.congr ht.symm)) op v

theorem reaches_of_bankFar {from_ op v old : Nat} (h : bankFar s part va n op v from_ = (u, .ok old)) : BankReaches s part va n from_ := by
  by_contra hb
  obtain ⟨w, bad, hw⟩ := bankFar_fails hb op v
  rw [hw] at h
  cases h

theorem not_reaches_of_bankFar {from_ op v : Nat} {bad : Bad} (h : bankFar s part va n op v from_ = (u, .error bad)) :
    ¬ BankReaches s part va n from_ := fun hb => by
  obtain ⟨w, old, hw, -⟩ := bankFar_reaches hb op v
  rw [hw] at h
  cases h

end Sys2Proof.Machine
end

section
/-! A card runs: its rows, and the windows of an SCACC (R193, R343, R344). -/

namespace Sys2Proof.Machine

variable {s t u x y : State} {cl id i m n : Nat} {k : Card}

/-! Rows -/

theorem cardRows_done (h : RowsDone cl k i n s t) : cardRows n s cl k i = (t, i + n, none) := by
  induction n generalizing s i with
  | zero => rw [cardRows, show t = s from h]; rfl
  | succ n ih =>
    obtain ⟨u, hstep, hrest⟩ := h
    rw [cardRows, hstep]
    dsimp only
    rw [ih hrest, show i + 1 + n = i + (n + 1) by omega]

theorem cardRows_fault {bad : Bad} (h : RowsDone cl k i m s t) (hmn : m < n) (hstep : cardStep t cl k (i + m) = (y, some bad)) :
    cardRows n s cl k i = (y, i + m, some bad) := by
  induction m generalizing s i n with
  | zero =>
    obtain ⟨n, rfl⟩ := Nat.exists_eq_add_of_lt hmn
    rw [show (0 : Nat) + n + 1 = n + 1 by omega, cardRows, show s = t from (show t = s from h).symm, show cardStep t cl k i = (y, some bad) from hstep]
    rfl
  | succ m ih =>
    obtain ⟨n, rfl⟩ : ∃ r, n = r + 1 := ⟨n - 1, by omega⟩
    obtain ⟨u, hone, hrest⟩ := h
    rw [cardRows, hone]
    dsimp only
    rw [ih hrest (by omega) (by rw [show i + 1 + m = i + (m + 1) by omega]; exact hstep), show i + 1 + m = i + (m + 1) by omega]

/-! A run -/

/-- A card that has finished with a cause, after some rows. -/
def cardEnds (u : State) (cl id : Nat) (k : Card) (cause va rows : Nat) : State :=
  (u.setCard cl { k with st := .finished cause va, rows := rows }).post (.cardDone cl id)

section
variable {e op rows : Nat} {body : State → Card → Nat → State × Nat × Option Bad} {bad : Bad}
  (hk : s.card? cl id = some k) (hst : k.st = .running e) (hop : k.op = op)
include hk hst hop

theorem runCard_unread (hc : cardCount s cl k = (u, .error bad)) : runCard op cl id s body = .next (cardEnds u cl id k bad.cause k.guard 0) := by
  rw [runCard]
  simp only [hk, hst, hop, hc]
  exact if_neg (not_not.mpr rfl)

theorem runCard_done (hc : cardCount s cl k = (u, .ok n)) (hb : body u k n = (x, rows, none)) :
    runCard op cl id s body = .next (cardEnds x cl id k 0 0 rows) := by
  rw [runCard]
  simp only [hk, hst, hop, hc, hb]
  exact if_neg (not_not.mpr rfl)

theorem runCard_fault (hc : cardCount s cl k = (u, .ok n)) (hb : body u k n = (x, rows, some bad)) :
    runCard op cl id s body = .next (cardEnds x cl id k bad.cause bad.va rows) := by
  rw [runCard]
  simp only [hk, hst, hop, hc, hb]
  exact if_neg (not_not.mpr rfl)

theorem runCard_ends (body : State → Card → Nat → State × Nat × Option Bad) : ∃ t, runCard op cl id s body = .next t := by
  cases hc : cardCount s cl k with
  | mk u r =>
    cases r with
    | error bad => exact ⟨_, runCard_unread hk hst hop hc⟩
    | ok n =>
      cases hb : body u k n with
      | mk x r =>
        obtain ⟨rows, bad | bad⟩ := r
        · exact ⟨_, runCard_done hk hst hop hc hb⟩
        · exact ⟨_, runCard_fault hk hst hop hc hb⟩

end

/-- The event that runs a card whose lines stay on this chip. -/
def RunsHere (s : State) (cl id : Nat) (k : Card) (i : Instr) : Prop :=
  i = .copy2d cl id ∧ k.op = 1 ∨ i = .copyx cl id ∧ k.op = 2 ∧ k.remote s = false ∨ i = .gather cl id ∧ k.op = 3 ∨
    i = .scacc cl id ∧ k.op = 4 ∨ i = .fill cl id ∧ k.op = 5

theorem exec_runs_rows {i : Instr} (hk : s.card? cl id = some k) (h : RunsHere s cl id k i) (hop : k.op ≠ 4) :
    exec i s = runCard k.op cl id s fun s k n => cardRows n s cl k 0 := by
  rcases h with ⟨rfl, h⟩ | ⟨rfl, h, hr⟩ | ⟨rfl, h⟩ | ⟨rfl, h⟩ | ⟨rfl, h⟩
  · rw [exec_copy2d, execCopy2d, h]
  · rw [exec_copyx, execCopyx]
    simp only [hk, hr, h]
    rfl
  · rw [exec_gather, execGather, h]
  · exact absurd h hop
  · rw [exec_fill, execFill, h]

theorem exec_runs_scacc {i : Instr} (h : RunsHere s cl id k i) (hop : k.op = 4) :
    exec i s = runCard 4 cl id s fun s k n => scWindows (n / 32 + 1) s cl k 0 n := by
  rcases h with ⟨rfl, h⟩ | ⟨rfl, h, hr⟩ | ⟨rfl, h⟩ | ⟨rfl, h⟩ | ⟨rfl, h⟩
  · omega
  · omega
  · omega
  · rw [exec_scacc, execScacc]
  · omega

/-! The entries of a window -/

/-- Entries of an index stream with their places. -/
def placed : Nat → List (Nat × Nat) → List (Nat × Nat × Nat)
  | _, [] => []
  | i, e :: l => (i, e.1, e.2) :: placed (i + 1) l

theorem placed_append (i : Nat) (w r : List (Nat × Nat)) : placed i (w ++ r) = placed i w ++ placed (i + w.length) r := by
  induction w generalizing i with
  | nil => rfl
  | cons e w ih => rw [List.cons_append, placed, ih, placed, List.cons_append, List.length_cons, show i + 1 + w.length = i + (w.length + 1) by omega]

theorem placed_map (i : Nat) (w : List (Nat × Nat)) : (placed i w).map (·.2) = w := by
  induction w generalizing i with
  | nil => rfl
  | cons e w ih => rw [placed, List.map_cons, ih]

theorem placed_length (i : Nat) (w : List (Nat × Nat)) : (placed i w).length = w.length := by
  rw [← List.length_map (as := placed i w) (f := (·.2)), placed_map]

theorem range_from (i n : Nat) : (List.range (n + 1)).map (i + ·) = i :: (List.range n).map (i + 1 + ·) := by
  rw [List.range_succ_eq_map, List.map_cons, List.map_map]
  exact congrArg _ (List.map_congr_left fun j _ => by simp only [Function.comp_apply]; omega)

theorem inRange_iff (k : Card) (j : Nat) : ¬ (j ≥ 2 ^ 32 ∨ j ≥ bits (k.w 3) 63 32) ↔ j < k.w 3 / 2 ^ 32 := by
  have hlt : k.w 3 < 2 ^ 64 := BitVec.isLt _
  simp only [bits]
  omega

theorem scEntries_reads {w : List (Nat × Nat)} (h : ReadsEntries cl k i w s t) :
    scEntries s cl k ((List.range w.length).map (i + ·)) = (t, placed i w, none) := by
  induction w generalizing s i with
  | nil => rw [show t = s from h]; rfl
  | cons e w ih =>
    obtain ⟨u, b, hread, h1, hlt, h2, hrest⟩ := h
    rw [List.length_cons, range_from, scEntries, hread]
    dsimp only
    rw [if_neg ((inRange_iff k _).mpr (h1 ▸ hlt)), ih hrest, placed, h1, h2]

/-- Entries, then one of an index out of range. -/
theorem scEntries_outside {w : List (Nat × Nat)} {b : List Nat} {z : State} (h : ReadsEntries cl k i w s t) (hm : w.length < m)
    (hread : vaRead (engReqs t cl k [(k.w 1 + 16 * (i + w.length)) % 2 ^ 64]) k.part ((k.w 1 + 16 * (i + w.length)) % 2 ^ 64) 16 (cl / 16) = (z, .ok b))
    (hj : k.w 3 / 2 ^ 32 ≤ leNat (b.take 8)) : scEntries s cl k ((List.range m).map (i + ·)) =
      (z, placed i w, some ⟨3, 255, cl / 16, (k.w 1 + 16 * (i + w.length)) % 2 ^ 64⟩) := by
  induction w generalizing s i m with
  | nil =>
    obtain ⟨m, rfl⟩ : ∃ r, m = r + 1 := ⟨m - 1, by simp at hm; omega⟩
    rw [range_from, scEntries, show s = t from (show t = s from h).symm]
    rw [List.length_nil, add_zero] at hread ⊢
    rw [hread]
    dsimp only
    rw [if_pos (by by_contra hc; exact absurd ((inRange_iff k _).mp hc) (not_lt.mpr hj))]
    rfl
  | cons e w ih =>
    obtain ⟨m, rfl⟩ : ∃ r, m = r + 1 := ⟨m - 1, by omega⟩
    obtain ⟨u, b', hone, h1, hlt, h2, hrest⟩ := h
    rw [List.length_cons] at hm hread ⊢
    rw [show i + (w.length + 1) = i + 1 + w.length by omega] at hread ⊢
    rw [range_from, scEntries, hone]
    dsimp only
    rw [if_neg ((inRange_iff k _).mpr (h1 ▸ hlt)), ih hrest (by omega) hread, placed, h1, h2]

end Sys2Proof.Machine
end

section
/-! What the windows of an SCACC do (R331, R344). -/

namespace Sys2Proof.Machine

variable {s t u v x y : State} {cl id i n : Nat} {k : Card}

/-! Values combined -/

theorem windowValue_other {w : List (Nat × Nat)} {e : Nat × Nat} {j : Nat} (h : e.1 ≠ j) : windowValue k (w ++ [e]) j = windowValue k w j := by
  rw [windowValue, List.filter_append, List.filter_cons_of_neg (by simpa using h), List.filter_nil, List.append_nil, windowValue]

theorem windowValue_new {w : List (Nat × Nat)} {e : Nat × Nat} (h : ∀ d ∈ w, d.1 ≠ e.1) : windowValue k (w ++ [e]) e.1 = e.2 := by
  have hw : w.filter (fun d => d.1 = e.1) = [] := List.filter_eq_nil_iff.mpr fun d hd => by simpa using h d hd
  rw [windowValue, List.filter_append, hw]
  simp

theorem windowValue_again {w : List (Nat × Nat)} {e : Nat × Nat} (h : ∃ d ∈ w, d.1 = e.1) :
    windowValue k (w ++ [e]) e.1 = bankOp (bits (k.w 0) 13 11) k.rb (windowValue k w e.1) e.2 := by
  obtain ⟨d, hd, he⟩ := h
  cases hw : w.filter (fun d => d.1 = e.1) with
  | nil => exact absurd (decide_eq_true he) (List.filter_eq_nil_iff.mp hw d hd)
  | cons a l =>
    rw [windowValue, windowValue, List.filter_append, hw]
    simp only [List.filter_singleton, decide_true, List.map_cons, List.map_append, List.cons_append, List.foldl_append]
    rfl

/-- An entry joins those of its index, or stands at the end (R344). -/
def mergeStep (k : Card) (acc : List (Nat × Nat × Nat)) (e : Nat × Nat × Nat) : List (Nat × Nat × Nat) :=
  if acc.any fun a => a.2.1 == e.2.1 then
    acc.map fun a => if a.2.1 == e.2.1 then (a.1, a.2.1, bankOp (bits (k.w 0) 13 11) k.rb a.2.2 e.2.2) else a
  else acc ++ [e]

theorem scMerge_snoc (k : Card) (es : List (Nat × Nat × Nat)) (e : Nat × Nat × Nat) :
    scMerge k (es ++ [e]) = mergeStep k (scMerge k es) e := by
  rw [scMerge, List.foldl_append]
  rfl

/-- Of each index one entry is left, in order of first place, with the window's value (R344). -/
theorem scMerge_values (k : Card) (i : Nat) (w : List (Nat × Nat)) :
    (scMerge k (placed i w)).map (·.2) = (w.map (·.1)).eraseDups.map fun j => (j, windowValue k w j) := by
  induction w using List.reverseRecOn with
  | nil => rfl
  | append_singleton w e ih =>
    have hany : ((scMerge k (placed i w)).any fun a => a.2.1 == e.1) = true ↔ ∃ d ∈ w, d.1 = e.1 := by
      have hmap : ((scMerge k (placed i w)).any fun a => a.2.1 == e.1) = ((scMerge k (placed i w)).map (·.2)).any fun q => q.1 == e.1 := by
        rw [List.any_map]; rfl
      rw [hmap, ih]
      simp [List.any_eq_true]
    rw [placed_append, placed, placed, scMerge_snoc, mergeStep, List.map_append, List.eraseDups_append, List.map_singleton]
    by_cases h : ∃ d ∈ w, d.1 = e.1
    · have hmem : e.1 ∈ w.map (·.1) := List.mem_map.mpr h
      have hnone : [e.1].removeAll (w.map (·.1)) = [] := by simp [List.removeAll, hmem]
      rw [if_pos (hany.mpr h), hnone, List.eraseDups_nil, List.append_nil, List.map_map]
      have hstep : ((fun a : Nat × Nat × Nat => a.2) ∘ fun a => if a.2.1 == e.1 then (a.1, a.2.1, bankOp (bits (k.w 0) 13 11) k.rb a.2.2 e.2) else a) =
          (fun q : Nat × Nat => if q.1 = e.1 then (q.1, bankOp (bits (k.w 0) 13 11) k.rb q.2 e.2) else q) ∘ (·.2) := by
        funext a
        by_cases ha : a.2.1 = e.1 <;> simp [ha]
      rw [hstep, ← List.map_map, ih, List.map_map]
      refine List.map_congr_left fun j _ => ?_
      by_cases hj : e.1 = j
      · subst hj
        rw [windowValue_again h, Function.comp_apply, if_pos rfl]
      · rw [windowValue_other hj, Function.comp_apply, if_neg (Ne.symm hj)]
    · have hmem : e.1 ∉ w.map (·.1) := mt List.mem_map.mp h
      have hone : [e.1].removeAll (w.map (·.1)) = [e.1] := by simp [List.removeAll, hmem]
      rw [if_neg (mt hany.mp h), hone, show [e.1].eraseDups = [e.1] from rfl, List.map_append, List.map_append, ih, List.map_singleton, List.map_singleton,
        windowValue_new fun d hd he => h ⟨d, hd, he⟩]
      refine congrArg (· ++ [(e.1, e.2)]) (List.map_congr_left fun j hj => ?_)
      rw [windowValue_other fun he => hmem (he ▸ List.mem_eraseDups.mp hj)]

/-! Entries whose target is reached -/

/-- The bank operation of an index can be made (R331, R344). -/
def ScWorks (s : State) (cl : Nat) (k : Card) (j : Nat) : Prop :=
  scVa k j % k.rb = 0 ∧ BankReaches s k.part (scVa k j) k.rb (cl / 16)

theorem ScWorks.congr {j : Nat} (h : SameWays s t) (hw : ScWorks s cl k j) : ScWorks t cl k j := ⟨hw.1, hw.2.congr h⟩

theorem scApply_misaligned {j : Nat} (h : scVa k j % k.rb ≠ 0) (val : Nat) :
    scApply s cl k j val = (s, some ⟨1, 255, cl / 16, scVa k j⟩) := by
  rw [scApply]
  exact if_pos h

theorem scApply_ok {j val old : Nat} (h : scVa k j % k.rb = 0)
    (hb : bankFar (engReqs s cl k [scVa k j]) k.part (scVa k j) k.rb (bits (k.w 0) 13 11) val (cl / 16) = (u, .ok old)) :
    scApply s cl k j val = (u, none) := by
  rw [scApply, if_neg (not_not.mpr h), hb]

theorem scApply_error {j val : Nat} {bad : Bad} (h : scVa k j % k.rb = 0)
    (hb : bankFar (engReqs s cl k [scVa k j]) k.part (scVa k j) k.rb (bits (k.w 0) 13 11) val (cl / 16) = (u, .error bad)) :
    scApply s cl k j val = (u, some bad) := by
  rw [scApply, if_neg (not_not.mpr h), hb]

theorem scApply_works {j : Nat} (h : ScWorks s cl k j) (val : Nat) : (scApply s cl k j val).2 = none := by
  obtain ⟨u, old, hb, -⟩ := bankFar_reaches (h.2.congr (engReq_sameWays s cl k.part k.eng (scVa k j))) (bits (k.w 0) 13 11) val
  rw [scApply_ok h.1 hb]

theorem scApply_stops {j : Nat} (h : ¬ ScWorks s cl k j) (val : Nat) : (scApply s cl k j val).2.isSome = true := by
  by_cases ha : scVa k j % k.rb = 0
  · obtain ⟨u, bad, hb⟩ := bankFar_fails (fun hr => h ⟨ha, hr.congr (engReq_sameWays s cl k.part k.eng (scVa k j)).symm⟩)
      (bits (k.w 0) 13 11) val
    rw [scApply_error ha (by rw [engReqs_one]; exact hb)]
    rfl
  · rw [scApply_misaligned ha]
    rfl

/-- The bank operations of a window's indices, one after another. -/
theorem accumulates_applies {w : List (Nat × Nat)} {js : List Nat} (h : Accumulates cl k w js s t) :
    (js.map fun j => (j, windowValue k w j)).foldl (fun s q => (scApply s cl k q.1 q.2).1) s = t ∧ SameWays s t ∧ ∀ j ∈ js, ScWorks s cl k j := by
  induction js generalizing s with
  | nil => exact ⟨(show t = s from h).symm, (show t = s from h) ▸ .refl s, fun _ hj => absurd hj List.not_mem_nil⟩
  | cons j js ih =>
    obtain ⟨u, old, ha, hb, hrest⟩ := h
    have hone := engReq_sameWays s cl k.part k.eng (scVa k j)
    have hreach := reaches_of_bankFar hb
    have hu : SameWays s u := by
      obtain ⟨u', old', hb', hways⟩ := bankFar_reaches hreach (k.w 0 / 2 ^ 11 % 8) (windowValue k w j)
      obtain ⟨rfl, -⟩ := Prod.mk.inj (hb.symm.trans hb')
      exact hone.trans hways
    obtain ⟨hfold, hways, hworks⟩ := ih hrest
    refine ⟨?_, hu.trans hways, fun i hi => ?_⟩
    · rw [List.map_cons, List.foldl_cons, scApply_ok ha hb]
      exact hfold
    · rcases List.mem_cons.mp hi with rfl | hi
      · exact ⟨ha, hreach.congr hone.symm⟩
      · exact (hworks i hi).congr hu.symm

theorem accumulates_merged {w : List (Nat × Nat)} (h : Accumulates cl k w (w.map (·.1)).eraseDups s t) (i : Nat) :
    (scMerge k (placed i w)).foldl (fun s e => (scApply s cl k e.2.1 e.2.2).1) s = t := by
  rw [← (accumulates_applies h).1, ← scMerge_values k i w, List.foldl_map]

theorem accumulates_works {w : List (Nat × Nat)} (h : Accumulates cl k w (w.map (·.1)).eraseDups s t) : ∀ e ∈ w, ScWorks s cl k e.1 :=
  fun _ he => (accumulates_applies h).2.2 _ (List.mem_eraseDups.mpr (List.mem_map_of_mem he))

theorem placed_mem {w : List (Nat × Nat)} {e : Nat × Nat × Nat} (h : e ∈ placed i w) : e.2 ∈ w := by
  rw [← placed_map i w]
  exact List.mem_map_of_mem h

theorem scSplit_all {w : List (Nat × Nat)} (h : ∀ e ∈ w, ScWorks s cl k e.1) (i : Nat) : scSplit s cl k (placed i w) = (placed i w, none) := by
  rw [scSplit, List.takeWhile_eq_self_iff.mpr, List.find?_eq_none.mpr]
  · intro e he
    rw [scApply_works (h _ (placed_mem he))]
    exact Bool.false_ne_true
  · intro e he
    rw [scApply_works (h _ (placed_mem he))]
    rfl

theorem scSplit_stops {w r : List (Nat × Nat)} {e : Nat × Nat} (h : ∀ e ∈ w, ScWorks s cl k e.1) (he : ¬ ScWorks s cl k e.1) (i : Nat) :
    scSplit s cl k (placed i (w ++ e :: r)) = (placed i w, some (i + w.length, e.1, e.2)) := by
  have hstop := scApply_stops he e.2
  rw [scSplit, placed_append, placed]
  refine Prod.ext ?_ ?_
  · rw [List.takeWhile_append_of_pos fun d hd => by rw [scApply_works (h _ (placed_mem hd))]; rfl, List.takeWhile_cons_of_neg, List.append_nil]
    rw [Option.isSome_iff_ne_none] at hstop
    simpa [Option.isNone_iff_eq_none] using hstop
  · exact find_first (q := fun e : Nat × Nat × Nat => (scApply s cl k e.2.1 e.2.2).2.isSome)
      (fun d hd => by rw [scApply_works (h _ (placed_mem hd))]; exact Bool.false_ne_true) hstop

/-! Windows -/

theorem scWindows_window {w : List (Nat × Nat)} (hin : i < n) (hlen : w.length = min 32 (n - i)) (hread : ReadsEntries cl k i w s u)
    (happly : Accumulates cl k w (w.map (·.1)).eraseDups u v) (f : Nat) :
    scWindows (f + 1) s cl k i n = scWindows f v cl k (i + w.length) n := by
  rw [scWindows, if_neg (not_le.mpr hin)]
  dsimp only
  rw [← hlen, scEntries_reads hread]
  simp only [scSplit_all (accumulates_works happly), accumulates_merged happly]

theorem scWindows_end (f : Nat) (s : State) (cl : Nat) (k : Card) (n : Nat) : scWindows f s cl k n n = (s, n, none) := by
  cases f with
  | zero => rfl
  | succ f => rw [scWindows, if_pos le_rfl]

/-- Windows of an index stream one after another, each full but, where it ends the stream, the last. -/
theorem scWindows_windows {ws : List (List (Nat × Nat))} (h : ScWindows cl k i ws s t) (hfull : ∀ w ∈ ws.dropLast, w.length = 32)
    (hlen : ∀ w ∈ ws, 0 < w.length ∧ w.length ≤ 32) (hn : i + ws.flatten.length ≤ n)
    (hlast : i + ws.flatten.length = n ∨ ∀ w ∈ ws, w.length = 32) (f : Nat) :
    scWindows (f + ws.length) s cl k i n = scWindows f t cl k (i + ws.flatten.length) n := by
  induction ws generalizing s i with
  | nil => rw [show t = s from h]; rfl
  | cons w ws ih =>
    obtain ⟨u, v, hread, happly, hrest⟩ := h
    rw [List.flatten_cons, List.length_append] at hn hlast ⊢
    obtain ⟨hpos, hle⟩ := hlen w List.mem_cons_self
    have hw : w.length = min 32 (n - i) := by
      cases ws with
      | nil =>
        rcases hlast with hl | hl
        · simp only [List.flatten_nil, List.length_nil] at hl
          omega
        · have := hl w List.mem_cons_self
          omega
      | cons w' ws =>
        have := hfull w (by rw [List.dropLast_cons_cons]; exact List.mem_cons_self)
        omega
    rw [List.length_cons, ← Nat.add_assoc, scWindows_window (by omega) hw hread happly, ih hrest]
    · rw [Nat.add_assoc]
    · intro w' hw'
      refine hfull w' ?_
      cases ws with
      | nil => cases hw'
      | cons a l => rw [List.dropLast_cons_cons]; exact List.mem_cons_of_mem _ hw'
    · exact fun w' hw' => hlen w' (List.mem_cons_of_mem _ hw')
    · omega
    · rcases hlast with hl | hl
      · exact .inl (by omega)
      · exact .inr fun w' hw' => hl w' (List.mem_cons_of_mem _ hw')

theorem full_windows_length {ws : List (List (Nat × Nat))} (h : ∀ w ∈ ws, w.length = 32) : ws.flatten.length = 32 * ws.length := by
  rw [List.length_flatten, List.map_congr_left h, List.map_const', List.sum_replicate, smul_eq_mul, Nat.mul_comm]

theorem windows_length {ws : List (List (Nat × Nat))} (hfull : ∀ w ∈ ws.dropLast, w.length = 32) (hlen : ∀ w ∈ ws, 0 < w.length ∧ w.length ≤ 32) :
    32 * ws.length < ws.flatten.length + 32 := by
  cases ws using List.reverseRecOn with
  | nil => decide
  | append_singleton ws w =>
    rw [List.dropLast_concat] at hfull
    have := (hlen w (by simp)).1
    have hws := full_windows_length hfull
    simp only [List.flatten_append, List.flatten_cons, List.flatten_nil, List.append_nil, List.length_append, List.length_cons, List.length_nil]
    omega

/-- A whole index stream. -/
theorem scWindows_all {ws : List (List (Nat × Nat))} (h : ScWindows cl k 0 ws s t) (hn : ws.flatten.length = n)
    (hlen : ∀ w ∈ ws, 0 < w.length ∧ w.length ≤ 32) (hfull : ∀ w ∈ ws.dropLast, w.length = 32) :
    scWindows (n / 32 + 1) s cl k 0 n = (t, n, none) := by
  have hcount := windows_length hfull hlen
  rw [show n / 32 + 1 = n / 32 + 1 - ws.length + ws.length by omega,
    scWindows_windows h hfull hlen (by omega) (.inl (by omega)), Nat.zero_add, hn, scWindows_end]

/-- Full windows, then one more. -/
theorem scWindows_next {ws : List (List (Nat × Nat))} (h : ScWindows cl k 0 ws s t) (hfull : ∀ w ∈ ws, w.length = 32) (hn : 32 * ws.length < n) :
    ∃ f, scWindows (n / 32 + 1) s cl k 0 n = scWindows (f + 1) t cl k (32 * ws.length) n := by
  have hlen := full_windows_length hfull
  refine ⟨n / 32 - ws.length, ?_⟩
  rw [show n / 32 + 1 = n / 32 - ws.length + 1 + ws.length by omega, scWindows_windows h (fun w hw => hfull w (List.dropLast_subset _ hw))
    (fun w hw => by rw [hfull w hw]; decide) (by omega) (.inr hfull), Nat.zero_add, hlen]

/-- A window in which an index is out of range. -/
theorem scWindows_outside {w : List (Nat × Nat)} {b : List Nat} (hw : w.length < min 32 (n - i)) (hread : ReadsEntries cl k i w s x)
    (hnext : vaRead (engReqs x cl k [(k.w 1 + 16 * (i + w.length)) % 2 ^ 64]) k.part ((k.w 1 + 16 * (i + w.length)) % 2 ^ 64) 16 (cl / 16) = (y, .ok b))
    (hj : k.w 3 / 2 ^ 32 ≤ leNat (b.take 8)) (happly : Accumulates cl k w (w.map (·.1)).eraseDups y v) (f : Nat) :
    scWindows (f + 1) s cl k i n = (v, i + w.length, some ⟨3, 255, cl / 16, (k.w 1 + 16 * (i + w.length)) % 2 ^ 64⟩) := by
  rw [scWindows, if_neg (by omega)]
  dsimp only
  rw [scEntries_outside hread hw hnext hj]
  simp only [scSplit_all (accumulates_works happly), accumulates_merged happly, placed_length]

/-- A window in which the target of an index faults. -/
theorem scWindows_stops {w r : List (Nat × Nat)} {e : Nat × Nat} {bad : Bad} (hw : (w ++ e :: r).length = min 32 (n - i))
    (hread : ReadsEntries cl k i (w ++ e :: r) s x) (happly : Accumulates cl k w (w.map (·.1)).eraseDups x y)
    (hbad : scApply y cl k e.1 e.2 = (v, some bad)) (f : Nat) :
    scWindows (f + 1) s cl k i n = (v, i + w.length, some bad) := by
  have hin : i < n := by rw [List.length_append, List.length_cons] at hw; omega
  have hstop : ¬ ScWorks x cl k e.1 := fun hx => by
    have := scApply_works (hx.congr (accumulates_applies happly).2.1) e.2
    rw [hbad] at this
    cases this
  rw [scWindows, if_neg (not_le.mpr hin)]
  dsimp only
  rw [← hw, scEntries_reads hread]
  simp only [scSplit_stops (accumulates_works happly) hstop, accumulates_merged happly, hbad]

end Sys2Proof.Machine
end

section
/-! One row of a card whose destination lies within a line (R125, R193, R224, R343). -/

namespace Sys2Proof.Machine

variable {s t u v x : State} {cl part va n a from_ : Nat} {k : Card}

/-! What a read gives -/

theorem leBytes_length (n v : Nat) : (leBytes n v).length = n := by rw [leBytes, List.length_map, List.length_range]

theorem leBytes_getD {n i : Nat} (v : Nat) (h : i < n) : nth (leBytes n v) i = v / 256 ^ i % 256 := by
  rw [nth, leBytes, List.getD_eq_getElem?_getD, List.getElem?_map, List.getElem?_range h]
  rfl

/-- A read gives as many bytes as it is asked for. -/
theorem vaReadFrom_length {f : Nat} {ft : Bool} {l : List Nat} (h : vaReadFrom f s part va n ft from_ = (u, .ok l))
    (hf : n = 0 ∨ n + va % 64 ≤ 64 * f) :
    l.length = n := by
  induction f generalizing s u va n l with
  | zero =>
    obtain ⟨-, hl⟩ := Prod.mk.inj h
    obtain rfl := Except.ok.inj hl
    rw [List.length_nil]
    omega
  | succ f ih =>
    rw [vaReadFrom] at h
    split_ifs at h with h0
    · obtain rfl := Except.ok.inj (Prod.mk.inj h).2
      rw [List.length_nil, h0]
    · cases hloc : locateFar s part va (lineSpan va n) false ft false from_ with
      | mk w r =>
        cases r with
        | error b => simp only [hloc] at h; cases h
        | ok a =>
          simp only [hloc] at h
          cases hrest : vaReadFrom f w part (va + lineSpan va n) (n - lineSpan va n) ft from_ with
          | mk y r =>
            cases r with
            | error b => simp only [hrest] at h; cases h
            | ok m =>
              simp only [hrest] at h
              obtain rfl := Except.ok.inj (Prod.mk.inj h).2
              have hspan : lineSpan va n = min n (64 - va % 64) := rfl
              have hmin : lineSpan va n ≤ n ∧ (lineSpan va n = n ∨ lineSpan va n = 64 - va % 64) := by omega
              rw [List.length_append, leBytes_length, ih hrest (by omega)]
              omega

theorem vaRead_length {l : List Nat} (h : vaRead s part va n from_ = (u, .ok l)) : l.length = n :=
  vaReadFrom_length (f := n / 64 + 2) (ft := false) h (by omega)

/-! One piece -/

theorem cuts_within {line : Nat → Nat} {f : Nat} (hn : 0 < n) (h : va % line va + n ≤ line va) : cuts line (f + 1) va n = [(va, n)] := by
  have hmin : min n (line va - va % line va) = n := by omega
  rw [cuts, if_neg (by omega), hmin]
  dsimp only
  rw [Nat.sub_self]
  cases f with
  | zero => rfl
  | succ f => rw [cuts, if_pos rfl]

theorem pieces_within (hn : 0 < n) (h : va % vaLine va + n ≤ vaLine va) : pieces va n = [(va, n)] := cuts_within hn h

theorem cardRow_within {b : List Nat} {tag : Nat → W32} (hb : 0 < b.length) (h : va % vaLine va + b.length ≤ vaLine va) :
    cardRow s cl k va b tag = cardPut s cl k va b (tag 0) := by
  have ho : (va + 2 ^ 64 - va) % 2 ^ 64 = 0 := by omega
  rw [cardRow, pieces_within hb h]
  simp only [List.foldl_cons, List.foldl_nil, ho, List.drop_zero, List.take_length]

theorem cluOfSrc_srcClu (cl : Nat) : cluOfSrc (srcClu cl) = some cl := by
  have h1 : srcClu cl / 2 ^ 14 = cl / 16 := by simp only [srcClu, srcNo]; omega
  have h2 : bits (srcClu cl) 13 8 = 1 := by simp only [srcClu, srcNo, bits]; omega
  have h3 : srcClu cl % 256 = cl % 16 := by simp only [srcClu, srcNo]; omega
  rw [cluOfSrc]
  simp only [h1, h2, h3]
  exact congrArg some (by omega)

theorem SameWays.exchangeOf (h : SameWays s t) (part va : Nat) : exchangeOf t part va = exchangeOf s part va := by
  simp only [Machine.exchangeOf, h.capSpad, h.physClu]

theorem outsideOf_own (h : exchangeOf s part va = none ∨ exchangeOf s part va = some cl) : outsideOf s part va (srcClu cl) = none := by
  rw [outsideOf, cluOfSrc_srcClu]
  rcases h with h | h <;> rw [h]
  · rfl
  · exact Option.filter_eq_none_iff.mpr fun c hc => by obtain rfl := Option.some.inj hc; simp

/-- Bytes of one line that its own cluster writes: the write, then the line's tag. -/
theorem vaPut_own {src : Nat} {b : List Nat} {tag : W32} (ho : outsideOf s part va src = none) :
    (∀ bad, vaWrite s part va b false src = (x, some bad) → vaPut s part va b src tag = (x, some bad)) ∧
    (vaWrite s part va b false src = (x, none) →
      ((vaClass x.capSpad va).tagged = false → vaPut s part va b src tag = (x, none)) ∧
      ∀ loc, (vaClass x.capSpad va).tagged = true → sramLoc x part (vaClass x.capSpad va) true = .ok loc →
        vaPut s part va b src tag = (setTag x loc (if b.length = 256 then tag else 0), none)) := by
  have hin : ¬ (outsideOf s part va src).isSome = true := by rw [ho]; exact Bool.false_ne_true
  refine ⟨fun bad hw => ?_, fun hw => ⟨fun ht => ?_, fun loc ht hloc => ?_⟩⟩ <;> rw [vaPut, if_neg hin, hw] <;> dsimp only
  · rw [if_neg (by rw [ht]; exact Bool.false_ne_true)]
  · rw [if_pos ht, hloc]

/-- The line of a row: the tag that a write of it whole takes, on a state, from a source (R224). -/
def rowTag (k : Card) (v : State) (a : Nat) : W32 :=
  if 3 ≤ k.op ∨ (vaClass v.capSpad a).tagged = false then cardTag k else srcTag v k.part a

theorem srcTag_misaligned (h : va % 256 ≠ 0) : srcTag s part va = 0 := by
  rw [srcTag]
  simp only [h, decide_false, Bool.false_and, Bool.false_eq_true, if_false]

/-- The tag of the first line of a row copied. -/
theorem copyRow_tag {plain : Bool} {src : Nat} (hsrc : src < 2 ^ 64) (rb : Nat) :
    (if plain || !(vaClass v.capSpad src).tagged then cardTag k
      else if (src + 0) % 256 = 0 then ((List.range (rb / 256 + 1)).map fun j => srcTag v k.part (((src + 255) / 256 * 256 + 256 * j) % 2 ^ 64)).getD
        ((src + 0 - (src + 255) / 256 * 256) / 256) 0 else 0) =
    if plain = true ∨ (vaClass v.capSpad src).tagged = false then cardTag k else srcTag v k.part src := by
  rw [add_zero]
  simp only [Bool.or_eq_true, Bool.not_eq_true']
  refine if_congr Iff.rfl rfl ?_
  by_cases h : src % 256 = 0
  · rw [if_pos h, show (src + 255) / 256 * 256 = src by omega, Nat.sub_self, Nat.zero_div, List.range_succ_eq_map, List.map_cons, List.getD_cons_zero,
      Nat.mul_zero, add_zero, Nat.mod_eq_of_lt hsrc]
  · rw [if_neg h, srcTag_misaligned h]

end Sys2Proof.Machine
end

section
/-! The rows of COPY2D, COPYX on this chip, GATHER and FILL (R193, R224, R343). -/

namespace Sys2Proof.Machine

variable {s u v x : State} {cl j src dst a : Nat} {k : Card} {b : List Nat} {bad : Bad} {tag : Nat → W32}

/-- Bytes that a card writes within a line of no exchange window or of that of its own cluster. -/
theorem cardRow_own (hb : 0 < b.length) (hline : dst % vaLine dst + b.length ≤ vaLine dst)
    (hown : exchangeOf v k.part dst = none ∨ exchangeOf v k.part dst = some cl) :
    (∀ bad, vaWrite (engReqs v cl k [dst]) k.part dst b false (srcClu cl) = (x, some bad) → cardRow v cl k dst b tag = (x, some bad)) ∧
    (vaWrite (engReqs v cl k [dst]) k.part dst b false (srcClu cl) = (x, none) →
      ((vaClass x.capSpad dst).tagged = false → cardRow v cl k dst b tag = (x, none)) ∧
      ∀ loc, (vaClass x.capSpad dst).tagged = true → sramLoc x k.part (vaClass x.capSpad dst) true = .ok loc →
        cardRow v cl k dst b tag = (setTag x loc (if b.length = 256 then tag 0 else 0), none)) := by
  have hsame : exchangeOf (engReqs v cl k [dst]) k.part dst = exchangeOf v k.part dst := (engReq_sameWays ..).exchangeOf _ _
  rw [cardRow_within hb hline, cardPut]
  exact vaPut_own (outsideOf_own (hsame.symm ▸ hown))

/-- What a row of a card comes to where its bytes have been read: their write, with the tag of a first line (R224). -/
structure RowReads (u : State) (cl : Nat) (k : Card) (j : Nat) (v : State) (dst : Nat) (b : List Nat) (tag : Nat → W32) (a : Nat) : Prop where
  step : cardStep u cl k j = cardRow v cl k dst b tag
  bytes : b.length = k.rb
  first : tag 0 = if 3 ≤ k.op ∨ (vaClass v.capSpad a).tagged = false then cardTag k else srcTag v k.part a

/-- The reads of a row's source. -/
def readRow (w : State) (cl : Nat) (k : Card) (a : Nat) : State × Except Bad (List Nat) :=
  vaRead (engReqs w cl k ((pieces a k.rb).map (·.1))) k.part a k.rb (cl / 16)

/-- The read of a gather's index. -/
def readIndex (u : State) (cl : Nat) (k : Card) (j : Nat) : State × Except Bad Nat :=
  vaRead8 (engReqs u cl k [(k.w 1 + 8 * j) % 2 ^ 64]) k.part ((k.w 1 + 8 * j) % 2 ^ 64) (cl / 16)

/-- The place of a row's destination. -/
def rowDst (k : Card) (j : Nat) : Nat := (k.dst + 64 * (k.w 3 / 2 ^ 48 % 2 ^ 16) * j) % 2 ^ 64

/-- The place of a copy's row. -/
def rowSrc (k : Card) (j : Nat) : Nat := (k.w 1 + 64 * (k.w 3 / 2 ^ 32 % 2 ^ 16) * j) % 2 ^ 64

theorem copyRow_fault {plain : Bool} (h : readRow u cl k src = (v, .error bad)) : copyRow u cl k src dst plain = (v, some bad) := by
  rw [readRow] at h
  rw [copyRow, h]

theorem copyRow_reads {plain : Bool} (h : readRow u cl k src = (v, .ok b)) (hsrc : plain = true ∨ src < 2 ^ 64) :
    ∃ tag, copyRow u cl k src dst plain = cardRow v cl k dst b tag ∧
      tag 0 = if plain = true ∨ (vaClass v.capSpad src).tagged = false then cardTag k else srcTag v k.part src := by
  rw [readRow] at h
  rw [copyRow, h]
  refine ⟨_, rfl, ?_⟩
  rcases hsrc with rfl | hsrc
  · rw [if_pos (Or.inl rfl)]
    rfl
  · exact copyRow_tag hsrc _

theorem cardStep_copy (hop : k.op = 1 ∨ k.op = 2) (u : State) (cl j : Nat) :
    cardStep u cl k j = copyRow u cl k (rowSrc k j) (rowDst k j) false := by
  rw [cardStep, if_neg (by omega), if_neg (by omega)]
  rfl

theorem cardStep_gather_unindexed (hop : k.op = 3) (h : readIndex u cl k j = (v, .error bad)) : cardStep u cl k j = (v, some bad) := by
  rw [readIndex] at h
  rw [cardStep, if_neg (by omega), if_pos hop, h]

theorem cardStep_gather (hop : k.op = 3) (h : readIndex u cl k j = (v, .ok a)) : cardStep u cl k j = copyRow v cl k a (rowDst k j) true := by
  rw [readIndex] at h
  rw [cardStep, if_neg (by omega), if_pos hop, h]
  rfl

theorem cardStep_fill (hop : k.op = 5) (u : State) (cl j : Nat) : cardStep u cl k j =
    cardRow u cl k (rowDst k j) ((List.range k.rb).map fun i => k.w 1 / 256 ^ ((rowDst k j + i) % 8) % 256) fun _ => cardTag k := by
  rw [cardStep, if_pos hop]
  exact congrArg (fun l => cardRow u cl k _ l _) (List.map_congr_left fun i _ => leBytes_getD _ (Nat.mod_lt _ (by decide)))

/-- A row whose index or whose source cannot be read ends with that fault. -/
theorem cardStep_unread (hop : k.op ∈ [1, 2, 3, 5])
    (h : (k.op ≤ 2 ∧ readRow u cl k (rowSrc k j) = (v, .error bad)) ∨
      (k.op = 3 ∧ (readIndex u cl k j = (v, .error bad) ∨ ∃ y a, readIndex u cl k j = (y, .ok a) ∧ readRow y cl k a = (v, .error bad)))) :
    cardStep u cl k j = (v, some bad) := by
  simp only [List.mem_cons, List.not_mem_nil, or_false] at hop
  rcases h with ⟨hle, hread⟩ | ⟨h3, hindex | ⟨y, a, hindex, hread⟩⟩
  · rw [cardStep_copy (by omega), copyRow_fault hread]
  · exact cardStep_gather_unindexed h3 hindex
  · rw [cardStep_gather h3 hindex, copyRow_fault hread]

/-- A row whose bytes have been read. -/
theorem rowReads (hop : k.op ∈ [1, 2, 3, 5])
    (h : k.op ≤ 2 ∧ a = rowSrc k j ∧ readRow u cl k (rowSrc k j) = (v, .ok b) ∨ (∃ y, k.op = 3 ∧ readIndex u cl k j = (y, .ok a) ∧ readRow y cl k a = (v, .ok b)) ∨
      k.op = 5 ∧ v = u ∧ b = (List.range k.rb).map fun i => k.w 1 / 256 ^ ((rowDst k j + i) % 8) % 256) :
    ∃ tag, RowReads u cl k j v (rowDst k j) b tag a := by
  simp only [List.mem_cons, List.not_mem_nil, or_false] at hop
  rcases h with ⟨hle, rfl, hread⟩ | ⟨y, h3, hindex, hread⟩ | ⟨h5, rfl, rfl⟩
  · obtain ⟨tag, hrow, htag⟩ := copyRow_reads (dst := rowDst k j) (plain := false) hread (.inr (Nat.mod_lt _ (by decide)))
    refine ⟨tag, (cardStep_copy (by omega) ..).trans hrow, vaRead_length hread, htag.trans (if_congr ?_ rfl rfl)⟩
    exact or_congr_left (iff_of_false Bool.false_ne_true (by omega))
  · obtain ⟨tag, hrow, htag⟩ := copyRow_reads (dst := rowDst k j) (plain := true) hread (.inl rfl)
    refine ⟨tag, (cardStep_gather h3 hindex).trans hrow, vaRead_length hread, htag.trans ?_⟩
    rw [if_pos (Or.inl rfl), if_pos (Or.inl (by omega))]
  · refine ⟨_, cardStep_fill h5 .., by rw [List.length_map, List.length_range], ?_⟩
    rw [if_pos (Or.inl (by omega))]

end Sys2Proof.Machine
end

section
/-! A range of addresses cut at its lines (R125, R193). -/

namespace Sys2Proof.Machine

variable {va n f a e i : Nat} {p q r : Nat × Nat} {l : List (Nat × Nat)}

/-- Pieces that lie one after another from a VA to an end, each within its line, and each but the last up to its line's end. -/
def LineByLine : Nat → Nat → List (Nat × Nat) → Prop
  | a, e, [] => a = e
  | a, e, p :: l => p.1 = a ∧ 0 < p.2 ∧ a % vaLine a + p.2 ≤ vaLine a ∧ (l = [] ∨ (a + p.2) % vaLine a = 0) ∧ LineByLine (a + p.2) e l

theorem vaLine_cases (a : Nat) : vaLine a = 64 ∨ vaLine a = 256 := by
  rw [vaLine]
  split_ifs
  · exact .inl rfl
  · exact .inr rfl

theorem cuts_lineByLine (h : va + n ≤ 2 ^ 64) (hf : n = 0 ∨ n + va % 64 ≤ 64 * f) : LineByLine va (va + n) (cuts vaLine f va n) := by
  induction f generalizing va n with
  | zero =>
    rw [show n = 0 by omega, add_zero]
    rfl
  | succ f ih =>
    rw [cuts]
    split_ifs with hn
    · rw [hn, add_zero]
      rfl
    · dsimp only
      have hk := min_choice n (vaLine va - va % vaLine va)
      have hle := min_le_left n (vaLine va - va % vaLine va)
      have hle' := min_le_right n (vaLine va - va % vaLine va)
      generalize min n (vaLine va - va % vaLine va) = k at hk hle hle'
      have hend : n - k = 0 ∨ (va + k) % vaLine va = 0 ∧ (va + k) % 64 = 0 := by
        rcases vaLine_cases va with hl | hl <;> rw [hl] at hk ⊢ <;> omega
      have hpos : 0 < k ∧ va % vaLine va + k ≤ vaLine va := by
        rcases vaLine_cases va with hl | hl <;> rw [hl] at hk hle' ⊢ <;> omega
      have hfuel : n - k = 0 ∨ n - k + (va + k) % 64 ≤ 64 * f := by
        rcases vaLine_cases va with hl | hl <;> rw [hl] at hk <;> omega
      rcases Nat.eq_zero_or_pos (n - k) with h0 | h0
      · have hnil : cuts vaLine f ((va + k) % 2 ^ 64) (n - k) = [] := by
          rw [h0]
          cases f <;> rfl
        rw [hnil]
        exact ⟨rfl, hpos.1, hpos.2, .inl rfl, show va + k = va + n by omega⟩
      · have hrest := ih (va := va + k) (n := n - k) (by omega) hfuel
        rw [show va + k + (n - k) = va + n by omega] at hrest
        rw [Nat.mod_eq_of_lt (show va + k < 2 ^ 64 by omega)]
        exact ⟨rfl, hpos.1, hpos.2, .inr (hend.resolve_left (by omega)).1, hrest⟩

theorem pieces_lineByLine (h : va + n ≤ 2 ^ 64) : LineByLine va (va + n) (pieces va n) := cuts_lineByLine h (by omega)

namespace LineByLine

theorem head (h : LineByLine a e (p :: l)) : p.1 = a := h.1

theorem next (h : LineByLine a e l) (hq : l[i]? = some q) (hr : l[i + 1]? = some r) : r.1 = q.1 + q.2 ∧ r.1 % vaLine q.1 = 0 := by
  induction l generalizing a i with
  | nil => cases hq
  | cons p l ih =>
    obtain ⟨rfl, -, -, hend, hrest⟩ := h
    cases i with
    | zero =>
      obtain rfl := Option.some.inj hq
      cases l with
      | nil => cases hr
      | cons p' l =>
        obtain rfl := Option.some.inj hr
        exact ⟨hrest.head, by rw [hrest.head]; exact hend.resolve_left (List.cons_ne_nil _ _)⟩
    | succ i => exact ih hrest hq hr

theorem last (h : LineByLine a e l) (hq : l.getLast? = some q) : q.1 + q.2 = e := by
  induction l generalizing a with
  | nil => cases hq
  | cons p l ih =>
    obtain ⟨rfl, -, -, -, hrest⟩ := h
    cases l with
    | nil =>
      obtain rfl := Option.some.inj hq
      exact hrest
    | cons p' l => exact ih hrest (by rwa [List.getLast?_cons_cons] at hq)

theorem le (h : LineByLine a e l) : a ≤ e := by
  induction l generalizing a with
  | nil => exact Nat.le_of_eq h
  | cons p l ih =>
    obtain ⟨-, -, -, -, hrest⟩ := h
    exact le_trans (Nat.le_add_right a p.2) (ih hrest)

theorem each (h : LineByLine a e l) (hq : q ∈ l) : a ≤ q.1 ∧ q.1 + q.2 ≤ e ∧ 0 < q.2 ∧ q.1 % vaLine q.1 + q.2 ≤ vaLine q.1 := by
  induction l generalizing a with
  | nil => cases hq
  | cons p l ih =>
    obtain ⟨rfl, hpos, hline, -, hrest⟩ := h
    rcases List.mem_cons.mp hq with rfl | hq
    · exact ⟨le_rfl, hrest.le, hpos, hline⟩
    · obtain ⟨h1, h2, h3, h4⟩ := ih hrest hq
      exact ⟨by omega, h2, h3, h4⟩

end LineByLine

end Sys2Proof.Machine
end

section
/-! A COPYX to another chip (R55, R125, R193, R224, R345). -/

namespace Sys2Proof.Machine

variable {s u : State} {cl id e n : Nat} {k : Card} {bad : Bad} {b : List Nat} {p q r : Pkt} {l : List Pkt}

/-- A packet of a COPYX goes where its line has a class of that chip's, and else ends the card (R125). -/
theorem copyxSend_eq (s : State) (cl : Nat) (k : Card) (p : Pkt) : copyxSend s cl k p = if dieClass p.va = true
    then (s.setCard cl { k with acks := 1, sentAt := s.tsc.toNat }).post (.packetInject (cl / 16) (leafOf cl) p) else finishCard s cl k 1 p.va := by
  rw [copyxSend]
  cases dieClass p.va <;> rfl

/-- What every packet of a COPYX on an engine says. -/
def copyxRequest (s : State) (cl id e : Nat) (k : Card) (va : Nat) : Pkt :=
  { cls := 0, ddie := homeDie s.capSpad va, dep := (endpointOf s k.part va).2, part := k.part, src := srcNo (cl / 16) 1 (cl % 16),
    dchip := k.w 2 / 2 ^ 48 % 2 ^ 12, va := va, rid := id, who := 0x10000 + 64 * e + cl, schip := s.ident.chip }

/-- The packet of a line of a row. -/
def rowPkt (u : State) (cl id e : Nat) (k : Card) (src dst : Nat) (b : List Nat) (va len : Nat) : Pkt :=
  { copyxRequest u cl id e k va with
    opc := 1, len := len, payload := leNat ((b.drop (va - dst)).take len), row := len == 256,
    tag := if len ≠ 256 then 0 else if (vaClass u.capSpad src).tagged = true
      then (srcTag u k.part ((src + (va - dst)) % 2 ^ 64)).toNat else (cardTag k).toNat }

/-- The packets of a row go line by line. -/
theorem rowPkts_lines {src dst len : Nat} {ps : List (Nat × Nat)} {l : List Pkt} (h : LineByLine dst (dst + len) ps)
    (hl : p :: l = ps.map fun q => rowPkt u cl id e k src dst b q.1 q.2) : p.va = dst ∧
      (∀ i q r, (p :: l)[i]? = some q → (p :: l)[i + 1]? = some r → r.va = q.va + q.len ∧ r.va % vaLine q.va = 0) ∧
      (∀ q, (p :: l).getLast? = some q → q.va + q.len = dst + len) ∧
      ∀ q ∈ p :: l, 0 < q.len ∧ q.va % vaLine q.va + q.len ≤ vaLine q.va ∧ q = rowPkt u cl id e k src dst b q.va q.len := by
  refine ⟨?_, ?_⟩
  · cases ps with
    | nil => cases hl
    | cons q ps =>
      obtain ⟨rfl, -⟩ := List.cons.inj hl
      exact h.head
  · rw [hl]
    refine ⟨fun i q r hq hr => ?_, fun q hq => ?_, fun q hq => ?_⟩
    · rw [List.getElem?_map, Option.map_eq_some_iff] at hq hr
      obtain ⟨q', hq', rfl⟩ := hq
      obtain ⟨r', hr', rfl⟩ := hr
      exact h.next hq' hr'
    · rw [List.getLast?_map, Option.map_eq_some_iff] at hq
      obtain ⟨q', hq', rfl⟩ := hq
      exact h.last hq'
    · obtain ⟨q', hq', rfl⟩ := List.mem_map.mp hq
      obtain ⟨-, -, hpos, hline⟩ := h.each hq'
      exact ⟨hpos, hline, rfl⟩

section
variable (hst : k.st = .running e) (hop : k.op = 2)
include hst hop

theorem eng_of_copyx : k.eng = e := by
  have hkind : k.kind = 0 := by rw [Card.kind, if_neg (by omega), if_neg (by omega)]
  rw [Card.eng, hkind, hst]
  rfl

theorem copyxReq_eq (s : State) (cl va : Nat) : copyxReq s cl k va = copyxRequest s cl k.id e k va := by
  rw [copyxReq, eng_of_copyx hst hop]
  rfl

theorem copyxPkts_eq {src dst : Nat} (hend : dst + b.length ≤ 2 ^ 64) :
    copyxPkts u cl k dst b (fun o => if (vaClass u.capSpad src).tagged then srcTag u k.part ((src + o) % 2 ^ 64) else cardTag k) =
      (pieces dst b.length).map fun p => rowPkt u cl k.id e k src dst b p.1 p.2 := by
  refine List.map_congr_left fun p hp => ?_
  obtain ⟨hle, hin, hpos, -⟩ := (pieces_lineByLine hend).each hp
  have ho : (p.1 + 2 ^ 64 - dst) % 2 ^ 64 = p.1 - dst := by omega
  dsimp only
  rw [copyxReq_eq hst hop, ho, rowPkt]
  congr 1
  by_cases h : p.2 = 256
  · rw [if_pos h, if_neg (not_not.mpr h), apply_ite BitVec.toNat]
  · rw [if_neg h, if_pos h]

theorem exec_copyx_remote (hk : s.card? cl id = some k) (hr : k.remote s = true) (hacks : k.acks = 0) :
    (k.count = none → (∀ bad, cardCount s cl k = (u, .error bad) → exec (.copyx cl id) s = .next (finishCard u cl k bad.cause k.guard)) ∧
      ∀ n, cardCount s cl k = (u, .ok n) → exec (.copyx cl id) s = .next (u.setCard cl { k with count := some n })) ∧
    ∀ n, k.count = some n → exec (.copyx cl id) s = .next (copyxNext s cl k n) := by
  have hcan : ¬ (k.op ≠ 2 ∨ k.acks ≠ 0) := by omega
  refine ⟨fun hc => ⟨fun bad hb => ?_, fun n hn => ?_⟩, fun n hc => ?_⟩ <;> rw [exec_copyx, execCopyx] <;> simp only [hk, hr, hst, hc]
  · simp only [hb]
    exact if_neg hcan
  · simp only [hn]
    exact if_neg hcan
  · exact if_neg hcan

omit hop in
/-- While an acknowledgement is lacking, no packet is sent. -/
theorem exec_copyx_waits (hk : s.card? cl id = some k) (hr : k.remote s = true) (hacks : k.acks ≠ 0) :
    exec (.copyx cl id) s = .fault .notPossible := by
  rw [exec_copyx, execCopyx]
  simp only [hk, hr, hst]
  exact if_pos (Or.inr hacks)

end

theorem copyxNext_under (h : k.buf = p :: l) (s : State) (cl n : Nat) : copyxNext s cl k n = copyxSend s cl k p := by
  rw [copyxNext, h]

section
variable (hbuf : k.buf = [])
include hbuf

theorem copyxNext_unread (hn : k.rows < n) (h : readRow s cl k (rowSrc k k.rows) = (u, .error bad)) :
    copyxNext s cl k n = finishCard u cl k bad.cause bad.va := by
  rw [readRow, rowSrc] at h
  rw [copyxNext, hbuf]
  dsimp only [bits]
  rw [if_pos hn, h]

/-- The next row: its first packet goes, the rest waits. -/
theorem copyxNext_row (hst : k.st = .running e) (hop : k.op = 2) (hn : k.rows < n) (hrb : 0 < k.rb) (h : readRow s cl k (rowSrc k k.rows) = (u, .ok b))
    (hend : rowDst k k.rows + k.rb ≤ 2 ^ 64) : ∃ p l, copyxNext s cl k n = copyxSend u cl { k with buf := p :: l } p ∧
      p :: l = (pieces (rowDst k k.rows) k.rb).map fun q => rowPkt u cl k.id e k (rowSrc k k.rows) (rowDst k k.rows) b q.1 q.2 := by
  have hlen : b.length = k.rb := vaRead_length h
  have hpkts := copyxPkts_eq (u := u) (cl := cl) (b := b) (src := rowSrc k k.rows) (dst := rowDst k k.rows) hst hop (hlen.symm ▸ hend)
  have hcons : pieces (rowDst k k.rows) k.rb ≠ [] := by
    rw [pieces, cuts, if_neg (by omega)]
    exact List.cons_ne_nil _ _
  rw [hlen] at hpkts
  obtain ⟨p, l, hl⟩ := List.exists_cons_of_ne_nil (hpkts ▸ fun hnil => hcons (List.map_eq_nil_iff.mp hnil) :
    copyxPkts u cl k (rowDst k k.rows) b _ ≠ [])
  refine ⟨p, l, ?_, hl.symm.trans hpkts⟩
  rw [rowSrc, rowDst] at hl
  rw [readRow, rowSrc] at h
  rw [copyxNext, hbuf]
  dsimp only [bits]
  rw [if_pos hn, h]
  dsimp only
  rw [hl]

/-- After the rows, the flag: a release that carries its vector. -/
theorem copyxNext_flag (hst : k.st = .running e) (hop : k.op = 2) (hn : n ≤ k.rows) (hf : k.fofs ≠ 0) (hraised : k.flagged = false) :
    copyxNext s cl k n = copyxSend (relTake s (srcClu cl)).1 cl { k with flagged := true }
      { copyxRequest (relTake s (srcClu cl)).1 cl k.id e k k.flagVa with
        opc := 4, len := 8, payload := 1, bop := 0, want := 8, rel := true, vec := (relTake s (srcClu cl)).2.2 } := by
  rw [copyxNext, hbuf, ← copyxReq_eq hst hop]
  dsimp only
  rw [if_neg (by omega), if_pos ⟨hf, by rw [hraised]; rfl⟩]

theorem copyxNext_done (hn : n ≤ k.rows) (h : k.fofs = 0 ∨ k.flagged = true) : copyxNext s cl k n = finishCard s cl k 0 0 := by
  rw [copyxNext, hbuf]
  dsimp only
  rw [if_neg (by omega), if_neg]
  rintro ⟨hf, hraised⟩
  rcases h with h | h
  · exact hf h
  · rw [h] at hraised
    cases hraised

end

/-! Its answers -/

theorem card?_onReply (s : State) (key : Nat) (echo : Bool) (q cl id : Nat) : (onReply s key echo q).card? cl id = s.card? cl id := by
  rw [State.card?, State.cl, onReply_frame, State.card?, State.cl]

/-- The answer to what an engine sent ends at the engine's card. -/
theorem exec_copyx_answer {i : Instr} {d : Nat} (hcl : cl < 64) (hwho : p.who = 0x10000 + 64 * e + cl)
    (hi : i = .writeAcknowledge d p ∨ i = .bankReply d p) :
    exec i s = .next (copyxAck (onReply s (engKey cl e) p.echo p.q) cl p.rid p.cause p.va) := by
  have hc : cluOfWho p.who = cl := by rw [cluOfWho]; omega
  have he : engOfWho p.who = e := by rw [engOfWho]; omega
  rcases hi with rfl | rfl
  · rw [exec_writeAcknowledge, execWriteAcknowledge, if_pos (by omega), hc, he]
  · rw [exec_bankReply, execBankReply, if_pos (by omega), hc, he]

section
variable (hk : u.card? cl id = some k) (hst : k.st = .running e) (hacks : k.acks ≠ 0)
include hk hst hacks

theorem copyxAck_ok (va : Nat) : copyxAck u cl id 0 va =
    u.setCard cl { k with acks := 0, buf := k.buf.tail, rows := k.rows + (if k.buf.length = 1 then 1 else 0) } := by
  rw [copyxAck]
  simp only [hk, hst]
  rw [if_neg hacks, if_neg (not_not.mpr rfl)]

theorem copyxAck_fault {cause : Nat} (hc : cause ≠ 0) (va : Nat) : copyxAck u cl id cause va = finishCard u cl k cause va := by
  rw [copyxAck]
  simp only [hk, hst]
  rw [if_neg hacks, if_pos hc]

end

/-- An acknowledgement that is overdue ends the card with home-unreachable, at the line that was sent last. -/
theorem exec_copyxTimeout_late (hk : s.card? cl id = some k) (hacks : k.acks ≠ 0)
    (h : k.sentAt + (s.reg 4 0x1008 k.part).toNat ≤ s.tsc.toNat) :
    exec (.copyxTimeout cl id) s = .next (finishCard s cl k 8 ((k.buf.head?.map (·.va)).getD k.flagVa)) := by
  have hlate : copyxLate s k = true := by
    rw [copyxLate, Bool.and_eq_true, bne_iff_ne, decide_eq_true_eq]
    exact ⟨hacks, h⟩
  rw [exec_copyxTimeout, execCopyxTimeout]
  simp only [hk, hlate]
  rfl

end Sys2Proof.Machine
end

section
/-! A card's completion: its flag, then the counts of its context (R180, R192, R338, R346). -/

namespace Sys2Proof.Machine

variable {s t u : State} {cl id part va n : Nat} {k m : Card}

/-! What the flag leaves -/

/-- The cards and the resident contexts are the same. -/
structure SameJobs (s t : State) : Prop where
  clusters : t.clusters = s.clusters
  ctxs : t.ctxs = s.ctxs

theorem Keeps.sameJobs (h : Keeps s t) : SameJobs s t := ⟨h.clusters, h.ctxs⟩

theorem storeAt_sameJobs (s : State) (a n v : Nat) : SameJobs s (storeAt s a n v) := by
  refine ⟨?_, ?_⟩ <;> rw [storeAt_frame]

theorem bankElse_keeps (s : State) (part va n from_ : Nat) : Keeps s (bankElse s part va n from_).1 := by
  have hloc := (Keeps.refl s).locate part va n false false false from_
  rw [bankElse]
  split
  · split <;> rename_i h <;> rw [h] at hloc <;> exact hloc
  · split <;> rename_i h <;> rw [h] at hloc <;> exact hloc
  · exact .refl s

theorem bankAt_sameJobs (s : State) (part va n op v from_ : Nat) : SameJobs s (bankAt s part va n op v from_).1 := by
  rw [bankAt]
  split
  · exact (bankElse_keeps ..).sameJobs
  · cases hloc : locate s part va n true false false from_ with
    | mk w r =>
      have hw := (locate_keeps hloc).sameJobs
      cases r with
      | error b => exact hw
      | ok a =>
        have hstore := storeAt_sameJobs w a n (bankOp op n (rdNat w a n) v)
        exact ⟨hstore.clusters.trans hw.clusters, hstore.ctxs.trans hw.ctxs⟩

theorem bankFar_sameJobs (s : State) (part va n op v from_ : Nat) : SameJobs s (bankFar s part va n op v from_).1 := by
  have hcross (d : Nat) : SameJobs s (s.cross from_ d) := ((Keeps.refl s).cross from_ d).sameJobs
  rw [bankFar]
  split
  · exact bankAt_sameJobs ..
  · have hat := bankAt_sameJobs (s.cross from_ (s.physDie (homeDie s.capSpad va))) part va n op v from_
    exact ⟨hat.clusters.trans (hcross _).clusters, hat.ctxs.trans (hcross _).ctxs⟩

theorem relFlag_sameJobs (s : State) (part va src : Nat) (cp : Bool) : SameJobs s (relFlag s part va src cp).1 := by
  rw [relFlag]
  split
  · exact (bankElse_keeps ..).sameJobs
  · have hw := ((Keeps.refl s).locateFar part va 8 true false cp (src / 2 ^ 14)).sameJobs
    cases hloc : locateFar s part va 8 true false cp (src / 2 ^ 14) with
    | mk w r =>
      rw [hloc] at hw
      cases r with
      | error b => exact hw
      | ok a =>
        have hstore := storeAt_sameJobs w a 8 ((rdNat w a 8 + 1) % 2 ^ 64)
        exact ⟨hstore.clusters.trans hw.clusters, hstore.ctxs.trans hw.ctxs⟩

theorem cardFlag_sameJobs (s : State) (cl : Nat) (k : Card) : SameJobs s (cardFlag s cl k).1 := by
  have hbank := bankFar_sameJobs s k.part k.flagVa 8 0 1 (cl / 16)
  rw [cardFlag]
  split
  · split <;> rename_i h <;> rw [h] at hbank <;> exact hbank
  · exact relFlag_sameJobs ..

/-! The cards of the context -/

theorem SMap.mem_of_get {β : Type} {d : β} {m : SMap β} {i : Nat} (h : m.get d i ≠ d) : (i, m.get d i) ∈ m := by
  have hself := SMap.find_ins m i (m.get d i)
  rw [SMap.ins_get h] at hself
  exact List.mem_of_find?_eq_some hself

theorem mem_clusters (h : m ∈ (s.cl cl).cards) : (cl, s.cl cl) ∈ s.clusters :=
  SMap.mem_of_get (d := ({} : Cluster)) fun hd => by rw [State.cl, hd] at h; cases h

theorem mem_cardsOf {part cr : Nat} : m ∈ cardsOf s part cr ↔ ∃ p ∈ s.clusters, m ∈ p.2.cards ∧ m.part = part ∧ m.cr = cr := by
  simp only [cardsOf, List.mem_flatMap, List.mem_filter, Bool.and_eq_true, beq_iff_eq]

/-- The cards of a cluster after one is replaced. -/
theorem cards_setCard (hs : s.clusters.Rises) (h : ((s.cl cl).cards) ≠ []) (m : Card) :
    (cl, (s.setCard cl m).cl cl) ∈ (s.setCard cl m).clusters ∧
    ((s.setCard cl m).cl cl).cards = (s.cl cl).cards.map (fun e => if e.id == m.id then m else e) ∧
    ∀ p ∈ (s.setCard cl m).clusters, p = (cl, (s.setCard cl m).cl cl) ∨ p ∈ s.clusters := by
  have hcl : (s.setCard cl m).cl cl = { s.cl cl with cards := (s.cl cl).cards.map fun e => if e.id == m.id then m else e } :=
    State.cl_setCl_same hs _ _
  refine ⟨?_, by rw [hcl], fun p hp => ?_⟩
  · obtain ⟨e, l, he⟩ := List.exists_cons_of_ne_nil h
    exact mem_clusters (m := if e.id == m.id then m else e) (by rw [hcl, he, List.map_cons]; exact List.mem_cons_self)
  · rw [hcl]
    change p ∈ SMap.put {} s.clusters cl _ at hp
    rw [SMap.put] at hp
    split at hp
    · exact .inr (SMap.mem_del hp)
    · exact SMap.mem_ins hp

/-- A context's one card replaced: it is the context's only card still. -/
theorem cardsOf_setCard (hs : s.clusters.Rises) (hk : s.card? cl id = some k) (hone : cardsOf s k.part k.cr = [k])
    (hm : m.id = k.id ∧ m.part = k.part ∧ m.cr = k.cr) :
    m ∈ cardsOf (s.setCard cl m) k.part k.cr ∧ ∀ e ∈ cardsOf (s.setCard cl m) k.part k.cr, e = m ∨ e = k := by
  obtain ⟨hid, hpart, hcr⟩ := hm
  have hmem := (card_mem hk).1
  obtain ⟨hin, hcards, hrest⟩ := cards_setCard hs (List.ne_nil_of_mem hmem) m
  have hother {e : Card} (p) (hp : p ∈ s.clusters) (he : e ∈ p.2.cards) (h : e.part = k.part ∧ e.cr = k.cr) : e = k :=
    List.mem_singleton.mp (hone ▸ mem_cardsOf.mpr ⟨p, hp, he, h⟩)
  refine ⟨mem_cardsOf.mpr ⟨_, hin, ?_, hpart, hcr⟩, fun e he => ?_⟩
  · rw [hcards]
    exact List.mem_map.mpr ⟨k, hmem, if_pos (beq_iff_eq.mpr hid.symm)⟩
  · obtain ⟨p, hp, he, hof⟩ := mem_cardsOf.mp he
    rcases hrest p hp with rfl | hp
    · dsimp only at he
      rw [hcards, List.mem_map] at he
      obtain ⟨e', he', rfl⟩ := he
      split at hof
      · exact .inl (if_pos ‹_›)
      · rw [if_neg ‹_›]
        exact .inr (hother _ (mem_clusters hmem) he' hof)
    · exact .inr (hother p hp he hof)

/-- A context's next card done, and none after it: CMPL rises by one. -/
theorem cmplAfter_next {ks : List Card} {f : Nat} (hf : 0 < f) (hall : ∀ e ∈ ks, e.serial = n) (hm : m ∈ ks) (hst : m.st = .done) :
    cmplAfter ks f n = n + 1 := by
  obtain ⟨f, rfl⟩ := Nat.exists_eq_add_of_lt hf
  have hyes : (ks.any fun k => k.serial == n && k.st == .done) = true :=
    List.any_eq_true.mpr ⟨m, hm, by rw [hall m hm, hst, beq_self_eq_true, beq_self_eq_true]; rfl⟩
  have hno : (ks.any fun k => k.serial == n + 1 && k.st == .done) = false :=
    List.any_eq_false.mpr fun e he => by rw [hall e he]; simp
  rw [show 0 + f + 1 = f + 1 by omega, cmplAfter, if_pos hyes]
  cases f with
  | zero => rfl
  | succ f => rw [cmplAfter, if_neg (by rw [hno]; exact Bool.false_ne_true)]

/-! The counts -/

/-- The cards of a context below a serial leave. -/
def dropCards (s : State) (part cr n : Nat) : State := { s with clusters := s.clusters.map fun p =>
  (p.1, { p.2 with cards := p.2.cards.filter fun k => !(k.part == part && k.cr == cr && k.serial < n) }) }

theorem cardsOf_dropCards {cr : Nat} (h : ∀ e ∈ cardsOf s part cr, e.serial < n) : cardsOf (dropCards s part cr n) part cr = [] := by
  refine List.eq_nil_iff_forall_not_mem.mpr fun e he => ?_
  obtain ⟨p, hp, hmem, hof⟩ := mem_cardsOf.mp he
  obtain ⟨p', hp', rfl⟩ := List.mem_map.mp hp
  obtain ⟨hmem, hnot⟩ := List.mem_filter.mp hmem
  have hlt := h e (mem_cardsOf.mpr ⟨p', hp', hmem, hof⟩)
  simp [hof.1, hof.2, hlt] at hnot

theorem advanceCmpl_resident {cr ck : Nat} {c : Ctx} (h : (s.ctxs.find? fun p => p.2.part == part && p.2.cr == cr) = some (ck, c)) (cl : Nat)
    (aborted : Bool) : advanceCmpl s cl part cr aborted =
      dropCards (s.setCtx ck { c with cmpl := cmplAfter (cardsOf s part cr) (cardsOf s part cr).length c.cmpl, abrt := c.abrt + if aborted then 1 else 0 })
        part cr (cmplAfter (cardsOf s part cr) (cardsOf s part cr).length c.cmpl) := by
  rw [advanceCmpl]
  simp only [h]
  rfl

/-- A done card that is its context's next, and its last so far, is counted and leaves. -/
theorem advanceCmpl_next {ck : Nat} {c : Ctx} (hs : s.clusters.Rises) (hk : s.card? cl id = some k) (hone : cardsOf s k.part k.cr = [k])
    (hserial : k.serial = c.cmpl) (hc : (s.ctxs.find? fun p => p.2.part == k.part && p.2.cr == k.cr) = some (ck, c)) (aborted : Bool) :
    ∃ v, advanceCmpl (s.setCard cl { k with st := .done }) cl k.part k.cr aborted = v ∧ v.mem = s.mem ∧ v.tags = s.tags ∧
      v.ctx? ck = some { c with cmpl := c.cmpl + 1, abrt := c.abrt + if aborted then 1 else 0 } ∧ cardsOf v k.part k.cr = [] := by
  obtain ⟨hin, hall⟩ := cardsOf_setCard (m := { k with st := .done }) hs hk hone ⟨rfl, rfl, rfl⟩
  have hser : ∀ e ∈ cardsOf (s.setCard cl { k with st := .done }) k.part k.cr, e.serial = c.cmpl := fun e he => by
    rcases hall e he with rfl | rfl <;> exact hserial
  have hnext := cmplAfter_next (List.length_pos_of_mem hin) hser hin rfl
  refine ⟨_, advanceCmpl_resident (s := s.setCard cl { k with st := .done }) hc cl aborted, rfl, rfl, ?_, ?_⟩
  · rw [hnext]
    exact State.ctx?_setCtx_same _ _ _
  · rw [hnext]
    exact cardsOf_dropCards fun e he => Nat.lt_succ_of_le (hser e he).le

/-! CARD_DONE -/

/-- What the flag of a finished card leaves: the state, and its fault where it has one (R346). -/
def flagRaised (s : State) (cl : Nat) (k : Card) (cause : Nat) : State × Option Bad :=
  if cause = 0 ∧ k.fofs ≠ 0 ∧ k.remote s = false then cardFlag s cl k else (s, none)

theorem flagRaised_sameJobs (s : State) (cl : Nat) (k : Card) (cause : Nat) : SameJobs s (flagRaised s cl k cause).1 := by
  rw [flagRaised]
  split
  · exact cardFlag_sameJobs ..
  · exact ⟨rfl, rfl⟩

/-- The cause with which a card is done. -/
def doneCause (r : Option Bad) (cause : Nat) : Nat := (r.map (·.cause)).getD cause

/-- The VA with which it is done. -/
def doneVa (r : Option Bad) (k : Card) (va : Nat) : Nat := (r.map fun _ => k.flagVa).getD va

/-- The record of an abort. -/
def abortRecord (v : State) (cl : Nat) (k : Card) (cause va : Nat) : State :=
  emit v k.part (srcClu cl) 0x13 (cause + k.op * 2 ^ 8 + k.ctxno * 2 ^ 16) va (k.rows % 2 ^ 32 + k.serial % 2 ^ 32 * 2 ^ 32)

/-- The counts after a finished card's flag, and the record of its abort. -/
def cardCounted (u : State) (cl : Nat) (k : Card) (cause va : Nat) : State :=
  let v := advanceCmpl (u.setCard cl { k with st := .done }) cl k.part k.cr (cause ≠ 0)
  if cause = 0 then v else abortRecord v cl k cause va

theorem cardCounted_ok (u : State) (cl : Nat) (k : Card) (va : Nat) :
    cardCounted u cl k 0 va = advanceCmpl (u.setCard cl { k with st := .done }) cl k.part k.cr false := by
  rw [cardCounted, if_pos rfl, decide_eq_false (not_not.mpr rfl)]

theorem cardCounted_abort {cause : Nat} (h : cause ≠ 0) (u : State) (cl : Nat) (k : Card) (va : Nat) : cardCounted u cl k cause va =
    abortRecord (advanceCmpl (u.setCard cl { k with st := .done }) cl k.part k.cr true) cl k cause va := by
  rw [cardCounted, if_neg h, decide_eq_true h]

theorem exec_cardDone_finished {cause : Nat} {r : Option Bad} (hk : s.card? cl id = some k) (hst : k.st = .finished cause va)
    (hflag : flagRaised s cl k cause = (u, r)) :
    exec (.cardDone cl id) s = .next (cardCounted u cl k (doneCause r cause) (doneVa r k va)) := by
  rw [flagRaised] at hflag
  rw [exec_cardDone, execCardDone]
  simp only [hk, hst]
  by_cases hraise : cause = 0 ∧ k.fofs ≠ 0 ∧ k.remote s = false
  · have hraise' : cause = 0 ∧ k.fofs ≠ 0 ∧ (!k.remote s) = true := ⟨hraise.1, hraise.2.1, by rw [hraise.2.2]; rfl⟩
    rw [if_pos hraise] at hflag
    rw [if_pos hraise', hflag]
    cases r with
    | none =>
      obtain rfl := hraise.1
      change Host.Outcome.next (cardCounted u cl k 0 0) = .next (cardCounted u cl k 0 va)
      rw [cardCounted_ok, cardCounted_ok]
    | some b => rfl
  · have hraise' : ¬ (cause = 0 ∧ k.fofs ≠ 0 ∧ (!k.remote s) = true) := fun h => hraise ⟨h.1, h.2.1, by simpa using h.2.2⟩
    rw [if_neg hraise] at hflag
    obtain ⟨rfl, rfl⟩ := Prod.mk.inj hflag
    rw [if_neg hraise']
    rfl

/-- What is left of a context whose one card is done. -/
theorem cardCounted_next {ck cause : Nat} {c : Ctx} (hs : s.clusters.Rises) (hk : s.card? cl id = some k) (hone : cardsOf s k.part k.cr = [k])
    (hserial : k.serial = c.cmpl) (hc : (s.ctxs.find? fun p => p.2.part == k.part && p.2.cr == k.cr) = some (ck, c)) (hu : SameJobs s u) (va : Nat) :
    ∃ v, (cause = 0 → cardCounted u cl k cause va = v) ∧ (cause ≠ 0 → cardCounted u cl k cause va = abortRecord v cl k cause va) ∧
      v.mem = u.mem ∧ v.tags = u.tags ∧
      (cardCounted u cl k cause va).ctx? ck = some { c with cmpl := c.cmpl + 1, abrt := c.abrt + if cause = 0 then 0 else 1 } ∧
      cardsOf (cardCounted u cl k cause va) k.part k.cr = [] := by
  have hk' : u.card? cl id = some k := by rw [State.card?, State.cl, hu.clusters]; exact hk
  have hone' : cardsOf u k.part k.cr = [k] := by rw [cardsOf, hu.clusters]; exact hone
  have hnext := advanceCmpl_next (hu.clusters ▸ hs) hk' hone' hserial (hu.ctxs ▸ hc)
  by_cases h : cause = 0
  · obtain ⟨v, hv, hmem, htags, hctx, hcards⟩ := hnext false
    subst h
    rw [cardCounted_ok, hv]
    exact ⟨v, fun _ => rfl, fun h => absurd rfl h, hmem, htags, hctx, hcards⟩
  · obtain ⟨v, hv, hmem, htags, hctx, hcards⟩ := hnext true
    have hrec : SameJobs v (abortRecord v cl k cause va) := ((Keeps.refl v).emit ..).sameJobs
    rw [cardCounted_abort h, hv]
    refine ⟨v, fun h' => absurd h' h, fun _ => rfl, hmem, htags, ?_, ?_⟩
    · rw [State.ctx?, hrec.ctxs, if_neg h]
      exact hctx
    · rw [cardsOf, hrec.clusters]
      exact hcards

end Sys2Proof.Machine
end

section
/-! Job cards from their GO to their completion (R167 to R171, R338 to R346). -/

namespace Sys2Proof.Machine

variable {s u : State} {cl id n : Nat} {k : Card} {i : Instr}

/-- A draw gives a free engine of its kind to the first ready card of the queue that wins (R103, R104, R170). -/
theorem cardDraw_draws {kind x n : Nat} (hn : n = 16) (hs : s.clusters.Rises) (hk : s.card? cl id = some k) (hkind : kind < 3) (hof : kind = k.kind)
    (hready : cardReady s cl k = true) (hfree : ∃ e < (if kind = 0 then 2 else 1), ∀ m ∈ (s.cl cl).cards, m.kind = kind → m.st ≠ .running e)
    (hqueue : ∀ m ∈ (s.cl cl).cards, m.queue < n) (hx : x = (s.cl cl).gens.getD kind 1) (h0 : 0 < x) (hlt : x < 2 ^ 32) :
    ∃ w m e, Wins n (fun q => firstReady s cl kind q ≠ none) (fun q => ((firstReady s cl kind q).map (·.prio)).getD 0)
        (xorshift32 (BitVec.ofNat 32 x)).toNat ((s.cl cl).last.getD kind 15) w ∧ firstReady s cl kind w = some m ∧
      (∀ n ∈ (s.cl cl).cards, n.kind = kind → n.st ≠ .running e) ∧
      exec (.cardDraw cl kind) s = .next ((s.setCl cl { s.cl cl with
        gens := (s.cl cl).gens.set kind (xorshift32 (BitVec.ofNat 32 x)).toNat, last := (s.cl cl).last.set kind w }).setCard cl
          { m with st := .running e }) := by
  have hwins := drawn_wins hk hof hready hqueue
  obtain ⟨m, hm⟩ := drawn_ready hk hof hready hqueue
  obtain ⟨hcan, hengine⟩ := canDraw_free hk hof hready hfree
  have hexec := exec_cardDraw_draws hn hs hkind hcan hm
  simp only [Option.isSome_iff_ne_none] at hwins
  rw [← hx, draw_eq h0 hlt] at hwins hexec
  exact ⟨_, m, _, hwins, hm, ((mem_freeEngines ..).mp hengine).2, hexec⟩

/-- A running card of rows comes to the end of its rows, or to the first that faults (R193, R343). -/
theorem runs_rows {e : Nat} (hk : s.card? cl id = some k) (hst : k.st = .running e) (hi : RunsHere s cl id k i) (hop : k.op ≠ 4)
    (hc : cardCount s cl k = (u, .ok n)) : (∀ x, RowsDone cl k 0 n u x → exec i s = .next (cardEnds x cl id k 0 0 n)) ∧
      ∀ (m : Nat) (x y : State) (bad : Bad), m < n → RowsDone cl k 0 m u x → cardStep x cl k m = (y, some bad) →
        exec i s = .next (cardEnds y cl id k bad.cause bad.va m) := by
  rw [exec_runs_rows hk hi hop]
  refine ⟨fun x hx => ?_, fun m x y bad hm hx hstep => ?_⟩
  · exact runCard_done hk hst rfl hc (by rw [cardRows_done hx, Nat.zero_add])
  · exact runCard_fault hk hst rfl hc (by rw [cardRows_fault hx hm (by rw [Nat.zero_add]; exact hstep), Nat.zero_add])

section
variable {e : Nat} (hk : s.card? cl id = some k) (hst : k.st = .running e) (hi : RunsHere s cl id k i) (hop : k.op = 4)
  (hc : cardCount s cl k = (u, .ok n))
include hk hst hi hop hc

/-- An SCACC comes to the end of its index stream (R344). -/
theorem runs_scacc_all {ws : List (List (Nat × Nat))} {x : State} (hws : ScWindows cl k 0 ws u x) (hn : ws.flatten.length = n)
    (hlen : ∀ w ∈ ws, 0 < w.length ∧ w.length ≤ 32) (hfull : ∀ w ∈ ws.dropLast, w.length = 32) :
    exec i s = .next (cardEnds x cl id k 0 0 n) := by
  rw [exec_runs_scacc hi hop]
  exact runCard_done hk hst hop hc (scWindows_all hws hn hlen hfull)

/-- It ends at an index out of range (R344). -/
theorem runs_scacc_outside {ws : List (List (Nat × Nat))} {w : List (Nat × Nat)} {x y z v : State} {b : List Nat}
    (hws : ScWindows cl k 0 ws u x) (hfull : ∀ w ∈ ws, w.length = 32) (hw : w.length < 32) (hn : 32 * ws.length + w.length < n)
    (hread : ReadsEntries cl k (32 * ws.length) w x y)
    (hnext : vaRead (engReqs y cl k [(k.w 1 + 16 * (32 * ws.length + w.length)) % 2 ^ 64]) k.part
      ((k.w 1 + 16 * (32 * ws.length + w.length)) % 2 ^ 64) 16 (cl / 16) = (z, .ok b))
    (hj : k.w 3 / 2 ^ 32 ≤ leNat (b.take 8)) (happly : Accumulates cl k w (w.map (·.1)).eraseDups z v) :
    exec i s = .next (cardEnds v cl id k 3 ((k.w 1 + 16 * (32 * ws.length + w.length)) % 2 ^ 64) (32 * ws.length + w.length)) := by
  obtain ⟨f, hf⟩ := scWindows_next (n := n) hws hfull (by omega)
  rw [exec_runs_scacc hi hop]
  exact runCard_fault (bad := ⟨3, 255, cl / 16, (k.w 1 + 16 * (32 * ws.length + w.length)) % 2 ^ 64⟩) hk hst hop hc
    (hf.trans (scWindows_outside (by omega) hread hnext hj happly f))

/-- It ends at an index whose target faults, before which all are applied (R344). -/
theorem runs_scacc_stops {ws : List (List (Nat × Nat))} {w r : List (Nat × Nat)} {d : Nat × Nat} {x y z v : State} {bad : Bad}
    (hws : ScWindows cl k 0 ws u x) (hfull : ∀ w ∈ ws, w.length = 32) (hw : (w ++ d :: r).length = min 32 (n - 32 * ws.length))
    (hread : ReadsEntries cl k (32 * ws.length) (w ++ d :: r) x y) (happly : Accumulates cl k w (w.map (·.1)).eraseDups y z)
    (hbad : scApply z cl k d.1 d.2 = (v, some bad)) :
    exec i s = .next (cardEnds v cl id k bad.cause bad.va (32 * ws.length + w.length)) := by
  have hpos : 0 < (w ++ d :: r).length := by rw [List.length_append, List.length_cons]; omega
  obtain ⟨f, hf⟩ := scWindows_next (n := n) hws hfull (by omega)
  rw [exec_runs_scacc hi hop]
  exact runCard_fault hk hst hop hc (hf.trans (scWindows_stops hw hread happly hbad f))

end

theorem runs_unread {e : Nat} {bad : Bad} (hk : s.card? cl id = some k) (hst : k.st = .running e) (hi : RunsHere s cl id k i)
    (hc : cardCount s cl k = (u, .error bad)) : exec i s = .next (cardEnds u cl id k bad.cause k.guard 0) := by
  by_cases hop : k.op = 4
  · rw [exec_runs_scacc hi hop]
    exact runCard_unread hk hst hop hc
  · rw [exec_runs_rows hk hi hop]
    exact runCard_unread hk hst rfl hc

theorem runs_ends {e : Nat} (hk : s.card? cl id = some k) (hst : k.st = .running e) (hi : RunsHere s cl id k i) : ∃ t, exec i s = .next t := by
  by_cases hop : k.op = 4
  · rw [exec_runs_scacc hi hop]
    exact runCard_ends hk hst hop _
  · rw [exec_runs_rows hk hi hop]
    exact runCard_ends hk hst rfl _

/-- Settles O51: each event of a card by its own equation; rows, windows and lines by induction. -/
theorem jobCardsEnterRunAndComplete : Obligations.JobCardsEnterRunAndComplete := by
  unfold Obligations.JobCardsEnterRunAndComplete
  intro s cl id k hclu hctx hk
  obtain ⟨hmem, hid⟩ := card_mem hk
  refine ⟨fun hst hwait => ?_, fun hst hturn hroom => ?_, fun kind x hkind hof hready hfree hqueue hx h0 hlt => ?_,
    fun u e i hst hi => ⟨runs_ends hk hst hi, fun bad hc => runs_unread hk hst hi hc, fun n hc => ⟨fun hop => runs_rows hk hst hi hop hc, ?_, ?_⟩⟩,
    fun u v j b hop hrb => ⟨fun bad h => cardStep_unread hop h, fun a hread hline hown x => ?_⟩, fun e u hst hop hr hacks => ?_,
    fun e d p i hst hacks hcl hwho hrid hi => ?_, fun hacks hlate => ?_, fun cause va ck c u r hst huniq hone hserial hc hno hnear hfar => ?_⟩
  -- entry
  · refine exec_cardWindowEntry_waits hk hst fun hcan => ?_
    obtain ⟨-, hroom, hturn⟩ := (canEnter_iff ..).mp hcan
    rcases hwait with ⟨m, hm, hlt, hposted⟩ | hfull
    · exact hturn m hm hlt hposted
    · exact absurd hroom (not_lt.mpr hfull)
  · have hcan := (canEnter_iff ..).mpr ⟨hst, hroom, hturn⟩
    exact ⟨exec_cardWindowEntry_ill hk hcan, fun hill => ⟨_, exec_cardWindowEntry_enters hk hcan hill, fun n => by
      rw [List.mem_map]
      exact ⟨fun ⟨e, he, hn⟩ => by obtain ⟨h1, h2⟩ := (mem_cardHits s cl k e).mp he; exact ⟨e, h1, hn, h2⟩,
        fun ⟨e, h1, hn, h2⟩ => ⟨e, (mem_cardHits s cl k e).mpr ⟨h1, h2⟩, hn⟩⟩⟩⟩
  -- the draw
  · exact cardDraw_draws rfl hclu hk hkind hof hready hfree hqueue hx h0 hlt
  -- SCACC
  · exact fun hop ws x hws => ⟨fun hn hlen hfull => runs_scacc_all hk hst hi hop hc hws hn hlen hfull,
      fun w y z v b hfull hw hn hread hnext hj happly => runs_scacc_outside hk hst hi hop hc hws hfull hw hn hread hnext hj happly⟩
  · exact fun hop hrb ws w r d x y z hws hfull hw hread happly => ⟨
      fun hmis => runs_scacc_stops hk hst hi hop hc hws hfull hw hread happly (scApply_misaligned hmis d.2),
      fun v bad hal hbad => runs_scacc_stops hk hst hi hop hc hws hfull hw hread happly (scApply_error hal hbad)⟩
  -- a row
  · obtain ⟨tag, hrow⟩ := rowReads hop hread
    have hlen := hrow.bytes
    obtain ⟨hfault, hdone⟩ := cardRow_own (x := x) (tag := tag) (hlen ▸ hrb) (hlen ▸ hline) hown
    refine ⟨fun bad hw => hrow.step.trans (hfault bad hw), fun hw => ⟨fun htag => hrow.step.trans ((hdone hw).1 htag), fun loc htag hloc => ?_⟩⟩
    refine hrow.step.trans (((hdone hw).2 loc htag hloc).trans ?_)
    rw [hlen, hrow.first, ite_not]
  -- a COPYX to another chip
  · obtain rfl := hid
    obtain ⟨hcount, hnext⟩ := exec_copyx_remote (u := u) hst hop hk hr hacks
    refine ⟨hcount, fun n hn => ⟨fun p l hbuf => ?_, fun hbuf hrows hrb => ⟨fun bad hrow => ?_, fun b hrow hend => ?_⟩, fun hbuf hrows hf hraised => ?_,
      fun hbuf hrows hf => ?_⟩⟩
    · rw [hnext n hn, copyxNext_under hbuf, copyxSend_eq]
      rfl
    · rw [hnext n hn, copyxNext_unread hbuf hrows hrow]
      rfl
    · obtain ⟨p, l, hsend, hpkts⟩ := copyxNext_row hbuf hst hop hrows hrb hrow hend
      have hlines := pieces_lineByLine hend
      refine ⟨p, l, by rw [hnext n hn, hsend, copyxSend_eq]; rfl, ?_⟩
      exact rowPkts_lines hlines hpkts
    · rw [hnext n hn, copyxNext_flag hbuf hst hop hrows hf hraised, copyxSend_eq]
      rfl
    · rw [hnext n hn, copyxNext_done hbuf hrows hf]
      rfl
  -- its answers
  · obtain rfl := hid
    have hk' := (card?_onReply s (engKey cl e) p.echo p.q cl k.id).trans hk
    have hanswer := exec_copyx_answer hcl hwho hi (s := s)
    rw [hrid] at hanswer
    refine ⟨fun hop hr => exec_copyx_waits hst hk hr hacks, fun hc => ?_, fun hc => ?_⟩
    · rw [hanswer, hc, copyxAck_ok hk' hst hacks]
    · rw [hanswer, copyxAck_fault hk' hst hacks hc]
      rfl
  · obtain rfl := hid
    refine (exec_copyxTimeout_late hk hacks hlate).trans (congrArg (fun va => Host.Outcome.next (finishCard s cl k 8 va)) ?_)
    cases k.buf <;> rfl
  -- completion
  · have hflag : flagRaised s cl k cause = (u, r) := by
      rw [flagRaised]
      split_ifs with hraise
      · obtain ⟨h0, hf, hr⟩ := hraise
        rw [cardFlag]
        split_ifs with hscope
        · rcases hnear h0 hf hr hscope with ⟨old, hbank, rfl⟩ | ⟨b, hbank, rfl⟩ <;> rw [hbank]
        · exact hfar h0 hf hr (not_lt.mp hscope)
      · obtain ⟨rfl, rfl⟩ := hno (by
          simp only [not_and, ne_eq, Bool.not_eq_false] at hraise
          tauto)
        rfl
    have hjobs : SameJobs s u := by
      have := flagRaised_sameJobs s cl k cause
      rwa [hflag] at this
    obtain ⟨v, hok, habort, hmem, htags, hcx, hcards⟩ := cardCounted_next (cause := doneCause r cause) hclu hk hone hserial hc hjobs (doneVa r k va)
    have hexec := exec_cardDone_finished hk hst hflag
    cases r with
    | none => exact ⟨v, _, hexec, hok, habort, hmem, htags, hcx, hcards⟩
    | some b => exact ⟨v, _, hexec, hok, habort, hmem, htags, hcx, hcards⟩

end Sys2Proof.Machine
end

section
/-! What a block of a collective asks for, and what has come of it (R62 to R72, R409). -/

namespace Sys2Proof.Machine

variable {s : State} {die : Nat} {o : COp}

/-! How far pieces reach -/

/-- A byte lies in a piece. -/
def InPiece (l : List (Nat × Nat)) (b : Nat) : Prop := ∃ c ∈ l, c.1 ≤ b ∧ b < c.1 + c.2

/-- The pieces that end behind a place: each step of the reach uses one up. -/
def piecesBehind (l : List (Nat × Nat)) (p : Nat) : List (Nat × Nat) := l.filter fun c => p < c.1 + c.2

theorem piecesBehind_shorter {l : List (Nat × Nat)} {p : Nat} {c : Nat × Nat} (hc : c ∈ l) (h : p < c.1 + c.2) :
    (piecesBehind l (c.1 + c.2)).length < (piecesBehind l p).length := by
  have hsub : piecesBehind l (c.1 + c.2) = (piecesBehind l p).filter fun d => c.1 + c.2 < d.1 + d.2 := by
    rw [piecesBehind, piecesBehind, List.filter_filter]
    refine List.filter_congr fun d _ => ?_
    rw [← Bool.decide_and]
    exact decide_eq_decide.mpr (by omega)
  rw [hsub]
  exact List.length_filter_lt_length_iff_exists.mpr ⟨c, List.mem_filter.mpr ⟨hc, by simpa using h⟩, by simp⟩

theorem reach_stuck {l : List (Nat × Nat)} {p : Nat} (hno : ∀ c ∈ l, ¬ (c.1 ≤ p ∧ p < c.1 + c.2)) (e : Nat) :
    e ≤ p ↔ ∀ b, p ≤ b → b < e → InPiece l b := by
  refine ⟨fun h b hp hb => absurd hb (by omega), fun h => not_lt.mp fun hlt => ?_⟩
  obtain ⟨c, hc, hin⟩ := h p le_rfl hlt
  exact hno c hc hin

/-- Pieces reach from a place up to an end exactly where every byte between lies in one. -/
theorem coverTo_reaches (l : List (Nat × Nat)) (e : Nat) {f p : Nat} (hf : (piecesBehind l p).length ≤ f) :
    e ≤ coverTo l f p ↔ ∀ b, p ≤ b → b < e → InPiece l b := by
  induction f generalizing p with
  | zero =>
    refine reach_stuck (fun c hc hin => ?_) e
    have hmem : c ∈ piecesBehind l p := List.mem_filter.mpr ⟨hc, decide_eq_true (show p < c.1 + c.2 from hin.2)⟩
    exact absurd (List.length_pos_of_mem hmem) (by omega)
  | succ f ih =>
    rw [coverTo]
    cases hfind : l.find? fun x => x.1 ≤ p && p < x.1 + x.2 with
    | none =>
      refine reach_stuck (fun c hc hin => ?_) e
      have := List.find?_eq_none.mp hfind c hc
      simp [hin.1, hin.2] at this
    | some c =>
      have hc := List.mem_of_find?_eq_some hfind
      have hin := List.find?_some hfind
      simp only [Bool.and_eq_true, decide_eq_true_eq] at hin
      have hshort := piecesBehind_shorter hc hin.2
      dsimp only
      rw [ih (by omega)]
      refine ⟨fun h b hp hb => ?_, fun h b hp hb => h b (by omega) hb⟩
      by_cases hcb : b < c.1 + c.2
      · exact ⟨c, hc, by omega, hcb⟩
      · exact h b (not_lt.mp hcb) hb

theorem coverTo_whole (l : List (Nat × Nat)) (p n : Nat) : p + n ≤ coverTo l l.length p ↔ ∀ b < n, InPiece l (p + b) := by
  rw [coverTo_reaches l (p + n) (List.length_filter_le _ _)]
  refine ⟨fun h b hb => h _ (by omega) (by omega), fun h b hp hb => ?_⟩
  have := h (b - p) (by omega)
  rwa [show p + (b - p) = b by omega] at this

/-! A block's fields -/

theorem op_eq (o : COp) : o.op = blockOp o := by rw [COp.op, COp.dw, blockOp]; omega

theorem root_eq (o : COp) : o.root = blockRoot o := by rw [COp.root, COp.dw, blockRoot]; omega

theorem nb_eq (o : COp) : o.nb = partBytes o := rfl

theorem reducing_iff (o : COp) : o.reducing = true ↔ blockOp o ∈ [0, 1, 4] := by
  simp only [COp.reducing, op_eq, Bool.or_eq_true, beq_iff_eq, List.mem_cons, List.not_mem_nil, or_false, or_assoc]

theorem ofsOf_eq (o : COp) (r : Nat) : o.ofsOf r = offsetOf o r := by
  simp only [COp.ofsOf, op_eq, nb_eq, offsetOf, List.mem_cons, List.not_mem_nil, or_false]

theorem dataFrom_iff (o : COp) (r : Nat) : dataFrom o r = true ↔ HasCome o r := by
  rw [dataFrom, HasCome]
  simp only [op_eq, ofsOf_eq]
  split_ifs
  · rw [List.contains_iff_mem]
  · rw [decide_eq_true_eq, ge_iff_le, coverTo_whole]
    rfl

theorem mem_others (o : COp) (r : Nat) : r ∈ o.others ↔ r < o.n ∧ r ≠ o.rank := by
  simp only [COp.others, List.mem_filter, List.mem_range, bne_iff_ne]

/-- The ranks whose data a block needs, by its OP. -/
theorem mem_wants (o : COp) (r : Nat) : r ∈ wants o ↔ NeedsRank o r := by
  have hothers := mem_others o r
  rw [wants, NeedsRank, op_eq, root_eq]
  match blockOp o with
  | 1 =>
    by_cases hr : o.rank = blockRoot o
    · simpa [hr] using hothers
    · simp [hr]
  | 2 => by_cases hr : o.rank = blockRoot o <;> simp [hr]
  | 7 => simp
  | 8 => simp
  | 0 | 3 | 4 | 5 | 6 | _ + 9 => simpa using hothers

theorem ringReady_iff (s : State) (die : Nat) (o : COp) : ringReady s die o = true ↔ BlockReady s die o := by
  simp only [ringReady, BlockReady, Bool.and_eq_true, List.all_eq_true, mem_wants, dataFrom_iff, Bool.not_eq_true', List.any_eq_false,
    beq_iff_eq, ne_eq]

theorem awaits_iff (s : State) (die : Nat) (o : COp) (r : Nat) : unanswered s die o r = true ↔ Awaits s die o r := by
  simp only [unanswered, Awaits, List.any_eq_true, Bool.and_eq_true, beq_iff_eq]

/-- The ranks that a block lacks at its timeout: each once, in order. -/
theorem missingOf_lacks (h : o.alg ≠ 3) : (missingOf s die o).Pairwise (· < ·) ∧
    ∀ r, r ∈ missingOf s die o ↔ r < o.n ∧ ((NeedsRank o r ∧ ¬ HasCome o r) ∨ Awaits s die o r) := by
  rw [missingOf, if_neg h]
  refine ⟨List.pairwise_lt_range.filter _, fun r => ?_⟩
  simp only [List.mem_filter, List.mem_range, Bool.or_eq_true, Bool.and_eq_true, List.contains_iff_mem, mem_wants, awaits_iff,
    Bool.not_eq_true', ← Bool.not_eq_true, dataFrom_iff]

theorem missingOf_others (h : o.alg = 3) : (missingOf s die o).Pairwise (· < ·) ∧ ∀ r, r ∈ missingOf s die o ↔ r < o.n ∧ r ≠ o.rank := by
  rw [missingOf, if_pos h]
  exact ⟨List.pairwise_lt_range.filter _, mem_others o⟩

/-- The contributions that have come, counted once each. -/
theorem combined_counts (o : COp) : Combined o (combined o) := by
  have hhas (r : Nat) (h8 : blockOp o ≠ 8) : ((r == o.rank && o.op != 8) || dataFrom o r) = true ↔ r = o.rank ∨ HasCome o r := by
    rw [Bool.or_eq_true, dataFrom_iff, Bool.and_eq_true, beq_iff_eq, op_eq, bne_iff_ne, and_iff_left h8]
  have hone {p : Bool} {q : Prop} (h : p = true ↔ q) : (q → (if p then 1 else 0) = 1) ∧ (¬ q → (if p then 1 else 0) = 0) :=
    ⟨fun hq => if_pos (h.mpr hq), fun hq => if_neg fun hp => hq (h.mp hp)⟩
  have hall (h8 : blockOp o ≠ 8) : ∃ l : List Nat, l.Nodup ∧ (∀ r, r ∈ l ↔ r < o.n ∧ (r = o.rank ∨ HasCome o r)) ∧
      ((List.range o.n).filter fun r => (r == o.rank && o.op != 8) || dataFrom o r).length = l.length := by
    refine ⟨_, List.nodup_range.filter _, fun r => ?_, rfl⟩
    rw [List.mem_filter, List.mem_range, hhas r h8]
  rw [Combined, combined]
  dsimp only
  rw [root_eq]
  generalize hn : blockOp o = n at hall hhas
  rw [op_eq, hn] at *
  match n with
  | 1 =>
    by_cases hr : o.rank = blockRoot o
    · simpa [hr] using hall
    · simp [hr]
  | 2 => simpa using hone (hhas (blockRoot o) (by decide))
  | 7 => simp
  | 8 => simpa using hone (dataFrom_iff o (blockRoot o))
  | 0 | 3 | 4 | 5 | 6 | _ + 9 => simpa using hall

end Sys2Proof.Machine
end

section
/-! What accesses by VA leave alone, and the bytes of a line that a sequencer writes (R69, R223, R241, R399). -/

namespace Sys2Proof.Machine

variable {s t u v x : State} {die part va n c : Nat} {b : List Nat} {tag : W32}

/-- t differs from s at most in what accesses by VA, their faults' records and the injection of faults change. -/
def Accesses (s t : State) : Prop := t = { s with
  regs := t.regs, mem := t.mem, tags := t.tags, relVec := t.relVec, clusters := t.clusters, tlb := t.tlb, access := t.access, recq := t.recq,
  recAt := t.recAt, recHeld := t.recHeld, recGone := t.recGone, lost := t.lost, msix := t.msix, stalled := t.stalled }

namespace Accesses

theorem refl (s : State) : Accesses s s := rfl

theorem trans (h : Accesses s t) (h' : Accesses t u) : Accesses s u := Eq.trans h' (by rw [h])

theorem of_keeps (h : Keeps s t) : Accesses s t := h.frame.trans (by rw [h.frame])

theorem seqrs (h : Accesses s t) : t.seqrs = s.seqrs := by rw [h]
theorem seqr (h : Accesses s t) (die : Nat) : t.seqr die = s.seqr die := by rw [State.seqr, h.seqrs, State.seqr]
theorem events (h : Accesses s t) : t.events = s.events := by rw [h]
theorem ident (h : Accesses s t) : t.ident = s.ident := by rw [h]
theorem tsc (h : Accesses s t) : t.tsc = s.tsc := by rw [h]
theorem tick (h : Accesses s t) : t.tick = s.tick := by rw [h]
theorem capSpad (h : Accesses s t) : t.capSpad = s.capSpad := by rw [State.capSpad, h.ident, State.capSpad]

theorem setTag (h : Accesses s t) (a : Nat) (tag : W32) : Accesses s (setTag t a tag) := h.trans (by rw [Accesses, setTag_eq])

theorem storeAt (h : Accesses s t) (a n v : Nat) : Accesses s (storeAt t a n v) := h.trans (by rw [Accesses, storeAt_frame])

theorem finjAct (h : Accesses s t) (c : Nat) : Accesses s (finjAct t c).1 := h.trans (by
  unfold Machine.finjAct
  extract_lets r mode
  split_ifs <;> rfl)

theorem putAt (h : Accesses s t) (part va src a n v : Nat) (tag : W32) : Accesses s (putAt t part va src a n v tag).1 := by
  rw [Machine.putAt]
  split
  · exact (h.storeAt ..).setTag ..
  · dsimp only
    split_ifs
    · exact h.finjAct _
    all_goals exact ((h.finjAct _).storeAt ..).setTag ..

theorem locateFar (s : State) (part va n : Nat) (wr ft cp : Bool) (from_ : Nat) : Accesses s (locateFar s part va n wr ft cp from_).1 :=
  of_keeps ((Keeps.refl s).locateFar part va n wr ft cp from_)

theorem vaWriteFrom (f : Nat) (s : State) (part va : Nat) (l : List Nat) (cp : Bool) (src : Nat) :
    Accesses s (vaWriteFrom f s part va l cp src).1 := by
  induction f generalizing s va l with
  | zero => exact refl s
  | succ f ih =>
    have hloc := locateFar s part va (writeSpan s part va src l.length) true false cp (src / 2 ^ 14)
    rw [Machine.vaWriteFrom]
    split
    · exact refl s
    · dsimp only
      generalize Machine.locateFar s part va (writeSpan s part va src l.length) true false cp (src / 2 ^ 14) = p at hloc
      obtain ⟨u, b | a⟩ := p
      · exact hloc
      · exact (hloc.putAt ..).trans (ih ..)

theorem vaWrite (s : State) (part va : Nat) (l : List Nat) (cp : Bool) (src : Nat) : Accesses s (vaWrite s part va l cp src).1 :=
  vaWriteFrom ..

theorem vaReadFrom (f : Nat) (s : State) (part va n : Nat) (ft : Bool) (from_ : Nat) :
    Accesses s (vaReadFrom f s part va n ft from_).1 := by
  induction f generalizing s va n with
  | zero => exact refl s
  | succ f ih =>
    have hloc := locateFar s part va (lineSpan va n) false ft false from_
    rw [Machine.vaReadFrom]
    split
    · exact refl s
    · dsimp only
      generalize Machine.locateFar s part va (lineSpan va n) false ft false from_ = p at hloc
      obtain ⟨u, b | a⟩ := p
      · exact hloc
      · have hrest := ih u (va + lineSpan va n) (n - lineSpan va n)
        dsimp only
        generalize Machine.vaReadFrom f u part (va + lineSpan va n) (n - lineSpan va n) ft from_ = q at hrest
        obtain ⟨w, b | l⟩ := q
        · exact hloc.trans hrest
        · exact hloc.trans hrest

theorem vaRead (s : State) (part va n from_ : Nat) : Accesses s (vaRead s part va n from_).1 := vaReadFrom ..

theorem vaPut (s : State) (part va : Nat) (b : List Nat) (src : Nat) (tag : W32) : Accesses s (vaPut s part va b src tag).1 := by
  rw [Machine.vaPut]
  split
  · have hloc := locateFar s part va b.length true false false (src / 2 ^ 14)
    generalize Machine.locateFar s part va b.length true false false (src / 2 ^ 14) = p at hloc
    obtain ⟨u, e | a⟩ := p
    · exact hloc
    · exact hloc.putAt ..
  · have hw := vaWrite s part va b false src
    generalize Machine.vaWrite s part va b false src = p at hw
    obtain ⟨u, e | e⟩ := p
    · dsimp only
      split
      · split
        · exact hw.setTag ..
        · exact hw
      · exact hw
    · exact hw

theorem emit (h : Accesses s t) (ring src typ hi dw2 dw3 : Nat) : Accesses s (emit t ring src typ hi dw2 dw3) :=
  h.trans (of_keeps ((Keeps.refl t).emit ..))

theorem emitFault (h : Accesses s t) (part src : Nat) (b : Bad) : Accesses s (emitFault t part src b) := h.emit ..

theorem bump (h : Accesses s t) (c n u : Nat) : Accesses s (t.bump c n u) := h.trans (of_keeps ((Keeps.refl t).bump c n u))

theorem relFlag (s : State) (part va src : Nat) (cp : Bool) : Accesses s (relFlag s part va src cp).1 := by
  rw [Machine.relFlag]
  split
  · exact of_keeps (bankElse_keeps ..)
  · have hloc := locateFar s part va 8 true false cp (src / 2 ^ 14)
    generalize Machine.locateFar s part va 8 true false cp (src / 2 ^ 14) = p at hloc
    obtain ⟨u, b | a⟩ := p
    · exact hloc
    · have hstore := (hloc.storeAt a 8 ((rdNat u a 8 + 1) % 2 ^ 64)).bump 3 (0xC10 + src / 2 ^ 14) (src / 2 ^ 14)
      exact hstore.trans rfl

end Accesses

/-! Injection of faults, in any order of the file -/

/-- A register set to another value than that of its reset changes that register alone. -/
theorem State.setReg_regOnly_of_ne {c n u : Nat} {w : W64} (h : w ≠ resetOf (rkey c n u)) (s : State) : RegOnly s (s.setReg c n u w) c n u w := by
  have hregs : (s.setReg c n u w).regs = s.regs.ins (rkey c n u) w := (State.setReg_regs ..).trans (if_neg h)
  refine ⟨rfl, ?_, fun c' n' u' hk => ?_⟩ <;> rw [State.reg, hregs]
  · exact SMap.get_ins_same ..
  · exact SMap.get_ins_other _ _ _ hk

theorem resetOf_finj {c : Nat} (hc : c < 64) : resetOf (rkey 2 0x804 c) = 0 := by
  have hcls : rkey 2 0x804 c / 2 ^ 32 = 2 := by unfold rkey; omega
  have hnum : rkey 2 0x804 c / 65536 % 65536 = 0x804 := by unfold rkey; omega
  rw [resetOf]
  simp only [hcls, hnum]
  rfl

/-- FINJ_CTL of a cluster acts on a packet as R241 says: what it leaves of the register is not the value of a reset. -/
theorem finjAct_injects_any (s : State) {c : Nat} (hc : c < 64) : Injects s (finjAct s c).1 c (finjAct s c).2 := by
  have hmode : bits (s.rn 2 0x804 c) 2 1 = (s.reg 2 0x804 c).toNat / 2 % 4 := rfl
  have hcount : bits (s.rn 2 0x804 c) 31 16 = (s.reg 2 0x804 c).toNat / 2 ^ 16 % 2 ^ 16 := rfl
  have hbit : (s.rn 2 0x804 c).testBit 0 = decide ((s.reg 2 0x804 c).toNat % 2 = 1) := Nat.testBit_zero _
  have hlt := (s.reg 2 0x804 c).isLt
  have hoff : (!(s.rn 2 0x804 c).testBit 0 || decide (bits (s.rn 2 0x804 c) 2 1 = 0) || decide (bits (s.rn 2 0x804 c) 2 1 = 3)) = true ↔
      ¬ ((s.reg 2 0x804 c).toNat % 2 = 1 ∧ ((s.reg 2 0x804 c).toNat / 2 % 4 = 1 ∨ (s.reg 2 0x804 c).toNat / 2 % 4 = 2)) := by
    simp only [hmode, hbit, Bool.or_eq_true, Bool.not_eq_true', decide_eq_false_iff_not, decide_eq_true_eq]
    omega
  unfold finjAct Injects
  dsimp only
  rw [hcount]
  split_ifs with harm hpassed
  · have := hoff.mp harm
    exact ⟨fun _ => ⟨rfl, rfl⟩, fun ha => absurd ha this, fun ha => absurd ha this⟩
  · have ha := not_not.mp (mt hoff.mpr harm)
    exact ⟨fun hna => absurd ha hna, fun _ _ => ⟨rfl, rfl⟩, fun _ hn => absurd hpassed (not_lt.mpr hn)⟩
  · have ha := not_not.mp (mt hoff.mpr harm)
    refine ⟨fun hna => absurd ha hna, fun _ hn => absurd hn hpassed, fun _ _ => ⟨rfl, State.setReg_regOnly_of_ne ?_ s⟩⟩
    rw [resetOf_finj hc]
    intro h0
    have := congrArg BitVec.toNat h0
    rw [BitVec.toNat_ofNat, State.rn, Nat.mod_eq_of_lt (by omega)] at this
    change (s.reg 2 0x804 c).toNat - 1 = 0 at this
    omega

/-- The act depends on the register and the count alone. -/
theorem finjAct_act_congr (hr : t.rn 2 0x804 c = s.rn 2 0x804 c) (hc : (t.cl c).finj = (s.cl c).finj) : (finjAct t c).2 = (finjAct s c).2 := by
  rw [finjAct, finjAct, hr, hc]
  dsimp only
  split_ifs <;> rfl

/-! A line -/

theorem outsideOf_seq (s : State) (part va die : Nat) : outsideOf s part va (srcSeq die) = exchangeOf s part va := by
  have hkind : bits (srcSeq die) 13 8 = 7 := by simp only [srcSeq, srcNo, bits]; omega
  have hclu : cluOfSrc (srcSeq die) = none := by rw [cluOfSrc]; simp only [hkind]; rfl
  rw [outsideOf, hclu]
  cases exchangeOf s part va <;> rfl

theorem seqWrite_within {tag : Nat → W32} (hb : 0 < b.length) (h : va % vaLine va + b.length ≤ vaLine va) :
    seqWrite s die part va b tag = vaPut s part va b (srcSeq die) (tag 0) := by
  have ho : (va + 2 ^ 64 - va) % 2 ^ 64 = 0 := by omega
  rw [seqWrite, pieces_within hb h]
  simp only [List.foldl_cons, List.foldl_nil, ho, List.drop_zero, List.take_length, seqPut]

theorem tagged_of_sramLoc {a : Nat} {cls : VaClass} {wr : Bool} (h : sramLoc s part cls wr = .ok a) : cls.tagged = true := by
  cases cls with
  | spad | clu | pool => rfl
  | eng | none | host | dieLocal => cases h

/-- A line of no exchange window that a sequencer writes. -/
theorem seqPut_inside (h : exchangeOf s part va = none) :
    (∀ e, vaWrite s part va b false (srcSeq die) = (x, some e) → vaPut s part va b (srcSeq die) tag = (x, some e)) ∧
    (vaWrite s part va b false (srcSeq die) = (x, none) →
      (∀ e, sramLoc x part (vaClass x.capSpad va) true = .error e → vaPut s part va b (srcSeq die) tag = (x, none)) ∧
      ∀ a, sramLoc x part (vaClass x.capSpad va) true = .ok a →
        vaPut s part va b (srcSeq die) tag = (setTag x a (if b.length = 256 then tag else 0), none)) := by
  obtain ⟨hfault, hdone⟩ := vaPut_own (x := x) (b := b) (tag := tag) ((outsideOf_seq s part va die).trans h)
  refine ⟨hfault, fun hw => ⟨fun e he => ?_, fun a ha => (hdone hw).2 a (tagged_of_sramLoc ha) ha⟩⟩
  cases htag : (vaClass x.capSpad va).tagged with
  | false => exact (hdone hw).1 htag
  | true =>
    have hin : ¬ (outsideOf s part va (srcSeq die)).isSome = true := by rw [outsideOf_seq, h]; exact Bool.false_ne_true
    rw [vaPut, if_neg hin, hw]
    dsimp only
    rw [if_pos htag, he]

/-- A line of an exchange window that a sequencer writes (R241, R399). -/
theorem seqPut_window (h : exchangeOf s part va = some c) :
    (∀ e, locateFar s part va b.length true false false (srcSeq die / 2 ^ 14) = (u, .error e) → vaPut s part va b (srcSeq die) tag = (u, some e)) ∧
    ∀ a, locateFar s part va b.length true false false (srcSeq die / 2 ^ 14) = (u, .ok a) →
      ((finjAct u c).2 = 1 → vaPut s part va b (srcSeq die) tag = ((finjAct u c).1, none)) ∧
      ((finjAct u c).2 ≠ 1 → vaPut s part va b (srcSeq die) tag = (setTag (storeAt (finjAct u c).1 a b.length (leNat b)) a
        (if (finjAct u c).2 = 2 then (if b.length = 256 then tag else 0) ^^^ 1 else if b.length = 256 then tag else 0), none)) := by
  have hout : (outsideOf s part va (srcSeq die)).isSome = true := by rw [outsideOf_seq, h]; rfl
  refine ⟨fun e he => ?_, fun a ha => ?_⟩
  · rw [vaPut, if_pos hout, he]
  · have hu : outsideOf u part va (srcSeq die) = some c := by rw [outsideOf_seq, exchangeOf_locateFar ha, h]
    refine ⟨fun hact => ?_, fun hact => ?_⟩ <;> rw [vaPut, if_pos hout, ha] <;> dsimp only <;> rw [putAt_outside hu]
    · rw [if_pos hact]
    · rw [if_neg hact]

end Sys2Proof.Machine
end

section
/-! A sequencer takes a data packet (R64, R69 to R71, R76, R241, R409). -/

namespace Sys2Proof.Machine

variable {s t u v x y : State} {die part va n c : Nat} {k : Pkt} {o o' : COp}

/-! Sequencers -/

theorem State.seqr_setSeqr_same (h : s.seqrs.Rises) (d : Nat) (q : Seqr) : (s.setSeqr d q).seqr d = q :=
  SMap.get_put_same (d := ({} : Seqr)) h d q

theorem State.setSeqr_setSeqr (h : s.seqrs.Rises) (d : Nat) (q r : Seqr) : (s.setSeqr d q).setSeqr d r = s.setSeqr d r := by
  rw [State.setSeqr, State.setSeqr, State.setSeqr, SMap.put_put h]

theorem State.setSeqr_rises (h : s.seqrs.Rises) (d : Nat) (q : Seqr) : (s.setSeqr d q).seqrs.Rises := SMap.Rises.put h d q

/-- A block that replaces the one of its number is found by it. -/
theorem find_replaced {l : List COp} (h : ∃ p ∈ l, p.id = o.id) :
    (l.map fun p => if p.id = o.id then o else p).find? (·.id == o.id) = some o := by
  induction l with
  | nil =>
    obtain ⟨p, hp, -⟩ := h
    cases hp
  | cons p l ih =>
    rw [List.map_cons, List.find?_cons]
    by_cases hp : p.id = o.id
    · rw [if_pos hp, beq_self_eq_true]
    · rw [if_neg hp, beq_eq_false_iff_ne.mpr hp]
      obtain ⟨e, he, hid⟩ := h
      rcases List.mem_cons.mp he with rfl | he
      · exact absurd hid hp
      · exact ih ⟨e, he, hid⟩

/-! The end of an in-network member -/

theorem netDone_iff (s : State) (die : Nat) (o : COp) :
    (o.alg = 3 ∧ o.armed = true ∧ (!(s.seqr die).sent.any (·.op == o.id)) = true ∧ coverTo o.covered o.covered.length 0 ≥ o.bytes o.count) ↔
      NetDone s die o := by
  have hcover : coverTo o.covered o.covered.length 0 ≥ o.bytes o.count ↔ ∀ b < partBytes o, ∃ c ∈ o.covered, c.1 ≤ b ∧ b < c.1 + c.2 := by
    have := coverTo_whole o.covered 0 (partBytes o)
    simp only [Nat.zero_add, InPiece] at this
    exact this
  rw [NetDone, hcover]
  simp only [Bool.not_eq_true', List.any_eq_false, beq_iff_eq, ne_eq]

theorem checkNet_goesOn (h : (s.seqr die).ops.find? (·.id == o.id) = some o) :
    (NetDone s die o → checkNet s die o.id = finishOp s die o 1 o.n []) ∧ (¬ NetDone s die o → checkNet s die o.id = s) := by
  rw [checkNet, h]
  exact ⟨fun hd => if_pos ((netDone_iff ..).mpr hd), fun hd => if_neg (mt (netDone_iff ..).mp hd)⟩

/-- A block that its sequencer does not hold is not completed. -/
theorem checkNet_none {id : Nat} (h : (s.seqr die).ops.find? (·.id == id) = none) : checkNet s die id = s := by
  rw [checkNet, h]

/-! Tags of whole lines -/

theorem lineWhole_iff (o : COp) (va : Nat) : lineWhole o va = true ↔ o.recvVa ≤ va ∧ va + 256 ≤ o.recvVa + partBytes o ∧
    ∀ b < 256, ∃ c ∈ o.covered, c.1 ≤ va - o.recvVa + b ∧ va - o.recvVa + b < c.1 + c.2 := by
  rw [lineWhole, Bool.and_eq_true, Bool.and_eq_true, decide_eq_true_eq, decide_eq_true_eq, decide_eq_true_eq, ge_iff_le, coverTo_whole, and_assoc]
  exact Iff.rfl

/-- The tag of the line of a location, where packets have covered it. -/
def lineTagged (s : State) (o : COp) (a : Nat) : State :=
  match sramLoc s o.part (vaClass s.capSpad a) true with
  | .ok loc => setTag s loc o.redTag
  | .error _ => s

theorem lineTagged_tags (s : State) (o : COp) (a : Nat) : lineTagged s o a = { s with tags := (lineTagged s o a).tags } := by
  rw [lineTagged]
  split
  · rw [setTag_eq]
  · rfl

theorem tagWhole_line (hn : 0 < n) (h : va % 256 + n ≤ 256) (s : State) (o : COp) :
    tagWhole s o va n = if lineWhole o (va / 256 * 256) = true then lineTagged s o (va / 256 * 256) else s := by
  have h0 : va / 256 * 256 < va + n := by omega
  have h1 : ¬ va / 256 * 256 + 256 < va + n := by omega
  simp only [tagWhole, List.range_succ, List.range_zero, List.nil_append, List.cons_append, List.foldl_cons, List.foldl_nil, Nat.mul_zero, add_zero,
    Nat.mul_one, h0, h1, decide_true, decide_false, Bool.true_and, Bool.false_and]
  rfl

theorem within_line {b : Nat} (h : va % vaLine va + b ≤ vaLine va) : va % 256 + b ≤ 256 := by
  rcases vaLine_cases va with hl | hl <;> rw [hl] at h <;> omega

/-! What becomes of a packet for a block -/

/-- The block with a packet noted. -/
def COp.noted (o : COp) (k : Pkt) : COp := { o with covered := o.covered ++ [(k.va % 2 ^ 32, k.len)] }

/-- A packet acknowledged and noted in its block. -/
def acked (z : State) (die : Nat) (k : Pkt) (o : COp) : State := setOp (seqAnswer z die k 3 0) die o

theorem acked_found (hs : z.seqrs.Rises) (h : ∃ p ∈ (z.seqr die).ops, p.id = o.id) :
    ((acked z die k o).seqr die).ops.find? (·.id == o.id) = some o := by
  have hq : (acked z die k o).seqr die = { z.seqr die with ops := (z.seqr die).ops.map fun p => if p.id = o.id then o else p } :=
    State.seqr_setSeqr_same (s := seqAnswer z die k 3 0) hs die _
  rw [hq]
  exact find_replaced h

theorem takeData_stages (h : blockOp o ∈ [0, 1, 4]) (halg : o.alg ≠ 3) : takeData s die o k =
    acked s die k { o.noted k with data := o.data ++ [(k.va % 2 ^ 32, leBytes k.len k.payload)] } := by
  have hc : (o.reducing && o.alg != 3) = true := by rw [Bool.and_eq_true, reducing_iff, bne_iff_ne]; exact ⟨h, halg⟩
  rw [takeData]
  dsimp only
  rw [if_pos hc]
  rfl

/-- The tag with which a packet's line is written (R69, log entry 115). -/
def dataTag (s : State) (o : COp) (k : Pkt) : W32 := if o.reducing then o.redTag else BitVec.ofNat 32 (k.ltag.getD (Config.farTag s.tick))

/-- The state once a packet's bytes are written: the line that the packets of a reduction cover has its tag (R69). -/
def coveredTags (s y : State) (o : COp) (k : Pkt) : State :=
  if (o.reducing && injected s o.part ((o.recvVa + k.va % 2 ^ 32) % 2 ^ 64) = 0) = true
    then tagWhole y (o.noted k) ((o.recvVa + k.va % 2 ^ 32) % 2 ^ 64) k.len else y

/-- What is left where a packet's bytes were written and left the state y: z with the tag of a line that the packets of a reduction cover,
and t where the block went on (R69, R409). -/
def TakenLine (die : Nat) (k : Pkt) (o : COp) (y : State) (plain : Prop) (t z : State) : Prop :=
  let line := (o.recvVa + k.va % 2 ^ 32) % 2 ^ 64 / 256 * 256
  let whole := o.recvVa ≤ line ∧ line + 256 ≤ o.recvVa + partBytes o ∧
    ∀ b < 256, ∃ c ∈ (o.noted k).covered, c.1 ≤ line - o.recvVa + b ∧ line - o.recvVa + b < c.1 + c.2
  z = { y with tags := z.tags } ∧ (¬ (blockOp o ∈ [0, 1, 4] ∧ plain ∧ whole) → z = y) ∧
    (blockOp o ∈ [0, 1, 4] ∧ plain ∧ whole → y.tags.Pairwise (fun a b => a.1 < b.1) → ∀ loc, loc < 6 * 2 ^ 60 →
      sramLoc y o.part (vaClass y.capSpad line) true = .ok loc → tagAt z loc = o.redTag) ∧
    (NetDone (acked z die k (o.noted k)) die (o.noted k) → t = finishOp (acked z die k (o.noted k)) die (o.noted k) 1 (o.noted k).n []) ∧
    (¬ NetDone (acked z die k (o.noted k)) die (o.noted k) → t = acked z die k (o.noted k))

section
variable (h : ¬ (blockOp o ∈ [0, 1, 4] ∧ o.alg ≠ 3))
include h

theorem takeData_faults {e : Bad} (hw : seqWrite s die o.part ((o.recvVa + k.va % 2 ^ 32) % 2 ^ 64) (leBytes k.len k.payload) (fun _ => dataTag s o k) = (x, some e)) :
    takeData s die o k = faultOp (seqAnswer x die k 7 0) die o e := by
  have hc : ¬ (o.reducing && o.alg != 3) = true := by rw [Bool.and_eq_true, reducing_iff, bne_iff_ne]; exact h
  rw [dataTag] at hw
  rw [takeData]
  dsimp only
  rw [if_neg hc, hw]

theorem takeData_writes (hw : seqWrite s die o.part ((o.recvVa + k.va % 2 ^ 32) % 2 ^ 64) (leBytes k.len k.payload) (fun _ => dataTag s o k) = (y, none)) :
    takeData s die o k = checkNet (acked (coveredTags s y o k) die k (o.noted k)) die o.id := by
  have hc : ¬ (o.reducing && o.alg != 3) = true := by rw [Bool.and_eq_true, reducing_iff, bne_iff_ne]; exact h
  rw [dataTag] at hw
  rw [takeData]
  dsimp only
  rw [if_neg hc, hw]
  rfl

/-- A block that takes a packet goes on, its line's tag given where the packets of a reduction cover it (R69, R409). -/
theorem takeData_done {plain : Prop} (hs : s.seqrs.Rises) (ho : o ∈ (s.seqr die).ops) (hn : 0 < k.len)
    (hline : (o.recvVa + k.va % 2 ^ 32) % 2 ^ 64 % 256 + k.len ≤ 256) (hplain : injected s o.part ((o.recvVa + k.va % 2 ^ 32) % 2 ^ 64) = 0 ↔ plain)
    (hw : seqWrite s die o.part ((o.recvVa + k.va % 2 ^ 32) % 2 ^ 64) (leBytes k.len k.payload) (fun _ => dataTag s o k) = (y, none)) (hy : Accesses s y) :
    ∃ z, TakenLine die k o y plain (takeData s die o k) z := by
  let line := (o.recvVa + k.va % 2 ^ 32) % 2 ^ 64 / 256 * 256
  let whole := o.recvVa ≤ line ∧ line + 256 ≤ o.recvVa + partBytes o ∧
    ∀ b < 256, ∃ c ∈ (o.noted k).covered, c.1 ≤ line - o.recvVa + b ∧ line - o.recvVa + b < c.1 + c.2
  rw [takeData_writes h hw]
  have hwhole : lineWhole (o.noted k) line = true ↔ whole := lineWhole_iff ..
  have hsum : (o.reducing && injected s o.part ((o.recvVa + k.va % 2 ^ 32) % 2 ^ 64) = 0) = true ↔ blockOp o ∈ [0, 1, 4] ∧ plain := by
    rw [Bool.and_eq_true, reducing_iff, decide_eq_true_eq, hplain]
  have hframe : coveredTags s y o k = { y with tags := (coveredTags s y o k).tags } := by
    rw [coveredTags]
    split_ifs
    · rw [tagWhole_line hn hline]
      split_ifs
      · rw [lineTagged_tags]
      · rfl
    · rfl
  refine ⟨coveredTags s y o k, hframe, fun hno => ?_, fun hyes htags loc hloc hplace => ?_, ?_⟩
  · rw [coveredTags]
    split_ifs with hc
    · rw [tagWhole_line hn hline, if_neg fun hw' => hno (and_assoc.mp ⟨hsum.mp hc, hwhole.mp hw'⟩)]
    · rfl
  · obtain ⟨h1, h2, h3⟩ := hyes
    rw [coveredTags, if_pos (hsum.mpr ⟨h1, h2⟩), tagWhole_line hn hline, if_pos (hwhole.mpr h3), lineTagged]
    change sramLoc y (o.noted k).part _ true = _ at hplace
    rw [hplace]
    exact tagAt_setTag htags hloc _
  · generalize coveredTags s y o k = z at hframe
    have hseqrs : z.seqrs = s.seqrs := by rw [hframe, hy.seqrs]
    have hq : z.seqr die = s.seqr die := by rw [State.seqr, hseqrs, State.seqr]
    exact checkNet_goesOn (o := o.noted k) (acked_found (hseqrs ▸ hs) (hq ▸ ⟨o, ho, rfl⟩))

end

/-! Which block takes it -/

/-- A block is of a packet's partition and flow key. -/
def Keyed (k : Pkt) (o : COp) : Prop := o.part = k.part ∧ o.flowKey = k.flow

theorem keyed_iff (k : Pkt) (o : COp) : (o.part == k.part && o.flowKey == k.flow) = true ↔ Keyed k o := by
  rw [Bool.and_eq_true, beq_iff_eq, beq_iff_eq, Keyed]

theorem takeColl_takes {l m : List COp} (hq : (s.seqr die).ops = l ++ o :: m) (ho : Keyed k o ∧ o.sig.toNat = k.tag)
    (hl : ∀ p ∈ l, ¬ (Keyed k p ∧ p.sig.toNat = k.tag)) : takeColl s die k = takeData s die o k := by
  have hfind : (keyedOps s die k).find? (fun o => o.sig.toNat == k.tag) = some o := by
    rw [keyedOps, List.find?_filter, hq]
    refine find_first (fun p hp => ?_) ?_
    · simp only [decide_eq_true_eq, keyed_iff, beq_iff_eq]
      exact hl p hp
    · simp only [decide_eq_true_eq, keyed_iff, beq_iff_eq]
      exact ho
  rw [takeColl]
  rw [hfind]

theorem takeColl_mismatches {l m : List COp} (hq : (s.seqr die).ops = l ++ o :: m) (ho : Keyed k o) (hl : ∀ p ∈ l, ¬ Keyed k p)
    (hsig : ∀ p ∈ (s.seqr die).ops, Keyed k p → p.sig.toNat ≠ k.tag) : takeColl s die k = finishOp (seqAnswer s die k 7 1) die o 3 0 [] := by
  have hnone : (keyedOps s die k).find? (fun o => o.sig.toNat == k.tag) = none := by
    rw [keyedOps, List.find?_eq_none]
    intro p hp
    rw [List.mem_filter, keyed_iff] at hp
    rw [beq_iff_eq]
    exact hsig p hp.1 hp.2
  have hcons : keyedOps s die k = o :: m.filter fun o => o.part == k.part && o.flowKey == k.flow := by
    have hl' : l.filter (fun o => o.part == k.part && o.flowKey == k.flow) = [] :=
      List.filter_eq_nil_iff.mpr fun p hp => mt (keyed_iff k p).mp (hl p hp)
    rw [keyedOps, hq, List.filter_append, hl', List.nil_append, List.filter_cons, if_pos ((keyed_iff k o).mpr ho)]
  rw [takeColl]
  rw [hnone, hcons]

section
variable (hno : ∀ p ∈ (s.seqr die).ops, ¬ Keyed k p)
include hno

theorem keyedOps_nil : keyedOps s die k = [] := List.filter_eq_nil_iff.mpr fun p hp => mt (keyed_iff k p).mp (hno p hp)

theorem takeColl_late (h : CompletedLately s die k) : takeColl s die k = seqAnswer s die k 3 0 := by
  have hrecent : isRecent s die k = true := by
    obtain ⟨r, hr, h1, h2, h3⟩ := h
    rw [isRecent, List.any_eq_true]
    refine ⟨r, hr, ?_⟩
    rw [Bool.and_eq_true, Bool.and_eq_true, beq_iff_eq, beq_iff_eq, decide_eq_true_eq]
    exact ⟨⟨h1, h2⟩, h3⟩
  rw [takeColl, keyedOps_nil hno]
  exact if_pos hrecent

theorem takeColl_early (h : ¬ CompletedLately s die k) : takeColl s die k = seqPark s die k := by
  have hrecent : ¬ isRecent s die k = true := fun hr => h (by
    rw [isRecent, List.any_eq_true] at hr
    obtain ⟨r, hr, hin⟩ := hr
    rw [Bool.and_eq_true, Bool.and_eq_true, beq_iff_eq, beq_iff_eq, decide_eq_true_eq] at hin
    exact ⟨r, hr, hin.1.1, hin.1.2, hin.2⟩)
  rw [takeColl, keyedOps_nil hno]
  exact if_neg hrecent

end

theorem seqPark_room (h : (s.seqr die).park.length < 32) : seqPark s die k =
    s.setSeqr die { s.seqr die with park := (s.seqr die).park ++ [⟨k, s.tsc.toNat, false⟩] } := if_pos h

theorem seqPark_full (h : 32 ≤ (s.seqr die).park.length) : seqPark s die k = seqAnswer s die k 7 0 := if_neg (not_lt.mpr h)

end Sys2Proof.Machine
end

section
/-! A block completes: it leaves its sequencer, its record and its flag are written (R64, R65). -/

namespace Sys2Proof.Machine

variable {s t u y : State} {die : Nat} {o : COp}

/-! Bytes of a number -/

theorem leBytes_byte {n v b : Nat} (h : b ∈ leBytes n v) : b < 256 := by
  obtain ⟨i, -, rfl⟩ := List.mem_map.mp h
  exact Nat.mod_lt _ (by decide)

/-- A number of so many bytes determines them. -/
theorem leNat_inj {a b : List Nat} (hlen : a.length = b.length) (ha : ∀ v ∈ a, v < 256) (hb : ∀ v ∈ b, v < 256) (h : leNat a = leNat b) : a = b := by
  induction a generalizing b with
  | nil => exact (List.length_eq_zero_iff.mp hlen.symm).symm
  | cons v a ih =>
    cases b with
    | nil => cases hlen
    | cons w b =>
      rw [List.forall_mem_cons] at ha hb
      rw [leNat, leNat] at h
      have hrest := ih (Nat.succ.inj hlen) ha.2 hb.2 (by omega)
      rw [hrest, show v = w by omega]

theorem eq_leBytes {n v : Nat} {b : List Nat} (hlen : b.length = n) (hb : ∀ v ∈ b, v < 256) (h : leNat b = v % 256 ^ n) : b = leBytes n v :=
  leNat_inj (hlen.trans (leBytes_length n v).symm) hb (fun _ => leBytes_byte) (h.trans (leNat_leBytes n v).symm)

/-- A list is its pairs one after another. -/
theorem flatMap_pairs {α : Type} (l : List α) (n : Nat) : (List.range n).flatMap (fun j => (l.drop (2 * j)).take 2) = l.take (2 * n) := by
  induction n with
  | zero => rfl
  | succ n ih =>
    rw [List.range_succ, List.flatMap_append, ih, List.flatMap_singleton, Nat.mul_succ, List.take_add]

/-! The status record -/

/-- The twelve ranks of a status record (R65). -/
theorem statusRanks_eq (miss : List Nat) : (miss.take 12 ++ List.replicate 12 0xFFFF).take 12 = (List.range 12).map fun j => miss.getD j 0xFFFF := by
  refine List.ext_getElem (by simp) fun j h1 h2 => ?_
  have hj : j < 12 := by simpa using h2
  rw [List.getElem_take, List.getElem_map, List.getElem_range, List.getD_eq_getElem?_getD]
  by_cases hm : j < miss.length
  · rw [List.getElem_append_left (by simp; omega), List.getElem_take, List.getElem?_eq_getElem hm, Option.getD_some]
  · rw [List.getElem_append_right (by simp; omega), List.getElem_replicate, List.getElem?_eq_none (by omega), Option.getD_none]

/-- The bytes of a status record (R65). -/
def statusRecord (code comb : Nat) (miss : List Nat) : List Nat :=
  leBytes 8 (code + flagIf (miss.length > 12) 256 + comb % 2 ^ 32 * 2 ^ 32) ++
    ((miss.take 12 ++ List.replicate 12 0xFFFF).take 12).flatMap (leBytes 2)

/-- A status record is determined by its doubleword and its ranks. -/
theorem eq_statusRecord {code comb : Nat} {miss b : List Nat} (hlen : b.length = 32) (hb : ∀ v ∈ b, v < 256)
    (hhead : leNat (b.take 8) = (code + (if 12 < miss.length then 2 ^ 8 else 0) + comb % 2 ^ 32 * 2 ^ 32) % 2 ^ 64)
    (hranks : ∀ j < 12, leNat ((b.drop (8 + 2 * j)).take 2) = miss.getD j 0xFFFF % 2 ^ 16) : b = statusRecord code comb miss := by
  have hflag : flagIf (miss.length > 12) 256 = if 12 < miss.length then 2 ^ 8 else 0 := by
    by_cases h : 12 < miss.length
    · rw [if_pos h, decide_eq_true h]; rfl
    · rw [if_neg h, decide_eq_false h]; rfl
  have h8 : b.take 8 = leBytes 8 (code + flagIf (miss.length > 12) 256 + comb % 2 ^ 32 * 2 ^ 32) :=
    eq_leBytes (by rw [List.length_take, hlen]; rfl) (fun v hv => hb v (List.mem_of_mem_take hv)) (by rw [hhead, hflag, show (256 : Nat) ^ 8 = 2 ^ 64 by norm_num])
  have h2 : ∀ j ∈ List.range 12, ((b.drop 8).drop (2 * j)).take 2 = leBytes 2 (miss.getD j 0xFFFF) := fun j hj => by
    rw [List.mem_range] at hj
    rw [List.drop_drop]
    exact eq_leBytes (by rw [List.length_take, List.length_drop, hlen]; omega)
      (fun v hv => hb v (List.mem_of_mem_drop (List.mem_of_mem_take hv))) (hranks j hj)
  have hpairs : (List.range 12).flatMap (fun j => ((b.drop 8).drop (2 * j)).take 2) = b.drop 8 := by
    rw [flatMap_pairs, List.take_of_length_le (by rw [List.length_drop, hlen])]
  rw [statusRecord, statusRanks_eq, List.flatMap_map, ← h8, ← List.flatMap_congr h2, hpairs, List.take_append_drop]

/-! Record and flag -/

/-- What a write for a block leaves: a fault of it is a record (R65). -/
def reported (die : Nat) (o : COp) (r : State × Option Bad) : State :=
  match r.2 with
  | some b => emitFault r.1 o.part (srcSeq die) b
  | none => r.1

theorem reported_done (die : Nat) (o : COp) (s : State) : reported die o (s, none) = s := rfl

theorem reported_fault (die : Nat) (o : COp) (s : State) (b : Bad) : reported die o (s, some b) = emitFault s o.part (srcSeq die) b := rfl

/-- The state with a block's status record written. -/
def statusWritten (s : State) (die : Nat) (o : COp) (code comb : Nat) (miss : List Nat) : State :=
  if o.dw 7 = 0 then s else reported die o (seqWrite s die o.part (o.dw 7) (statusRecord code comb miss) fun _ => 0)

theorem collDone_eq (s : State) (die : Nat) (o : COp) (code comb : Nat) (miss : List Nat) : collDone s die o code comb miss =
    if o.dw 5 = 0 then statusWritten s die o code comb miss
    else reported die o (relFlag (statusWritten s die o code comb miss) o.part (o.dw 5) (srcSeq die) false) := rfl

theorem Accesses.foldl {α β : Type} {f : State × β → α → State × β} (hf : ∀ r a, Accesses r.1 (f r a).1) (l : List α) (r : State × β) :
    Accesses r.1 (l.foldl f r).1 := by
  induction l generalizing r with
  | nil => exact .refl _
  | cons a l ih => exact (hf r a).trans (ih _)

theorem seqWrite_accesses (s : State) (die part va : Nat) (b : List Nat) (tag : Nat → W32) : Accesses s (seqWrite s die part va b tag).1 := by
  refine Accesses.foldl (fun r p => ?_) _ _
  split
  · exact .refl _
  · exact .vaPut ..

theorem reported_accesses {r : State × Option Bad} (h : Accesses s r.1) (die : Nat) (o : COp) : Accesses s (reported die o r) := by
  obtain ⟨t, b | b⟩ := r
  · exact h
  · exact h.emitFault ..

theorem statusWritten_accesses (s : State) (die : Nat) (o : COp) (code comb : Nat) (miss : List Nat) :
    Accesses s (statusWritten s die o code comb miss) := by
  rw [statusWritten]
  split_ifs
  · exact .refl s
  · exact reported_accesses (seqWrite_accesses ..) die o

theorem collDone_accesses (s : State) (die : Nat) (o : COp) (code comb : Nat) (miss : List Nat) : Accesses s (collDone s die o code comb miss) := by
  rw [collDone_eq]
  split_ifs
  · exact statusWritten_accesses ..
  · exact (statusWritten_accesses ..).trans (reported_accesses (Accesses.relFlag ..) die o)

/-- The record of a block outside the exchange windows: its bytes are written, its tag is of no account. -/
theorem statusWritten_record {code comb : Nat} {miss : List Nat} {x : State} (h7 : o.dw 7 ≠ 0) (hal : o.dw 7 % 32 = 0)
    (hin : exchangeOf u o.part (o.dw 7) = none) :
    (vaWrite u o.part (o.dw 7) (statusRecord code comb miss) false (srcSeq die) = (x, none) →
      statusWritten u die o code comb miss = { x with tags := (statusWritten u die o code comb miss).tags }) ∧
    ∀ e, vaWrite u o.part (o.dw 7) (statusRecord code comb miss) false (srcSeq die) = (x, some e) →
      statusWritten u die o code comb miss = emitFault x o.part (srcSeq die) e := by
  have hlen : (statusRecord code comb miss).length = 32 := by
    rw [statusRecord, statusRanks_eq, List.length_append, leBytes_length, List.flatMap_map, List.length_flatMap]
    simp only [leBytes_length, List.map_const', List.length_range, List.sum_replicate]
    rfl
  have hline : o.dw 7 % vaLine (o.dw 7) + (statusRecord code comb miss).length ≤ vaLine (o.dw 7) := by
    rw [hlen]
    rcases vaLine_cases (o.dw 7) with hl | hl <;> rw [hl] <;> omega
  have hwrite : statusWritten u die o code comb miss = reported die o (vaPut u o.part (o.dw 7) (statusRecord code comb miss) (srcSeq die) 0) := by
    rw [statusWritten, if_neg h7, seqWrite_within (by omega) hline]
  obtain ⟨hfault, hdone⟩ := seqPut_inside (x := x) (die := die) (b := statusRecord code comb miss) (tag := 0) hin
  refine ⟨fun hw => ?_, fun e hw => by rw [hwrite, hfault e hw, reported_fault]⟩
  rw [hwrite]
  cases hloc : sramLoc x o.part (vaClass x.capSpad (o.dw 7)) true with
  | error e => rw [(hdone hw).1 e hloc, reported_done]
  | ok a =>
    rw [(hdone hw).2 a hloc, reported_done]
    exact setTag_eq ..

/-! The block leaves -/

theorem dropOp_seqr (hs : s.seqrs.Rises) (die : Nat) (o : COp) : (dropOp s die o).seqr die = { s.seqr die with
    ops := (s.seqr die).ops.filter (·.id != o.id), sent := (s.seqr die).sent.filter (·.op != o.id),
    recent := (s.seqr die).recent ++ [(o.part * 2 ^ 16 + o.flowKey, o.sig.toNat, s.tsc.toNat)] } :=
  State.seqr_setSeqr_same hs die _

/-- An event that is not a packet of a completed block. -/
def staysQueued (die : Nat) (rids : List Nat) (i : Instr) : Bool :=
  match i with
  | .packetInject _ _ k => !(k.src == srcSeq die && (k.opc == 6 || k.opc == 8) && rids.contains k.rid)
  | _ => true

/-- The packets that a block holds. -/
def heldRids (s : State) (die : Nat) (o : COp) : List Nat := ((s.seqr die).sent.filter (·.op == o.id)).map (·.pkt.rid)

theorem mem_heldRids (r : Nat) : r ∈ heldRids s die o ↔ ∃ x ∈ (s.seqr die).sent, x.op = o.id ∧ x.pkt.rid = r := by
  simp only [heldRids, List.mem_map, List.mem_filter, beq_iff_eq, and_assoc]

theorem staysQueued_nil (die : Nat) (i : Instr) : staysQueued die [] i = true := by
  cases i <;> simp [staysQueued]

theorem dropOp_events (s : State) (die : Nat) (o : COp) : (dropOp s die o).events = s.events.filter (staysQueued die (heldRids s die o)) := by
  have hfilter : (dropOp s die o).events = if (heldRids s die o).isEmpty then s.events else s.events.filter (staysQueued die (heldRids s die o)) := rfl
  rw [hfilter]
  split_ifs with hnil
  · rw [List.isEmpty_iff.mp hnil]
    exact (List.filter_eq_self.mpr fun i _ => staysQueued_nil die i).symm
  · rfl

theorem staysQueued_packet (die : Nat) (rids : List Nat) (d l : Nat) (p : Pkt) : staysQueued die rids (.packetInject d l p) = false ↔
    p.src = srcSeq die ∧ (p.opc = 6 ∨ p.opc = 8) ∧ p.rid ∈ rids := by
  simp only [staysQueued, Bool.not_eq_false', Bool.and_eq_true, Bool.or_eq_true, beq_iff_eq, List.contains_iff_mem, and_assoc]

theorem staysQueued_false {rids : List Nat} {i : Instr} : staysQueued die rids i = false ↔
    ∃ d l p, i = .packetInject d l p ∧ p.src = srcSeq die ∧ (p.opc = 6 ∨ p.opc = 8) ∧ p.rid ∈ rids := by
  constructor
  · intro h
    cases i with
    | packetInject d l p => exact ⟨d, l, p, rfl, (staysQueued_packet ..).mp h⟩
    | _ => cases h
  · rintro ⟨d, l, p, rfl, h⟩
    exact (staysQueued_packet ..).mpr h

theorem dropOp_frame (s : State) (die : Nat) (o : COp) : dropOp s die o =
    { s with seqrs := (dropOp s die o).seqrs, events := (dropOp s die o).events } := rfl

/-- A completed block is held no more. -/
theorem finishOp_gone (hs : s.seqrs.Rises) (die : Nat) (o : COp) (code comb : Nat) (miss : List Nat) :
    ((finishOp s die o code comb miss).seqr die).ops.find? (·.id == o.id) = none := by
  rw [finishOp, (collDone_accesses ..).seqr, dropOp_seqr hs, List.find?_eq_none]
  intro p hp
  have := (List.mem_filter.mp hp).2
  simpa using this

theorem faultOp_gone (hs : s.seqrs.Rises) (die : Nat) (o : COp) (b : Bad) : ((faultOp s die o b).seqr die).ops.find? (·.id == o.id) = none :=
  finishOp_gone (((Accesses.refl s).emitFault o.part (srcSeq die) b).seqrs ▸ hs) die o 5 0 []

end Sys2Proof.Machine
end

section
/-! What a sequencer sends and holds (R47, R69, R71, R409, R410). -/

namespace Sys2Proof.Machine

variable {s t u y : State} {die : Nat} {o : COp}

/-- A packet as its sequencer holds it. -/
def sentOf (s : State) (o : COp) (p : Pkt) : Sent :=
  { pkt := p, kern := 0, part := o.part, job := 0, at_ := s.tsc.toNat, tries := 0, due := 0, op := o.id }

/-- t is s after a block's packets entered the network, each held (R71). -/
structure SendsHeld (s t : State) (die : Nat) (o : COp) (ps : List Pkt) : Prop where
  frame : t = { s with nextRid := t.nextRid, seqrs := t.seqrs, events := s.events ++ ps.map (.packetInject die 6) }
  seqr : t.seqr die = { s.seqr die with sent := (s.seqr die).sent ++ ps.map (sentOf s o) }
  rises : t.seqrs.Rises

namespace SendsHeld

theorem refl (hs : s.seqrs.Rises) (die : Nat) (o : COp) : SendsHeld s s die o [] :=
  ⟨by rw [List.map_nil, List.append_nil], by rw [List.map_nil, List.append_nil], hs⟩

theorem trans {ps qs : List Pkt} (h : SendsHeld s t die o ps) (h' : SendsHeld t u die o qs) : SendsHeld s u die o (ps ++ qs) := by
  have htsc : sentOf t o = sentOf s o := by funext p; rw [sentOf, h.frame, sentOf]
  refine ⟨h'.frame.trans ?_, h'.seqr.trans ?_, h'.rises⟩
  · rw [h.frame, List.map_append, List.append_assoc]
  · rw [h.seqr, htsc, List.map_append, List.append_assoc]

theorem ident {ps : List Pkt} (h : SendsHeld s t die o ps) : t.ident = s.ident := by rw [h.frame]
theorem regs {ps : List Pkt} (h : SendsHeld s t die o ps) : t.regs = s.regs := by rw [h.frame]
theorem mem {ps : List Pkt} (h : SendsHeld s t die o ps) : t.mem = s.mem := by rw [h.frame]
theorem events {ps : List Pkt} (h : SendsHeld s t die o ps) : t.events = s.events ++ ps.map (.packetInject die 6) := by rw [h.frame]

theorem seqSend (hs : s.seqrs.Rises) (die : Nat) (o : COp) (p : Pkt) : SendsHeld s (seqSend s die o p) die o [{ p with rid := s.nextRid }] :=
  ⟨rfl, State.seqr_setSeqr_same (s := { s with nextRid := s.nextRid + 1 }) hs die _, State.setSeqr_rises (s := { s with nextRid := s.nextRid + 1 }) hs die _⟩

end SendsHeld

/-- A packet but for its handle. -/
def IsSending (p r : Pkt) : Prop := ∃ rid, r = { p with rid := rid }

/-- Packets sent one after another: what they say depends on the chip and the registers alone. -/
theorem sends_foldl {α : Type} {f : State → α → Pkt} {g : α → Pkt} (l : List α) (hs : s.seqrs.Rises) (die : Nat) (o : COp)
    (hf : ∀ t, t.ident = s.ident → t.regs = s.regs → ∀ a ∈ l, f t a = g a) :
    ∃ ps, SendsHeld s (l.foldl (fun t a => seqSend t die o (f t a)) s) die o ps ∧ List.Forall₂ (fun a p => IsSending (g a) p) l ps := by
  induction l generalizing s with
  | nil => exact ⟨[], .refl hs die o, .nil⟩
  | cons a l ih =>
    have hone := SendsHeld.seqSend hs die o (f s a)
    obtain ⟨ps, hps, hall⟩ := ih hone.rises fun t hi hr b hb =>
      hf t (hi.trans hone.ident) (hr.trans hone.regs) b (List.mem_cons_of_mem a hb)
    exact ⟨_, hone.trans hps, .cons ⟨_, by rw [hf s rfl rfl a List.mem_cons_self]⟩ hall⟩

/-! A contribution -/

/-- The tags of the whole lines of a send buffer (R69). -/
def lineTags (y : State) (o : COp) : List Nat := (List.range (o.sendLen / 256 + 1)).map fun j =>
  (srcTag y o.part (((o.sendVa + 255) / 256 * 256 + 256 * j) % 2 ^ 64)).toNat

theorem contribution_fault {b : Bad} (h : vaRead s o.part o.sendVa o.sendLen die = (y, .error b)) : contribution s die o = (y, .error b) := by
  rw [contribution, h]

theorem contribution_ok {l : List Nat} (h : vaRead s o.part o.sendVa o.sendLen die = (y, .ok l)) :
    contribution s die o = (y, .ok (o.sendVa % 256 :: l ++ lineTags y o)) := by
  rw [contribution, h]
  rfl

theorem cBytes_contribution {l : List Nat} {a n : Nat} (h : l.length = n) (m : List Nat) : cBytes (a :: l ++ m) n = l := by
  rw [cBytes, List.cons_append, List.drop_succ_cons, List.drop_zero, ← h, List.take_left]

/-- The tag that goes with a whole line of a contribution is that of its source line (R69). -/
theorem cTag_contribution {l : List Nat} (y : State) (o : COp) (h : l.length = o.sendLen) (d : Nat) :
    cTag (o.sendVa % 256 :: l ++ lineTags y o) o.sendLen d = if (o.sendVa + d) % 256 = 0 ∧ d + 256 ≤ o.sendLen
      then srcTag y o.part ((o.sendVa + d) % 2 ^ 64) else 0 := by
  have hhead : (o.sendVa % 256 :: l ++ lineTags y o).headD 0 = o.sendVa % 256 := rfl
  rw [cTag, hhead]
  refine if_ctx_congr (by omega) (fun hin => ?_) fun _ => rfl
  obtain ⟨hal, hlen⟩ := hin
  generalize hj : (o.sendVa % 256 + d - (o.sendVa % 256 + 255) / 256 * 256) / 256 = j
  have hjlt : j < o.sendLen / 256 + 1 := by omega
  have hva : (o.sendVa + 255) / 256 * 256 + 256 * j = o.sendVa + d := by omega
  rw [List.getD_eq_getElem?_getD, List.getElem?_append_right (by rw [List.length_cons, h]; omega), List.length_cons, h,
    show 1 + o.sendLen + j - (o.sendLen + 1) = j by omega, lineTags, List.getElem?_map, List.getElem?_range hjlt]
  simp only [Option.map_some, Option.getD_some, hva]
  exact BitVec.ofNat_toNat ..

/-! A member's contribution to a core -/

/-- A packet of a member's contribution (R69, R409). -/
def ownPkt (y : State) (die : Nat) (o : COp) (l : List Nat) (j : Nat) : Pkt :=
  corePkt y die o 6 (256 * j) ((l.drop (256 * j)).take 256) (cTag (o.sendVa % 256 :: l ++ lineTags y o) o.sendLen (256 * j))

theorem corePkt_congr (hi : t.ident = s.ident) (hr : t.regs = s.regs) (die : Nat) (o : COp) (opc ofs : Nat) (b : List Nat) (tag : W32) :
    corePkt t die o opc ofs b tag = corePkt s die o opc ofs b tag := by
  have hchip : t.chipNo = s.chipNo := by rw [State.chipNo, hi, State.chipNo]
  have hdie (d : Nat) : t.physDie d = s.physDie d := by rw [State.physDie, State.rn, State.reg, hr, State.physDie, State.rn, State.reg]
  simp only [corePkt, hchip, hdie]

theorem sendOwn_fault {b : Bad} (h : vaRead s o.part o.sendVa o.sendLen die = (y, .error b)) : sendOwn s die o = faultOp y die o b := by
  rw [sendOwn, contribution_fault h]

/-- A member's contribution is sent in packets, each held (R409). -/
theorem sendOwn_sends (hs : s.seqrs.Rises) {l : List Nat} (h : vaRead s o.part o.sendVa o.sendLen die = (y, .ok l)) :
    ∃ ps, SendsHeld (setOp y die { o with armed := true }) (sendOwn s die o) die o ps ∧
      List.Forall₂ (fun j p => IsSending (ownPkt y die o l j) p) (List.range o.ownPkts) ps := by
  have hlen : l.length = o.sendLen := vaRead_length h
  have hy : y.seqrs.Rises := by
    have := (Accesses.vaRead s o.part o.sendVa o.sendLen die).seqrs
    rw [h] at this
    exact this ▸ hs
  have hset : (setOp y die { o with armed := true }).seqrs.Rises := State.setSeqr_rises hy die _
  rw [sendOwn, contribution_ok h]
  dsimp only
  rw [cBytes_contribution hlen]
  exact sends_foldl _ hset die o fun t hi hr j _ => corePkt_congr hi hr ..

theorem corePkt_ofs (y : State) (die : Nat) (o : COp) (opc ofs : Nat) (b : List Nat) (tag : W32) :
    (corePkt y die o opc ofs b tag).va % 2 ^ 32 = ofs % 2 ^ 32 := by
  simp only [corePkt]
  omega

end Sys2Proof.Machine
end

section
/-! Answers, retries and timeouts of a sequencer (R64, R71, R72, R85, R409, R411, R415). -/

namespace Sys2Proof.Machine

variable {s t u v x y : State} {die : Nat} {k : Pkt} {o : COp} {h : Sent}

/-! Which held packet an answer is for -/

/-- A held packet is that of a block which an answer answers (R415). -/
def HeldFor (s : State) (die : Nat) (k : Pkt) (h : Sent) (o : COp) : Prop := (s.seqr die).ops.find? (·.id == h.op) = some o ∧ SeqAnswerOf h o k

theorem find_id {l : List COp} {id : Nat} (hf : l.find? (·.id == id) = some o) : o.id = id := by simpa using List.find?_some hf

theorem sentTo_eq (o : COp) (p : Pkt) : sentTo o p = if p.cls = 2
    then o.members.getD (p.who - 1) 0 % 2 ^ 12 * 2 ^ 7 + o.members.getD (p.who - 1) 0 / 2 ^ 12 % 4 * 2 ^ 5 + 27
    else o.raw / 2 ^ 256 % 2 ^ 64 % 2 ^ 12 * 2 ^ 7 + o.raw / 2 ^ 256 % 2 ^ 64 / 2 ^ 12 % 4 * 2 ^ 5 + o.raw / 2 ^ 256 % 2 ^ 64 / 2 ^ 14 % 16 := by
  have hlow (e : Nat) : bits e 11 0 = e % 2 ^ 12 := by simp only [bits]; omega
  rw [sentTo]
  simp only [memberOf, hlow]
  rfl

theorem seqMatch_iff (hop : h.op = o.id) : seqMatch o h k = true ↔ SeqAnswerOf h o k := by
  rw [seqMatch, SeqAnswerOf, sentTo_eq]
  simp only [Bool.and_eq_true, beq_iff_eq, hop, true_and, and_assoc]
  rfl

/-- The held packet, and its block, where an answer is for it. -/
def heldFor (s : State) (die : Nat) (k : Pkt) (h : Sent) : Option (Sent × COp) :=
  match (s.seqr die).ops.find? (·.id == h.op) with
  | some o => if seqMatch o h k then some (h, o) else none
  | none => none

theorem seqHeld_eq (s : State) (die : Nat) (k : Pkt) : seqHeld s die k = (s.seqr die).sent.findSome? (heldFor s die k) := rfl

theorem heldFor_some (hh : HeldFor s die k h o) : heldFor s die k h = some (h, o) := by
  obtain ⟨hf, ha⟩ := hh
  rw [heldFor, hf]
  exact if_pos ((seqMatch_iff (find_id hf).symm).mpr ha)

theorem heldFor_none (hno : ∀ o, ¬ HeldFor s die k h o) : heldFor s die k h = none := by
  rw [heldFor]
  split
  · rename_i o hf
    exact if_neg fun hm => hno o ⟨hf, (seqMatch_iff (find_id hf).symm).mp hm⟩
  · rfl

theorem seqHeld_none (hno : ∀ h ∈ (s.seqr die).sent, ∀ o, ¬ HeldFor s die k h o) : seqHeld s die k = none := by
  rw [seqHeld_eq, List.findSome?_eq_none_iff]
  exact fun h hh => heldFor_none (hno h hh)

theorem seqHeld_oldest {l m : List Sent} (hq : (s.seqr die).sent = l ++ h :: m) (hh : HeldFor s die k h o)
    (hl : ∀ y ∈ l, ∀ p, ¬ HeldFor s die k y p) : seqHeld s die k = some (h, o) := by
  have hnone : l.findSome? (heldFor s die k) = none := List.findSome?_eq_none_iff.mpr fun y hy => heldFor_none (hl y hy)
  rw [seqHeld_eq, hq, List.findSome?_append, hnone, List.findSome?_cons, heldFor_some hh]
  rfl

/-! Answers -/

theorem seqr_onReply (s : State) (key : Nat) (echo : Bool) (q d : Nat) : (onReply s key echo q).seqr d = s.seqr d := by
  rw [State.seqr, onReply_frame, State.seqr]

theorem seqrs_onReply (s : State) (key : Nat) (echo : Bool) (q : Nat) : (onReply s key echo q).seqrs = s.seqrs := by rw [onReply_frame]

/-- The sequencer after the answer to a packet: it holds the packet no more. -/
def sentReleased (s : State) (die : Nat) (k : Pkt) (h : Sent) : State :=
  (onReply s (srcSeq die) k.echo h.pkt.q).setSeqr die { s.seqr die with sent := (s.seqr die).sent.filter fun y => y.pkt.rid != h.pkt.rid }

theorem sentReleased_eq (s : State) (die : Nat) (k : Pkt) (h : Sent) :
    releaseSent (onReply s (srcSeq die) k.echo h.pkt.q) die h.pkt.rid = sentReleased s die k h := by
  rw [releaseSent, seqr_onReply, sentReleased]

theorem sentReleased_rises (hs : s.seqrs.Rises) : (sentReleased s die k h).seqrs.Rises :=
  State.setSeqr_rises (s := onReply s (srcSeq die) k.echo h.pkt.q) (seqrs_onReply s _ _ _ ▸ hs) die _

theorem sentReleased_seqr (hs : s.seqrs.Rises) : (sentReleased s die k h).seqr die =
    { s.seqr die with sent := (s.seqr die).sent.filter fun y => y.pkt.rid != h.pkt.rid } :=
  State.seqr_setSeqr_same (s := onReply s (srcSeq die) k.echo h.pkt.q) (seqrs_onReply s _ _ _ ▸ hs) die _

section
variable (hd : die < 4)
include hd

theorem exec_collectiveData_takes (h6 : k.opc = 6) : exec (.collectiveData die k) s = .next (takeColl s die k) := by
  rw [exec_collectiveData, execCollectiveData, if_neg (by omega)]

theorem exec_answer_unheld (h3 : k.opc = 3) (hh : seqHeld s die k = none) : exec (.answer die k) s = .next s := by
  rw [exec_answer, execAnswer, if_neg (by omega), hh]

theorem exec_answer_data (h3 : k.opc = 3) (hh : seqHeld s die k = some (h, o)) (h8 : h.pkt.opc ≠ 8) :
    exec (.answer die k) s = .next (checkNet (sentReleased s die k h) die o.id) := by
  rw [exec_answer, execAnswer, if_neg (by omega), hh]
  dsimp only
  rw [if_neg h8, sentReleased_eq]

theorem exec_answer_arm (h3 : k.opc = 3) (hh : seqHeld s die k = some (h, o)) (h8 : h.pkt.opc = 8) :
    exec (.answer die k) s = .next (checkNet (sendOwn (sentReleased s die k h) die o) die o.id) := by
  rw [exec_answer, execAnswer, if_neg (by omega), hh]
  dsimp only
  rw [if_pos h8, sentReleased_eq]

theorem exec_nack_unheld (h7 : k.opc = 7) (hh : seqHeld s die k = none) : exec (.nack die k) s = .next s := by
  rw [exec_nack, execNack, if_neg (by omega), hh]

theorem exec_nack_mismatch (h7 : k.opc = 7) (hh : seqHeld s die k = some (h, o)) (hr : k.reason = 1) :
    exec (.nack die k) s = .next (finishOp (onReply s (srcSeq die) k.echo h.pkt.q) die o 3 0 []) := by
  rw [exec_nack, execNack, if_neg (by omega), hh]
  dsimp only
  rw [if_pos hr]

theorem exec_nack_retries (h7 : k.opc = 7) (hh : seqHeld s die k = some (h, o)) (hr : k.reason ≠ 1) :
    exec (.nack die k) s = .next ((onReply s (srcSeq die) k.echo h.pkt.q).setSeqr die { s.seqr die with sent := (s.seqr die).sent.map fun y =>
      if y.pkt.rid = h.pkt.rid then { h with tries := h.tries + 1, due := s.tsc.toNat + 1000 * min (2 ^ h.tries) 256 } else y }) := by
  rw [exec_nack, execNack, if_neg (by omega), hh]
  dsimp only
  rw [if_neg hr, seqr_onReply, retryWait_succ, onReply_tsc]

end

/-- The acknowledgement of an arm packet lets the root's contribution follow; its packets are held, so that nothing completes. -/
theorem answer_sendsOwn (hs : s.seqrs.Rises) (hf : (s.seqr die).ops.find? (·.id == o.id) = some o) {l : List Nat}
    (hread : vaRead s o.part o.sendVa o.sendLen die = (y, .ok l)) (hne : l ≠ [] ∨ blockOp o = 6) : ∃ ps : List Pkt,
      SendsHeld (setOp y die { o with armed := true }) (checkNet (sendOwn s die o) die o.id) die o ps ∧ ps.length = o.ownPkts ∧
      ∀ j p, ps[j]? = some p → IsSending (ownPkt y die o l j) p := by
  obtain ⟨ps, hps, hall⟩ := sendOwn_sends hs hread
  have hlen : ps.length = o.ownPkts := by rw [← hall.length_eq, List.length_range]
  have hpos : 0 < o.ownPkts := by
    rw [COp.ownPkts, op_eq]
    split_ifs with h6
    · exact Nat.one_pos
    · have := List.length_pos_of_ne_nil (hne.resolve_right h6)
      have := vaRead_length hread
      omega
  have hy : y.seqr die = s.seqr die := by
    have := (Accesses.vaRead s o.part o.sendVa o.sendLen die).seqr die
    rwa [hread] at this
  have hyr : y.seqrs.Rises := by
    have := (Accesses.vaRead s o.part o.sendVa o.sendLen die).seqrs
    rw [hread] at this
    exact this ▸ hs
  have hset : (setOp y die { o with armed := true }).seqr die = { s.seqr die with ops := (s.seqr die).ops.map fun p => if p.id = o.id then { o with armed := true } else p } := by
    rw [← hy]
    exact State.seqr_setSeqr_same hyr die _
  have hfind : ((sendOwn s die o).seqr die).ops.find? (·.id == ({ o with armed := true } : COp).id) = some { o with armed := true } := by
    rw [hps.seqr, hset]
    exact find_replaced ⟨o, List.mem_of_find?_eq_some hf, rfl⟩
  have hheld : ¬ NetDone (sendOwn s die o) die { o with armed := true } := by
    rintro ⟨-, -, hno, -⟩
    obtain ⟨p, qs, rfl⟩ := List.exists_cons_of_length_pos (hlen ▸ hpos)
    refine hno (sentOf (setOp y die { o with armed := true }) o p) ?_ rfl
    rw [hps.seqr]
    exact List.mem_append_right _ (List.mem_map_of_mem List.mem_cons_self)
  refine ⟨ps, ?_, hlen, fun j p hp => ?_⟩
  · rw [show o.id = ({ o with armed := true } : COp).id from rfl, (checkNet_goesOn hfind).2 hheld]
    exact hps
  · have := List.forall₂_iff_get.mp hall
    obtain ⟨hj, rfl⟩ := List.getElem?_eq_some_iff.mp hp
    have := this.2 j (by rw [List.length_range]; omega) hj
    simpa using this

/-! Retries and timeouts -/

theorem exec_collectiveRetry_due {i : Nat} (hx : (s.seqr die).sent[i]? = some h) (hdue : h.due ≠ 0) (ht : h.due ≤ s.tsc.toNat) :
    exec (.collectiveRetry die h.op i) s =
      .next ((s.setSeqr die { s.seqr die with sent := (s.seqr die).sent.set i { h with due := 0 } }).post (.packetInject die 6 h.pkt)) := by
  have hr : retryDue s h = true := by rw [retryDue, Bool.and_eq_true, bne_iff_ne, decide_eq_true_eq]; exact ⟨hdue, ht⟩
  rw [exec_collectiveRetry, execCollectiveRetry]
  dsimp only
  rw [hx]
  dsimp only
  rw [if_neg (by rw [hr]; simp)]

theorem parkLate_of {p : Parked} (hr : p.ready = false) (ht : p.at_ + (s.reg 4 0x1009 p.pkt.part).toNat < s.tsc.toNat) : parkLate s p = true := by
  rw [parkLate, hr, Bool.not_false, Bool.true_and, decide_eq_true_eq]
  exact ht

theorem exec_parkTimeout_seqr {i : Nat} {p : Parked} (hd : die < 4) (hp : (s.seqr die).park[i]? = some p) (hl : parkLate s p = true) :
    exec (.parkTimeout die 27 i) s = .next (seqAnswer (s.setSeqr die { s.seqr die with park := (s.seqr die).park.eraseIdx i }) die p.pkt 7 0) := by
  rw [exec_parkTimeout, execParkTimeout, if_neg (by omega), if_pos rfl]
  dsimp only
  rw [hp]
  dsimp only
  rw [if_neg (by rw [hl]; exact Bool.false_ne_true)]

theorem exec_parkTimeout_core {i core : Nat} {p : Parked} (hd : die < 4) (hc : core < 12) (hp : (s.eft (die * 12 + core)).park[i]? = some p)
    (hl : parkLate s p = true) (harm : ∀ a ∈ (s.eft (die * 12 + core)).waiting, a.opc = 8 → ¬ (a.flow = p.pkt.flow ∧ a.part = p.pkt.part)) :
    exec (.parkTimeout die core i) s = .next (coreAnswers (s.setEft (die * 12 + core)
      { s.eft (die * 12 + core) with park := (s.eft (die * 12 + core)).park.eraseIdx i }) (die * 12 + core) p.pkt 7) := by
  have hno : ((s.eft (die * 12 + core)).waiting.any fun a => a.opc == 8 && sameFlow a p.pkt) = false := by
    rw [List.any_eq_false]
    intro a ha
    rw [Bool.and_eq_true, beq_iff_eq, sameFlow_iff]
    exact fun h => harm a ha h.1 h.2
  rw [exec_parkTimeout, execParkTimeout, if_neg (by omega), if_neg (by omega), if_pos hc]
  dsimp only
  rw [hp]
  dsimp only
  rw [hl, hno]
  rfl

section
variable (hf : (s.seqr die).ops.find? (·.id == o.id) = some o)
  (hlate : o.started + (if o.dw 6 = 0 then (s.reg 4 0x1008 o.part).toNat else o.dw 6) ≤ s.tsc.toNat)
include hf hlate

omit hf in
theorem opLate_of : opLate s o = true := decide_eq_true hlate

theorem exec_collectiveTimeout_core (h3 : o.alg = 3) : exec (.collectiveTimeout die o.id) s = .next (finishOp s die o 2 0 (missingOf s die o)) := by
  rw [exec_collectiveTimeout, execCollectiveTimeout, hf]
  dsimp only
  rw [opLate_of hlate, if_neg (by decide), if_pos h3]

theorem exec_collectiveTimeout_ready (h3 : o.alg ≠ 3) (hr : BlockReady s die o) : exec (.collectiveTimeout die o.id) s = .next (runOp s die o) := by
  rw [exec_collectiveTimeout, execCollectiveTimeout, hf]
  dsimp only
  rw [opLate_of hlate, if_neg (by decide), if_neg h3, if_pos ((ringReady_iff ..).mpr hr)]

theorem exec_collectiveTimeout_lost (h3 : o.alg ≠ 3) (hr : ¬ BlockReady s die o) : exec (.collectiveTimeout die o.id) s =
    .next (finishOp (if o.reducing then leftOver s die o else s) die o 2 (combined o) (missingOf s die o)) := by
  rw [exec_collectiveTimeout, execCollectiveTimeout, hf]
  dsimp only
  rw [opLate_of hlate, if_neg (by decide), if_neg h3, if_neg (mt (ringReady_iff ..).mp hr)]

end

/-- The event of a ring or tree block runs it. -/
theorem exec_opEvent (hf : (s.seqr die).ops.find? (·.id == o.id) = some o) (h3 : o.alg ≠ 3) (h8 : blockOp o ≤ 8) (hr : BlockReady s die o) :
    exec (opEvent die o) s = .next (runOp s die o) := by
  have hon (op : Nat) (hop : o.op = op) (again : Instr) : onOp op die o.id o.part s again = .next (runOp s die o) := by
    rw [onOp, hf]
    dsimp only
    rw [if_neg (by simp [hop, h3]), if_pos ((ringReady_iff ..).mpr hr)]
  rw [← op_eq] at h8
  rw [opEvent]
  split <;> rename_i h
  · exact hon 0 h _
  · exact hon 1 h _
  · exact hon 2 h _
  · exact hon 3 h _
  · exact hon 4 h _
  · exact hon 5 h _
  · exact hon 6 h _
  · exact hon 7 h _
  · simp only [imp_false] at *
    exact hon 8 (by omega) _

end Sys2Proof.Machine
end

section
/-! Collective packets, answers and timeouts (R64, R65, R69 to R72, R76, R241, R409, R411, R415). -/

namespace Sys2Proof.Machine

variable {s t u v x y : State} {die part va n c : Nat} {k : Pkt} {o : COp}

theorem srcSeq_die (die : Nat) : srcSeq die / 2 ^ 14 = die := by simp only [srcSeq, srcNo]; omega

/-- Locating an access of an exchange window changes no register. -/
theorem locateFar_window {from_ : Nat} {r : Except Bad Nat} (hex : exchangeOf s part va = some c)
    (h : locateFar s part va n true false false from_ = (u, r)) : u.regs = s.regs := by
  have hcross (t : State) (d f : Nat) : (t.cross d f).regs = t.regs ∧ (t.cross d f).capSpad = t.capSpad := by
    rw [State.cross]
    split_ifs <;> exact ⟨rfl, rfl⟩
  have hun : (vaClass s.capSpad va).translated = false := by
    cases hc : (vaClass s.capSpad va).translated with
    | false => rfl
    | true => rw [exchangeOf_translated hc] at hex; cases hex
  unfold locateFar at h
  extract_lets v at h
  have hv : v.regs = s.regs ∧ v.capSpad = s.capSpad := by
    show (if _ then _ else _ : State).regs = s.regs ∧ (if _ then _ else _ : State).capSpad = s.capSpad
    split <;> exact ⟨rfl, rfl⟩
  rw [← hv.2] at hun
  split at h
  · rw [locate_untranslated hun h, hv.1]
  · rw [locate_untranslated (by rw [(hcross ..).2]; exact hun) h, (hcross ..).1, hv.1]

theorem injected_outside (h : exchangeOf s part va = none) : injected s part va = 0 := by rw [injected, h]; rfl

theorem injected_window {from_ : Nat} {r : Except Bad Nat} (hex : exchangeOf s part va = some c)
    (h : locateFar s part va n true false false from_ = (u, r)) : injected s part va = (finjAct u c).2 := by
  have hk := (Keeps.refl s).locateFar part va n true false false from_
  rw [h] at hk
  rw [injected, hex]
  refine (finjAct_act_congr ?_ ?_).symm
  · rw [State.rn, State.reg, locateFar_window hex h, State.rn, State.reg]
  · rw [State.cl, hk.clusters, State.cl]

/-- The tag that a packet's line takes: its own where it is whole (R69, R223). -/
theorem dataTag_line (s : State) (o : COp) (k : Pkt) : (if (leBytes k.len k.payload).length = 256 then dataTag s o k else 0) =
    if k.len ≠ 256 then 0 else if blockOp o ∈ [0, 1, 4] then o.redTag else BitVec.ofNat 32 (k.ltag.getD (Config.farTag s.tick)) := by
  rw [leBytes_length, ite_not, dataTag]
  exact if_congr Iff.rfl (if_congr (reducing_iff o) rfl rfl) rfl

/-- A held packet's data goes on: the block completes where it is done, and else stays. -/
theorem answer_goesOn (hs : s.seqrs.Rises) {h : Sent} (hf : (s.seqr die).ops.find? (·.id == h.op) = some o) :
    (NetDone (sentReleased s die k h) die o → checkNet (sentReleased s die k h) die o.id = finishOp (sentReleased s die k h) die o 1 o.n []) ∧
    (¬ NetDone (sentReleased s die k h) die o → checkNet (sentReleased s die k h) die o.id = sentReleased s die k h) := by
  refine checkNet_goesOn ?_
  rw [sentReleased_seqr hs, find_id hf]
  exact hf

/-- What a packet of a member's contribution says (R69, R409). -/
theorem ownPkt_says {l : List Nat} {j : Nat} {p : Pkt} (hlen : l.length = o.sendLen) (hp : IsSending (ownPkt y die o l j) p) :
    p.opc = 6 ∧ p.cls = 3 ∧ p.flow = o.flowKey ∧ p.tag = o.sig.toNat ∧ p.va % 2 ^ 32 = 256 * j % 2 ^ 32 ∧ p.len = min 256 (l.length - 256 * j) ∧
      p.payload = leNat ((l.drop (256 * j)).take 256) ∧
      (p.len = 256 → p.ltag = some (srcTag y o.part ((o.sendVa + 256 * j) % 2 ^ 64)).toNat) := by
  obtain ⟨rid, rfl⟩ := hp
  have hplen : ((l.drop (256 * j)).take 256).length = min 256 (l.length - 256 * j) := by rw [List.length_take, List.length_drop]
  have hofs : (ownPkt y die o l j).va % 2 ^ 32 = 256 * j % 2 ^ 32 := by rw [ownPkt, corePkt_ofs]
  refine ⟨rfl, rfl, rfl, rfl, hofs, hplen, rfl, fun hfull => ?_⟩
  have hfull : min 256 (l.length - 256 * j) = 256 := hplen ▸ hfull
  have htag : cTag (o.sendVa % 256 :: l ++ lineTags y o) o.sendLen (256 * j) = srcTag y o.part ((o.sendVa + 256 * j) % 2 ^ 64) := by
    rw [cTag_contribution y o hlen]
    by_cases hal : (o.sendVa + 256 * j) % 256 = 0
    · rw [if_pos ⟨hal, by omega⟩]
    · rw [if_neg fun h => hal h.1, srcTag_misaligned (by omega)]
  exact congrArg (fun t : W32 => some t.toNat) htag

/-- What a block that completes leaves (R64, R65). -/
theorem finishOp_completes (hs : s.seqrs.Rises) (code comb : Nat) (miss : List Nat) : ∃ u y, u = { s with seqrs := u.seqrs, events := u.events } ∧
    u.seqr die = { s.seqr die with
      ops := (s.seqr die).ops.filter (·.id != o.id), sent := (s.seqr die).sent.filter (·.op != o.id),
      recent := (s.seqr die).recent ++ [(o.part * 2 ^ 16 + o.flowKey, o.sig.toNat, s.tsc.toNat)] } ∧ u.events.Sublist s.events ∧
    (∀ i ∈ s.events, i ∉ u.events → ∃ d l p, i = .packetInject d l p ∧ p.src = srcSeq die ∧ ∃ x ∈ (s.seqr die).sent, x.op = o.id ∧ x.pkt.rid = p.rid) ∧
    (∀ x ∈ (s.seqr die).sent, x.op = o.id → ∀ d l p, p.src = srcSeq die → p.opc ∈ [6, 8] → p.rid = x.pkt.rid → Instr.packetInject d l p ∉ u.events) ∧
    (o.dw 7 = 0 → y = u) ∧
    (∀ (b : List Nat) (x : State), o.dw 7 ≠ 0 → o.dw 7 % 32 = 0 → exchangeOf u o.part (o.dw 7) = none → b.length = 32 → (∀ v ∈ b, v < 256) →
      leNat (b.take 8) = (code + (if 12 < miss.length then 2 ^ 8 else 0) + comb % 2 ^ 32 * 2 ^ 32) % 2 ^ 64 →
      (∀ j < 12, leNat ((b.drop (8 + 2 * j)).take 2) = miss.getD j 0xFFFF % 2 ^ 16) →
      (vaWrite u o.part (o.dw 7) b false (srcSeq die) = (x, none) → y = { x with tags := y.tags }) ∧
      ∀ e, vaWrite u o.part (o.dw 7) b false (srcSeq die) = (x, some e) → y = emitFault x o.part (srcSeq die) e) ∧
    (o.dw 5 = 0 → finishOp s die o code comb miss = y) ∧
    ∀ x, o.dw 5 ≠ 0 → (relFlag y o.part (o.dw 5) (srcSeq die) false = (x, none) → finishOp s die o code comb miss = x) ∧
      ∀ e, relFlag y o.part (o.dw 5) (srcSeq die) false = (x, some e) → finishOp s die o code comb miss = emitFault x o.part (srcSeq die) e := by
  have hevents := dropOp_events s die o
  refine ⟨dropOp s die o, statusWritten (dropOp s die o) die o code comb miss, dropOp_frame .., dropOp_seqr hs .., hevents ▸ List.filter_sublist,
    fun i hi hgone => ?_, fun x hx hop d l p hsrc hopc hrid hin => ?_, fun h7 => by rw [statusWritten, if_pos h7],
    fun b x h7 hal hex hlen hb hhead hranks => ?_, fun h5 => by rw [finishOp, collDone_eq, if_pos h5],
    fun x h5 => ⟨fun hf => by rw [finishOp, collDone_eq, if_neg h5, hf, reported_done],
      fun e hf => by rw [finishOp, collDone_eq, if_neg h5, hf, reported_fault]⟩⟩
  · have hfalse : staysQueued die (heldRids s die o) i = false := by
      rw [hevents, List.mem_filter, not_and, Bool.not_eq_true] at hgone
      exact hgone hi
    obtain ⟨d, l, p, rfl, hsrc, -, hrid⟩ := staysQueued_false.mp hfalse
    exact ⟨d, l, p, rfl, hsrc, (mem_heldRids _).mp hrid⟩
  · rw [hevents, List.mem_filter] at hin
    have hfalse : staysQueued die (heldRids s die o) (.packetInject d l p) = false :=
      (staysQueued_packet ..).mpr ⟨hsrc, by simpa using hopc, (mem_heldRids _).mpr ⟨x, hx, hop, hrid.symm⟩⟩
    rw [hfalse] at hin
    exact Bool.false_ne_true hin.2
  · rw [eq_statusRecord hlen hb hhead hranks]
    exact statusWritten_record h7 hal hex

/-- Settles O52: each event of a sequencer by its own equation; lines and records by what a sequencer's write leaves. -/
theorem collectivePacketsAnswersAndTimeouts : Obligations.CollectivePacketsAnswersAndTimeouts := by
  unfold Obligations.CollectivePacketsAnswersAndTimeouts
  intro s die k hd hs
  refine ⟨fun h6 => ⟨fun l m o hq hfor hl hm => ⟨fun hsum halg => ?_, fun hnot hlen hline => ?_⟩, fun l m o hq hkey hl hsig => ?_, fun hno => ?_⟩,
    fun hopc => ⟨fun hno => ?_, fun l m h o hq hheld hl => ?_⟩, fun i h hi hdue ht => exec_collectiveRetry_due hi hdue ht,
    fun i p hready ht => ⟨fun hp => exec_parkTimeout_seqr hd hp (parkLate_of hready ht), fun core u hc hu hp harm => ?_⟩,
    fun o hf => ⟨fun hlate => ⟨fun h3 hr h8 => ?_, fun h3 hr => ?_, fun h3 => ?_⟩, fun code comb miss => ?_⟩⟩
  -- data packets
  · rw [exec_collectiveData_takes hd h6, takeColl_takes hq hfor fun p hp => (hl p hp).1, takeData_stages hsum halg]
    rfl
  · have hexec := (exec_collectiveData_takes (s := s) hd h6).trans (congrArg _ (takeColl_takes hq hfor fun p hp => (hl p hp).1))
    have hmem : o ∈ (s.seqr die).ops := hq ▸ List.mem_append_right l List.mem_cons_self
    have hblen := leBytes_length k.len k.payload
    have hput : seqWrite s die o.part ((o.recvVa + k.va % 2 ^ 32) % 2 ^ 64) (leBytes k.len k.payload) (fun _ => dataTag s o k) = _ :=
      seqWrite_within (hblen.symm ▸ hlen) (hblen.symm ▸ hline)
    have hends {x : State} {e : Bad} (h : vaPut s o.part ((o.recvVa + k.va % 2 ^ 32) % 2 ^ 64) (leBytes k.len k.payload) (srcSeq die) (dataTag s o k) = (x, some e)) :=
      hexec.trans (congrArg _ (takeData_faults hnot (hput.trans h)))
    have hdone {y : State} {plain : Prop} (hplain : injected s o.part ((o.recvVa + k.va % 2 ^ 32) % 2 ^ 64) = 0 ↔ plain)
        (h : vaPut s o.part ((o.recvVa + k.va % 2 ^ 32) % 2 ^ 64) (leBytes k.len k.payload) (srcSeq die) (dataTag s o k) = (y, none)) :
        ∃ t z, exec (.collectiveData die k) s = .next t ∧ TakenLine die k o y plain t z := by
      have hy := Accesses.vaPut s o.part ((o.recvVa + k.va % 2 ^ 32) % 2 ^ 64) (leBytes k.len k.payload) (srcSeq die) (dataTag s o k)
      rw [h] at hy
      obtain ⟨z, hz⟩ := takeData_done hnot hs hmem hlen (within_line hline) hplain (hput.trans h) hy
      exact ⟨_, z, hexec, hz⟩
    refine ⟨fun hex => ⟨fun x e hw => hends ((seqPut_inside hex).1 e hw), fun x hw => ⟨fun b hb => ?_, fun a ha => ?_⟩⟩,
      fun c hex => ⟨fun u e hloc => ?_, fun u a hloc => ?_⟩⟩
    · exact hdone (by rw [injected_outside hex]; simp) (((seqPut_inside hex).2 hw).1 b hb)
    · have := ((seqPut_inside (tag := dataTag s o k) hex).2 hw).2 a ha
      rw [dataTag_line] at this
      exact hdone (by rw [injected_outside hex]; simp) this
    · rw [← hblen, ← srcSeq_die die] at hloc
      exact hends ((seqPut_window hex).1 e (by rw [srcSeq_die] at hloc ⊢; exact hloc))
    · have hinj := injected_window hex hloc
      refine ⟨(finjAct u c).1, (finjAct u c).2, finjAct_injects_any u (exchangeOf_lt hex), fun hact => ?_, fun hact => ?_⟩
      · refine hdone (iff_false_intro (by rw [hinj]; omega)) (((seqPut_window hex).2 a ?_).1 hact)
        rw [hblen, srcSeq_die]
        exact hloc
      · have := ((seqPut_window hex (b := leBytes k.len k.payload) (tag := dataTag s o k) (die := die)).2 a (by rw [hblen, srcSeq_die]; exact hloc)).2 hact
        rw [dataTag_line, hblen] at this
        exact hdone (by rw [hinj]) this
  · rw [exec_collectiveData_takes hd h6, takeColl_mismatches hq hkey hl hsig]
  · refine ⟨fun hlate => ?_, fun hlate => ⟨fun hroom => ?_, fun hfull => ?_⟩⟩ <;> rw [exec_collectiveData_takes hd h6]
    · rw [takeColl_late hno hlate]
    · rw [takeColl_early hno hlate, seqPark_room hroom]
    · rw [takeColl_early hno hlate, seqPark_full hfull]
  -- answers
  · have hh := seqHeld_none hno
    rcases (by simpa using hopc : k.opc = 3 ∨ k.opc = 7) with h3 | h7
    · rw [if_pos h3, exec_answer_unheld hd h3 hh]
    · rw [if_neg (by omega), exec_nack_unheld hd h7 hh]
  · have hh := seqHeld_oldest hq hheld hl
    refine ⟨fun h3 h8 => ?_, fun h3 h8 => ⟨fun y b hread => ?_, fun y l hread hne => ?_⟩, fun h7 hr => ?_, fun h7 hr => ?_⟩
    · rw [if_pos h3]
      exact ⟨_, exec_answer_data hd h3 hh h8, answer_goesOn hs hheld.1⟩
    · have hy : y.seqrs.Rises := by
        have := (Accesses.vaRead (sentReleased s die k h) o.part o.sendVa o.sendLen die).seqrs
        rw [show vaRead (sentReleased s die k h) o.part o.sendVa o.sendLen die = _ from hread] at this
        exact this ▸ sentReleased_rises hs
      rw [if_pos h3, exec_answer_arm hd h3 hh h8, sendOwn_fault (s := sentReleased s die k h) hread, checkNet_none (faultOp_gone hy ..)]
    · obtain ⟨ps, hps, hlen, hsays⟩ := answer_sendsOwn (sentReleased_rises hs) (by rw [sentReleased_seqr hs, find_id hheld.1]; exact hheld.1) hread hne
      rw [if_pos h3]
      refine ⟨_, ps, exec_answer_arm hd h3 hh h8, hps.events, hps.mem, ?_, fun j p hp => ownPkt_says (vaRead_length hread) (hsays j p hp)⟩
      rw [hlen, COp.ownPkts, op_eq, vaRead_length hread]
    · rw [if_neg (by omega), exec_nack_mismatch hd h7 hh hr]
    · rw [if_neg (by omega), exec_nack_retries hd h7 hh hr]
  -- parking
  · subst hu
    exact exec_parkTimeout_core hd hc hp (parkLate_of hready ht) harm
  -- timeouts
  · rw [exec_collectiveTimeout_ready hf hlate h3 hr, exec_opEvent hf h3 h8 hr]
  · obtain ⟨hsorted, hmem⟩ := missingOf_lacks (s := s) (die := die) h3
    refine ⟨_, _, hsorted, combined_counts o, hmem, ?_⟩
    rw [exec_collectiveTimeout_lost hf hlate h3 hr]
    simp only [reducing_iff]
  · obtain ⟨hsorted, hmem⟩ := missingOf_others (s := s) (die := die) h3
    exact ⟨_, hsorted, hmem, exec_collectiveTimeout_core hf hlate h3⟩
  -- completion
  · exact finishOp_completes hs code comb miss

end Sys2Proof.Machine
end

section
/-! Bytes that a sequencer writes line by line, cut at a line's end (R69, R125). -/

namespace Sys2Proof.Machine

variable {s x : State} {die part va m n f g : Nat} {a b c : List Nat} {tag : Nat → W32}

/-! Cuts -/

/-- Fuel for the pieces of n bytes at a VA. -/
def Enough (f va n : Nat) : Prop := n = 0 ∨ n + va % 64 ≤ 64 * f

/-- The length of the first piece of n bytes at a VA. -/
def firstPiece (va n : Nat) : Nat := min n (vaLine va - va % vaLine va)

theorem cuts_zero (line : Nat → Nat) (f va : Nat) : cuts line f va 0 = [] := by
  cases f with
  | zero => rfl
  | succ f => rw [cuts, if_pos rfl]

theorem firstPiece_bounds (hn : 0 < n) : 0 < firstPiece va n ∧ firstPiece va n ≤ n := by
  rw [firstPiece]
  rcases vaLine_cases va with hl | hl <;> rw [hl] <;> omega

theorem cuts_first (hn : 0 < n) (hlim : va + n ≤ 2 ^ 64) (f : Nat) :
    cuts vaLine (f + 1) va n = (va, firstPiece va n) :: cuts vaLine f (va + firstPiece va n) (n - firstPiece va n) := by
  have hk := firstPiece_bounds (va := va) hn
  rw [cuts, if_neg (by omega)]
  dsimp only
  rw [← firstPiece]
  rcases Nat.eq_zero_or_pos (n - firstPiece va n) with h0 | h0
  · rw [h0, cuts_zero, cuts_zero]
  · rw [Nat.mod_eq_of_lt (by omega)]

theorem enough_rest (h : Enough (f + 1) va n) : Enough f (va + firstPiece va n) (n - firstPiece va n) := by
  rw [Enough, firstPiece] at *
  rcases vaLine_cases va with hl | hl <;> rw [hl] <;> omega

/-- Fuel that is enough is of no account. -/
theorem cuts_fuel (hf : Enough f va n) (hg : Enough g va n) (hlim : va + n ≤ 2 ^ 64) : cuts vaLine f va n = cuts vaLine g va n := by
  induction f generalizing g va n with
  | zero =>
    rw [Enough] at hf
    rw [show n = 0 by omega, cuts_zero, cuts_zero]
  | succ f ih =>
    rcases Nat.eq_zero_or_pos n with rfl | hn
    · rw [cuts_zero, cuts_zero]
    · obtain ⟨g, rfl⟩ : ∃ r, g = r + 1 := ⟨g - 1, by rw [Enough] at hg; omega⟩
      have hk := firstPiece_bounds (va := va) hn
      rw [cuts_first hn hlim, cuts_first hn hlim, ih (enough_rest hf) (enough_rest hg) (by omega)]

/-- Each line before m bytes at a VA ends with them. -/
def LineEnd (va m : Nat) : Prop := (va + m) % 256 = 0 ∨ ((va + m) % 64 = 0 ∧ ∀ z < m, vaLine (va + z) = 64)

theorem LineEnd.first (h : LineEnd va m) (hm : 0 < m) (n : Nat) : firstPiece va (m + n) = firstPiece va m := by
  rw [firstPiece, firstPiece]
  rcases h with h | ⟨h, hline⟩
  · rcases vaLine_cases va with hl | hl <;> rw [hl] <;> omega
  · rw [show vaLine va = 64 from hline 0 hm]
    omega

theorem LineEnd.rest (h : LineEnd va m) (k : Nat) (hk : k ≤ m) : LineEnd (va + k) (m - k) := by
  rw [LineEnd, show va + k + (m - k) = va + m by omega]
  exact h.imp_right fun h => ⟨h.1, fun z hz => by rw [Nat.add_assoc]; exact h.2 _ (by omega)⟩

/-- A range is cut at a line's end as its two parts are. -/
theorem cuts_append (hend : LineEnd va m) (hf : Enough f va (m + n)) (hg : Enough g (va + m) n) (hlim : va + (m + n) ≤ 2 ^ 64) :
    cuts vaLine f va (m + n) = cuts vaLine f va m ++ cuts vaLine g (va + m) n := by
  induction f generalizing va m with
  | zero =>
    rw [Enough] at hf
    rw [show m = 0 by omega, show n = 0 by omega, cuts_zero, cuts_zero]
    rfl
  | succ f ih =>
    rcases Nat.eq_zero_or_pos m with rfl | hm
    · rw [Nat.zero_add] at hf hlim ⊢
      rw [cuts_zero, List.nil_append]
      exact cuts_fuel hf hg hlim
    · have hk := firstPiece_bounds (va := va) hm
      have hfirst := hend.first hm n
      have hrest := enough_rest hf
      rw [cuts_first (by omega) hlim, cuts_first hm (by omega), hfirst, List.cons_append]
      rw [hfirst, show m + n - firstPiece va m = m - firstPiece va m + n by omega] at hrest
      rw [show m + n - firstPiece va m = m - firstPiece va m + n by omega,
        ih (hend.rest _ hk.2) hrest (by rw [show va + firstPiece va m + (m - firstPiece va m) = va + m by omega]; exact hg) (by omega),
        show va + firstPiece va m + (m - firstPiece va m) = va + m by omega]

theorem pieces_append (hend : LineEnd va m) (hlim : va + (m + n) ≤ 2 ^ 64) : pieces va (m + n) = pieces va m ++ pieces (va + m) n := by
  have henough (v k : Nat) : Enough (k / 64 + 2) v k := by rw [Enough]; omega
  rw [pieces, cuts_append hend (henough ..) (henough ..) hlim, pieces, pieces,
    cuts_fuel (f := (m + n) / 64 + 2) (g := m / 64 + 2) (by rw [Enough]; omega) (henough ..) (by omega)]

/-! Writes -/

/-- One piece of a write, unless an earlier one has faulted. -/
def pieceWritten (die part va : Nat) (b : List Nat) (tag : Nat → W32) (r : State × Option Bad) (p : Nat × Nat) : State × Option Bad :=
  match r.2 with
  | some e => (r.1, some e)
  | none =>
    let o := (p.1 + 2 ^ 64 - va) % 2 ^ 64
    seqPut r.1 die part p.1 ((b.drop o).take p.2) (tag o)

theorem seqWrite_eq (s : State) (die part va : Nat) (b : List Nat) (tag : Nat → W32) :
    seqWrite s die part va b tag = (pieces va b.length).foldl (pieceWritten die part va b tag) (s, none) := rfl

/-- The offset of a piece. -/
def pieceOfs (va : Nat) (p : Nat × Nat) : Nat := (p.1 + 2 ^ 64 - va) % 2 ^ 64

theorem pieceWritten_congr {va' : Nat} {b' : List Nat} {tag' : Nat → W32} {p : Nat × Nat}
    (hb : (b.drop (pieceOfs va p)).take p.2 = (b'.drop (pieceOfs va' p)).take p.2) (ht : tag (pieceOfs va p) = tag' (pieceOfs va' p))
    (r : State × Option Bad) : pieceWritten die part va b tag r p = pieceWritten die part va' b' tag' r p := by
  rw [pieceOfs, pieceOfs] at hb ht
  rw [pieceWritten, pieceWritten]
  dsimp only
  rw [hb, ht]

theorem foldl_faulted (e : Bad) (l : List (Nat × Nat)) : l.foldl (pieceWritten die part va b tag) (s, some e) = (s, some e) := by
  induction l with
  | nil => rfl
  | cons p l ih => exact ih

theorem foldl_congr_mem {α β : Type} {f h : α → β → α} {l : List β} (hl : ∀ r, ∀ p ∈ l, f r p = h r p) (r : α) : l.foldl f r = l.foldl h r := by
  induction l generalizing r with
  | nil => rfl
  | cons p l ih =>
    rw [List.foldl_cons, List.foldl_cons, hl r p List.mem_cons_self]
    exact ih (fun r q hq => hl r q (List.mem_cons_of_mem p hq)) _

/-- Bytes written up to a line's end and then on. -/
theorem seqWrite_append (hend : LineEnd va a.length) (hlim : va + (a ++ c).length ≤ 2 ^ 64) :
    (∀ e, seqWrite s die part va a tag = (x, some e) → seqWrite s die part va (a ++ c) tag = (x, some e)) ∧
    (seqWrite s die part va a tag = (x, none) →
      seqWrite s die part va (a ++ c) tag = seqWrite x die part (va + a.length) c fun i => tag (a.length + i)) := by
  rw [List.length_append] at hlim
  have hfirst : (pieces va a.length).foldl (pieceWritten die part va (a ++ c) tag) (s, none) = seqWrite s die part va a tag := by
    rw [seqWrite_eq]
    refine foldl_congr_mem (fun r p hp => ?_) _
    obtain ⟨hle, hin, hpos, -⟩ := (pieces_lineByLine (by omega)).each hp
    have ho : pieceOfs va p = p.1 - va := by rw [pieceOfs]; omega
    refine pieceWritten_congr ?_ rfl r
    rw [ho, List.drop_append_of_le_length (by omega), List.take_append_of_le_length (by rw [List.length_drop]; omega)]
  have hrest : (pieces (va + a.length) c.length).foldl (pieceWritten die part va (a ++ c) tag) (x, none) =
      seqWrite x die part (va + a.length) c fun i => tag (a.length + i) := by
    rw [seqWrite_eq]
    refine foldl_congr_mem (fun r p hp => ?_) _
    obtain ⟨hle, hin, hpos, -⟩ := (pieces_lineByLine (by omega)).each hp
    have ho : pieceOfs va p = a.length + (p.1 - (va + a.length)) := by rw [pieceOfs]; omega
    have ho' : pieceOfs (va + a.length) p = p.1 - (va + a.length) := by rw [pieceOfs]; omega
    refine pieceWritten_congr ?_ (by rw [ho, ho']) r
    rw [ho, ho', List.drop_append, List.drop_of_length_le (by omega), List.nil_append, Nat.add_sub_cancel_left]
  have hall : seqWrite s die part va (a ++ c) tag = (pieces (va + a.length) c.length).foldl (pieceWritten die part va (a ++ c) tag)
      (seqWrite s die part va a tag) := by
    rw [seqWrite_eq, List.length_append, pieces_append hend hlim, List.foldl_append, hfirst]
  refine ⟨fun e he => ?_, fun hx => ?_⟩
  · rw [hall, he, foldl_faulted]
  · rw [hall, hx, hrest]

end Sys2Proof.Machine
end

section
/-! The block that a descriptor's place holds (R61 to R66). -/

namespace Sys2Proof.Machine

variable {s w : State} {die raw : Nat} {l : Live} {ms : List Nat} {o : COp}

/-! A member's entry -/

theorem isOwnEntry_iff (w : State) (l : Live) (m : Nat) : (memberOf m == ownEntry w l) = true ↔ IsOwnEntry w l m := by
  have hlow : bits m 11 0 = m % 2 ^ 12 := by simp only [bits]; omega
  rw [beq_iff_eq, memberOf, ownEntry, IsOwnEntry, hlow]
  simp only [Prod.mk.injEq]
  rfl

/-- The rank of a context among members: the place of the first entry that is its own. -/
def rankOf (w : State) (l : Live) (ms : List Nat) : Nat := (rankIn ms (ownEntry w l)).getD ms.length

theorem rankOf_own (h : rankOf w l ms < ms.length) : ∃ m, ms[rankOf w l ms]? = some m ∧ IsOwnEntry w l m := by
  rw [rankOf] at *
  cases hr : rankIn ms (ownEntry w l) with
  | none =>
    rw [hr] at h
    exact absurd h (lt_irrefl _)
  | some i =>
    rw [rankIn, List.findIdx?_eq_some_iff_getElem] at hr
    obtain ⟨hi, hown, -⟩ := hr
    exact ⟨ms[i], List.getElem?_eq_getElem hi, (isOwnEntry_iff ..).mp hown⟩

theorem rankOf_none : ms.length ≤ rankOf w l ms ↔ ∀ m ∈ ms, ¬ IsOwnEntry w l m := by
  constructor
  · intro h m hm hown
    rw [rankOf] at h
    cases hr : rankIn ms (ownEntry w l) with
    | none =>
      rw [rankIn, List.findIdx?_eq_none_iff] at hr
      exact Bool.false_ne_true ((hr m hm).symm.trans ((isOwnEntry_iff ..).mpr hown))
    | some i =>
      rw [hr] at h
      rw [rankIn, List.findIdx?_eq_some_iff_getElem] at hr
      exact absurd hr.1 (not_lt.mpr h)
  · intro h
    refine not_lt.mp fun hlt => ?_
    obtain ⟨m, hm, hown⟩ := rankOf_own hlt
    exact h m (List.mem_of_getElem? hm) hown

/-! The block -/

/-- The key of a context's numbers of a group (R61). -/
def numKey (l : Live) (raw : Nat) : Nat := (l.part * 2 ^ 21 + l.ctxno) * 256 + raw / 2 ^ 32 % 2 ^ 16

/-- A block as it is read, before its algorithm is chosen. -/
def readBlock (w : State) (die : Nat) (l : Live) (raw : Nat) (ms : List Nat) : COp :=
  { id := (w.seqr die).nextId, part := l.part, cr := l.cr, die := die, raw := raw, alg := 0, n := ms.length, rank := rankOf w l ms,
    members := ms, seqno := nextNum w (numKey l raw), started := w.tsc.toNat, covered := [], armed := false, data := [] }

theorem nextNum_greatest (w : State) (key : Nat) : (∀ f < 4, (w.seqr f).nums.get 0 key ≤ nextNum w key) ∧
    ∃ f < 4, (w.seqr f).nums.get 0 key = nextNum w key := by
  have hnum : nextNum w key = max (max (max (max 0 ((w.seqr 0).nums.get 0 key)) ((w.seqr 1).nums.get 0 key)) ((w.seqr 2).nums.get 0 key))
      ((w.seqr 3).nums.get 0 key) := rfl
  rw [hnum]
  generalize h : (fun f => (w.seqr f).nums.get 0 key) = g
  have hg (f : Nat) : (w.seqr f).nums.get 0 key = g f := congrFun h f
  simp only [hg]
  refine ⟨fun f hf => ?_, ?_⟩
  · interval_cases f <;> omega
  · have : max (max (max (max 0 (g 0)) (g 1)) (g 2)) (g 3) = g 0 ∨ max (max (max (max 0 (g 0)) (g 1)) (g 2)) (g 3) = g 1 ∨
        max (max (max (max 0 (g 0)) (g 1)) (g 2)) (g 3) = g 2 ∨ max (max (max (max 0 (g 0)) (g 1)) (g 2)) (g 3) = g 3 := by omega
    rcases this with h | h | h | h
    · exact ⟨0, by decide, h.symm⟩
    · exact ⟨1, by decide, h.symm⟩
    · exact ⟨2, by decide, h.symm⟩
    · exact ⟨3, by decide, h.symm⟩

/-! Ill-formed blocks -/

theorem mem_reducing (o : COp) : (o.reducing && (o.dtype == 2 || o.dtype == 3 || o.dtype == 7)) = true ↔ blockOp o ∈ [0, 1, 4] ∧ o.dtype ∈ [2, 3, 7] := by
  rw [Bool.and_eq_true, reducing_iff]
  simp only [Bool.or_eq_true, beq_iff_eq, List.mem_cons, List.not_mem_nil, or_false, or_assoc]

theorem dw_lt (o : COp) (k : Nat) : o.dw k < 2 ^ 64 := Nat.mod_lt _ (by decide)

theorem bits_top {v n : Nat} (hn : n < 64) (h : v < 2 ^ 64) : bits v 63 n = v / 2 ^ n := by
  rw [bits]
  refine Nat.mod_eq_of_lt ((Nat.div_lt_iff_lt_mul (Nat.two_pow_pos n)).mpr ?_)
  rwa [← pow_add, show 63 + 1 - n + n = 64 by omega]

/-- A block is ill-formed as R64 says. -/
theorem blockBad_iff (w : State) (die : Nat) (l : Live) (raw : Nat) (ms : List Nat) :
    blockBad (readBlock w die l raw ms) = true ↔ IllFormed w l raw ms := by
  have hdw0 : (readBlock w die l raw ms).dw 0 = raw % 2 ^ 64 := by rw [COp.dw, Nat.mul_zero, Nat.pow_zero, Nat.div_one]; rfl
  have hop : (readBlock w die l raw ms).op = raw % 2 ^ 8 := op_eq _
  have hredop : (readBlock w die l raw ms).redop = raw / 2 ^ 8 % 2 ^ 8 := by rw [COp.redop, hdw0, bits]; omega
  have hdtype : (readBlock w die l raw ms).dtype = raw / 2 ^ 16 % 2 ^ 8 := by rw [COp.dtype, hdw0, bits]; omega
  have halgo : (readBlock w die l raw ms).algo = raw / 2 ^ 24 % 2 ^ 8 := by rw [COp.algo, hdw0, bits]; omega
  have hgroup : (readBlock w die l raw ms).group = raw / 2 ^ 32 % 2 ^ 16 := by rw [COp.group, hdw0, bits]; omega
  have hmem : ((readBlock w die l raw ms).members.any fun e => !e.testBit 31) = true ↔ ∃ m ∈ ms, m / 2 ^ 31 % 2 = 0 := by
    rw [List.any_eq_true]
    refine exists_congr fun m => and_congr_right fun _ => ?_
    rw [Bool.not_eq_true', ← Bool.not_eq_true, testBit_iff]
    omega
  have hrank : (readBlock w die l raw ms).rank ≥ (readBlock w die l raw ms).n ↔ ∀ m ∈ ms, ¬ IsOwnEntry w l m := rankOf_none
  have hred := mem_reducing (readBlock w die l raw ms)
  have htop (k : Nat) : bits ((readBlock w die l raw ms).dw k) 63 48 = (readBlock w die l raw ms).dw k / 2 ^ 48 := bits_top (by decide) (dw_lt ..)
  have htop8 : bits ((readBlock w die l raw ms).dw 8) 63 16 = (readBlock w die l raw ms).dw 8 / 2 ^ 16 := bits_top (by decide) (dw_lt ..)
  have hmid : bits ((readBlock w die l raw ms).dw 4) 30 21 = (readBlock w die l raw ms).dw 4 / 2 ^ 21 % 2 ^ 10 := rfl
  have hempty : (readBlock w die l raw ms).members.isEmpty = true ↔ ms = [] := List.isEmpty_iff
  rw [hdtype] at hred
  rw [blockBad, IllFormed]
  simp only [Bool.or_eq_true, bne_iff_ne, decide_eq_true_eq, hred, hmem, hrank, htop, htop8, hmid, hempty, hop, hredop, hdtype, halgo, hgroup,
    Bool.and_eq_true, ge_iff_le, gt_iff_lt, or_assoc]
  -- ROOT has 16 bits; the bits above it are reserved
  by_cases h8 : (readBlock w die l raw ms).dw 8 / 2 ^ 16 = 0
  · have hroot : (readBlock w die l raw ms).root = (readBlock w die l raw ms).dw 8 := by rw [COp.root]; omega
    rw [hroot]
    exact Iff.rfl
  · exact iff_of_true (.inr (.inr (.inr (.inl h8)))) (.inr (.inr (.inr (.inl h8))))

/-! The algorithm -/

/-- The algorithm of R66, for a block that runs on a core or not. -/
theorem pickAlg_eq (o : COp) (halgo : o.algo ≤ 3) : pickAlg o =
    (let pick := if o.algo ∈ [1, 2] then o.algo else if o.algo = 3 ∧ o.eftV = true ∨ o.eftV = true ∧ o.op ≤ 1 then 3
      else if partBytes o ≤ 2 ^ 16 then 2 else 1
    if pick = 3 ∧ 15 < o.n then 2 else pick) := by
  have hpick : (if o.algo = 0 ∨ (o.algo = 3 ∧ (!o.eftV) = true) then (if o.eftV = true ∧ o.op ≤ 1 then 3 else if o.bytes o.count ≤ 65536 then 2 else 1) else o.algo) =
      if o.algo ∈ [1, 2] then o.algo else if o.algo = 3 ∧ o.eftV = true ∨ o.eftV = true ∧ o.op ≤ 1 then 3 else if partBytes o ≤ 2 ^ 16 then 2 else 1 := by
    have hbytes : o.bytes o.count = partBytes o := rfl
    rw [hbytes]
    generalize o.algo = a at halgo
    cases o.eftV <;> interval_cases a <;> simp
  rw [pickAlg]
  dsimp only
  rw [hpick]

/-- A block as it is armed. -/
def armedBlock (w : State) (die : Nat) (l : Live) (raw : Nat) (ms : List Nat) : COp :=
  { readBlock w die l raw ms with alg := pickAlg (readBlock w die l raw ms) }

/-- The sequencer that has given a block its number. -/
def numbered (w : State) (die : Nat) (l : Live) (raw : Nat) : Seqr :=
  { w.seqr die with nextId := (w.seqr die).nextId + 1, nums := (w.seqr die).nums.put 0 (numKey l raw) (nextNum w (numKey l raw) + 1) }

/-- The state with a block armed. -/
def withBlock (w : State) (die : Nat) (l : Live) (raw : Nat) (ms : List Nat) : State :=
  w.setSeqr die { numbered w die l raw with ops := (w.seqr die).ops ++ [armedBlock w die l raw ms] }

/-- What a block sends as it is armed (R66, R409, R410). -/
def startBlock (x : State) (die : Nat) (o : COp) : State :=
  if o.alg ≠ 3 then sendRing x die o else if o.rank = o.root then seqSend x die o (corePkt x die o 8 0 (armList o) 0) else sendOwn x die o

section
variable {y : State} (hg : groupOf y l.part (raw / 2 ^ 32 % 2 ^ 16) die = (w, ms)) (hseqrs : y.seqrs = w.seqrs)
include hg hseqrs

theorem expand_bad (hbad : IllFormed w l raw ms) : expand y die l raw = collDone w die (readBlock w die l raw ms) 4 0 [] := by
  have hq : y.seqr die = w.seqr die := by rw [State.seqr, hseqrs, State.seqr]
  rw [expand]
  dsimp only
  rw [hg, hq]
  exact if_pos ((blockBad_iff ..).mpr hbad)

theorem expand_empty (hbad : ¬ IllFormed w l raw ms) (h0 : (readBlock w die l raw ms).count = 0) :
    expand y die l raw = collDone (w.setSeqr die (numbered w die l raw)) die (armedBlock w die l raw ms) 1 0 [] := by
  have hq : y.seqr die = w.seqr die := by rw [State.seqr, hseqrs, State.seqr]
  rw [expand]
  dsimp only
  rw [hg, hq]
  exact (if_neg (mt (blockBad_iff ..).mp hbad)).trans (if_pos h0)

theorem expand_armed (hbad : ¬ IllFormed w l raw ms) (h0 : (readBlock w die l raw ms).count ≠ 0) (hs : w.seqrs.Rises) :
    expand y die l raw = unpark (startBlock (withBlock w die l raw ms) die (armedBlock w die l raw ms)) die (armedBlock w die l raw ms) := by
  have hq : y.seqr die = w.seqr die := by rw [State.seqr, hseqrs, State.seqr]
  have hset : (w.setSeqr die (numbered w die l raw)).setSeqr die { (w.setSeqr die (numbered w die l raw)).seqr die with
      ops := ((w.setSeqr die (numbered w die l raw)).seqr die).ops ++ [armedBlock w die l raw ms] } = withBlock w die l raw ms := by
    rw [State.setSeqr_setSeqr hs, State.seqr_setSeqr_same hs]
    rfl
  rw [startBlock, ite_not, ← hset, expand]
  dsimp only
  rw [hg, hq]
  exact (if_neg (mt (blockBad_iff ..).mp hbad)).trans (if_neg h0)

end

end Sys2Proof.Machine
end

section
/-! A sequencer polls a ring (R57 to R61). -/

namespace Sys2Proof.Machine

variable {s u v x y w : State} {die i ring : Nat} {l : Live} {b : List Nat}

/-- A doubleword of a descriptor. -/
def descDw (b : List Nat) (k : Nat) : Nat := leNat ((b.drop (8 * k)).take 8)

/-- The place of a ring's descriptor. -/
def descVa (l : Live) (ring : Nat) : Nat := (l.rtb + 32 * ring) % 2 ^ 64

/-- Why a descriptor is ill-formed, the first reason in order (R59, R60). -/
theorem descBad_eq (base prod cons : Nat) {ctl : Nat} (h : ctl < 2 ^ 64) : descBad base ctl prod cons =
    if ctl / 2 ^ 17 ≠ 0 ∨ ctl / 2 ^ 4 % 2 ^ 12 ≠ 0 then 1 else if ctl % 16 = 0 ∨ 12 < ctl % 16 then 2 else if base % 128 ≠ 0 then 3
      else if prod < cons then 4 else if 2 ^ (ctl % 16) < prod - cons then 5 else 0 := by
  rw [descBad, bits_top (by decide) h]
  rfl

/-- EN cleared. -/
theorem setBits_enable {ctl : Nat} (hbit : ctl / 2 ^ 16 % 2 = 1) : setBits ctl 16 16 0 = ctl - 2 ^ 16 := by
  simp only [setBits, bits]
  omega

/-- The place of the block at a ring's CONS. -/
def blockVa (b : List Nat) : Nat := (descDw b 0 + 128 * (descDw b 3 % 2 ^ (descDw b 1 % 16))) % 2 ^ 64

/-- A ring whose descriptor is well-formed and holds a block: CONS rises, a release, and the block is expanded (R59). -/
def pollBlock (v : State) (die : Nat) (l : Live) (ring : Nat) (b : List Nat) (prod : Nat) : State :=
  match vaRead v l.part (blockVa b) 128 die with
  | (x, .error _) => disableRing x die l ring (descDw b 1) (descVa l ring) 7 (blockVa b) prod
  | (x, .ok blk) => expand (relWrite8 x l.part (descVa l ring + 24) (descDw b 3 + 1) false (srcSeq die)).1 die l (leNat blk)

section
variable (hl : s.live[i]? = some l) (hd : die < 4) (hring : ring < 64) (hpoll : polled s die l = true)
include hl hd hring hpoll

theorem exec_ringPoll_unmapped {bad : Bad} (hread : vaRead s l.part (descVa l ring) 32 die = (u, .error bad)) :
    exec (.ringPoll die i ring) s = .next (ringRecord (u.setLive { l with rtbBad := true }) die l 0xFF 6 l.rtb 0) := by
  have hgo : ¬ (die ≥ 4 ∨ ring ≥ 64 ∨ (!polled s die l) = true) := by rw [hpoll]; simp; omega
  rw [descVa] at hread
  rw [exec_ringPoll, execRingPoll, hl]
  dsimp only
  rw [if_neg hgo, rtbOf, hread]

section
variable (hread : vaRead s l.part (descVa l ring) 32 die = (u, .ok b))
include hread

theorem exec_ringPoll_off (hen : descDw b 1 / 2 ^ 16 % 2 = 0) : exec (.ringPoll die i ring) s = .next u := by
  have hgo : ¬ (die ≥ 4 ∨ ring ≥ 64 ∨ (!polled s die l) = true) := by rw [hpoll]; simp; omega
  have hbit : (!(descDw b 1).testBit 16) = true := by rw [Bool.not_eq_true', ← Bool.not_eq_true, testBit_iff]; omega
  rw [descVa] at hread
  rw [descDw] at hbit
  rw [exec_ringPoll, execRingPoll, hl]
  dsimp only
  rw [if_neg hgo, rtbOf, hread]
  exact if_pos hbit

section
variable (hen : descDw b 1 / 2 ^ 16 % 2 = 1)
include hen

theorem exec_ringPoll_unread {bad : Bad} (hacq : acqRead8 u l.part (descVa l ring + 16) (srcSeq die) 3 = (v, .error bad)) :
    exec (.ringPoll die i ring) s = .next (ringRecord (v.setLive { l with rtbBad := true }) die l 0xFF 6 l.rtb 0) := by
  have hgo : ¬ (die ≥ 4 ∨ ring ≥ 64 ∨ (!polled s die l) = true) := by rw [hpoll]; simp; omega
  have hbit : ¬ (!(descDw b 1).testBit 16) = true := by rw [Bool.not_eq_true', ← Bool.not_eq_true, testBit_iff]; omega
  rw [descVa] at hread hacq
  rw [srcSeq] at hacq
  rw [descDw] at hbit
  rw [exec_ringPoll, execRingPoll, hl]
  dsimp only
  rw [if_neg hgo, rtbOf, hread]
  dsimp only
  rw [if_neg hbit, hacq]

/-- What a poll does once PROD is read. -/
theorem exec_ringPoll_prod {prod : Nat} (hacq : acqRead8 u l.part (descVa l ring + 16) (srcSeq die) 3 = (v, .ok prod)) :
    let why := descBad (descDw b 0) (descDw b 1) prod (descDw b 3)
    (why ≠ 0 → exec (.ringPoll die i ring) s = .next (disableRing v die l ring (descDw b 1) (descVa l ring) why (descVa l ring) prod)) ∧
    (why = 0 → prod = descDw b 3 → exec (.ringPoll die i ring) s = .next v) ∧
    (why = 0 → prod ≠ descDw b 3 → exec (.ringPoll die i ring) s = .next (pollBlock v die l ring b prod)) := by
  have hgo : ¬ (die ≥ 4 ∨ ring ≥ 64 ∨ (!polled s die l) = true) := by rw [hpoll]; simp; omega
  have hbit : ¬ (!(descDw b 1).testBit 16) = true := by rw [Bool.not_eq_true', ← Bool.not_eq_true, testBit_iff]; omega
  intro why
  have hexec : exec (.ringPoll die i ring) s = if why ≠ 0 then .next (disableRing v die l ring (descDw b 1) (descVa l ring) why (descVa l ring) prod)
      else if prod = descDw b 3 then .next v else .next (pollBlock v die l ring b prod) := by
    rw [descVa] at hread hacq
    rw [srcSeq] at hacq
    rw [descDw] at hbit
    rw [exec_ringPoll, execRingPoll, hl]
    dsimp only
    rw [if_neg hgo, rtbOf, hread]
    dsimp only
    rw [if_neg hbit, hacq]
    refine if_congr Iff.rfl rfl (if_congr Iff.rfl rfl ?_)
    rw [pollBlock]
    change (match vaRead v l.part (blockVa b) 128 die with
      | (x, .error _) => _
      | (x, .ok blk) => _) = _
    cases vaRead v l.part (blockVa b) 128 die with
    | mk x r => cases r <;> rfl
  refine ⟨fun h => by rw [hexec, if_pos h], fun h hp => by rw [hexec, if_neg (not_not.mpr h), if_pos hp],
    fun h hp => by rw [hexec, if_neg (not_not.mpr h), if_neg hp]⟩

end

end

end

theorem pollBlock_unread {prod : Nat} {bad : Bad} (h : vaRead v l.part (blockVa b) 128 die = (x, .error bad)) :
    pollBlock v die l ring b prod = disableRing x die l ring (descDw b 1) (descVa l ring) 7 (blockVa b) prod := by
  rw [pollBlock, h]

theorem pollBlock_expands {prod : Nat} {blk : List Nat} (h : vaRead v l.part (blockVa b) 128 die = (x, .ok blk)) :
    pollBlock v die l ring b prod = expand (relWrite8 x l.part (descVa l ring + 24) (descDw b 3 + 1) false (srcSeq die)).1 die l (leNat blk) := by
  rw [pollBlock, h]

end Sys2Proof.Machine
end

section
/-! What a ring or tree block sends, and what of its flow was parked (R64, R66, R69 to R71). -/

namespace Sys2Proof.Machine

variable {s t v y : State} {die r : Nat} {o : COp} {own : List Nat}

/-! Parked packets -/

theorem ownFlow_iff (o : COp) (y : Parked) : (y.pkt.part == o.part && y.pkt.flow == o.flowKey) = true ↔ y.pkt.part = o.part ∧ y.pkt.flow = o.flowKey := by
  rw [Bool.and_eq_true, beq_iff_eq, beq_iff_eq]

theorem unpark_none (h : ∀ y ∈ (s.seqr die).park, ¬ (y.pkt.part = o.part ∧ y.pkt.flow = o.flowKey)) : unpark s die o = s.setSeqr die (s.seqr die) := by
  have hmine : (s.seqr die).park.filter (fun x => x.pkt.part == o.part && x.pkt.flow == o.flowKey) = [] :=
    List.filter_eq_nil_iff.mpr fun y hy => mt (ownFlow_iff o y).mp (h y hy)
  have hrest : (s.seqr die).park.filter (fun x => !(x.pkt.part == o.part && x.pkt.flow == o.flowKey)) = (s.seqr die).park :=
    List.filter_eq_self.mpr fun y hy => by rw [Bool.not_eq_true', ← Bool.not_eq_true]; exact mt (ownFlow_iff o y).mp (h y hy)
  rw [unpark]
  dsimp only
  rw [hmine, hrest]
  rfl

theorem unpark_one {a b : List Parked} {y : Parked} (hq : (s.seqr die).park = a ++ y :: b) (hy : y.pkt.part = o.part ∧ y.pkt.flow = o.flowKey)
    (hno : ∀ z ∈ a ++ b, ¬ (z.pkt.part = o.part ∧ z.pkt.flow = o.flowKey)) :
    unpark s die o = takeColl (s.setSeqr die { s.seqr die with park := a ++ b }) die y.pkt := by
  have hnone (l : List Parked) (hl : ∀ z ∈ l, z ∈ a ++ b) : l.filter (fun x => x.pkt.part == o.part && x.pkt.flow == o.flowKey) = [] :=
    List.filter_eq_nil_iff.mpr fun z hz => mt (ownFlow_iff o z).mp (hno z (hl z hz))
  have hall (l : List Parked) (hl : ∀ z ∈ l, z ∈ a ++ b) : l.filter (fun x => !(x.pkt.part == o.part && x.pkt.flow == o.flowKey)) = l :=
    List.filter_eq_self.mpr fun z hz => by rw [Bool.not_eq_true', ← Bool.not_eq_true]; exact mt (ownFlow_iff o z).mp (hno z (hl z hz))
  have hin := (ownFlow_iff o y).mpr hy
  have hmine : (s.seqr die).park.filter (fun x => x.pkt.part == o.part && x.pkt.flow == o.flowKey) = [y] := by
    rw [hq, List.filter_append, hnone a (fun z hz => List.mem_append_left b hz), List.filter_cons, if_pos hin,
      hnone b (fun z hz => List.mem_append_right a hz), List.nil_append]
  have hrest : (s.seqr die).park.filter (fun x => !(x.pkt.part == o.part && x.pkt.flow == o.flowKey)) = a ++ b := by
    rw [hq, List.filter_append, hall a (fun z hz => List.mem_append_left b hz), List.filter_cons, if_neg (by rw [hin]; exact Bool.false_ne_true),
      hall b (fun z hz => List.mem_append_right a hz)]
  rw [unpark]
  dsimp only
  rw [hmine, hrest]
  rfl

/-! The ranks that a block sends to -/

theorem mem_sendsTo (h8 : blockOp o ≤ 8) (r : Nat) : r ∈ sendsTo o ↔ SendsRank o r := by
  have hothers := mem_others o r
  rw [sendsTo, SendsRank, op_eq, root_eq]
  match hn : blockOp o with
  | 1 => by_cases hr : o.rank = blockRoot o <;> simp [hr]
  | 2 =>
    by_cases hr : o.rank = blockRoot o
    · simpa [hr] using hothers
    · simp [hr]
  | 7 => simp
  | 8 => simp
  | 0 | 3 | 4 | 5 | 6 => simpa using hothers
  | _ + 9 => omega

/-! Parts -/

/-- The offset in the send buffer of what goes to a rank. -/
theorem partFor_eq (o : COp) (r : Nat) : o.partFor r = if blockOp o = 4 ∨ blockOp o = 5 then r * partBytes o else 0 := by
  rw [COp.partFor, op_eq, nb_eq]

/-- A packet of a part: the rank, the place in the part, the length. -/
def partPkt (y : State) (die : Nat) (o : COp) (own : List Nat) (r j n : Nat) : Pkt :=
  ringPkt y die o r (o.ofsOf o.rank + j) ((own.drop (o.partFor r + j)).take n) (cTag (o.sendVa % 256 :: own ++ lineTags y o) o.sendLen (o.partFor r + j))

theorem ringPkt_congr (hi : t.ident = s.ident) (hr : t.regs = s.regs) (die : Nat) (o : COp) (r ofs : Nat) (b : List Nat) (tag : W32) :
    ringPkt t die o r ofs b tag = ringPkt s die o r ofs b tag := by
  have hchip : t.chipNo = s.chipNo := by rw [State.chipNo, hi, State.chipNo]
  have hdie (d : Nat) : t.physDie d = s.physDie d := by rw [State.physDie, State.rn, State.reg, hr, State.physDie, State.rn, State.reg]
  simp only [ringPkt, hchip, hdie]

/-- The places and lengths of a part's packets: of a barrier one without bytes, else those of the source lines. -/
def partCuts (o : COp) (r : Nat) : List (Nat × Nat) :=
  if blockOp o = 6 then [(0, 0)]
  else (cuts (fun _ => 256) (partBytes o / 256 + 2) (o.sendVa + o.partFor r) (partBytes o)).map fun x => (x.1 - (o.sendVa + o.partFor r), x.2)

/-- A part is sent packet by packet, each held. -/
theorem sendPart_sends (hs : s.seqrs.Rises) (hlen : own.length = o.sendLen) (hi : s.ident = y.ident) (hr : s.regs = y.regs) (die r : Nat) :
    ∃ ps, SendsHeld s (sendPart s die o (o.sendVa % 256 :: own ++ lineTags y o) r) die o ps ∧
      List.Forall₂ (fun x p => IsSending (partPkt y die o own r x.1 x.2) p) (partCuts o r) ps := by
  have hpkt (t : State) (hti : t.ident = s.ident) (htr : t.regs = s.regs) (r ofs : Nat) (b : List Nat) (tag : W32) :
      ringPkt t die o r ofs b tag = ringPkt y die o r ofs b tag := ringPkt_congr (hti.trans hi) (htr.trans hr) ..
  rw [sendPart, partCuts, op_eq]
  split_ifs with h6
  · refine ⟨_, .seqSend hs die o _, .cons ⟨s.nextRid, ?_⟩ .nil⟩
    have hnone : cTag (o.sendVa % 256 :: own ++ lineTags y o) o.sendLen (o.partFor r + 0) = 0 := by
      rw [cTag_contribution y o hlen, if_neg]
      rw [COp.sendLen, op_eq, if_neg (by omega), if_neg (by omega), if_pos (.inl h6)]
      omega
    rw [partPkt, hnone, add_zero, List.take_zero, hpkt s rfl rfl]
  · dsimp only
    rw [cBytes_contribution hlen]
    obtain ⟨ps, hps, hall⟩ := sends_foldl (g := fun x : Nat × Nat => partPkt y die o own r (x.1 - (o.sendVa + o.partFor r)) x.2)
      (f := fun t (x : Nat × Nat) => ringPkt t die o r (o.ofsOf o.rank + (x.1 - (o.sendVa + o.partFor r)))
        ((own.drop (o.partFor r + (x.1 - (o.sendVa + o.partFor r)))).take x.2)
        (cTag (o.sendVa % 256 :: own ++ lineTags y o) o.sendLen (o.partFor r + (x.1 - (o.sendVa + o.partFor r)))))
      (cuts (fun _ => 256) (partBytes o / 256 + 2) (o.sendVa + o.partFor r) (partBytes o)) hs die o
      fun t hti htr x _ => hpkt t hti htr ..
    exact ⟨ps, hps, List.forall₂_map_left_iff.mpr hall⟩

/-- Packets told with their rank and their place in the part. -/
theorem packets_placed {xs : List (Nat × Nat)} {ps : List Pkt} {R : Nat × Nat → Pkt → Prop} (r : Nat) (h : List.Forall₂ R xs ps) :
    ∃ l : List (Nat × Nat × Pkt), l.map (·.2.2) = ps ∧ (∀ x ∈ xs, ∃ p, (r, x.1, p) ∈ l ∧ R x p) ∧
      ∀ e ∈ l, e.1 = r ∧ ∃ x ∈ xs, e.2.1 = x.1 ∧ R x e.2.2 := by
  induction h with
  | nil => exact ⟨[], rfl, by simp, by simp⟩
  | @cons x p xs ps hxp _ ih =>
    obtain ⟨l, hmap, hcover, hsays⟩ := ih
    refine ⟨(r, x.1, p) :: l, by rw [List.map_cons, hmap], fun z hz => ?_, fun e he => ?_⟩
    · rcases List.mem_cons.mp hz with rfl | hz
      · exact ⟨p, List.mem_cons_self, hxp⟩
      · obtain ⟨k, hk, hR⟩ := hcover z hz
        exact ⟨k, List.mem_cons_of_mem _ hk, hR⟩
    · rcases List.mem_cons.mp he with rfl | he
      · exact ⟨rfl, x, List.mem_cons_self, rfl, hxp⟩
      · obtain ⟨hr, z, hz, hR⟩ := hsays e he
        exact ⟨hr, z, List.mem_cons_of_mem x hz, hR⟩

/-- The packets of a block with their ranks and places: rank, place in the part, packet. -/
theorem sendParts_send (rs : List Nat) (hs : s.seqrs.Rises) (hlen : own.length = o.sendLen) (hi : s.ident = y.ident) (hr : s.regs = y.regs) (die : Nat) :
    ∃ l : List (Nat × Nat × Pkt), SendsHeld s (rs.foldl (fun t r => sendPart t die o (o.sendVa % 256 :: own ++ lineTags y o) r) s) die o (l.map (·.2.2)) ∧
      (∀ r ∈ rs, ∀ x ∈ partCuts o r, ∃ p, (r, x.1, p) ∈ l ∧ IsSending (partPkt y die o own r x.1 x.2) p) ∧
      ∀ e ∈ l, e.1 ∈ rs ∧ ∃ x ∈ partCuts o e.1, e.2.1 = x.1 ∧ IsSending (partPkt y die o own e.1 x.1 x.2) e.2.2 := by
  induction rs generalizing s with
  | nil => exact ⟨[], .refl hs die o, by simp, by simp⟩
  | cons r rs ih =>
    obtain ⟨ps, hps, hall⟩ := sendPart_sends hs hlen hi hr die r
    obtain ⟨l, hl, hcover, hsays⟩ := ih hps.rises (hps.ident.trans hi) (hps.regs.trans hr)
    obtain ⟨l', hmap, hcover', hsays'⟩ := packets_placed r hall
    refine ⟨l' ++ l, ?_, fun r' hr' x hx => ?_, fun e he => ?_⟩
    · rw [List.map_append, hmap]
      exact hps.trans hl
    · rcases List.mem_cons.mp hr' with rfl | hr'
      · obtain ⟨p, hp, hsend⟩ := hcover' x hx
        exact ⟨p, List.mem_append_left l hp, hsend⟩
      · obtain ⟨p, hp, hsend⟩ := hcover r' hr' x hx
        exact ⟨p, List.mem_append_right l' hp, hsend⟩
    · rcases List.mem_append.mp he with he | he
      · obtain ⟨rfl, hx⟩ := hsays' e he
        exact ⟨List.mem_cons_self, hx⟩
      · obtain ⟨hin, hx⟩ := hsays e he
        exact ⟨List.mem_cons_of_mem r hin, hx⟩

/-! A part cut at the lines of 256 bytes -/

/-- The pieces of a range lie in it, each within a line, and cover it. -/
theorem cuts_cover {f va n : Nat} (h : va + n ≤ 2 ^ 64) (hf : n = 0 ∨ n + va % 256 ≤ 256 * f) :
    (∀ x ∈ cuts (fun _ => 256) f va n, va ≤ x.1 ∧ x.1 + x.2 ≤ va + n ∧ x.1 % 256 + x.2 ≤ 256) ∧
      ∀ b < n, ∃ x ∈ cuts (fun _ => 256) f va n, x.1 ≤ va + b ∧ va + b < x.1 + x.2 := by
  induction f generalizing va n with
  | zero => exact ⟨fun x hx => (List.not_mem_nil hx).elim, fun b hb => by omega⟩
  | succ f ih =>
    rw [cuts]
    by_cases hn : n = 0
    · rw [if_pos hn]
      exact ⟨fun x hx => (List.not_mem_nil hx).elim, fun b hb => by omega⟩
    rw [if_neg hn]
    dsimp only
    generalize hk : min n (256 - va % 256) = k
    by_cases hlast : n = k
    · have hnil : cuts (fun _ => 256) f ((va + k) % 2 ^ 64) (n - k) = [] := by
        rw [show n - k = 0 by omega]
        cases f <;> rfl
      rw [hnil]
      simp only [List.mem_singleton, forall_eq, exists_eq_left]
      exact ⟨by omega, fun b hb => by omega⟩
    · rw [Nat.mod_eq_of_lt (show va + k < 2 ^ 64 by omega)]
      obtain ⟨heach, hcover⟩ := ih (va := va + k) (n := n - k) (by omega) (.inr (by omega))
      refine ⟨fun x hx => ?_, fun b hb => ?_⟩
      · rcases List.mem_cons.mp hx with rfl | hx
        · exact ⟨by omega, by dsimp only; omega, by dsimp only; omega⟩
        · have := heach x hx
          omega
      · by_cases hb' : b < k
        · exact ⟨(va, k), List.mem_cons_self, by dsimp only; omega, by dsimp only; omega⟩
        · obtain ⟨x, hx, h1, h2⟩ := hcover (b - k) (by omega)
          exact ⟨x, List.mem_cons_of_mem _ hx, by omega, by omega⟩

/-- The bytes that a block sends to a rank: of a barrier none. -/
def partSize (o : COp) : Nat := if blockOp o = 6 then 0 else partBytes o

theorem partCuts_cover {r : Nat} (h : o.sendVa + (o.partFor r + partSize o) ≤ 2 ^ 64) :
    (∀ x ∈ partCuts o r, x.1 + x.2 ≤ partSize o ∧ x.2 ≤ 256 ∧ (x.2 = 256 → (o.sendVa + o.partFor r + x.1) % 256 = 0)) ∧
      (0 < partSize o ∨ blockOp o = 6 → ∃ x, x ∈ partCuts o r) ∧ ∀ b < partSize o, ∃ x ∈ partCuts o r, x.1 ≤ b ∧ b < x.1 + x.2 := by
  rw [partSize] at h ⊢
  rw [partCuts]
  by_cases h6 : blockOp o = 6
  · simp [h6]
  rw [if_neg h6] at h ⊢
  rw [if_neg h6]
  obtain ⟨heach, hcover⟩ := cuts_cover (f := partBytes o / 256 + 2) (va := o.sendVa + o.partFor r) (n := partBytes o) (by omega) (.inr (by omega))
  have hbytes : ∀ b < partBytes o, ∃ x ∈ (cuts (fun _ => 256) (partBytes o / 256 + 2) (o.sendVa + o.partFor r) (partBytes o)).map
      fun x => (x.1 - (o.sendVa + o.partFor r), x.2), x.1 ≤ b ∧ b < x.1 + x.2 := by
    intro b hb
    obtain ⟨x, hx, h1, h2⟩ := hcover b hb
    have := heach x hx
    exact ⟨_, List.mem_map_of_mem hx, by dsimp only; omega, by dsimp only; omega⟩
  refine ⟨fun x hx => ?_, fun hpos => ?_, hbytes⟩
  · obtain ⟨z, hz, rfl⟩ := List.mem_map.mp hx
    have := heach z hz
    dsimp only
    omega
  · obtain ⟨x, hx, -⟩ := hbytes 0 (hpos.resolve_right h6)
    exact ⟨x, hx⟩

/-! What a packet of a part says -/

theorem bits_low (n h : Nat) : bits n h 0 = n % 2 ^ (h + 1) := by
  rw [bits, Nat.pow_zero, Nat.div_one, Nat.sub_zero]

/-- A part lies in the send buffer. -/
theorem part_fits (h4 : blockOp o = 4 → o.dtype ≠ 3) (h : SendsRank o r) : o.partFor r + partSize o ≤ o.sendLen := by
  have hwidth : o.dtype ≠ 3 → ∀ c, o.bytes c = c * (fmtWidth o.dtype / 8) := by
    intro hd c
    have hw : fmtWidth o.dtype = 8 * (fmtWidth o.dtype / 8) := by
      rw [fmtWidth]
      match o.dtype, hd with
      | 0, _ | 1, _ | 2, _ | 4, _ | 5, _ | 6, _ | 7, _ => rfl
      | k + 8, _ => rw [List.getD_eq_default _ _ (Nat.le_add_left 8 k)]
    rw [COp.bytes]
    generalize fmtWidth o.dtype / 8 = k at hw
    rw [hw, show c * (8 * k) = 8 * (c * k) by ring]
    omega
  have hr : blockOp o = 4 ∨ blockOp o = 5 → r < o.n := by
    intro h45
    rw [SendsRank, if_neg (by omega), if_neg (by omega), if_neg (by omega), if_neg (by omega)] at h
    exact h.1
  rw [partFor_eq, partSize, COp.sendLen, op_eq]
  by_cases h4' : blockOp o = 4
  · have hle : (r + 1) * o.count ≤ o.n * o.count := Nat.mul_le_mul_right _ (hr (.inl h4'))
    rw [if_pos (.inl h4'), if_neg (by omega), if_pos h4', ← nb_eq, COp.nb, hwidth (h4 h4'), hwidth (h4 h4'), ← Nat.mul_assoc, ← Nat.add_mul, ← Nat.succ_mul]
    exact Nat.mul_le_mul_right _ hle
  by_cases h5' : blockOp o = 5
  · rw [if_pos (.inr h5'), if_neg (by omega), if_neg h4', if_pos h5', ← nb_eq, COp.nb, ← Nat.succ_mul]
    exact Nat.mul_le_mul_right _ (hr (.inr h5'))
  have h8 : blockOp o ≠ 8 := fun h8 => by rw [SendsRank, if_pos h8] at h; exact h
  rw [if_neg (not_or.mpr ⟨h4', h5'⟩), if_neg h4', if_neg h5', Nat.zero_add]
  by_cases h6 : blockOp o = 6
  · rw [if_pos h6, if_pos (.inl h6)]
  · rw [if_neg h6, if_neg (not_or.mpr ⟨h6, h8⟩), ← nb_eq, COp.nb]

/-- A packet's rank and place, and what it says (R47, R64, R66, R69, R76). -/
theorem partPkt_says {j n : Nat} {k : Pkt} (hk : IsSending (partPkt y die o own r j n) k) (hown : own.length = o.sendLen)
    (hfit : o.partFor r + j + n ≤ o.sendLen) :
    k.len = n ∧ k.cls = 2 ∧ k.dep = 27 ∧ k.opc = 6 ∧ k.part = o.part ∧ k.flow = o.flowKey ∧
      k.tag = (o.sigOf (if blockOp o = 7 then 8 else blockOp o)).toNat ∧ k.who = r + 1 ∧ k.src = srcSeq die ∧ k.dchip = o.members.getD r 0 % 2 ^ 12 ∧
      k.va % 2 ^ 32 = (offsetOf o o.rank + j) % 2 ^ 32 ∧ k.payload = leNat ((own.drop (o.partFor r + j)).take k.len) ∧
      ((n = 256 → (o.sendVa + o.partFor r + j) % 256 = 0) → o.sendVa + o.sendLen ≤ 2 ^ 64 → k.len = 256 →
        k.ltag = some (srcTag y o.part (o.sendVa + o.partFor r + j)).toNat) := by
  obtain ⟨rid, rfl⟩ := hk
  have hlen : ((own.drop (o.partFor r + j)).take n).length = n := by
    rw [List.length_take, List.length_drop]
    omega
  have htag : (partPkt y die o own r j n).ltag = some (cTag (o.sendVa % 256 :: own ++ lineTags y o) o.sendLen (o.partFor r + j)).toNat := rfl
  have hplen : (partPkt y die o own r j n).len = n := hlen
  refine ⟨hlen, rfl, rfl, rfl, rfl, rfl, by rw [← op_eq]; rfl, rfl, rfl, bits_low _ 11, ?_, ?_, fun hal hend hfull => ?_⟩
  · dsimp only [partPkt, ringPkt]
    rw [ofsOf_eq]
    omega
  · rw [hplen]
    rfl
  · dsimp only at hfull ⊢
    rw [htag, cTag_contribution y o hown, if_pos ⟨by rw [← Nat.add_assoc]; exact hal (hplen ▸ hfull), by omega⟩, Nat.mod_eq_of_lt (by omega), Nat.add_assoc]

/-! A block's sending -/

/-- A block replaced by itself with its own part, where it reduces. -/
def ownStaged (v : State) (die : Nat) (o : COp) (own : List Nat) : State :=
  if blockOp o ∈ [0, 1, 4] then setOp v die { o with data := [(offsetOf o o.rank, (own.drop (o.partFor o.rank)).take (partBytes o))] } else v

theorem sendRing_fault {bad : Bad} (h : vaRead s o.part o.sendVa o.sendLen die = (v, .error bad)) : sendRing s die o = faultOp v die o bad := by
  rw [sendRing, contribution_fault h]

theorem sendRing_ok (h : vaRead s o.part o.sendVa o.sendLen die = (v, .ok own)) :
    sendRing s die o = ((sendsTo o).foldl (fun t r => sendPart t die o (o.sendVa % 256 :: own ++ lineTags v o) r) (ownStaged v die o own)).post (opEvent die o) := by
  rw [sendRing, contribution_ok h]
  dsimp only
  rw [cBytes_contribution (vaRead_length h), ownStaged, ofsOf_eq, nb_eq]
  by_cases hr : blockOp o ∈ [0, 1, 4]
  · rw [if_pos ((reducing_iff o).mpr hr), if_pos hr]
  · rw [if_neg (mt (reducing_iff o).mp hr), if_neg hr]

/-- What a block's sending leaves: its packets with their ranks and places, each held. -/
structure RingSends (v t : State) (die : Nat) (o : COp) (own : List Nat) (l : List (Nat × Nat × Pkt)) : Prop where
  mem : t.mem = v.mem
  events : t.events = v.events ++ l.map (fun x => .packetInject die 6 x.2.2) ++ [opEvent die o]
  sent : (t.seqr die).sent.map (fun x => (x.pkt, x.op, x.due)) = (v.seqr die).sent.map (fun x => (x.pkt, x.op, x.due)) ++ l.map fun x => (x.2.2, o.id, 0)
  ops : blockOp o ∈ [0, 1, 4] → (t.seqr die).ops = (v.seqr die).ops.map fun p => if p.id = o.id then
    { o with data := [(offsetOf o o.rank, (own.drop (o.partFor o.rank)).take (partBytes o))] } else p

theorem sendRing_sends (hs : s.seqrs.Rises) (h : vaRead s o.part o.sendVa o.sendLen die = (v, .ok own)) :
    ∃ l, RingSends v (sendRing s die o) die o own l ∧
      (∀ r ∈ sendsTo o, ∀ x ∈ partCuts o r, ∃ p, (r, x.1, p) ∈ l ∧ IsSending (partPkt v die o own r x.1 x.2) p) ∧
      ∀ e ∈ l, e.1 ∈ sendsTo o ∧ ∃ x ∈ partCuts o e.1, e.2.1 = x.1 ∧ IsSending (partPkt v die o own e.1 x.1 x.2) e.2.2 := by
  have hv : v.seqrs.Rises := by
    have := (Accesses.vaRead s o.part o.sendVa o.sendLen die).seqrs
    rw [h] at this
    exact this ▸ hs
  have hframe : ownStaged v die o own = { v with seqrs := (ownStaged v die o own).seqrs } := by
    rw [ownStaged]
    split_ifs <;> rfl
  have hq : (ownStaged v die o own).seqr die = { v.seqr die with ops := if blockOp o ∈ [0, 1, 4] then (v.seqr die).ops.map fun p => if p.id = o.id then
      { o with data := [(offsetOf o o.rank, (own.drop (o.partFor o.rank)).take (partBytes o))] } else p else (v.seqr die).ops } := by
    rw [ownStaged]
    split_ifs
    · exact State.seqr_setSeqr_same hv die _
    · rfl
  have hrises : (ownStaged v die o own).seqrs.Rises := by
    rw [ownStaged]
    split_ifs
    · exact State.setSeqr_rises hv die _
    · exact hv
  obtain ⟨l, hsends, hcover, hsays⟩ := sendParts_send (y := v) (sendsTo o) hrises (vaRead_length h) (by rw [hframe]) (by rw [hframe]) die
  have hq' := hsends.seqr
  rw [hq] at hq'
  rw [sendRing_ok h]
  refine ⟨l, ⟨hsends.mem.trans (by rw [hframe]), ?_, ?_, fun hr => ?_⟩, hcover, hsays⟩
  · have hevents := hsends.events
    rw [show (ownStaged v die o own).events = v.events by rw [hframe], List.map_map] at hevents
    exact congrArg (· ++ [opEvent die o]) hevents
  · refine (congrArg (fun q : Seqr => q.sent.map fun x => (x.pkt, x.op, x.due)) hq').trans ?_
    rw [List.map_append, List.map_map, List.map_map]
    rfl
  · refine (congrArg (fun q : Seqr => q.ops) hq').trans ?_
    exact if_pos hr

end Sys2Proof.Machine
end

section
/-! A ring or tree block brought to its end (R66, R67, R69, R72). -/

namespace Sys2Proof.Machine

variable {s v : State} {die id op r p n : Nat} {i : Instr} {o : COp} {own b l : List Nat} {tag : Nat → W32} {bad : Bad}

/-! The event -/

/-- The instruction runs a block of an OP. -/
def RunsOp (i : Instr) (die id part op : Nat) : Prop :=
  i = .allReduce die id part ∧ op = 0 ∨ i = .reduce die id part ∧ op = 1 ∨ i = .broadcast die id part ∧ op = 2 ∨ i = .allGather die id part ∧ op = 3 ∨
    i = .reduceScatter die id part ∧ op = 4 ∨ i = .allToAll die id part ∧ op = 5 ∨ i = .barrier die id part ∧ op = 6 ∨ i = .send die id part ∧ op = 7 ∨
    i = .receive die id part ∧ op = 8

theorem exec_runsOp (hf : (s.seqr die).ops.find? (·.id == id) = some o) (h3 : o.alg ≠ 3) (hop : blockOp o = op) (hi : RunsOp i die id o.part op) :
    exec i s = .next (if ringReady s die o then runOp s die o else s.post i) := by
  have hon (k : Nat) (hk : op = k) (again : Instr) : onOp k die id o.part s again = .next (if ringReady s die o then runOp s die o else s.post again) := by
    rw [onOp, hf]
    dsimp only
    rw [if_neg (by rw [op_eq, hop, hk]; simp [h3])]
  rcases hi with ⟨rfl, hk⟩ | ⟨rfl, hk⟩ | ⟨rfl, hk⟩ | ⟨rfl, hk⟩ | ⟨rfl, hk⟩ | ⟨rfl, hk⟩ | ⟨rfl, hk⟩ | ⟨rfl, hk⟩ | ⟨rfl, hk⟩
  · exact hon 0 hk _
  · exact hon 1 hk _
  · exact hon 2 hk _
  · exact hon 3 hk _
  · exact hon 4 hk _
  · exact hon 5 hk _
  · exact hon 6 hk _
  · exact hon 7 hk _
  · exact hon 8 hk _

/-! The run -/

/-- The members' parts of a reduction as a block holds them. -/
def partsOf (s : State) (o : COp) : List (List Nat) :=
  (List.range o.n).map fun r => stagedBytes o (o.ofsOf r) o.nb fun i => Config.lost s.tick r i % 256

/-- Bytes written at the receive buffer: the state t is that of the block's completion, or of the fault of the write. -/
def WritesThenEnds (v : State) (die : Nat) (o : COp) (p : Nat) (b : List Nat) (tag : Nat → W32) (t : State) : Prop := ∀ x,
  (seqWrite v die o.part ((o.recvVa + p) % 2 ^ 64) b tag = (x, none) → t = finishOp x die o 1 (combined o) []) ∧
    ∀ bad, seqWrite v die o.part ((o.recvVa + p) % 2 ^ 64) b tag = (x, some bad) → t = faultOp x die o bad

theorem runOp_fault (h : vaRead s o.part o.sendVa o.sendLen die = (v, .error bad)) : runOp s die o = faultOp v die o bad := by
  rw [runOp, contribution_fault h]

section
variable (h : vaRead s o.part o.sendVa o.sendLen die = (v, .ok own))
include h

theorem runOp_nothing (hres : resultOf o (o.sendVa % 256 :: own ++ lineTags v o) (partsOf s o) = []) : runOp s die o = finishOp v die o 1 (combined o) [] := by
  rw [partsOf] at hres
  rw [runOp, contribution_ok h]
  dsimp only
  rw [hres]
  rfl

theorem runOp_writes (hres : resultOf o (o.sendVa % 256 :: own ++ lineTags v o) (partsOf s o) = [(p, b, tag)]) :
    WritesThenEnds v die o p b tag (runOp s die o) := by
  rw [partsOf] at hres
  have hrun : runOp s die o = match (seqWrite v die o.part ((o.recvVa + p) % 2 ^ 64) b tag).2 with
      | some bad => faultOp (seqWrite v die o.part ((o.recvVa + p) % 2 ^ 64) b tag).1 die o bad
      | none => finishOp (seqWrite v die o.part ((o.recvVa + p) % 2 ^ 64) b tag).1 die o 1 (combined o) [] := by
    rw [runOp, contribution_ok h]
    dsimp only
    rw [hres]
    rfl
  exact fun x => ⟨fun hw => by rw [hrun, hw], fun bad hw => by rw [hrun, hw]⟩

end

/-! What the receive buffer takes -/

theorem resultOf_own (hr : blockOp o ∉ [0, 1, 4]) (c : List Nat) (cs : List (List Nat)) : resultOf o c cs =
    if blockOp o = 3 ∨ blockOp o = 5 ∨ blockOp o = 2 ∧ o.rank = blockRoot o then
      [(offsetOf o o.rank, ((cBytes c o.sendLen).drop (o.partFor o.rank)).take (partBytes o), fun z => cTag c o.sendLen (o.partFor o.rank + z))]
    else [] := by
  rw [resultOf, if_neg (mt (reducing_iff o).mp hr), ownWrites, op_eq, root_eq, ofsOf_eq, nb_eq]

theorem resultOf_reduced (hr : blockOp o ∈ [0, 1, 4]) (c : List Nat) (cs : List (List Nat)) : resultOf o c cs =
    [(0, if blockOp o = 1 ∧ o.rank ≠ blockRoot o then [] else redBytes o cs, fun _ => o.redTag)] := by
  rw [resultOf, if_pos ((reducing_iff o).mpr hr), redResult, op_eq, root_eq]

theorem seqWrite_nil (v : State) (die part va : Nat) (tag : Nat → W32) : seqWrite v die part va [] tag = (v, none) := by
  rw [seqWrite_eq, List.length_nil, pieces, cuts_zero]
  rfl

/-! The staged parts -/

theorem stagedBytes_eq (hr : blockOp o ∈ [0, 1, 4]) (h : Staged o r l) (miss : Nat → Nat) : stagedBytes o (o.ofsOf r) o.nb miss = l := by
  obtain ⟨hlen, hbyte⟩ := h
  have hofs : o.ofsOf r = r * partBytes o := by
    simp only [List.mem_cons, List.not_mem_nil, or_false] at hr
    rw [COp.ofsOf, op_eq, nb_eq, if_neg (by omega), if_neg (by omega)]
  rw [stagedBytes, hofs, nb_eq]
  refine List.ext_getElem (by rw [List.length_map, List.length_range, hlen]) fun i hi hi' => ?_
  rw [List.getElem_map, List.getElem_range]
  obtain ⟨⟨d, hd, hle, hlt⟩, hall⟩ := hbyte i hi'
  -- the piece that is found holds the byte that all pieces there hold
  cases hfind : o.data.findSome? fun d => if d.1 ≤ r * partBytes o + i then d.2[r * partBytes o + i - d.1]? else none with
  | none =>
    have hnone := List.findSome?_eq_none_iff.mp hfind d hd
    rw [if_pos hle, List.getElem?_eq_none_iff] at hnone
    omega
  | some z =>
    obtain ⟨e, he, hsome⟩ := List.exists_of_findSome?_eq_some hfind
    split_ifs at hsome with hle'
    obtain ⟨hlt', hz⟩ := List.getElem?_eq_some_iff.mp hsome
    have := hall e he hle' (by omega)
    rw [List.getD_eq_getElem _ _ hlt', List.getD_eq_getElem _ _ hi', hz] at this
    exact this

theorem partsOf_staged (hr : blockOp o ∈ [0, 1, 4]) {P : Nat → List Nat} (h : ∀ r < o.n, Staged o r (P r)) (s : State) :
    partsOf s o = (List.range o.n).map P := by
  rw [partsOf]
  exact List.map_congr_left fun r hr' => stagedBytes_eq hr (h r (List.mem_range.mp hr')) _

/-! A result's elements -/

/-- Elements of a list of equal chunks. -/
theorem chunk_of_flatMap {f : Nat → List Nat} {k n j : Nat} (hf : ∀ i < n, (f i).length = k) (hj : j < n) : (((List.range n).flatMap f).drop (k * j)).take k = f j := by
  induction n generalizing f j with
  | zero => omega
  | succ n ih =>
    rw [List.range_succ_eq_map, List.flatMap_cons, List.flatMap_map]
    cases j with
    | zero => rw [Nat.mul_zero, List.drop_zero, List.take_left' (hf 0 (by omega))]
    | succ j =>
      have h0 := hf 0 (by omega)
      rw [Nat.mul_succ, Nat.add_comm, ← List.drop_drop, List.drop_left' h0]
      exact ih (f := fun i => f (i + 1)) (fun i hi => hf (i + 1) (by omega)) (by omega)

theorem flatMap_chunks {α : Type} (l : List α) (k n : Nat) : (List.range n).flatMap (fun j => (l.drop (k * j)).take k) = l.take (k * n) := by
  induction n with
  | zero => rfl
  | succ n ih => rw [List.range_succ, List.flatMap_append, ih, List.flatMap_singleton, Nat.mul_succ, List.take_add]

/-- A result is the bytes whose elements are those of the reduction. -/
theorem eq_redBytes {cs : List (List Nat)} (hlen : b.length = o.count * (fmtWidth o.dtype / 8)) (hb : ∀ z ∈ b, z < 256)
    (h : ∀ j < o.count, leNat ((b.drop (fmtWidth o.dtype / 8 * j)).take (fmtWidth o.dtype / 8)) = redElem o cs (o.chunk j) j % 256 ^ (fmtWidth o.dtype / 8)) :
    redBytes o cs = b := by
  generalize hk : fmtWidth o.dtype / 8 = k at *
  have hwhole : b = (List.range o.count).flatMap fun j => (b.drop (k * j)).take k := by
    rw [flatMap_chunks, List.take_of_length_le (by rw [hlen, Nat.mul_comm])]
  rw [redBytes, hk]
  refine .trans (List.flatMap_congr fun j hj => (eq_leBytes ?_ (fun z hz => hb z (List.mem_of_mem_drop (List.mem_of_mem_take hz))) ?_).symm) hwhole.symm
  · have hle : (j + 1) * k ≤ o.count * k := Nat.mul_le_mul_right _ (List.mem_range.mp hj)
    have : (j + 1) * k = k * j + k := by ring
    rw [List.length_take, List.length_drop]
    omega
  · exact h j (List.mem_range.mp hj)

theorem redBytes_says (cs : List (List Nat)) : (redBytes o cs).length = o.count * (fmtWidth o.dtype / 8) ∧ (∀ z ∈ redBytes o cs, z < 256) ∧
    ∀ j < o.count, leNat (((redBytes o cs).drop (fmtWidth o.dtype / 8 * j)).take (fmtWidth o.dtype / 8)) =
      redElem o cs (o.chunk j) j % 256 ^ (fmtWidth o.dtype / 8) := by
  refine ⟨?_, fun z hz => ?_, fun j hj => ?_⟩
  · rw [redBytes, List.length_flatMap, List.map_congr_left fun i _ => leBytes_length .., List.map_const', List.sum_replicate, List.length_range, smul_eq_mul]
  · obtain ⟨i, -, hi⟩ := List.mem_flatMap.mp hz
    exact leBytes_byte hi
  · rw [redBytes, chunk_of_flatMap (fun i _ => leBytes_length ..) hj, leNat_leBytes]

end Sys2Proof.Machine
end

section
/-! The orders of reductions, and integer reductions (R67, R68). -/

namespace Sys2Proof.Machine

variable {n c : Nat} {x : Nat → Nat} {f : Nat → Nat → Nat}

/-! The ring order -/

/-- The values of k ranks of a ring, from a rank on. -/
def ringOrder (n c : Nat) (x : Nat → Nat) (k : Nat) : List Nat := (List.range k).map fun j => x ((c + j) % n)

/-- The value of a ring after k combinations. -/
def ringFold (f : Nat → Nat → Nat) (n c : Nat) (x : Nat → Nat) (k : Nat) : Nat :=
  (ringOrder n (c + 2) x k).foldl f (x ((c + 1) % n))

theorem ringFold_succ (f : Nat → Nat → Nat) (n c : Nat) (x : Nat → Nat) (k : Nat) :
    ringFold f n c x (k + 1) = f (ringFold f n c x k) (x ((c + 2 + k) % n)) := by
  rw [ringFold, ringOrder, List.range_succ, List.map_append, List.foldl_append]
  rfl

theorem ringRed_fold (hn : 0 < n) : ringRed f c ((List.range n).map x) = ringFold f n c x (n - 1) := by
  have hlist : ((List.range n).map fun j => ((List.range n).map x).getD ((c + 1 + j) % n) 0) =
      x ((c + 1) % n) :: ringOrder n (c + 2) x (n - 1) := by
    have hget (j : Nat) : ((List.range n).map x).getD ((c + 1 + j) % n) 0 = x ((c + 1 + j) % n) := by
      rw [List.getD_eq_getElem?_getD, List.getElem?_map, List.getElem?_range (Nat.mod_lt _ hn)]
      rfl
    obtain ⟨m, rfl⟩ : ∃ m, n = m + 1 := ⟨n - 1, by omega⟩
    simp only [hget]
    rw [List.range_succ_eq_map, List.map_cons, List.map_map, ringOrder, Nat.add_sub_cancel, Nat.add_zero]
    refine congrArg _ (List.map_congr_left fun j _ => ?_)
    rw [Function.comp_apply, show c + 1 + j.succ = c + 2 + j by omega]
  rw [ringRed]
  simp only [List.length_map, List.length_range]
  rw [hlist, ringFold]

/-- What holds of the first value and of each combination holds of a ring's result. -/
theorem ringRed_reaches {S : Nat → Nat → Prop} (hn : 0 < n) (h0 : S 0 (x ((c + 1) % n)))
    (hstep : ∀ k u, k + 1 < n → S k u → S (k + 1) (f u (x ((c + 2 + k) % n)))) : S (n - 1) (ringRed f c ((List.range n).map x)) := by
  have hall (k : Nat) (hk : k < n) : S k (ringFold f n c x k) := by
    induction k with
    | zero => exact h0
    | succ k ih => rw [ringFold_succ]; exact hstep k _ hk (ih (by omega))
  rw [ringRed_fold hn]
  exact hall _ (by omega)

/-- A ring takes each rank's value once. -/
theorem ringOrder_perm (n c : Nat) (x : Nat → Nat) : (ringOrder n c x n).Perm ((List.range n).map x) := by
  have hrot : ringOrder n c x n = ((List.range n).map x).rotate c := by
    refine List.ext_getElem (by rw [List.length_rotate, ringOrder, List.length_map, List.length_map]) fun j _ _ => ?_
    simp only [ringOrder, List.getElem_map, List.getElem_range, List.getElem_rotate, List.length_map, List.length_range]
    rw [Nat.add_comm]
  rw [hrot]
  exact List.rotate_perm _ _

/-! The tree order -/

/-- A level of a tree: its values hold of the ranks 2^k apart, of those below n. -/
structure Level (S : Nat → Nat → Nat → Prop) (n k : Nat) (l : List Nat) : Prop where
  length : ∀ i, i < l.length ↔ i * 2 ^ k < n
  holds : ∀ i v, l[i]? = some v → S k (i * 2 ^ k) v

theorem pairUp_getElem? (f : Nat → Nat → Nat) (l : List Nat) (i : Nat) : (pairUp f l)[i]? =
    match l[2 * i]?, l[2 * i + 1]? with
    | some a, some b => some (f a b)
    | r, _ => r := by
  induction l using pairUp.induct generalizing i with
  | case1 a b t ih =>
    rw [pairUp]
    cases i with
    | zero => rfl
    | succ i =>
      rw [List.getElem?_cons_succ, ih, show 2 * (i + 1) = 2 * i + 1 + 1 by omega]
      rfl
  | case2 l h =>
    match l, h with
    | [], _ => rfl
    | [a], _ =>
      cases i with
      | zero => rfl
      | succ i => rw [show 2 * (i + 1) = 2 * i + 1 + 1 by omega]; rfl
    | a :: b :: t, h => exact absurd rfl (h a b t)

/-- A subtree that has all ranks stands for the deeper ones. -/
theorem Level.rises {S : Nat → Nat → Nat → Prop} {k v : Nat} (hone : ∀ k r p, n ≤ r + 2 ^ k → S k r p → S (k + 1) r p) (hle : n ≤ 2 ^ k)
    (hv : S k 0 v) (d : Nat) : S (k + d) 0 v := by
  induction d with
  | zero => exact hv
  | succ d ih => exact hone _ _ _ (by rw [Nat.zero_add]; exact hle.trans (Nat.pow_le_pow_right (by decide) (Nat.le_add_right k d))) ih

section
variable {S : Nat → Nat → Nat → Prop}
  (hboth : ∀ k r p q, r + 2 ^ k < n → S k r p → S k (r + 2 ^ k) q → S (k + 1) r (f p q))
  (hone : ∀ k r p, n ≤ r + 2 ^ k → S k r p → S (k + 1) r p)
include hboth hone

/-- Neighbours combined make the next level. -/
theorem Level.pairUp {k : Nat} {l : List Nat} (h : Level S n k l) : Level S n (k + 1) (pairUp f l) := by
  have hlow (i : Nat) : i * 2 ^ (k + 1) = 2 * i * 2 ^ k := by ring
  have hhigh (i : Nat) : (2 * i + 1) * 2 ^ k = 2 * i * 2 ^ k + 2 ^ k := by ring
  refine ⟨fun i => ?_, fun i v hv => ?_⟩
  · have hat := pairUp_getElem? f l i
    rw [hlow, ← h.length]
    by_cases hi : 2 * i < l.length
    · refine iff_of_true ?_ hi
      rw [List.getElem?_eq_getElem hi] at hat
      cases hnext : l[2 * i + 1]? with
      | none => rw [hnext] at hat; exact (List.getElem?_eq_some_iff.mp hat).1
      | some b => rw [hnext] at hat; exact (List.getElem?_eq_some_iff.mp hat).1
    · refine iff_of_false ?_ hi
      rw [List.getElem?_eq_none (not_lt.mp hi)] at hat
      exact not_lt.mpr (List.getElem?_eq_none_iff.mp hat)
  · rw [pairUp_getElem?] at hv
    rw [hlow]
    cases hp : l[2 * i]? with
    | none => rw [hp] at hv; cases hv
    | some p =>
      have hsp := h.holds _ _ hp
      cases hq : l[2 * i + 1]? with
      | none =>
        rw [hp, hq] at hv
        cases hv
        have hlen := mt (h.length (2 * i + 1)).mpr (not_lt.mpr (List.getElem?_eq_none_iff.mp hq))
        exact hone k _ _ (by rw [hhigh] at hlen; omega) hsp
      | some q =>
        rw [hp, hq] at hv
        cases hv
        have hsq := h.holds _ _ hq
        have hlen := (h.length (2 * i + 1)).mp (List.getElem?_eq_some_iff.mp hq).1
        rw [hhigh] at hsq hlen
        exact hboth k _ _ _ hlen hsp hsq

/-- What holds of a rank's value, of two halves combined and of a half alone holds of a tree's result. -/
theorem Level.reaches {k g : Nat} {l : List Nat} (h : Level S n k l) (hn : 0 < n) (hdepth : n ≤ 2 ^ 12) (hk : k + g = 13) (hk12 : k ≤ 12) :
    S 12 0 (treeRed f g l) := by
  induction g generalizing k l with
  | zero => omega
  | succ g ih =>
    have hpos : 0 < l.length := (h.length 0).mpr (by rw [Nat.zero_mul]; exact hn)
    rw [treeRed]
    by_cases hl : l.length ≤ 1
    · have hle : n ≤ 2 ^ k := by
        have := mt (h.length 1).mpr (not_lt.mpr hl)
        rw [Nat.one_mul] at this
        omega
      have hhead : l[0]? = some (l.headD 0) := by
        cases l with
        | nil => simp at hpos
        | cons a t => rfl
      have hs := h.holds 0 _ hhead
      rw [Nat.zero_mul] at hs
      rw [if_pos hl, show 12 = k + (12 - k) by omega]
      exact Level.rises hone hle hs _
    · have hlt : k < 12 := by
        refine lt_of_le_of_ne hk12 fun h12 => ?_
        have := (h.length 1).mp (not_le.mp hl)
        rw [h12, Nat.one_mul] at this
        omega
      rw [if_neg hl]
      exact ih (h.pairUp hboth hone) (by omega) (by omega)

theorem treeRed_reaches (h0 : ∀ r < n, S 0 r (x r)) (hn : 0 < n) (hdepth : n ≤ 4096) : S 12 0 (treeRed f 13 ((List.range n).map x)) := by
  refine Level.reaches hboth hone (k := 0) ⟨fun i => ?_, fun i v hv => ?_⟩ hn hdepth rfl (by decide)
  · rw [List.length_map, List.length_range, Nat.pow_zero, Nat.mul_one]
  · rw [Nat.pow_zero, Nat.mul_one]
    obtain ⟨hi, rfl⟩ := List.getElem?_eq_some_iff.mp hv
    rw [List.length_map, List.length_range] at hi
    rw [List.getElem_map, List.getElem_range]
    exact h0 i hi

end

/-! A reduction whose order does not matter -/

/-- A relation between some values and their reduction: of one value it is the value, and it goes with combinations in any order. -/
structure Gathers (f : Nat → Nat → Nat) (R : List Nat → Nat → Prop) (ok : Nat → Prop) : Prop where
  one : ∀ v, ok v → R [v] v
  join : ∀ l m a b, R l a → R m b → R (l ++ m) (f a b)
  perm : ∀ l m v, l.Perm m → R l v → R m v

/-- The values of the ranks of a subtree of depth k from a rank on. -/
def subtree (n : Nat) (x : Nat → Nat) (k r : Nat) : List Nat := (List.range' r (min (2 ^ k) (n - r))).map x

theorem subtree_both {k r : Nat} (h : r + 2 ^ k < n) : subtree n x (k + 1) r = subtree n x k r ++ subtree n x k (r + 2 ^ k) := by
  have hlen : min (2 ^ (k + 1)) (n - r) = 2 ^ k + min (2 ^ k) (n - (r + 2 ^ k)) := by rw [pow_succ]; omega
  rw [subtree, subtree, subtree, ← List.map_append, hlen, min_eq_left (show 2 ^ k ≤ n - r by omega), List.range'_append_1]

theorem subtree_one {k r : Nat} (h : n ≤ r + 2 ^ k) : subtree n x (k + 1) r = subtree n x k r := by
  have hlen : min (2 ^ (k + 1)) (n - r) = min (2 ^ k) (n - r) := by rw [pow_succ]; omega
  rw [subtree, subtree, hlen]

section
variable {R : List Nat → Nat → Prop} {ok : Nat → Prop} (h : Gathers f R ok) (hx : ∀ r < n, ok (x r)) (hn : 0 < n)
include h hx hn

theorem Gathers.ring : R ((List.range n).map x) (ringRed f c ((List.range n).map x)) := by
  have hring := ringRed_reaches (S := fun k v => R (ringOrder n (c + 1) x (k + 1)) v) (f := f) (c := c) (x := x) hn
    (by rw [ringOrder, List.range_one, List.map_singleton, Nat.add_zero]; exact h.one _ (hx _ (Nat.mod_lt _ hn)))
    fun k u hk hu => by
      rw [ringOrder, List.range_succ, List.map_append, List.map_singleton, show c + 1 + (k + 1) = c + 2 + k by omega]
      exact h.join _ _ _ _ hu (h.one _ (hx _ (Nat.mod_lt _ hn)))
  rw [Nat.sub_add_cancel hn] at hring
  exact h.perm _ _ _ (ringOrder_perm n (c + 1) x) hring

theorem Gathers.tree (hdepth : n ≤ 4096) : R ((List.range n).map x) (treeRed f 13 ((List.range n).map x)) := by
  have htree := treeRed_reaches (S := fun k r v => R (subtree n x k r) v) (f := f) (x := x)
    (fun k r p q hlt hp hq => by rw [subtree_both hlt]; exact h.join _ _ _ _ hp hq)
    (fun k r p hle hp => by rw [subtree_one hle]; exact hp)
    (fun r hr => by
      rw [subtree, Nat.pow_zero, min_eq_left (by omega), List.range'_one, List.map_singleton]
      exact h.one _ (hx r hr)) hn hdepth
  have hall : subtree n x 12 0 = (List.range n).map x := by rw [subtree, min_eq_right (by omega), Nat.sub_zero, List.range_eq_range']
  rw [hall] at htree
  exact htree

end

end Sys2Proof.Machine
end

section
/-! Integer reductions (R67, R68). -/

namespace Sys2Proof.Machine

variable {w n v u : Nat} {x : Nat → Nat} {l : List Nat} {o : COp}

/-- Bytes below a bound. -/
theorem leNat_lt (h : ∀ z ∈ l, z < 256) : leNat l < 256 ^ l.length := by
  induction l with
  | nil => exact Nat.one_pos
  | cons a l ih =>
    rw [List.forall_mem_cons] at h
    have := ih h.2
    rw [leNat, List.length_cons, pow_succ]
    omega

/-- The bytes of an element. -/
theorem elem_lt {k : Nat} (h : ∀ z ∈ l, z < 256) (j : Nat) : leNat ((l.drop j).take k) < 256 ^ k :=
  (leNat_lt fun z hz => h z (List.mem_of_mem_drop (List.mem_of_mem_take hz))).trans_le (Nat.pow_le_pow_right (by decide) (List.length_take_le ..))

/-! Each operation, of values of w bits -/

theorem gathers_sum (w : Nat) : Gathers (fun a b => (a + b) % 2 ^ w) (fun l v => v = l.sum % 2 ^ w) (· < 2 ^ w) where
  one v hv := by rw [List.sum_singleton, Nat.mod_eq_of_lt hv]
  join l m a b ha hb := by rw [ha, hb, List.sum_append, ← Nat.add_mod]
  perm l m v hp hv := by rw [hv, hp.sum_eq]

/-- v is the least of some values, or the greatest, by a key. -/
def IsLeast (key : Nat → Int) (l : List Nat) (v : Nat) : Prop := v ∈ l ∧ ∀ z ∈ l, key v ≤ key z

theorem IsLeast.append {key : Nat → Int} {l m : List Nat} {a b v : Nat} (ha : IsLeast key l a) (hb : IsLeast key m b) (hv : v = a ∨ v = b)
    (hva : key v ≤ key a) (hvb : key v ≤ key b) : IsLeast key (l ++ m) v := by
  refine ⟨List.mem_append.mpr (hv.imp (fun h => by rw [h]; exact ha.1) fun h => by rw [h]; exact hb.1), fun z hz => ?_⟩
  exact (List.mem_append.mp hz).elim (fun h => hva.trans (ha.2 z h)) fun h => hvb.trans (hb.2 z h)

theorem gathers_least {key : Nat → Int} {f : Nat → Nat → Nat} (hf : ∀ a b, (f a b = a ∧ key a ≤ key b) ∨ (f a b = b ∧ key b ≤ key a)) (ok : Nat → Prop) :
    Gathers f (IsLeast key) ok where
  one v _ := ⟨List.mem_singleton_self v, fun z hz => by rw [List.mem_singleton.mp hz]⟩
  join l m a b ha hb := by
    rcases hf a b with ⟨h, hle⟩ | ⟨h, hle⟩ <;> rw [h]
    · exact ha.append hb (.inl rfl) le_rfl hle
    · exact ha.append hb (.inr rfl) hle le_rfl
  perm l m v hp hv := ⟨hp.subset hv.1, fun z hz => hv.2 z (hp.symm.subset hz)⟩

theorem gathers_or (ok : Nat → Prop) : Gathers (· ||| ·) (fun l v => ∀ k, v.testBit k = true ↔ ∃ z ∈ l, z.testBit k = true) ok where
  one v _ k := by simp only [List.mem_singleton, exists_eq_left]
  join l m a b ha hb k := by
    rw [Nat.testBit_or, Bool.or_eq_true, ha, hb]
    simp only [List.mem_append, or_and_right, exists_or]
  perm l m v hp hv k := by simp only [hv k, hp.mem_iff]

theorem gathers_and (ok : Nat → Prop) : Gathers (· &&& ·) (fun l v => ∀ k, v.testBit k = true ↔ ∀ z ∈ l, z.testBit k = true) ok where
  one v _ k := by simp only [List.mem_singleton, forall_eq]
  join l m a b ha hb k := by
    rw [Nat.testBit_and, Bool.and_eq_true, ha, hb]
    simp only [List.mem_append, or_imp, forall_and]
  perm l m v hp hv k := by simp only [hv k, hp.mem_iff]

/-! What such a relation says of the result -/

/-- A value of w bits has its bits below w alone. -/
theorem eq_of_low_bits (hu : u < 2 ^ w) (hv : v < 2 ^ w) (h : ∀ k < w, u.testBit k = true ↔ v.testBit k = true) : u = v := by
  refine Nat.eq_of_testBit_eq fun k => ?_
  by_cases hk : k < w
  · exact Bool.eq_iff_iff.mpr (h k hk)
  · rw [Nat.testBit_lt_two_pow (hu.trans_le (Nat.pow_le_pow_right (by decide) (not_lt.mp hk))),
      Nat.testBit_lt_two_pow (hv.trans_le (Nat.pow_le_pow_right (by decide) (not_lt.mp hk)))]

theorem sgn_inj (hu : u < 2 ^ w) (hv : v < 2 ^ w) (h : sgn w u = sgn w v) : u = v := by
  have hpow : ((2 ^ w : Nat) : Int) = 2 ^ w := by push_cast; rfl
  rw [sgn, sgn, ← hpow] at h
  split_ifs at h <;> omega

/-! The elements of a reduction -/

/-- An element of the parts of the ranks, as the reduction holds it. -/
def partElem (o : COp) (P : Nat → List Nat) (j r : Nat) : Nat :=
  redLoad o.dtype (leNat (((P r).drop (fmtWidth o.dtype / 8 * j)).take (fmtWidth o.dtype / 8)))

/-- An element's reduction in the order of the block's algorithm. -/
def inOrder (o : COp) (P : Nat → List Nat) (j : Nat) : Nat :=
  if o.alg = 1 then ringRed (redOne o.redop o.dtype) (o.chunk j) ((List.range o.n).map (partElem o P j))
  else treeRed (redOne o.redop o.dtype) 13 ((List.range o.n).map (partElem o P j))

theorem redElem_parts (o : COp) (P : Nat → List Nat) (j : Nat) :
    redElem o ((List.range o.n).map P) (o.chunk j) j = redStore o.dtype (inOrder o P j) := by
  rw [redElem, inOrder, List.map_map]
  rfl

theorem Gathers.inOrders {f : Nat → Nat → Nat} {R : List Nat → Nat → Prop} {ok : Nat → Prop} (h : Gathers f R ok) (hf : redOne o.redop o.dtype = f)
    {P : Nat → List Nat} {j : Nat} (hx : ∀ r < o.n, ok (partElem o P j r)) (hn : 0 < o.n) (hdepth : o.n ≤ 4096) :
    R ((List.range o.n).map (partElem o P j)) (inOrder o P j) := by
  rw [inOrder, hf]
  split_ifs
  · exact h.ring hx hn
  · exact h.tree hx hn hdepth

section
variable (hd : o.dtype ∈ [4, 5, 6])
include hd

theorem int_width : fmtWidth o.dtype ∈ [8, 16, 32] ∧ 1 < o.dtype := by
  simp only [List.mem_cons, List.not_mem_nil, or_false] at hd
  rcases hd with h | h | h <;> rw [h] <;> decide

theorem int_redStore (v : Nat) : redStore o.dtype v = v := by
  have := (int_width hd).2
  rw [redStore, if_neg (by omega), if_neg (by omega)]

theorem int_redOne (a b : Nat) : redOne o.redop o.dtype a b =
    if o.redop = 0 then (a + b) % 2 ^ fmtWidth o.dtype
    else if o.redop = 1 then (if sext (fmtWidth o.dtype) a ≤ sext (fmtWidth o.dtype) b then a else b)
    else if o.redop = 2 then (if sext (fmtWidth o.dtype) a ≤ sext (fmtWidth o.dtype) b then b else a)
    else if o.redop = 3 then a ||| b else a &&& b := by
  have := (int_width hd).2
  rw [redOne, if_neg (by omega)]

theorem int_pow : 256 ^ (fmtWidth o.dtype / 8) = 2 ^ fmtWidth o.dtype := by
  have hw := (int_width hd).1
  simp only [List.mem_cons, List.not_mem_nil, or_false] at hw
  rcases hw with h | h | h <;> rw [h] <;> rfl

variable {P : Nat → List Nat} {j res : Nat} (hn : 0 < o.n) (hdepth : o.n ≤ 4096)

theorem int_partElem (P : Nat → List Nat) (j r : Nat) : partElem o P j r = leNat (((P r).drop (fmtWidth o.dtype / 8 * j)).take (fmtWidth o.dtype / 8)) := by
  have := (int_width hd).2
  rw [partElem, redLoad, if_neg (by omega)]

theorem int_partElem_lt {r : Nat} (hP : ∀ r < o.n, ∀ z ∈ P r, z < 256) (hr : r < o.n) (j : Nat) : partElem o P j r < 2 ^ fmtWidth o.dtype := by
  rw [int_partElem hd, ← int_pow hd]
  exact elem_lt (hP r hr) _

include hn hdepth

theorem int_sum (hP : ∀ r < o.n, ∀ z ∈ P r, z < 256) (h0 : o.redop = 0) (j : Nat) :
    inOrder o P j = ((List.range o.n).map (partElem o P j)).sum % 2 ^ fmtWidth o.dtype :=
  (gathers_sum _).inOrders (by funext a b; rw [int_redOne hd, if_pos h0]) (fun r hr => int_partElem_lt hd hP hr j) hn hdepth

theorem int_least (h1 : o.redop = 1) (j : Nat) : IsLeast (sext (fmtWidth o.dtype)) ((List.range o.n).map (partElem o P j)) (inOrder o P j) := by
  refine (gathers_least (fun a b => ?_) fun _ => True).inOrders (f := redOne o.redop o.dtype) rfl (fun _ _ => trivial) hn hdepth
  rw [int_redOne hd, if_neg (by omega), if_pos h1]
  split_ifs with h
  · exact .inl ⟨rfl, h⟩
  · exact .inr ⟨rfl, (not_le.mp h).le⟩

theorem int_greatest (h2 : o.redop = 2) (j : Nat) :
    IsLeast (fun v => - sext (fmtWidth o.dtype) v) ((List.range o.n).map (partElem o P j)) (inOrder o P j) := by
  refine (gathers_least (fun a b => ?_) fun _ => True).inOrders (f := redOne o.redop o.dtype) rfl (fun _ _ => trivial) hn hdepth
  rw [int_redOne hd, if_neg (by omega), if_neg (by omega), if_pos h2]
  split_ifs with h
  · exact .inr ⟨rfl, neg_le_neg h⟩
  · exact .inl ⟨rfl, neg_le_neg (not_le.mp h).le⟩

theorem int_or (h3 : o.redop = 3) (j k : Nat) : (inOrder o P j).testBit k = true ↔ ∃ r < o.n, (partElem o P j r).testBit k = true := by
  have := (gathers_or fun _ => True).inOrders (o := o) (P := P) (j := j) (by
    funext a b; rw [int_redOne hd, if_neg (by omega), if_neg (by omega), if_neg (by omega), if_pos h3]) (fun _ _ => trivial) hn hdepth k
  simpa only [List.mem_map, List.mem_range, exists_exists_and_eq_and] using this

theorem int_and (h4 : o.redop = 4) (j k : Nat) : (inOrder o P j).testBit k = true ↔ ∀ r < o.n, (partElem o P j r).testBit k = true := by
  have := (gathers_and fun _ => True).inOrders (o := o) (P := P) (j := j) (by
    funext a b; rw [int_redOne hd, if_neg (by omega), if_neg (by omega), if_neg (by omega), if_neg (by omega)]) (fun _ _ => trivial) hn hdepth k
  simpa only [List.mem_map, List.mem_range, forall_exists_index, and_imp, forall_apply_eq_imp_iff₂] using this

section
variable (hP : ∀ r < o.n, ∀ z ∈ P r, z < 256) (hres : res < 2 ^ fmtWidth o.dtype)
include hP hres

omit hn hdepth in
/-- The least and the greatest of the elements are values of w bits that their key determines. -/
theorem int_key_eq {key : Nat → Int} (hkey : ∀ u v, u < 2 ^ fmtWidth o.dtype → v < 2 ^ fmtWidth o.dtype → key u = key v → u = v)
    (h : IsLeast key ((List.range o.n).map (partElem o P j)) (inOrder o P j)) (hin : ∃ r < o.n, res = partElem o P j r)
    (hle : ∀ z < o.n, key res ≤ key (partElem o P j z)) : inOrder o P j = res := by
  obtain ⟨hmem, hleast⟩ := h
  obtain ⟨r, hr, hred⟩ := List.mem_map.mp hmem
  obtain ⟨q, hq, rfl⟩ := hin
  have hr := List.mem_range.mp hr
  have hlt : inOrder o P j < 2 ^ fmtWidth o.dtype := hred ▸ int_partElem_lt hd hP hr j
  exact hkey _ _ hlt hres ((hleast _ (List.mem_map_of_mem (List.mem_range.mpr hq))).antisymm (hred ▸ hle r hr))

theorem int_least_eq (h1 : o.redop = 1) (hin : ∃ r < o.n, res = partElem o P j r)
    (hle : ∀ z < o.n, sgn (fmtWidth o.dtype) res ≤ sgn (fmtWidth o.dtype) (partElem o P j z)) : inOrder o P j = res := by
  refine int_key_eq hd hP hres (fun u v hu hv h => ?_) (int_least hd hn hdepth h1 j) hin fun z hz => ?_
  · rw [sext_eq_sgn hu, sext_eq_sgn hv] at h
    exact sgn_inj hu hv h
  · rw [sext_eq_sgn hres, sext_eq_sgn (int_partElem_lt hd hP hz j)]
    exact hle z hz

theorem int_greatest_eq (h2 : o.redop = 2) (hin : ∃ r < o.n, res = partElem o P j r)
    (hle : ∀ z < o.n, sgn (fmtWidth o.dtype) (partElem o P j z) ≤ sgn (fmtWidth o.dtype) res) : inOrder o P j = res := by
  refine int_key_eq hd hP hres (fun u v hu hv h => ?_) (int_greatest hd hn hdepth h2 j) hin fun z hz => ?_
  · rw [neg_inj, sext_eq_sgn hu, sext_eq_sgn hv] at h
    exact sgn_inj hu hv h
  · rw [neg_le_neg_iff, sext_eq_sgn hres, sext_eq_sgn (int_partElem_lt hd hP hz j)]
    exact hle z hz

omit hn hdepth in
/-- A combination of bits has no bit beyond those of the elements. -/
theorem int_bits_eq (hbits : ∀ k, (inOrder o P j).testBit k = true → ∃ r < o.n, (partElem o P j r).testBit k = true)
    (h : ∀ k < fmtWidth o.dtype, res.testBit k = true ↔ (inOrder o P j).testBit k = true) : inOrder o P j = res := by
  refine eq_of_low_bits (Nat.lt_pow_two_of_testBit _ fun k hk => Bool.eq_false_iff.mpr fun hbit => ?_) hres fun k hk => (h k hk).symm
  obtain ⟨r, hr, hbit⟩ := hbits k hbit
  rw [Nat.testBit_lt_two_pow ((int_partElem_lt hd hP hr j).trans_le (Nat.pow_le_pow_right (by decide) hk))] at hbit
  exact Bool.false_ne_true hbit

theorem int_or_eq (h3 : o.redop = 3) (h : ∀ k < fmtWidth o.dtype, res.testBit k = true ↔ ∃ r < o.n, (partElem o P j r).testBit k = true) :
    inOrder o P j = res :=
  int_bits_eq hd hP hres (fun k hk => (int_or hd hn hdepth h3 j k).mp hk) fun k hk => (h k hk).trans (int_or hd hn hdepth h3 j k).symm

theorem int_and_eq (h4 : o.redop = 4) (h : ∀ k < fmtWidth o.dtype, res.testBit k = true ↔ ∀ r < o.n, (partElem o P j r).testBit k = true) :
    inOrder o P j = res :=
  int_bits_eq hd hP hres (fun k hk => ⟨0, hn, (int_and hd hn hdepth h4 j k).mp hk 0 hn⟩)
    fun k hk => (h k hk).trans (int_and hd hn hdepth h4 j k).symm

end

end

end Sys2Proof.Machine
end

section
/-! Floating-point reductions (R67, R68, R244, R249). -/

namespace Sys2Proof.Machine

variable {a b c n : Nat} {e : Int} {neg : Bool} {o : COp}

/-! FP32 codes: their magnitudes in order -/

/-- The magnitude of an FP32 code without its sign, in units of 2^-149; infinity is the next above the largest. -/
def fpVal (m : Nat) : Nat := (if m / 2 ^ 23 = 0 then m % 2 ^ 23 else 2 ^ 23 + m % 2 ^ 23) * 2 ^ (m / 2 ^ 23 - 1)

theorem fpVal_strictMono : StrictMono fpVal := by
  refine strictMono_nat_of_lt_succ fun m => ?_
  have hpos := Nat.two_pow_pos (m / 2 ^ 23 - 1)
  rw [fpVal, fpVal]
  by_cases hlast : (m + 1) / 2 ^ 23 = m / 2 ^ 23
  · rw [hlast]
    refine Nat.mul_lt_mul_of_pos_right ?_ hpos
    split_ifs <;> omega
  · have hnext : (m + 1) / 2 ^ 23 = m / 2 ^ 23 + 1 := by omega
    have hmod : (m + 1) % 2 ^ 23 = 0 := by omega
    rw [hnext, hmod, if_neg (Nat.succ_ne_zero _), Nat.add_zero, Nat.add_sub_cancel]
    by_cases h0 : m / 2 ^ 23 = 0
    · rw [if_pos h0, h0]
      omega
    · obtain ⟨k, hk⟩ : ∃ k, m / 2 ^ 23 = k + 1 := ⟨m / 2 ^ 23 - 1, by omega⟩
      rw [hk] at hpos ⊢
      rw [if_neg (Nat.succ_ne_zero _), Nat.add_sub_cancel] at *
      calc (2 ^ 23 + m % 2 ^ 23) * 2 ^ k < (2 ^ 23 + 2 ^ 23) * 2 ^ k := Nat.mul_lt_mul_of_pos_right (by omega) hpos
        _ = 2 ^ 23 * 2 ^ (k + 1) := by rw [pow_succ]; ring

theorem fpVal_zero : fpVal 0 = 0 := rfl

theorem fpVal_eq_zero_iff (m : Nat) : fpVal m = 0 ↔ m = 0 :=
  ⟨fun h => fpVal_strictMono.injective (h.trans fpVal_zero.symm), fun h => h ▸ fpVal_zero⟩

/-- What an FP32 code that is no NaN says: its sign, and an infinity or a magnitude in the form of its code. -/
inductive Decodes (c : Nat) : Num → Prop
  | inf (h : c % 2 ^ 31 = 255 * 2 ^ 23) : Decodes c (.inf (decide (2 ^ 31 ≤ c)))
  | fin (n : Nat) (e : Int) (hfin : c % 2 ^ 31 < 255 * 2 ^ 23) (he : -149 ≤ e) (hval : n * 2 ^ (e + 149).toNat = fpVal (c % 2 ^ 31))
    (hlow : n < 2 ^ 23 → e = -149 ∧ n = c % 2 ^ 31) (hhigh : 2 ^ 23 ≤ n → n < 2 ^ 24 ∧ c % 2 ^ 31 = (e + 150).toNat * 2 ^ 23 + (n - 2 ^ 23)) :
    Decodes c (.fin (decide (2 ^ 31 ≤ c)) n e)

theorem decodes (hc : c < 2 ^ 32) (h : decIeee 23 c ≠ .nan) : Decodes c (decIeee 23 c) := by
  have hneg : c.testBit 31 = decide (2 ^ 31 ≤ c) := by
    rw [Bool.eq_iff_iff, testBit_iff, decide_eq_true_eq]
    omega
  have hexp : bits c 30 23 = c % 2 ^ 31 / 2 ^ 23 := by rw [bits]; omega
  have hfrac : c % 2 ^ 23 = c % 2 ^ 31 % 2 ^ 23 := by omega
  have hlt : c % 2 ^ 31 < 2 ^ 31 := Nat.mod_lt _ (by decide)
  have hdec : decIeee 23 c = if c % 2 ^ 31 / 2 ^ 23 = 255 then (if c % 2 ^ 31 % 2 ^ 23 = 0 then .inf (decide (2 ^ 31 ≤ c)) else .nan)
      else if c % 2 ^ 31 / 2 ^ 23 = 0 then .fin (decide (2 ^ 31 ≤ c)) (c % 2 ^ 31 % 2 ^ 23) (-126 - 23)
      else .fin (decide (2 ^ 31 ≤ c)) (2 ^ 23 + c % 2 ^ 31 % 2 ^ 23) (((c % 2 ^ 31 / 2 ^ 23 : Nat) : Int) - 127 - 23) := by
    rw [decIeee, hneg, hexp, hfrac]
    rfl
  rw [hdec] at h ⊢
  generalize hm : c % 2 ^ 31 = m at *
  split_ifs at h ⊢ with h255 h0 h0
  · exact .inf (by omega)
  · exact absurd rfl h
  · refine .fin _ _ (by omega) (by omega) ?_ (fun _ => ⟨by omega, by omega⟩) fun hn => by omega
    rw [hm, fpVal, if_pos h0, h0]
    rfl
  · refine .fin _ _ (by omega) (by omega) ?_ (fun hn => by omega) fun _ => ⟨by omega, by omega⟩
    rw [hm, fpVal, if_neg h0]
    congr 2
    omega

/-- A magnitude that has its format's form is rounded to itself. -/
theorem roundMag_exact (hn : 0 < n) (he : -149 ≤ e) (he' : e ≤ 104) (hlow : n < 2 ^ 23 → e = -149) (hhigh : n < 2 ^ 24) (neg : Bool) :
    ∃ tiny, roundMag formFp32 .rne 0 neg n e = (n, e, false, tiny, false) := by
  have hlast : max (e + ((Nat.log2 n : Nat) : Int) + 1 - (24 : Nat)) (-149) = e := by
    by_cases h23 : n < 2 ^ 23
    · have : Nat.log2 n < 23 := (Nat.log2_lt (by omega)).mpr h23
      have := hlow h23
      omega
    · have h1 : Nat.log2 n < 24 := (Nat.log2_lt (by omega)).mpr hhigh
      have h2 : 23 ≤ Nat.log2 n := (Nat.le_log2 (by omega)).mpr (by omega)
      omega
  have hround : roundAt .rne 0 neg n e e = (n, false) := by
    rw [roundAt, if_pos le_rfl, sub_self, shiftUp, Int.toNat_zero, Nat.pow_zero, Nat.mul_one]
  refine ⟨decide (n < 2 ^ 23), ?_⟩
  rw [roundMag]
  simp only [formFp32, hlast, hround]
  rw [if_neg (by omega)]
  have hovf : (decide (e > 104) || e == 104 && decide (n > 2 ^ 24 - 1)) = false := by
    simp only [Bool.or_eq_false_iff, decide_eq_false_iff_not, Bool.and_eq_false_iff]
    omega
  simp only [hovf]

/-- An FP32 code that is no NaN is the code of its value. -/
theorem encIeeeR_decIeee (hc : c < 2 ^ 32) (h : decIeee 23 c ≠ .nan) : (encIeeeR 1 false .rne 0 (decIeee 23 c)).1 = c := by
  have hsign : (if decide (2 ^ 31 ≤ c) = true then 2 ^ 31 else 0) + c % 2 ^ 31 = c := by
    by_cases hs : 2 ^ 31 ≤ c
    · rw [if_pos (decide_eq_true hs)]
      omega
    · rw [if_neg (by simpa using hs)]
      omega
  have hd := decodes hc h
  generalize decIeee 23 c = d at hd
  cases hd with
  | inf hinf =>
    rw [hinf] at hsign
    exact hsign
  | fin n e hfin he hval hlow hhigh =>
    generalize decide (2 ^ 31 ≤ c) = neg at *
    have hcode : encIeee 23 neg n e = c := by
      rw [encIeee]
      split_ifs at * <;> omega
    cases n with
    | zero =>
      obtain ⟨rfl, hzero⟩ := hlow (by decide)
      rw [← hzero] at hsign
      exact hsign
    | succ n =>
      obtain ⟨tiny, hround⟩ := roundMag_exact (n := n + 1) (e := e) (by omega) he (by omega) (fun h => (hlow h).1) (by omega) neg
      unfold encIeeeR
      simp only [Nat.reduceEqDiff, if_false]
      rw [hround]
      exact hcode

/-! The order of codes -/

/-- The place of an FP32 code among the codes, -0 below +0 (R68). -/
def fpPlace (c : Nat) : Int := if c < 2 ^ 31 then (c : Int) else 2 ^ 31 - 1 - (c : Int)

/-- The value of an FP32 code, in units of 2^-149. -/
def fpKey (c : Nat) : Int := if 2 ^ 31 ≤ c then -(fpVal (c % 2 ^ 31) : Int) else fpVal (c % 2 ^ 31)

theorem at_fpKey {e0 : Int} (hval : n * 2 ^ (e + 149).toNat = fpVal (c % 2 ^ 31)) (h0 : -149 ≤ e0) (he : e0 ≤ e) :
    (Num.fin (decide (2 ^ 31 ≤ c)) n e).at e0 * 2 ^ (e0 + 149).toNat = fpKey c := by
  have hmag : ((shiftUp n (e - e0) : Nat) : Int) * 2 ^ (e0 + 149).toNat = fpVal (c % 2 ^ 31) := by
    rw [← hval, shiftUp, show (e + 149).toNat = (e - e0).toNat + (e0 + 149).toNat by omega, pow_add]
    push_cast
    ring
  rw [Num.at, fpKey]
  simp only [decide_eq_true_eq]
  split_ifs
  · rw [Int.neg_mul, hmag]
  · exact hmag

/-- Finite codes are in the order of their values. -/
theorem fpKey_bounds (hfin : c % 2 ^ 31 < 255 * 2 ^ 23) : -(fpVal (255 * 2 ^ 23) : Int) < fpKey c ∧ fpKey c < fpVal (255 * 2 ^ 23) := by
  have := fpVal_strictMono hfin
  rw [fpKey]
  generalize fpVal (255 * 2 ^ 23) = w at *
  split_ifs <;> omega

theorem fpKey_inf (h : c % 2 ^ 31 = 255 * 2 ^ 23) : fpKey c = if 2 ^ 31 ≤ c then -(fpVal (255 * 2 ^ 23) : Int) else fpVal (255 * 2 ^ 23) := by
  rw [fpKey, h]

theorem fpVal_inf_pos : 0 < fpVal (255 * 2 ^ 23) := by
  rw [← fpVal_zero]
  exact fpVal_strictMono (by decide)

theorem lt?_decodes {x y : Num} (hx : Decodes a x) (hy : Decodes b y) : x.lt? y = some (decide (fpKey a < fpKey b)) := by
  have hpos := fpVal_inf_pos
  cases hx with
  | inf ha =>
    cases hy with
    | inf hb =>
      change some (decide (2 ^ 31 ≤ a) && !decide (2 ^ 31 ≤ b)) = _
      rw [fpKey_inf ha, fpKey_inf hb, Option.some_inj, Bool.eq_iff_iff]
      simp only [Bool.and_eq_true, Bool.not_eq_true', decide_eq_true_eq, decide_eq_false_iff_not]
      generalize fpVal (255 * 2 ^ 23) = w at *
      split_ifs <;> omega
    | fin n e hb =>
      have := fpKey_bounds hb
      change some (decide (2 ^ 31 ≤ a)) = _
      rw [fpKey_inf ha, Option.some_inj, Bool.eq_iff_iff, decide_eq_true_eq, decide_eq_true_eq]
      generalize fpVal (255 * 2 ^ 23) = w at *
      split_ifs <;> omega
  | fin n e ha he hval =>
    have hka := fpKey_bounds ha
    cases hy with
    | inf hb =>
      change some (!decide (2 ^ 31 ≤ b)) = _
      rw [fpKey_inf hb, Option.some_inj, Bool.eq_iff_iff, Bool.not_eq_true', decide_eq_true_eq, decide_eq_false_iff_not]
      generalize fpVal (255 * 2 ^ 23) = w at *
      split_ifs <;> omega
    | fin m f hb hf hval' =>
      change some (decide ((Num.fin _ n e).at (min f (min e 0)) < (Num.fin _ m f).at (min f (min e 0)))) = _
      rw [Option.some_inj, decide_eq_decide, ← at_fpKey hval (e0 := min f (min e 0)) (by omega) (by omega),
        ← at_fpKey hval' (e0 := min f (min e 0)) (by omega) (by omega), mul_lt_mul_iff_of_pos_right (by positivity)]

/-- A zero's code has no magnitude. -/
theorem mantissa_zero (hval : n * 2 ^ (e + 149).toNat = fpVal (c % 2 ^ 31)) : n = 0 ↔ c % 2 ^ 31 = 0 := by
  rw [← fpVal_eq_zero_iff (c % 2 ^ 31), ← hval, Nat.mul_eq_zero, or_iff_left (Nat.two_pow_pos _).ne']

/-- A negative zero and a positive one. -/
def zeroBelow (x y : Num) : Bool :=
  match x, y with
  | .fin s 0 _, .fin t 0 _ => s && !t
  | _, _ => false

theorem below_eq {x y : Num} {p q : Bool} (h : x.lt? y = some p) (h' : y.lt? x = some q) : x.below y = (p || !q && zeroBelow x y) := by
  unfold Num.below
  rw [h, h']
  cases p with
  | true => rfl
  | false => cases q <;> rfl

theorem zeroBelow_decodes {x y : Num} (hx : Decodes a x) (hy : Decodes b y) :
    zeroBelow x y = true ↔ a % 2 ^ 31 = 0 ∧ b % 2 ^ 31 = 0 ∧ 2 ^ 31 ≤ a ∧ b < 2 ^ 31 := by
  cases hx with
  | inf ha => exact iff_of_false Bool.false_ne_true (by omega)
  | fin n e ha he hval =>
    rw [← mantissa_zero hval]
    cases n with
    | succ n => exact iff_of_false Bool.false_ne_true (by omega)
    | zero =>
      cases hy with
      | inf hb => exact iff_of_false Bool.false_ne_true (by omega)
      | fin m f hb hf hval' =>
        rw [← mantissa_zero hval']
        cases m with
        | succ m => exact iff_of_false Bool.false_ne_true (by omega)
        | zero =>
          change (decide (2 ^ 31 ≤ a) && !decide (2 ^ 31 ≤ b)) = true ↔ _
          rw [Bool.and_eq_true, Bool.not_eq_true', decide_eq_true_eq, decide_eq_false_iff_not]
          omega

/-- One code lies below another where its place does. -/
theorem below_decodes {x y : Num} (ha : a < 2 ^ 32) (hb : b < 2 ^ 32) (hx : Decodes a x) (hy : Decodes b y) : x.below y = true ↔ fpPlace a < fpPlace b := by
  have hab := fpVal_strictMono.lt_iff_lt (a := a % 2 ^ 31) (b := b % 2 ^ 31)
  have hba := fpVal_strictMono.lt_iff_lt (a := b % 2 ^ 31) (b := a % 2 ^ 31)
  have ha0 := fpVal_eq_zero_iff (a % 2 ^ 31)
  have hb0 := fpVal_eq_zero_iff (b % 2 ^ 31)
  have hplace : fpPlace a < fpPlace b ↔ fpKey a < fpKey b ∨ fpKey a = fpKey b ∧ a % 2 ^ 31 = 0 ∧ b % 2 ^ 31 = 0 ∧ 2 ^ 31 ≤ a ∧ b < 2 ^ 31 := by
    rw [fpPlace, fpPlace, fpKey, fpKey]
    generalize fpVal (a % 2 ^ 31) = va at *
    generalize fpVal (b % 2 ^ 31) = vb at *
    split_ifs <;> omega
  rw [hplace, below_eq (lt?_decodes hx hy) (lt?_decodes hy hx), Bool.or_eq_true, Bool.and_eq_true, Bool.not_eq_true', zeroBelow_decodes hx hy, decide_eq_true_eq,
    decide_eq_false_iff_not]
  omega

/-! One combination -/

/-- Two codes combined as R68 says. -/
theorem redOne_combines {dt op : Nat} (hd : dt ≤ 1) (ha : a < 2 ^ 32) (hb : b < 2 ^ 32) : FloatCombines op a b (redOne op dt a b) := by
  have hnan_iff : ((decIeee 23 a).isNan || (decIeee 23 b).isNan) = true ↔ decFmt 1 a = .nan ∨ decFmt 1 b = .nan := by
    rw [Bool.or_eq_true, Num.isNan_iff, Num.isNan_iff]
    rfl
  rw [FloatCombines, redOne, if_pos hd]
  dsimp only
  by_cases h0 : op = 0
  · rw [if_pos h0, if_pos h0]
    exact ⟨_, _, sumNum_isSum false _, rfl⟩
  rw [if_neg h0, if_neg h0]
  by_cases hnan : decFmt 1 a = .nan ∨ decFmt 1 b = .nan
  · rw [if_pos hnan, if_pos (hnan_iff.mpr hnan)]
    rfl
  rw [if_neg hnan, if_neg (mt hnan_iff.mp hnan)]
  obtain ⟨hna, hnb⟩ := not_or.mp hnan
  have hda := decodes ha hna
  have hdb := decodes hb hnb
  have hab := below_decodes ha hb hda hdb
  have hba := below_decodes hb ha hdb hda
  have hca := encIeeeR_decIeee ha hna
  have hcb := encIeeeR_decIeee hb hnb
  rw [fpPlace, fpPlace] at hab hba
  by_cases h1 : op = 1
  · rw [if_pos h1, if_pos h1]
    by_cases hq : (decIeee 23 b).below (decIeee 23 a) = true
    · rw [if_pos hq, hcb]
      exact ⟨.inr rfl, (hba.mp hq).le, le_rfl⟩
    · rw [if_neg hq, hca]
      exact ⟨.inl rfl, le_rfl, not_lt.mp (mt hba.mpr hq)⟩
  · rw [if_neg h1, if_neg h1]
    by_cases hq : (decIeee 23 a).below (decIeee 23 b) = true
    · rw [if_pos hq, hcb]
      exact ⟨.inr rfl, (hab.mp hq).le, le_rfl⟩
    · rw [if_neg hq, hca]
      exact ⟨.inl rfl, le_rfl, not_lt.mp (mt hab.mpr hq)⟩

theorem redOne_lt {dt op : Nat} (hd : dt ≤ 1) (a b : Nat) : redOne op dt a b < 2 ^ 32 := by
  rw [redOne, if_pos hd]
  exact encIeeeR_fp32_lt ..

/-! The result as it is stored -/

/-- The bits of a finite BF16 value. -/
theorem encIeee_bf16_lt {q : Nat} {t : Int} (hq : q < 2 ^ 8) (ht : t ≤ 120) : encIeee 7 neg q t < 2 ^ 16 := by
  have hs : (if neg then 2 ^ (7 + 8) else 0) ≤ 2 ^ 15 := by split <;> omega
  unfold encIeee
  simp only
  split <;> omega

/-- A value rounded to BF16 to the nearest has 16 bits. -/
theorem encIeeeR_bf16_lt (v : Num) : (encIeeeR 0 false .rne 0 v).1 < 2 ^ 16 := by
  have hinf (neg : Bool) : (if neg then 2 ^ (7 + 8) else 0) + 255 * 2 ^ 7 < 2 ^ 16 := by cases neg <;> decide
  match v with
  | .nan => exact (by decide : 255 * 2 ^ 7 + 2 ^ 6 < 2 ^ 16)
  | .inf neg => exact hinf neg
  | .fin neg 0 _ => exact encIeee_bf16_lt (neg := neg) (q := 0) (t := 0) (by decide) (by decide)
  | .fin neg (n + 1) e =>
    have hq := roundMag_lt formBf16 .rne 0 neg (n + 1) e
    have ht := roundMag_place (f := formBf16) (rm := .rne) (rand := 0) (neg := neg) (n := n + 1) (e := e)
    unfold encIeeeR
    simp only [if_true]
    generalize roundMag formBf16 .rne 0 neg (n + 1) e = y at hq ht
    obtain ⟨q, t, ix, tiny, ovf⟩ := y
    cases ovf with
    | true => exact hinf neg
    | false => exact encIeee_bf16_lt hq (ht rfl)

theorem redStore_eq {dt : Nat} (hd : dt ≤ 1) (v : Nat) : redStore dt v = (encFmt dt .rne 0 (decFmt 1 v)).1 := by
  interval_cases dt <;> rfl

theorem redStore_lt {dt : Nat} (hd : dt ≤ 1) (v : Nat) : redStore dt v < 256 ^ (fmtWidth dt / 8) := by
  interval_cases dt
  · exact encIeeeR_bf16_lt _
  · exact encIeeeR_fp32_lt ..

/-! The orders -/

section
variable {P : Nat → List Nat} {j : Nat} (hd : o.dtype ≤ 1) (hP : ∀ r < o.n, ∀ z ∈ P r, z < 256) (hn : 0 < o.n)
include hd hP

theorem float_partElem_lt {r : Nat} (hr : r < o.n) (j : Nat) : partElem o P j r < 2 ^ 32 := by
  have hlt := elem_lt (k := fmtWidth o.dtype / 8) (hP r hr) (fmtWidth o.dtype / 8 * j)
  rw [partElem, redLoad]
  generalize o.dtype = dt at *
  interval_cases dt
  · rw [if_pos rfl]
    have : (256 : Nat) ^ (fmtWidth 0 / 8) = 2 ^ 16 := rfl
    omega
  · exact hlt

include hn

theorem float_ring (halg : o.alg = 1) (j : Nat) : RingReduces o.redop o.n (partElem o P j) (o.chunk j) (o.n - 1) (inOrder o P j) := by
  rw [inOrder, if_pos halg]
  exact (ringRed_reaches (S := fun k v => RingReduces o.redop o.n (partElem o P j) (o.chunk j) k v ∧ v < 2 ^ 32) hn
    ⟨rfl, float_partElem_lt hd hP (Nat.mod_lt _ hn) j⟩ fun k u _ hu =>
      ⟨⟨u, hu.1, redOne_combines hd hu.2 (float_partElem_lt hd hP (Nat.mod_lt _ hn) j)⟩, redOne_lt hd ..⟩).1

theorem float_tree (halg : o.alg ≠ 1) (hdepth : o.n ≤ 4096) (j : Nat) : TreeReduces o.redop o.n (partElem o P j) 12 0 (inOrder o P j) := by
  rw [inOrder, if_neg halg]
  refine (treeRed_reaches (S := fun k r v => TreeReduces o.redop o.n (partElem o P j) k r v ∧ v < 2 ^ 32) (fun k r p q hlt hp hq => ⟨?_, redOne_lt hd ..⟩)
    (fun k r p hle hp => ⟨?_, hp.2⟩) (fun r hr => ⟨rfl, float_partElem_lt hd hP hr j⟩) hn hdepth).1
  · rw [TreeReduces, if_pos hlt]
    exact ⟨p, q, hp.1, hq.1, redOne_combines hd hp.2 hq.2⟩
  · rw [TreeReduces, if_neg (not_lt.mpr hle)]
    exact hp.1

end

theorem chunk_lt (hrank : o.rank < o.n) (j : Nat) : o.chunk j < o.n ∧ (blockOp o = 4 → o.chunk j = o.rank) := by
  rw [COp.chunk, op_eq]
  split_ifs with h4
  · exact ⟨hrank, fun _ => rfl⟩
  · exact ⟨Nat.mod_lt _ (by omega), fun h => absurd h h4⟩

end Sys2Proof.Machine
end

section
/-! Rings polled and blocks expanded, sent and run (R59 to R69, R72). -/

namespace Sys2Proof.Machine

variable {s v w : State} {die ring raw : Nat} {l : Live} {b ms own : List Nat} {o : COp}

/-! A poll as R59 and R60 tell it -/

theorem polled_of (h4 : l.st ≠ 4) (hf : l.first = false) (hbad : l.rtbBad = false) (hh : homeOf s l = die) (h0 : l.rtb ≠ 0) : polled s die l = true := by
  rw [polled, hf, hbad, hh, rtbOf]
  simp [h4, h0]

theorem disableRing_record (hen : descDw b 1 / 2 ^ 16 % 2 = 1) (why dw2 prod : Nat) :
    disableRing v die l ring (descDw b 1) (descVa l ring) why dw2 prod =
      ringRecord (vaWrite8 v l.part (descVa l ring + 8) (descDw b 1 - 2 ^ 16) false (srcSeq die)).1 die l ring why dw2 prod := by
  rw [disableRing, setBits_enable hen]

/-- A block without STATUS and FLAG is completed without a trace. -/
theorem collDone_silent (h5 : o.dw 5 = 0) (h7 : o.dw 7 = 0) (code comb : Nat) (miss : List Nat) : collDone s die o code comb miss = s := by
  rw [collDone_eq, if_pos h5, statusWritten, if_pos h7]

/-! The fields of a block that is not ill-formed -/

theorem IllFormed.root (h : ¬ IllFormed w l raw ms) : (armedBlock w die l raw ms).root = raw / 2 ^ (64 * 8) % 2 ^ 64 := by
  rw [IllFormed] at h
  have h8 : ¬ raw / 2 ^ (64 * 8) % 2 ^ 64 / 2 ^ 16 ≠ 0 := fun h8 => h (.inr (.inr (.inr (.inl h8))))
  have hroot : (armedBlock w die l raw ms).root = raw / 2 ^ (64 * 8) % 2 ^ 64 % 2 ^ 16 := rfl
  omega

theorem IllFormed.rank (h : ¬ IllFormed w l raw ms) : ∃ m, ms[rankOf w l ms]? = some m ∧ IsOwnEntry w l m := by
  refine rankOf_own (not_le.mp fun hle => h ?_)
  rw [IllFormed]
  iterate 18 right
  exact .inl (rankOf_none.mp hle)

theorem IllFormed.alg (h : ¬ IllFormed w l raw ms) : (armedBlock w die l raw ms).alg =
    (let onCore := raw / 2 ^ (64 * 4) % 2 ^ 64 / 2 ^ 31 % 2 = 1
     let pick := if raw / 2 ^ 24 % 2 ^ 8 ∈ [1, 2] then raw / 2 ^ 24 % 2 ^ 8 else if raw / 2 ^ 24 % 2 ^ 8 = 3 ∧ onCore ∨ onCore ∧ raw % 2 ^ 8 ≤ 1 then 3
       else if partBytes (readBlock w die l raw ms) ≤ 2 ^ 16 then 2 else 1
     if pick = 3 ∧ 15 < ms.length then 2 else pick) := by
  have hdw0 : (readBlock w die l raw ms).dw 0 = raw % 2 ^ 64 := by rw [COp.dw, Nat.mul_zero, Nat.pow_zero, Nat.div_one]; rfl
  have halgo : (readBlock w die l raw ms).algo = raw / 2 ^ 24 % 2 ^ 8 := by rw [COp.algo, hdw0, bits]; omega
  have hop : (readBlock w die l raw ms).op = raw % 2 ^ 8 := op_eq _
  have hcore : (readBlock w die l raw ms).eftV = true ↔ raw / 2 ^ (64 * 4) % 2 ^ 64 / 2 ^ 31 % 2 = 1 := testBit_iff ..
  have h3 : (readBlock w die l raw ms).algo ≤ 3 := by
    rw [halgo]
    refine not_lt.mp fun h3 => h ?_
    rw [IllFormed]
    simp only [h3, true_or, or_true]
  have hpick := pickAlg_eq _ h3
  simp only [halgo, hop, hcore] at hpick
  exact hpick

/-! Results -/

/-- The tag of a whole line of a part is that of its source line (R69). -/
theorem ownTag_says (hown : own.length = o.sendLen) (z : Nat) :
    cTag (o.sendVa % 256 :: own ++ lineTags v o) o.sendLen (o.partFor o.rank + z) =
      if (o.sendVa + o.partFor o.rank + z) % 256 = 0 ∧ o.partFor o.rank + z + 256 ≤ o.sendLen
        then srcTag v o.part ((o.sendVa + o.partFor o.rank + z) % 2 ^ 64) else 0 := by
  rw [cTag_contribution v o hown, ← Nat.add_assoc]

theorem partElem_eq (o : COp) (P : Nat → List Nat) (j : Nat) : partElem o P j = fun r =>
    leNat (((P r).drop (fmtWidth o.dtype / 8 * j)).take (fmtWidth o.dtype / 8)) * (if o.dtype = 0 then 2 ^ 16 else 1) := by
  funext r
  rw [partElem, redLoad]
  split_ifs
  · rfl
  · rw [Nat.mul_one]

/-- A member that takes nothing of its own at the end. -/
theorem runOp_leaves (h : vaRead s o.part o.sendVa o.sendLen die = (v, .ok own))
    (hno : blockOp o = 1 ∧ o.rank ≠ blockRoot o ∨ blockOp o ∈ [6, 7, 8] ∨ blockOp o = 2 ∧ o.rank ≠ blockRoot o) :
    runOp s die o = finishOp v die o 1 (combined o) [] := by
  simp only [List.mem_cons, List.not_mem_nil, or_false] at hno
  by_cases h1 : blockOp o = 1
  · refine (runOp_writes (p := 0) (b := []) (tag := fun _ => o.redTag) h ?_ v).1 (seqWrite_nil ..)
    rw [resultOf_reduced (by simp [h1]), if_pos (by omega)]
  · refine runOp_nothing h ?_
    rw [resultOf_own (by simp only [List.mem_cons, List.not_mem_nil, or_false]; omega), if_neg (by omega)]

/-- A member that takes its own part. -/
theorem runOp_takes (h : vaRead s o.part o.sendVa o.sendLen die = (v, .ok own)) (hyes : blockOp o = 2 ∧ o.rank = blockRoot o ∨ blockOp o ∈ [3, 5]) :
    WritesThenEnds v die o (offsetOf o o.rank) ((own.drop (o.partFor o.rank)).take (partBytes o))
      (fun z => cTag (o.sendVa % 256 :: own ++ lineTags v o) o.sendLen (o.partFor o.rank + z)) (runOp s die o) := by
  simp only [List.mem_cons, List.not_mem_nil, or_false] at hyes
  refine runOp_writes h ?_
  rw [resultOf_own (by simp only [List.mem_cons, List.not_mem_nil, or_false]; omega), if_pos (by omega), cBytes_contribution (vaRead_length h)]

/-- A reduction writes the bytes of its result, where the member takes it. -/
theorem runOp_reduces (h : vaRead s o.part o.sendVa o.sendLen die = (v, .ok own)) (hr : blockOp o ∈ [0, 4] ∨ blockOp o = 1 ∧ o.rank = blockRoot o)
    {P : Nat → List Nat} (hP : ∀ r < o.n, Staged o r (P r)) :
    WritesThenEnds v die o 0 (redBytes o ((List.range o.n).map P)) (fun _ => o.redTag) (runOp s die o) := by
  simp only [List.mem_cons, List.not_mem_nil, or_false] at hr
  have hmem : blockOp o ∈ [0, 1, 4] := by
    simp only [List.mem_cons, List.not_mem_nil, or_false]
    omega
  refine runOp_writes h ?_
  rw [resultOf_reduced hmem, partsOf_staged hmem hP, if_neg (by omega)]

/-- The result of an integer reduction is the list of bytes that its elements make. -/
theorem int_redBytes {P : Nat → List Nat} (hd : o.dtype ∈ [4, 5, 6]) (hlen : b.length = o.count * (fmtWidth o.dtype / 8)) (hb : ∀ z ∈ b, z < 256)
    (h : ∀ j < o.count, inOrder o P j = leNat ((b.drop (fmtWidth o.dtype / 8 * j)).take (fmtWidth o.dtype / 8))) :
    redBytes o ((List.range o.n).map P) = b := by
  refine eq_redBytes hlen hb fun j hj => ?_
  rw [redElem_parts, int_redStore hd, h j hj, Nat.mod_eq_of_lt (elem_lt hb _)]

/-- The elements of the result of a floating-point reduction. -/
theorem float_redBytes {P : Nat → List Nat} (hd : o.dtype ≤ 1) {j : Nat} (hj : j < o.count) :
    leNat (((redBytes o ((List.range o.n).map P)).drop (fmtWidth o.dtype / 8 * j)).take (fmtWidth o.dtype / 8)) =
      (encFmt o.dtype .rne 0 (decFmt 1 (inOrder o P j))).1 := by
  rw [(redBytes_says _).2.2 j hj, redElem_parts, Nat.mod_eq_of_lt (redStore_lt hd _), redStore_eq hd]

end Sys2Proof.Machine

namespace Sys2Proof
open Machine

/-- Settles O53: a poll, an expansion, a part's packets and a result each by its own equation; the reductions by the fold of their order. -/
theorem collectivesArePolledExpandedAndRun : Obligations.CollectivesArePolledExpandedAndRun := by
  unfold Obligations.CollectivesArePolledExpandedAndRun
  refine ⟨fun s u die i ring l b hl hd hring hst hfirst hbad hhome hrtb => ?_, fun s die o hs hd => ?_, fun s die part va b tag x hlim => ?_,
    fun s die id op i o hs hfind halg hop hi => ?_⟩
  -- a poll
  · have hpoll := polled_of hst hfirst hbad hhome hrtb
    refine ⟨fun bad hread => exec_ringPoll_unmapped hl hd hring hpoll hread, fun hread hlt => ⟨fun hoff => exec_ringPoll_off hl hd hring hpoll hread hoff,
      fun v bad hen hacq => exec_ringPoll_unread hl hd hring hpoll hread hen hacq, fun v prod hen hacq => ?_⟩⟩
    have hwhy := descBad_eq (ctl := descDw b 1) (descDw b 0) prod (descDw b 3) hlt
    obtain ⟨hdis, hempty, hblock⟩ := exec_ringPoll_prod hl hd hring hpoll hread hen hacq
    rw [hwhy] at hdis hempty hblock
    refine ⟨fun hne => (hdis hne).trans (congrArg _ (disableRing_record hen ..)), hempty, fun x h0 hne => ⟨fun bad hblk => ?_, fun blk raw y w ms hblk hraw hy hg hseqrs _ => ?_⟩⟩
    · rw [hblock h0 hne, pollBlock_unread hblk]
      exact congrArg _ (disableRing_record hen ..)
    · have hexec : exec (.ringPoll die i ring) s = .next (expand y die l raw) := by rw [hblock h0 hne, pollBlock_expands hblk, hraw, hy]; rfl
      obtain ⟨hle, heq⟩ := nextNum_greatest w (numKey l raw)
      refine ⟨nextNum w (numKey l raw), hle, heq, fun hill h5 h7 => ?_, fun hill h3 h5 h7 => ?_, fun hill h3 hrises => ?_⟩
      · rw [hexec, expand_bad hg hseqrs hill, collDone_silent (o := readBlock w die l raw ms) h5 h7]
      · rw [hexec, expand_empty hg hseqrs hill h3, collDone_silent (o := armedBlock w die l raw ms) h5 h7]
        rfl
      · refine ⟨armedBlock w die l raw ms, rfl, rfl, rfl, rfl, rfl, rfl, rfl, IllFormed.rank hill, rfl, rfl, rfl, rfl, rfl, IllFormed.alg hill, ?_⟩
        rw [hexec, expand_armed hg hseqrs hill h3 hrises, startBlock, IllFormed.root hill]
        rfl
  -- what a block sends, and what was parked
  · refine ⟨unpark_none, fun a y b hq hy hno h6 => ?_, fun v bad hread => sendRing_fault hread, fun v own hread hlim h8 hrank hroot h4 => ?_⟩
    · rw [exec_collectiveData_takes hd h6, unpark_one hq hy hno]
    · obtain ⟨l, hsends, hcover, hsays⟩ := sendRing_sends hs hread
      have hown := vaRead_length hread
      have hfits {r : Nat} (hr : SendsRank o r) := part_fits h4 hr
      have hcuts {r : Nat} (hr : SendsRank o r) := partCuts_cover (o := o) (r := r) (by have := hfits hr; omega)
      refine ⟨l, hsends.mem, hsends.events, hsends.sent, fun hred => ?_, fun r hr => ⟨fun hpos => ?_, fun b hb => ?_⟩, fun r j p hin => ?_⟩
      · rw [hsends.ops hred, partFor_eq]
      · obtain ⟨x, hx⟩ := (hcuts hr).2.1 hpos
        obtain ⟨p, hp, -⟩ := hcover r ((mem_sendsTo h8 r).mpr hr) x hx
        exact ⟨_, hp, rfl⟩
      · obtain ⟨x, hx, hle, hlt⟩ := (hcuts hr).2.2 b hb
        obtain ⟨p, hp, hsend⟩ := hcover r ((mem_sendsTo h8 r).mpr hr) x hx
        have hin := (hcuts hr).1 x hx
        have hlen := (partPkt_says hsend hown (by have := hfits hr; omega)).1
        exact ⟨_, hp, rfl, hle, by rw [hlen]; exact hlt⟩
      · obtain ⟨hr, x, hx, hj, hsend⟩ := hsays _ hin
        dsimp only at hr hx hj hsend
        subst hj
        have hr := (mem_sendsTo h8 r).mp hr
        have hcut := (hcuts hr).1 x hx
        obtain ⟨hlen, hcls, hdep, hopc, hpart, hflow, htag, hwho, hsrc, hchip, hva, hload, hline⟩ := partPkt_says hsend hown (by have := hfits hr; omega)
        rw [partFor_eq] at hload hline hcut
        exact ⟨hr, by omega, by rw [hlen]; exact hcut.1, hcls, hdep, hopc, hpart, hflow, htag, hwho, hsrc, hchip, hva, hload, hline hcut.2.2 hlim⟩
  -- a write cut at lines
  · refine ⟨fun hb hline hex => ?_, fun a c hab hend => ?_⟩
    · rw [seqWrite_within hb hline]
      exact seqPut_inside hex
    · rw [hab] at hlim ⊢
      exact seqWrite_append hend hlim
  -- a block brought to its end
  · obtain rfl : o.id = id := by simpa using List.find?_some hfind
    subst hop
    have hexec := exec_runsOp hfind halg rfl hi
    refine ⟨⟨_, hexec⟩, fun hno => by rw [hexec, if_neg (mt (ringReady_iff ..).mp hno)], fun hready => ?_⟩
    rw [if_pos ((ringReady_iff ..).mpr hready)] at hexec
    refine ⟨fun v bad hread => hexec.trans (congrArg _ (runOp_fault hread)), fun v own hread => ⟨combined o, combined_counts o, ?_⟩⟩
    have hown := vaRead_length hread
    have hwrites {p : Nat} {b : List Nat} {tag : Nat → W32} (h : WritesThenEnds v die o p b tag (runOp s die o)) (x : State) :
        (seqWrite v die o.part ((o.recvVa + p) % 2 ^ 64) b tag = (x, none) → exec i s = .next (finishOp x die o 1 (combined o) [])) ∧
          ∀ bad, seqWrite v die o.part ((o.recvVa + p) % 2 ^ 64) b tag = (x, some bad) → exec i s = .next (faultOp x die o bad) :=
      ⟨fun hw => hexec.trans (congrArg _ ((h x).1 hw)), fun bad hw => hexec.trans (congrArg _ ((h x).2 bad hw))⟩
    refine ⟨fun hnone => hexec.trans (congrArg _ ?_), fun hsome => ?_, fun hred hd hredop hdepth hrank P hP => ?_, fun hred hd hdepth hrank P b hP hlen hb => ?_⟩
    · exact runOp_leaves hread hnone
    · have hat : o.partFor o.rank = if blockOp o = 5 then o.rank * partBytes o else 0 := by
        simp only [List.mem_cons, List.not_mem_nil, or_false] at hsome
        rw [partFor_eq]
        exact if_congr (by omega) rfl rfl
      rw [← hat]
      exact ⟨_, hwrites (runOp_takes hread hsome), ownTag_says hown⟩
    · have hn : 0 < o.n := by omega
      obtain ⟨hlen, hbyte, -⟩ := redBytes_says (o := o) ((List.range o.n).map P)
      refine ⟨_, hlen, hbyte, hwrites (runOp_reduces hread hred fun r hr => (hP r hr).1), fun j hj => ⟨inOrder o P j, fun h1 => ?_, fun h1 => ?_, float_redBytes hd hj⟩⟩
      · obtain ⟨hc, hc'⟩ := chunk_lt hrank j
        have hring := float_ring hd (fun r hr => (hP r hr).2) hn h1 j
        rw [partElem_eq] at hring
        exact ⟨_, hc, hc', hring⟩
      · have htree := float_tree hd (fun r hr => (hP r hr).2) hn h1 hdepth j
        rw [partElem_eq] at htree
        exact htree
    · have hn : 0 < o.n := by omega
      have hbyte (r : Nat) (hr : r < o.n) := (hP r hr).2
      have hres (j : Nat) : leNat ((b.drop (Machine.fmtWidth o.dtype / 8 * j)).take (Machine.fmtWidth o.dtype / 8)) < 2 ^ Machine.fmtWidth o.dtype := int_pow hd ▸ elem_lt hb _
      have hpart (j : Nat) : partElem o P j = fun r => leNat (((P r).drop (Machine.fmtWidth o.dtype / 8 * j)).take (Machine.fmtWidth o.dtype / 8)) :=
        funext (int_partElem hd P j)
      have hdone (h : ∀ j < o.count, inOrder o P j = leNat ((b.drop (Machine.fmtWidth o.dtype / 8 * j)).take (Machine.fmtWidth o.dtype / 8))) :=
        hwrites (int_redBytes hd hlen hb h ▸ runOp_reduces hread hred fun r hr => (hP r hr).1)
      refine ⟨fun h0 h => hdone fun j hj => ?_, fun h12 h => hdone fun j hj => ?_, fun h3 h => hdone fun j hj => ?_, fun h4 h => hdone fun j hj => ?_⟩
      · rw [int_sum hd hn hdepth hbyte h0, hpart]
        exact (h j hj).symm
      · obtain ⟨r, hr, hin, hall⟩ := h j hj
        have hin : ∃ r < o.n, leNat ((b.drop (Machine.fmtWidth o.dtype / 8 * j)).take (Machine.fmtWidth o.dtype / 8)) = partElem o P j r := ⟨r, hr, by rw [hpart]; exact hin⟩
        simp only [List.mem_cons, List.not_mem_nil, or_false] at h12
        rcases h12 with h1 | h2
        · refine int_least_eq hd hn hdepth hbyte (hres j) h1 hin fun z hz => ?_
          have := hall z hz
          rw [if_pos h1] at this
          rw [hpart]
          exact this
        · refine int_greatest_eq hd hn hdepth hbyte (hres j) h2 hin fun z hz => ?_
          have := hall z hz
          rw [if_neg (by omega)] at this
          rw [hpart]
          exact this
      · exact int_or_eq hd hn hdepth hbyte (hres j) h3 fun k hk => by rw [hpart]; exact h j hj k hk
      · exact int_and_eq hd hn hdepth hbyte (hres j) h4 fun k hk => by rw [hpart]; exact h j hj k hk

end Sys2Proof
end
